-- ==== Sys2Proof/Word.lean ====
section
/-!
DEFINITION. The word types: a byte, and the 64-bit word of the management window (R3, R489).
-/

namespace Sys2Proof

/-- One byte of a message, an image or the store. -/
abbrev Byte := BitVec 8

/-- One 64-bit word: a management register, a descriptor word, a header word (R3). -/
abbrev Word := BitVec 64

end Sys2Proof
end

