-- ==== Sys2Proof/Syntax.lean ====
section
/-!
DEFINITION. The commands of the block: one constructor of `Instr` per row of spec/opcode_table.json, with the operands
that the row's rule gives the command.
-/

namespace Sys2Proof

/-- What the package measures for one boundary: the contexts whose step of the knot before did not finish before the
whipping (R24), the lines whose read in the knot before corrected bytes (R352), the knot's mean input voltage in mV, input
current in 10 mA and package power in W (R429), power-good as sampled (R434), and whether the backup cell is below 2.7 V
(CAL_STATUS.CELL_LOW). -/
structure BoundaryIn where
  overrun : List (Nat × Nat) := []
  nearBad : List Nat := []
  vinMv : Nat := 24000
  iin : Nat := 0
  pkgW : Nat := 0
  pgood : Bool := true
  cellLow : Bool := false
  deriving DecidableEq, Repr

/-- A codeword as the receiver finds it (R50 to R52): its link control field, and which of its 544 symbols are wrong. -/
structure Codeword where
  seq : Nat
  ack : Nat
  nak : Bool
  errs : List Nat := []
  deriving DecidableEq, Repr

/-- An OLP request as received (R67 to R73): the port, the header fields, CHECK and the payload bytes as they travelled.
The OPCODE is the command's own. `rsvd` is word 1 [63:61]. A KNOT_SYNC and a HEARTBEAT are such requests (R79), and so is
what the controller sends itself. -/
structure ReqMsg where
  link : Nat
  enc : Bool
  tag : Nat
  pid : Nat
  hid : Nat
  cid : Nat
  len : Nat
  cls : Bool
  rsvd : Nat
  space : Bool
  addr : Nat
  mapgen : Nat
  issue : Nat
  arg : Nat
  check : BitVec 64
  payload : List Byte
  deriving DecidableEq, Repr

/-- A response as received (R68, R70, R74): SNOOP_RESP of a client, or the answer to a peer request. `rsvd` is word 1
[23:16]. -/
structure RespMsg where
  link : Nat
  op : Nat
  enc : Bool
  tag : Nat
  pid : Nat
  hid : Nat
  cid : Nat
  len : Nat
  cls : Bool
  mapgen : Nat
  issue : Nat
  arg : Nat
  serve : Nat
  hint : Nat
  rsvd : Nat
  sub : Nat
  status : Nat
  check : BitVec 64
  payload : List Byte
  deriving DecidableEq, Repr

/-- A message with the time at which it was taken in, in ps after the boundary (R519). -/
structure TimedMsg where
  msg : ReqMsg
  atPs : Nat
  deriving DecidableEq, Repr

/-- A segment message (R89): its port, its header fields and its bytes. `rsvd` collects the reserved bits. -/
structure SegMsg where
  link : Nat
  cid : Nat
  tag : Nat
  issue : Nat
  index : Nat
  last : Bool
  seglen : Nat
  rsvd : Nat
  bytes : List Byte
  deriving DecidableEq, Repr

/-- A member entry of a SPLICED request (R95); `rsvd` holds its reserved bits, [15:13] below [63:56]. -/
structure SpliceMember where
  cid : Nat
  tag : Nat
  issue : Nat
  check : BitVec 64
  rsvd : Nat
  deriving DecidableEq, Repr

/-- A SPLICED request (R95): its header (whose payload is the splice's payload), the splice block and the members.
`rsvdBlk` holds the reserved bits of the block, bytes 5 to 7 below bits [7:1] of byte 1. -/
structure SpliceMsg where
  hdr : ReqMsg
  op : Nat
  combined : Bool
  mlen : Nat
  rsvdBlk : Nat
  members : List SpliceMember
  deriving DecidableEq, Repr

/-- The label of a sled (R355): its version, the HID and position that it serves, whether it is a spare, the sled's serial
number, the knot of its writing and the plan. -/
structure SledLabel where
  ver : Nat
  hid : Nat
  pos : Nat
  spare : Bool
  serial : Nat
  knot : Nat
  plan : Nat
  deriving DecidableEq, Repr

/-- A write of the staged composition (R384): an extent's base, an extent's length, rights and region, or an entry of a
region's home list. Bases and lengths count 64 KiB. -/
inductive StagedWrite where
  | base (pid ext : Nat) (v : Bool) (base : Nat)
  | len (pid ext rights len region : Nat)
  | list (pid region entry hid : Nat)
  deriving DecidableEq, Repr

/-- The commands, one constructor for each row of spec/opcode_table.json in the table's order. The operands by name:
`n` the data port (or the sample program, the profile slot), `lane` and `mask` wavelengths, `d` a photonic die, `k` a knot or a stack, `c` and `x` a step
core and its context, `pid`, `cid` and `hid` the identifiers of R4, `q` a queue or a position of the store, `sem` a
semaphore, `ocid` and `sid` the key of a seizing, `unit` a 64 KiB unit, `page` a page of 64 KiB, `rid` a snoop round,
`eid` and `src` the EID that asks, `b` a request's payload bytes, `m` a message as received and `atPs` the time, in ps after the
boundary, at which it was. -/
inductive Instr where
  /-- KNOT_BOUNDARY (R22). At each knot boundary the controller commits or discards the steps of the previous knot and
  runs every boundary action of the new knot. -/
  | knotBoundary (b : BoundaryIn)
  /-- KNOT_SYNC_SEND (R34). A master or locked Helak sends KNOT_SYNC every SYNC_INTERVAL knots. -/
  | knotSyncSend (sendPs : Nat)
  /-- DELAY_REQUEST_SEND (R35). A follower sends a delay request every SYNC_INTERVAL knots on the port of its last
  accepted sync. -/
  | delayRequestSend (sendPs : Nat)
  /-- SYNC (R35). A KNOT_SYNC of KIND sync arrives and is accepted or discarded, and an accepted one may complete an
  exchange. -/
  | sync (m : TimedMsg)
  /-- DELAY_REQUEST (R519). A delay request arrives and is answered with a delay answer, or discarded. -/
  | delayRequest (m : TimedMsg)
  /-- DELAY_ANSWER (R519). A delay answer arrives and supplies t4 and c3 for the follower's exchange. -/
  | delayAnswer (m : TimedMsg)
  /-- SYNC_LOSS_TIMEOUT (R36). A LOCKED follower with no accepted KNOT_SYNC for 1,024 knots enters HOLDOVER. -/
  | syncLossTimeout
  /-- HOLDOVER_EXHAUSTED (R36). HOLD_KNOTS reaches 2^23 and the discipline enters UNLOCKED. -/
  | holdoverExhausted
  /-- DISCIPLINE_ENABLE (R36). A write of KNT_DISC.ENABLE = 1 starts discipline at the next boundary, as master or in
  ACQUIRE. -/
  | disciplineEnable
  /-- DISCIPLINE_DISABLE (R37). A write of KNT_DISC.ENABLE = 0 stops sending and accepting KNOT_SYNC and moves to
  HOLDOVER or UNLOCKED. -/
  | disciplineDisable
  /-- ROLE_MASTER (R36). A write of ROLE = 1 while enabled makes the controller the domain master at the next
  boundary. -/
  | roleMaster
  /-- ROLE_FOLLOWER (R36). A write of ROLE = 0 moves a master to ACQUIRE. -/
  | roleFollower
  /-- CAL_TIME_WRITE (R47). A write to CAL_TIME sets the calendar and VALID, unless discipline is MASTER or LOCKED. -/
  | calTimeWrite (sec : Nat) (frac : Nat)
  /-- CALENDAR_CELL_LOSS (R467). The backup cell falls below 2.7 V without input power, and the calendar and tamper
  log are lost. -/
  | calendarCellLoss
  /-- CODEWORD_RECEIVE (R52). A codeword is received, FEC-decoded, acknowledged, deduplicated and passed on in
  sequence order. -/
  | codewordReceive (n : Nat) (c : Codeword)
  /-- LASER_SPARE_SWAP (R53). A laser reported out of range is moved to its spare at the next boundary without
  retraining. -/
  | laserSpareSwap (n : Nat) (lane : Nat)
  /-- LANE_SYMBOL_LIMIT (R54). Corrected symbol errors on a wavelength exceed LANE_SYM_LIMIT in one window, and a drop
  starts. -/
  | laneSymbolLimit (n : Nat) (lane : Nat)
  /-- LOSS_OF_LIGHT (R54). A receiver finds no light on a wavelength for a whole knot, and the wavelength is dropped
  or the port retrains. -/
  | lossOfLight (n : Nat) (mask : Nat)
  /-- LANE_CHG_RECEIVED (R54). The partner's LANE_CHG codeword is taken in, and this side answers the proposed drop.
  -/
  | laneChgReceived (n : Nat) (mask : Nat) (atPs : Nat)
  /-- LANE_CHANGE_EFFECT (R54). At boundary K + 4 both sides change their wavelength set, or the port retrains when no
  answer came. -/
  | laneChangeEffect (n : Nat)
  /-- ERROR_WINDOW_END (R54). After 2^20 received codewords the error window ends and every per-window count restarts.
  -/
  | errorWindowEnd (n : Nat)
  /-- UNCORR_LIMIT (R57). Uncorrectable codewords exceed UNCORR_LIMIT in a window, and the port enters RETRAIN. -/
  | uncorrLimit (n : Nat)
  /-- LANE_DISABLE (R54). A write to LNK_CTRL.LANE_DISABLE drops the named wavelengths through the drop exchange. -/
  | laneDisable (n : Nat) (mask : Nat)
  /-- LINK_ENABLE (R57). LNK_CTRL.ENABLE = 1 on a port with a role moves it from OFF to DARK. -/
  | linkEnable (n : Nat)
  /-- LINK_DISABLE (R57). LNK_CTRL.ENABLE = 0 holds the port in OFF and discards its retry buffer. -/
  | linkDisable (n : Nat)
  /-- RETRAIN (R58). A write of LNK_CTRL.RETRAIN starts RETRAIN, or leaves FAULT for DARK where allowed. -/
  | retrain (n : Nat)
  /-- LIGHT_FOUND (R57). A DARK port finds light on at least 4 wavelengths and enters EQUALISE. -/
  | lightFound (n : Nat) (mask : Nat)
  /-- EQUALISE_DONE (R57). Equalisation completes and the port enters ALIGN. -/
  | equaliseDone (n : Nat)
  /-- ALIGN_DONE (R57). Codeword alignment and deskew complete and the port enters MEASURE. -/
  | alignDone (n : Nat)
  /-- MEASURE_DONE (R60). After 256 delay exchanges the port records D and enters IDENTIFY, or FAULT with cause
  TOO_LONG. -/
  | measureDone (n : Nat) (dPs : Nat)
  /-- IDENTIFY_EXCHANGE (R59). The partner's identification block is checked against the role, and the port enters UP,
  DEGRADED or FAULT. -/
  | identifyExchange (n : Nat) (kind : Nat) (id : Nat) (port : Nat)
  /-- TRAIN_TIMEOUT (R57). A port not in UP or DEGRADED 8,192 knots after leaving DARK enters FAULT with cause
  TRAIN_TIMEOUT. -/
  | trainTimeout (n : Nat)
  /-- LANES_TIMEOUT (R57). A retraining port with light on fewer than 4 wavelengths for 4,000 knots enters FAULT with
  cause LANES. -/
  | lanesTimeout (n : Nat)
  /-- FAULT_RECOVERY_TIMEOUT (R58). A port in FAULT with cause LANES or TRAIN_TIMEOUT returns to DARK after 4,000,000
  knots. -/
  | faultRecoveryTimeout (n : Nat)
  /-- PHOTONIC_DIE_READY (R62). A photonic die's laser array is wavelength-locked and its self-test passed, and its
  MGT_READY bit is set. -/
  | photonicDieReady (d : Nat)
  /-- PORT_GROUP_READY (R62). Every port of a group with a role has settled, or 16,384 knots have passed, and the
  group's bit is set. -/
  | portGroupReady (store : Bool) (d : Nat)
  /-- HEARTBEAT (R64). A HEARTBEAT from the link partner is taken in, sets MISS to 0 and is checked for knot skew. -/
  | heartbeat (n : Nat) (check : BitVec 64) (m : ReqMsg)
  /-- HEARTBEAT_SUSPECT (R64). MISS reaches 64, SUSPECT is set and the partner is logged as suspect. -/
  | heartbeatSuspect (n : Nat)
  /-- MGMT_PORT_UP (R65). The management port trains by itself after P0 is ready and begins to carry frames. -/
  | mgmtPortUp
  /-- LOAD (R75). A LOAD request reads data without caching intent. -/
  | load (m : ReqMsg)
  /-- LOAD_SHARED (R143). A LOAD_SHARED reads a line and records the client as a sharer. -/
  | loadShared (m : ReqMsg)
  /-- LOAD_OWN (R143). A LOAD_OWN reads a line with exclusive ownership, invalidating other copies. -/
  | loadOwn (m : ReqMsg)
  /-- LOAD_NA (R143). A LOAD_NA reads the current line and leaves every other client's state unchanged. -/
  | loadNa (m : ReqMsg)
  /-- STORE (R143). A STORE writes data after invalidating the sharers of every line touched. -/
  | store (m : ReqMsg)
  /-- STORE_MASKED (R75). A STORE_MASKED writes the bytes of one line that its mask enables. -/
  | storeMasked (m : ReqMsg)
  /-- WRITEBACK (R144). An owner returns a dirty line and gives up ownership. -/
  | writeback (m : ReqMsg)
  /-- EVICT_CLEAN (R144). A sharer or owner gives up a clean copy. -/
  | evictClean (m : ReqMsg)
  /-- CODED_STORE (R233). A codec block is checked, verified and stored, raw where it falls back. -/
  | codedStore (m : ReqMsg)
  /-- CODED_LOAD (R235). A codec block is returned as stored, without decoding. -/
  | codedLoad (m : ReqMsg)
  /-- ATOMIC_ADD_EXACT (R77). An exact add to one location, grouped with the other adds of its boundary. -/
  | atomicAddExact (m : ReqMsg)
  /-- ATOMIC_FADD_EXACT_VEC (R77). An exact add of a vector of FP32 or BF16 elements within one line. -/
  | atomicFaddExactVec (m : ReqMsg)
  /-- ATOMIC_CAS (R75). Compare and swap of one location, returning the old value. -/
  | atomicCas (m : ReqMsg)
  /-- ATOMIC_SWAP (R75). Writes the operand and returns the old value. -/
  | atomicSwap (m : ReqMsg)
  /-- ATOMIC_MIN (R217). Keeps the smaller of the location and the operand. -/
  | atomicMin (m : ReqMsg)
  /-- ATOMIC_MAX (R217). Keeps the larger of the location and the operand. -/
  | atomicMax (m : ReqMsg)
  /-- ATOMIC_AND (R76). Bitwise AND of an integer location with the operand. -/
  | atomicAnd (m : ReqMsg)
  /-- ATOMIC_OR (R76). Bitwise OR of an integer location with the operand. -/
  | atomicOr (m : ReqMsg)
  /-- ATOMIC_XOR (R76). Bitwise XOR of an integer location with the operand. -/
  | atomicXor (m : ReqMsg)
  /-- SNOOP_RESP (R131). A client's answer to a snoop is taken in and applied to its round, or discarded when
  malformed or fenced. -/
  | snoopResp (m : RespMsg)
  /-- SNOOP_ROUND_COMPLETE (R522). A round's last answer arrives and the waiting request resumes. -/
  | snoopRoundComplete (rid : Nat)
  /-- SNOOP_RESEND (R142). A snoop unanswered for RESEND × 64 knots is resent with RESEND = 1. -/
  | snoopResend (rid : Nat) (cid : Nat)
  /-- PUBLISH (R342). A PUBLISH updates a publication record or is refused against the current version. -/
  | publish (m : ReqMsg)
  /-- DOORBELL (R184). A DOORBELL sets a queue's producer index, or has no effect, or is refused. -/
  | doorbell (m : ReqMsg)
  /-- SPLICED (R96). A SPLICED request is taken in and each member is verified and answered on its own. -/
  | spliced (x : SpliceMsg)
  /-- BURST_SEGMENT (R90). A segment message joins its held burst, or is an orphan tail, or makes the burst malformed.
  -/
  | burstSegment (g : SegMsg)
  /-- BURST_TIMEOUT (R93). A partial burst still incomplete at H + 64 is discarded and answered ST_BURST_TIMEOUT. -/
  | burstTimeout
  /-- ADMISSION_TIMEOUT (R88). A request not admitted within 1,024 knots of its header check is answered ST_RETRY, SUB
  0x04. -/
  | admissionTimeout
  /-- SERVICE_TIMEOUT (R88). An admitted request whose service has not begun 2,048 knots after admission is answered
  ST_RETRY, SUB 0x04. -/
  | serviceTimeout
  /-- PEER_RESPONSE (R162). A response to a peer request arrives and decides the transfer or ends the command. -/
  | peerResponse (m : RespMsg)
  /-- PEER_REQUEST_LOST (R395). A peer request is treated as lost under R88, and a PEER suspicion is raised. -/
  | peerRequestLost (link : Nat) (tag : Nat)
  /-- SLED_RESPONSE (R359). A sled's answer to a store-profile request is taken in and served, reconstructed or
  treated as a sled failure. -/
  | sledResponse (n : Nat) (m : RespMsg)
  /-- WALK_COMPLETE (R113). A page walk ends, fills the translation cache and lets its waiting requests translate. -/
  | walkComplete (pid : Nat) (page : Nat)
  /-- INVALIDATE_PAGE (R117). A management invalidation of one page. -/
  | invalidatePage (pid : Nat) (size : Nat)
  /-- INVALIDATE_RUN (R117). A management invalidation of a run of COUNT pages of one size. -/
  | invalidateRun (pid : Nat) (size : Nat) (count : Nat)
  /-- INVALIDATE_PARTITION (R117). A management invalidation of one partition. -/
  | invalidatePartition (pid : Nat)
  /-- INVALIDATE_ALL (R117). A management invalidation of all partitions. -/
  | invalidateAll
  /-- INVALIDATION_COMPLETE (R118). Every request in scope admitted before B has been served, BUSY clears and
  DONE_KNOT is recorded. -/
  | invalidationComplete
  /-- ROOT_WRITE (R119). A write of XLT_PART_ROOT.ROOT sets a new root and acts as a partition-scope invalidation. -/
  | rootWrite (pid : Nat) (root : Nat)
  /-- REBASE (R106). A write to XLT_WIN_BASE changes a window's base at the next boundary and applies any staged size.
  -/
  | rebase (pid : Nat) (win : Nat) (v : Bool) (wr : Bool) (base : Nat)
  /-- HOT_RING_ENABLE (R127). A write that sets XLT_PART_HOT.EN enables the hot ring, or leaves EN at 0 for a
  misplaced ring. -/
  | hotRingEnable (pid : Nat) (ring : Nat) (sizeLog : Nat)
  /-- ACCESS_DECAY (R125). The decay sweep halves a unit's counter in its knot of each interval and may clear HOT. -/
  | accessDecay
  /-- DIR_LOOKUP (R134). A write to DIR_LOOK_LINE looks the line up at the next boundary and shows its entry. -/
  | dirLookup (line : Nat)
  /-- BACKGROUND_EVICT (R150). The controller back-invalidates in best-effort capacity to keep FREE_WAYS ways free in
  each set. -/
  | backgroundEvict (setNo : Nat)
  /-- RECLAIM_SWEEP_END (R151). A reclaim sweep finishes all sets, and a pending sweep for later fenced CIDs may
  start. -/
  | reclaimSweepEnd
  /-- ACCEPT_LINE (R153). DIR_LOST_CMD ACCEPT_LINE takes one line out of L, keeping the home copy. -/
  | acceptLine (line : Nat)
  /-- ACCEPT_PID (R153). DIR_LOST_CMD ACCEPT_PID takes every L entry of one partition out of L through the next sweep.
  -/
  | acceptPid (pid : Nat)
  /-- SET (R178). STP_SEM_FORCE SET replaces a semaphore's value at the next boundary. -/
  | set (c : Nat) (sem : Nat) (v : Nat)
  /-- ADD (R178). STP_SEM_FORCE ADD adds to a semaphore's value at the next boundary. -/
  | add (c : Nat) (sem : Nat) (v : Nat)
  /-- SEM_VALUE_WRITE (R178). A write to the VALUE field of a SEM word acts as a SET. -/
  | semValueWrite (c : Nat) (sem : Nat) (v : Nat)
  /-- WAIT_LIMIT_REACHED (R177). A wait that has lasted WAIT_LIMIT knots is recorded and sets WAIT_LONG. -/
  | waitLimitReached (c : Nat) (x : Nat)
  /-- CACHE_INVALIDATE (R165). A write to STP_CACHE_INV invalidates one partition's ways, or all ways, at the next
  boundary. -/
  | cacheInvalidate (c : Nat) (all : Bool) (pid : Nat)
  /-- CACHE_MISS_FILL (R164). A step-core cache miss is read from the home and its context resumes when the line
  arrives. -/
  | cacheMissFill (c : Nat) (x : Nat)
  /-- DESCRIPTOR_FETCH (R189). A core issues a fetch read of up to 4 descriptors for a RUN queue, and FI advances. -/
  | descriptorFetch (c : Nat) (pid : Nat) (q : Nat)
  /-- DESCRIPTOR_USABLE (R190). Fetched descriptors become usable and are checked. -/
  | descriptorUsable (c : Nat) (x : Nat)
  /-- OPERAND_BLOCK_READ (R188). An operand block read completes and the command's operands become present. -/
  | operandBlockRead (c : Nat) (x : Nat)
  /-- COMMAND_RELEASE (R191). A command whose checks, operands, waits and fence are satisfied is released and cut into
  steps. -/
  | commandRelease (c : Nat) (x : Nat)
  /-- COMMAND_COMPLETE (R194). A command's last transfer commits, and its signals and completion record commit with
  it. -/
  | commandComplete (c : Nat) (x : Nat)
  /-- NOP (R187). Step-core command that does nothing but carry sync words. -/
  | nop (c : Nat) (x : Nat)
  /-- INVALIDATE (R187). Work-queue command that runs a translation invalidation for its partition. -/
  | invalidate (c : Nat) (x : Nat)
  /-- RING_PLACE (R181). A write to QUE_DRING or QUE_CRING places a queue's ring while the queue is OFF. -/
  | ringPlace (pid : Nat) (q : Nat) (cring : Bool) (base : Nat) (log2n : Nat)
  /-- QUEUE_INDEX_WRITE (R196). A write to QUE_IDX sets PI and FI while the queue is OFF, and is ignored otherwise. -/
  | queueIndexWrite (pid : Nat) (q : Nat) (pi : Nat) (fi : Nat)
  /-- QUEUE_ENABLE (R196). QUE_CTRL.ENABLE := 1 moves a queue from OFF to RUN. -/
  | queueEnable (pid : Nat) (q : Nat)
  /-- QUEUE_DISABLE (R196). QUE_CTRL.ENABLE := 0 moves a queue from RUN or ERROR to DRAIN. -/
  | queueDisable (pid : Nat) (q : Nat)
  /-- RESUME (R196). QUE_CTRL.RESUME moves a queue from ERROR to RUN at the next boundary. -/
  | resume (pid : Nat) (q : Nat)
  /-- DRAIN_DONE (R196). No context holds a command of a draining queue, and it enters OFF. -/
  | drainDone (pid : Nat) (q : Nat)
  /-- DECODE (R238). Codec command that decodes COUNT blocks into a plain region. -/
  | decode (c : Nat) (x : Nat)
  /-- ENCODE (R238). Codec command that codes raw 64 KiB units with a slot's table and stores them. -/
  | encode (c : Nat) (x : Nat)
  /-- CHECK (R238). Codec command that decodes and checks blocks without writing. -/
  | check (c : Nat) (x : Nat)
  /-- LOAD_TABLE (R230). Codec command that retires a slot and loads and checks a new table image into it. -/
  | loadTable (c : Nat) (x : Nat)
  /-- DROP_TABLE (R230). Codec command that retires a slot and empties it. -/
  | dropTable (c : Nat) (x : Nat)
  /-- TABLE_SLOT_RETIRED (R230). A RETIRING slot's references reach 0 and it becomes LOADING or EMPTY. -/
  | tableSlotRetired (pid : Nat) (slot : Nat)
  /-- SEQ_OPEN (R250). Matrix command that reads a sequence record and opens a slot. -/
  | seqOpen (c : Nat) (x : Nat)
  /-- SEQ_CLOSE (R250). Matrix command that closes a slot once its references are released. -/
  | seqClose (c : Nat) (x : Nat)
  /-- SEQ_ADVANCE (R250). Matrix command that adds N to a slot's LEN and stores it in the record. -/
  | seqAdvance (c : Nat) (x : Nat)
  /-- GEMV (R254). Matrix command that multiplies activation rows by a streamed weight matrix. -/
  | gemv (c : Nat) (x : Nat)
  /-- KV_APPEND (R256). Matrix command that writes one key-value position for each named slot. -/
  | kvAppend (c : Nat) (x : Nat)
  /-- ATTEND (R257). Matrix command that attends over the key-value cache of each named slot. -/
  | attend (c : Nat) (x : Nat)
  /-- SOFTMAX (R262). Matrix command that applies the softmax weights to each row. -/
  | softmax (c : Nat) (x : Nat)
  /-- ELEMWISE (R261). Matrix command that applies an elementwise operation selected by OP. -/
  | elemwise (c : Nat) (x : Nat)
  /-- RMSNORM (R263). Matrix command that normalises each row by its root mean square. -/
  | rmsnorm (c : Nat) (x : Nat)
  /-- GATHER (R276). Embedding command that gathers rows by index and pools them into bags. -/
  | gather (c : Nat) (x : Nat)
  /-- SCATTER_ADD (R280). Embedding command that adds the exact gradient sum of each distinct row once. -/
  | scatterAdd (c : Nat) (x : Nat)
  /-- SCATTER_WRITE (R282). Embedding command that overwrites rows in place. -/
  | scatterWrite (c : Nat) (x : Nat)
  /-- ROW_REPLACE (R285). Embedding command that writes rows into new slots and swings their map entries as local
  seizings. -/
  | rowReplace (c : Nat) (x : Nat)
  /-- SCAN (R301). Search command that compares queries against every item of its snapshot. -/
  | scan (c : Nat) (x : Nat)
  /-- TRAVERSE (R305). Search command that traverses the graph and scans the side list. -/
  | traverse (c : Nat) (x : Nat)
  /-- INSERT (R309). Search command that appends items and advances the epoch in a local seizing. -/
  | insert (c : Nat) (x : Nat)
  /-- DELETE (R310). Search command that marks items deleted and advances the epoch in a local seizing. -/
  | delete (c : Nat) (x : Nat)
  /-- MERGE (R311). Search command that links the side list into the inactive graph buffer and swaps it in. -/
  | merge (c : Nat) (x : Nat)
  /-- MERGE_RESUME (R312). After a CHIP or POWER reset a journaled merge resumes from its phase and item, or is
  abandoned. -/
  | mergeResume (c : Nat)
  /-- FILL (R317). Pool command that fills a range with a 64-bit pattern. -/
  | fill (c : Nat) (x : Nat)
  /-- COPY (R318). Pool command that copies a range, or coded blocks as stored. -/
  | copy (c : Nat) (x : Nat)
  /-- COMPARE (R320). Pool command that compares two ranges and writes the first difference. -/
  | compare (c : Nat) (x : Nat)
  /-- DIGEST (R320). Pool command that computes the two-level SHA-384 digest of a range. -/
  | digest (c : Nat) (x : Nat)
  /-- REDUCE (R321). Pool command that combines source arrays elementwise into a destination. -/
  | reduce (c : Nat) (x : Nat)
  /-- SEIZE (R339). Pool command that runs a fabric seizing as originator. -/
  | seize (c : Nat) (x : Nat)
  /-- SEIZE_PREPARE_ORIGIN (R329). An originator's PREPARE is checked, its lines locked and its record written to the
  holding sled. -/
  | seizePrepareOrigin (m : ReqMsg)
  /-- PREPARED_RECORD_DONE (R329). The prepared record's sled write is answered, and the participant answers and
  votes. -/
  | preparedRecordDone (ocid : Nat) (sid : Nat) (ok : Bool)
  /-- SEIZE_VOTE (R331). A participant's vote reaches the coordinator and may allow a decision. -/
  | seizeVote (m : ReqMsg)
  /-- DECISION_RECORD_DONE (R331). The decision record's write is answered and DECIDE is sent to each other
  participant. -/
  | decisionRecordDone (ocid : Nat) (sid : Nat)
  /-- SEIZE_COMMIT (R333). The originator's SEIZE_COMMIT reaches the coordinator. -/
  | seizeCommit (m : ReqMsg)
  /-- SEIZE_ABORT (R333). The originator's SEIZE_ABORT reaches the coordinator. -/
  | seizeAbort (m : ReqMsg)
  /-- SEIZE_DECIDE (R332). A participant takes in DECIDE, acknowledges it and prepares to apply or discard. -/
  | seizeDecide (commit : Bool) (m : ReqMsg)
  /-- SEIZE_INQUIRE (R335). A participant's INQUIRE reaches the coordinator, which resends DECIDE. -/
  | seizeInquire (m : ReqMsg)
  /-- SEIZE_APPLY (R332). At the effect knot C each participant applies its actions and releases its locks. -/
  | seizeApply (ocid : Nat) (sid : Nat)
  /-- SEIZE_HOLD_TIMEOUT (R335). A seizing undecided HOLD knots after the coordinator's prepare is aborted. -/
  | seizeHoldTimeout (ocid : Nat) (sid : Nat)
  /-- SEIZE_INQUIRE_TIMER (R335). A participant with no DECIDE after HOLD + LEAD knots, and every RESEND knots after,
  sends INQUIRE. -/
  | seizeInquireTimer (ocid : Nat) (sid : Nat)
  /-- SEIZE_DECIDE_RESEND (R335). Every RESEND knots the coordinator resends DECIDE to unacknowledged participants. -/
  | seizeDecideResend (ocid : Nat) (sid : Nat)
  /-- SEIZE_VOTE_DISCARD (R331). Votes held before the coordinator's own PREPARE are discarded after HOLD knots. -/
  | seizeVoteDiscard
  /-- FORCE_COMMIT (R338). TXN_FORCE COMMIT applies a prepared seizing at the next boundary. -/
  | forceCommit (ocid : Nat) (sid : Nat)
  /-- FORCE_ABORT (R338). TXN_FORCE ABORT discards a prepared seizing and releases its locks at the next boundary. -/
  | forceAbort (ocid : Nat) (sid : Nat)
  /-- TXN_LOOKUP (R338). A write to TXN_SEL looks a seizing key up at the next boundary for TXN_VIEW. -/
  | txnLookup (ocid : Nat) (sid : Nat)
  /-- PROMOTION_SWITCH (R350). A promotion's last line has arrived and the unit is served from its frame. -/
  | promotionSwitch (unit : Nat)
  /-- DEMOTION_DONE (R351). A demoted unit's write-back is answered and its frame is freed. -/
  | demotionDone (unit : Nat)
  /-- FLUSH (R351). STO_CMD FLUSH writes back every dirty unit of one WB region. -/
  | flush (region : Nat)
  /-- FLUSH_COMPLETE (R351). Every unit dirty at the flush's start has been written back once. -/
  | flushComplete
  /-- STACK_FAIL (R352). A near-tier stack fails as a whole and every later request is answered ST_INTERNAL. -/
  | stackFail (k : Nat)
  /-- ZERO_FILL_DONE (R356). The rows of a newly assigned region have been zeroed and the region serves. -/
  | zeroFillDone (region : Nat)
  /-- SLED_RECOVER (R360). A SUSPECT position whose port is UP with MISS 0 returns to IN. -/
  | sledRecover (q : Nat)
  /-- SLED_SUSPECT_TIMEOUT (R360). A position SUSPECT for FAIL_KNOTS knots enters FAILED with cause TIMEOUT. -/
  | sledSuspectTimeout (q : Nat)
  /-- SLED_FAILED (R360). A position enters FAILED, and the holding sleds and regions it affects are handled. -/
  | sledFailed (q : Nat)
  /-- SLED_IDENTIFIED (R360). A sled is identified on a port and its position goes to REBUILD, SPARE or IN. -/
  | sledIdentified (port : Nat) (serial : Nat) (rows : Nat) (label : Option SledLabel)
  /-- FAIL (R360). STO_CMD FAIL declares a position failed with cause COMMAND. -/
  | fail (q : Nat)
  /-- REBUILD (R362). STO_CMD REBUILD names a failed position for rebuild. -/
  | rebuild (q : Nat)
  /-- ACCEPT (R361). STO_CMD ACCEPT clears LOST for one region, or is ignored while its positions are failed. -/
  | accept (region : Nat)
  /-- REBUILD_START (R362). A failed position with a passing sled starts its rebuild and gets a new label. -/
  | rebuildStart (q : Nat)
  /-- REBUILD_STEP (R362). Every INTERVAL knots one row is reconstructed onto the position and journaled. -/
  | rebuildStep
  /-- REBUILD_RESUME (R363). After a reset or a paused core is ready, the rebuild resumes from NEXT of its journal. -/
  | rebuildResume
  /-- SHADOW_KEEP (R367). STO_SHADOW MODE KEEP starts shadowing in FILL using the controller's own sleds. -/
  | shadowKeep (src : Nat) (pid : Nat) (ntrial : Nat)
  /-- SHADOW_COPY (R367). STO_SHADOW MODE COPY starts shadowing by copying regions from the source. -/
  | shadowCopy (src : Nat) (pid : Nat) (ntrial : Nat)
  /-- SHADOW_RECON (R367). STO_SHADOW MODE RECON starts shadowing by reconstruction from the EC8 group. -/
  | shadowRecon (src : Nat) (pid : Nat) (ntrial : Nat)
  /-- SHADOW_IDLE (R367). MODE 0b00 from READY or FAILED returns shadowing to IDLE. -/
  | shadowIdle (src : Nat) (pid : Nat) (ntrial : Nat)
  /-- SHADOW_FILL_DONE (R367). FILL work is done and the shadow enters VERIFY when no rebuild is active. -/
  | shadowFillDone
  /-- SHADOW_VERIFY_DONE (R367). VERIFY completes and the shadow enters TRIAL or FAILED. -/
  | shadowVerifyDone (rows : List Nat) (digests : List (Nat × List Byte))
  /-- SHADOW_TRIAL_ENTRY (R368). A trial entry's command completes and its output digest is compared with EXPECT. -/
  | shadowTrialEntry
  /-- ROLL (R374). PRT_KEY_CMD ROLL arms a session-key rollover at knot R. -/
  | roll (pid : Nat)
  /-- KEY_ROLLOVER (R374). At boundary R the staged session key becomes current and the current one previous. -/
  | keyRollover (pid : Nat)
  /-- PREVIOUS_KEY_DESTROY (R374). At boundary R + 256 the previous session key is destroyed. -/
  | previousKeyDestroy (pid : Nat)
  /-- HITCH (R377). A hitch command makes a FREE entry ACTIVE for a CID and PID. -/
  | hitch (cid : Nat) (pid : Nat) (stages : Nat) (sga : Bool)
  /-- MODIFY (R377). A hitch command replaces STAGES and SGA_OK of an ACTIVE hitch. -/
  | modify (cid : Nat) (pid : Nat) (stages : Nat) (sga : Bool)
  /-- UNHITCH (R377). A hitch command puts a hitch in REVOKING and revokes all its grants. -/
  | unhitch (cid : Nat) (pid : Nat)
  /-- GRANT (R380). Gives a hitched CID access to one extent with the stated rights. -/
  | grant (cid : Nat) (pid : Nat) (ext : Nat) (rights : Nat)
  /-- REVOKE_GRANT (R388). Takes one extent from one CID through FENCE, DRAIN and SCRUB. -/
  | revokeGrant (cid : Nat) (pid : Nat) (ext : Nat)
  /-- REVOKE_EXTENT (R388). Takes an extent from every grant and from the partition's engines, keeping or zeroing its
  data. -/
  | revokeExtent (pid : Nat) (ext : Nat) (zero : Bool)
  /-- REOPEN (R391). Clears FENCED on an extent whose revocation has ended. -/
  | reopen (pid : Nat) (ext : Nat)
  /-- REVOCATION_DRAIN_END (R390). No request in scope admitted before F remains in service, and SCRUB starts. -/
  | revocationDrainEnd
  /-- SCRUB_END (R391). Every scrub round and zero write is answered, BUSY clears and the grant or hitch is freed. -/
  | scrubEnd
  /-- HALYARD_ENABLE (R382). A write of PRT_HAL_CTRL.EN := 1 starts a halyard with CUR at 0. -/
  | halyardEnable (pid : Nat) (hal : Nat) (lead : Nat) (len : Nat)
  /-- STAGED_WRITE (R384). A write to the staged extent table or region home list, or its refusal. -/
  | stagedWrite (w : StagedWrite)
  /-- COMMIT (R385). PRT_GEN_CMD COMMIT schedules the staged composition to take effect at T. -/
  | commit (pid : Nat) (newgen : Nat)
  /-- COMMIT_CANCEL (R385). PRT_GEN_CMD CANCEL withdraws a pending commit. -/
  | commitCancel (pid : Nat)
  /-- GENERATION_EFFECT (R385). At boundary T the staged copy becomes current under the new map generation. -/
  | generationEffect (pid : Nat)
  /-- DEAD_CLIENT (R398). A verdict fences a client, frees its hitches and starts the reclaim of its lines. -/
  | deadClient (cid : Nat)
  /-- DEAD_HELAK (R399). A verdict fences a Helak and its peer CID and marks the HID dead. -/
  | deadHelak (hid : Nat) (cid : Nat)
  /-- ADMIT_SHADOW (R406). Lets LOAD and LOAD_NA from a fenced Helak's peer CID pass check 5 for shadowing. -/
  | admitShadow (hid : Nat)
  /-- RELEASE_CLIENT (R404). Clears a client's fence once a reclaim sweep after its verdict has completed. -/
  | releaseClient (cid : Nat)
  /-- RELEASE_HELAK (R406). Clears the fence of a Helak and its peer CID. -/
  | releaseHelak (hid : Nat)
  /-- TEAR (R401). Puts a partition in TEARING and ends its requests and commands with ST_JOB_TORN. -/
  | tear (pid : Nat)
  /-- TEAR_DRAIN_END (R401). No request of the tearing partition remains in service, and its directory sweep starts.
  -/
  | tearDrainEnd (pid : Nat)
  /-- TEAR_SWEEP_END (R401). The teardown sweep's last round completes and the partition enters TORN. -/
  | tearSweepEnd (pid : Nat)
  /-- MEND (R402). Returns a TORN partition to LIVE at the next boundary. -/
  | mend (pid : Nat)
  /-- ISOLATED_WRITE (R405). A write to FLT_SELF.ISOLATED sets or clears the controller's isolation. -/
  | isolatedWrite (v : Bool)
  /-- PROFILE_WRITE_START (R418). A PLDM firmware-update write of a profile slot begins, clearing VALID, or is refused
  as BUSY. -/
  | profileWriteStart (n : Nat)
  /-- PROFILE_WRITE_END (R418). A profile write ends, checks 1 to 4 are applied and VALID is set if they pass. -/
  | profileWriteEnd (n : Nat) (bytes : List Byte)
  /-- SWITCH (R421). MGT_PROFILE SWITCH loads a profile from NONE, or replaces the image through a CHIP reset. -/
  | switch (n : Nat)
  /-- PARTIAL (R422). MGT_PROFILE PARTIAL schedules a partial reconfiguration at T. -/
  | partialConfig (n : Nat)
  /-- PARTIAL_CANCEL (R422). MGT_PROFILE CANCEL withdraws a pending PARTIAL. -/
  | partialCancel
  /-- PARTIAL_CHECKED (R422). The checks of a pending PARTIAL finish, and a refusal returns STATE to ACTIVE. -/
  | partialChecked
  /-- PARTIAL_EFFECT (R424). At boundary T every difference of the PARTIAL takes effect. -/
  | partialEffect
  /-- IMAGE_LOAD_DONE (R419). An image load ends, and the image takes effect or is refused. -/
  | imageLoadDone
  /-- BOOT_WRITE (R419). A write of CFG_STATUS.BOOT names the profile CHIP reset loads, ignored while LOADING or
  PENDING. -/
  | bootWrite (n : Nat)
  /-- FLOOR_WRITE (R416). A write to CFG_FLOOR raises the lowest accepted image version, and lower values are ignored.
  -/
  | floorWrite (v : Nat)
  /-- THROTTLE_ENTER (R431). A knot's mean input below THROTTLE or power above LIMIT_W starts throttling. -/
  | throttleEnter
  /-- THROTTLE_STEP (R432). While throttling, the stretch level rises by one at most every 16 knots. -/
  | throttleStep
  /-- THROTTLE_RELAX (R432). After the throttle condition ends, the level falls by one at most every 4,000 knots. -/
  | throttleRelax
  /-- QUIESCE_ENTER (R433). A knot's mean input below QUIESCE stops admission and issue at Q. -/
  | quiesceEnter
  /-- PGOOD_DEASSERT (R431). Power-good is deasserted and the controller quiesces. -/
  | pgoodDeassert
  /-- QUIESCE_DRAINED (R433). Nothing remains in service, the engine regions stop and the stacks enter self-refresh.
  -/
  | quiesceDrained
  /-- QUIESCE_END (R433). The end condition has held for 4,000 knots and the stacks begin to leave self-refresh. -/
  | quiesceEnd
  /-- QUIESCE_RESTART (R433). Every stack has left self-refresh, the regions restart and admission resumes. -/
  | quiesceRestart
  /-- SURGE (R431). The input rises above 28.0 V for less than the allowed time, and service continues. -/
  | surge
  /-- UNDERVOLT (R431). Four consecutive samples below 18.0 V cause a POWER reset. -/
  | undervolt
  /-- OVERVOLT (R431). A sample above 34.0 V or 100 ms above 28.0 V shuts down the first stage and causes a POWER
  reset. -/
  | overvolt
  /-- POWER_ON (R434). The power-on conditions hold for 10 ms and the package starts. -/
  | powerOn (psel : Nat) (fresh : Bool)
  /-- RESET_PIN_ASSERT (R435). An assertion of the reset input holds POWER reset or starts a CHIP reset. -/
  | resetPinAssert
  /-- RESET_PIN_RELEASE (R435). A release of the reset input lets bring-up continue, with limits counted from Y − 64.
  -/
  | resetPinRelease
  /-- RESET_PIN_HOLD_TIMEOUT (R435). The reset input held for 4,000,000 knots causes a POWER reset. -/
  | resetPinHoldTimeout
  /-- THERMAL_TRIP (R511). A junction reaches its trip, the first stage shuts down and a POWER reset follows. -/
  | thermalTrip
  /-- ENGINE_RESET (R438). RST_CMD ENGINE ends the contexts of one core at the next boundary. -/
  | engineReset (c : Nat)
  /-- PARTITION_RESET (R440). RST_CMD PARTITION ends one partition's commands and waiting requests at the next
  boundary. -/
  | partitionReset (pid : Nat)
  /-- CHIP_RESET (R438). RST_CMD CHIP resets the chip at the next boundary, keeping the near tier and RWS fields. -/
  | chipReset (internal : Bool)
  /-- POWER_RESET (R438). RST_CMD POWER resets everything at the next boundary except the far store and kept fields.
  -/
  | powerReset
  /-- READINESS_SET (R441). A function's readiness conditions hold and its MGT_READY bit is set. -/
  | readinessSet (bit : Nat)
  /-- PWR_EXT_CLEAR (R429). A write of PWR_EXT.CLR restarts the minimum and maximum input records. -/
  | pwrExtClear
  /-- GET_VERSION (R452). SPDM GET_VERSION is answered. -/
  | getVersion (eid : Nat)
  /-- GET_CAPABILITIES (R452). SPDM GET_CAPABILITIES is answered. -/
  | getCapabilities (eid : Nat)
  /-- NEGOTIATE_ALGORITHMS (R452). SPDM NEGOTIATE_ALGORITHMS is answered. -/
  | negotiateAlgorithms (eid : Nat) (spec : Nat) (asym : Nat) (hash : Nat)
  /-- GET_DIGESTS (R452). SPDM GET_DIGESTS is answered. -/
  | getDigests (eid : Nat)
  /-- GET_CERTIFICATE (R452). SPDM GET_CERTIFICATE returns the slot 0 certificate chain. -/
  | getCertificate (eid : Nat) (slot : Nat) (off : Nat) (len : Nat)
  /-- CHALLENGE (R454). SPDM CHALLENGE is answered with a signed CHALLENGE_AUTH. -/
  | challenge (eid : Nat) (slot : Nat) (meas : Nat) (nonce : List Byte)
  /-- GET_MEASUREMENTS (R453). SPDM GET_MEASUREMENTS returns the measurement blocks, signed where asked. -/
  | getMeasurements (eid : Nat) (sig : Bool) (index : Nat) (nonce : List Byte)
  /-- SPDM_UNSUPPORTED (R452). Any other SPDM request is answered ERROR, UnsupportedRequest. -/
  | spdmUnsupported (eid : Nat) (code : Nat)
  /-- GET_NONCE (R450). Vendor request that returns the current request nonce. -/
  | getNonce (eid : Nat) (b : List Byte)
  /-- KEM_GET (R454). Vendor request that returns the signed ML-KEM encapsulation key and the nonce. -/
  | kemGet (eid : Nat) (b : List Byte)
  /-- KEY_DELIVER (R456). Signed request that unwraps a partition key into the key store. -/
  | keyDeliver (eid : Nat) (b : List Byte)
  /-- LC_REQUEST (R459). Signed request for a life-cycle transition, which starts the fuse burn. -/
  | lcRequest (eid : Nat) (b : List Byte)
  /-- LC_BURN_DONE (R460). The life-cycle fuse burn ends, owner destruction runs for RETURN, and a POWER reset
  follows. -/
  | lcBurnDone
  /-- DEBUG_UNLOCK (R463). Signed request that opens debug capabilities allowed in the current state. -/
  | debugUnlock (eid : Nat) (b : List Byte)
  /-- KEY_INSTALL (R450). Signed request that installs a key record into an empty owner slot. -/
  | keyInstall (eid : Nat) (b : List Byte)
  /-- KEY_REVOKE (R450). Signed request that blows a slot's revoke fuse. -/
  | keyRevoke (eid : Nat) (b : List Byte)
  /-- MLDSA_SIG (R454). Vendor request that returns the ML-DSA-87 signature of the last signed response's hash. -/
  | mldsaSig (eid : Nat) (b : List Byte)
  /-- TAMPER_EVENT (R465). A mesh, cell-glitch, temperature or clock sensor fires and is logged. -/
  | tamperEvent (kind : Nat) (powered : Bool)
  /-- DEBUG_READ_SELECT (R462). A write to SEC_DBG_ADDR selects a debug unit and address, read at the next boundary.
  -/
  | debugReadSelect (unit : Nat) (addr : Nat)
  /-- SAMPLE_TAKE (R474). At each boundary a multiple of IVL + 1, an enabled program latches its counter set and
  writes a SAMPLE. -/
  | sampleTake (n : Nat)
  /-- PC_RECORD (R480). Every 2^PC_LOG knots each traced core writes a PC record. -/
  | pcRecord (c : Nat)
  /-- PARTIAL_LINE_FLUSH (R486). A partial record line is written 64 knots after its first record was formed. -/
  | partialLineFlush (dest : Nat)
  /-- MARK (R471). A write to OBS_MARK writes a MARK record at the next boundary. -/
  | mark (v : Nat)
  /-- OBS_FLUSH (R486). A write to OBS_FLUSH writes every partial line at the next boundary. -/
  | obsFlush
  /-- TRACE_ENABLE (R483). A write of OBS_TRACE_CTL.EN from 0 to 1 starts tracing and sets PROD to 0. -/
  | traceEnable
  /-- SAMPLE_ENABLE (R474). A write of OBS_SMP_CTL.EN := 1 starts a sample program at the next boundary, or is
  refused. -/
  | sampleEnable (n : Nat)
  /-- WATCHPOINT_ENABLE (R481). A write of OBS_WP_CTL.EN arms a watchpoint, or leaves it off when invalid. -/
  | watchpointEnable (w : Nat)
  /-- RING_ENABLE (R484). A write of OBS_RING.EN enables a partition's ring, or leaves EN at 0 for a misplaced ring.
  -/
  | ringEnable (pid : Nat) (sync : Bool) (pc : Bool) (ring : Nat) (sizeLog : Nat)
  /-- SET_ENDPOINT_ID (R492). MCTP Set Endpoint ID assigns the EID and the owner, or is refused from a non-owner. -/
  | setEndpointId (src : Nat) (eid : Nat)
  /-- GET_ENDPOINT_ID (R491). MCTP Get Endpoint ID is answered. -/
  | getEndpointId (src : Nat)
  /-- GET_MCTP_VERSION_SUPPORT (R491). MCTP Get MCTP Version Support is answered. -/
  | getMctpVersionSupport (src : Nat) (ty : Nat)
  /-- GET_MESSAGE_TYPE_SUPPORT (R491). MCTP Get Message Type Support is answered. -/
  | getMessageTypeSupport (src : Nat)
  /-- MCTP_UNSUPPORTED_TYPE (R491). An MCTP message of an unsupported type is discarded without a response. -/
  | mctpUnsupportedType (src : Nat) (ty : Nat)
  /-- PLDM_BASE_DISCOVERY (R491). PLDM Type 0 base discovery is answered. -/
  | pldmBaseDiscovery (src : Nat) (cmd : Nat) (arg : Nat)
  /-- PLDM_SENSOR_READ (R498). A PLDM Type 2 sensor read is answered from its source register. -/
  | pldmSensorRead (src : Nat) (id : Nat)
  /-- PLATFORM_EVENT_SEND (R498). When the alert asserts, a PlatformEventMessage is sent to the owner at most once per
  4,000 knots. -/
  | platformEventSend
  /-- REG_READ (R493). PLDM Type 63 REG_READ latches and returns up to 64 registers in one home cycle. -/
  | regRead (eid : Nat) (inst : Nat) (cmd : Nat) (b : List Byte)
  /-- REG_WRITE (R494). PLDM Type 63 REG_WRITE applies masked writes to up to 32 registers in one home cycle. -/
  | regWrite (eid : Nat) (inst : Nat) (b : List Byte)
  /-- REGISTER_WRITE (R5). A write to a register with no row of its own acts on each field as its access type states.
  -/
  | registerWrite (off : Nat) (data : Nat) (mask : Nat)
  /-- MGMT_PORT_DOWN (R65). The management port loses its RS(528,514) codeword lock and stops carrying frames, then
  trains again by itself. -/
  | mgmtPortDown
  /-- PIN_REFILL_DONE (R369). After a POWER reset a PIN region finishes refilling its frames from the far copy and
  begins to serve. -/
  | pinRefillDone (region : Nat)
  /-- ACCEPT_COMPLETE (R361). An accepted STO_CMD ACCEPT finishes, zero-filling a NEAR region where needed, clears
  LOST and clears STO_CMD_STATUS.BUSY. -/
  | acceptComplete
  deriving DecidableEq, Repr

end Sys2Proof
end

