-- ==== Sys2Proof/Decode.lean ====
section
/-!
DEFINITION. The command that a word spells by the bits of spec/opcode_table.json. No row of the table gives bits: the block
takes messages, register writes and events, not instruction words (log entry 1).
-/

namespace Sys2Proof

/-- The command that the word `w` of `nbits` bits spells: none, since no row gives bits. -/
def decodeTableWord (_nbits _w : Nat) : Option Instr := none

end Sys2Proof
end

