-- ==== Sys2Proof/Config.lean ====
section
/-!
DEFINITION. What the spec leaves open, as constants with no body: free values (nothing can prove a value of one), what
differs from part to part, and the cryptographic functions that the spec names and does not define. Each is named in
the assumption log.
-/

namespace Sys2Proof.Config

/-- The n-th value that the spec leaves open (log entry 4). No statement rests on what it is. -/
opaque freeWord : Nat → BitVec 64

/-- The element that a SINT write gives where the spec states no quotient (R206): the scale or the bias is NaN, or both are infinite.
Operands: element bits, RND, and the FP32 encodings of the value, the scale and the bias (log entry 4). -/
opaque sintOpen : Nat → Nat → Nat → Nat → Nat → BitVec 8

/-- Whether the part is an HLK-4800-AX (R1, MGT_ID.VARIANT: per part; log entry 5). -/
opaque variantAX : Bool

/-- Leftmost 64 bits of the AES-256-GCM tag of (key, nonce, additional data, ciphertext) (R71, R72; log entry 6). -/
opaque gcmTag : List Byte → Nat → List Byte → List Byte → BitVec 64

/-- AES-256-GCM: the plaintext of a ciphertext, and the ciphertext of a plaintext, under (key, nonce) (R71). -/
opaque gcmCrypt : List Byte → Nat → List Byte → List Byte

/-- AES-256-XTS of one 128-byte line under (key, tweak) (R347; log entry 6). -/
opaque xtsEncrypt : List Byte → Nat → List Byte → List Byte

/-- The plaintext of such a line. -/
opaque xtsDecrypt : List Byte → Nat → List Byte → List Byte

/-- Verification of an ECDSA P-384 signature (key, message, signature) (R448; log entry 6). -/
opaque ecdsaVerify : List Byte → List Byte → List Byte → Bool

/-- Verification of an ML-DSA-87 signature (key, message, signature) (R448; log entry 6). -/
opaque mldsaVerify : List Byte → List Byte → List Byte → Bool

/-- The ECDSA P-384 and ML-DSA-87 signatures that the device makes over a message (R454; log entry 6). -/
opaque ecdsaSign : List Byte → List Byte

opaque mldsaSign : List Byte → List Byte

/-- The ML-KEM-1024 encapsulation key of key pair number n, and the secret that pair n decapsulates (R455; log entry 6). -/
opaque kemPublic : Nat → List Byte

opaque kemDecaps : Nat → List Byte → List Byte

/-- HKDF-SHA-384 and AES-256-GCM unwrapping of a delivered key: none where the tag fails (R456; log entry 6). -/
opaque keyUnwrap : List Byte → List Byte → Option (List Byte)

/-- The SHA-384 digests of the firmware of the root (1) and of the housekeeping controller (2) (R453; log entry 5). -/
opaque fwDigest : Nat → List Byte

/-- The device certificate chain, and the random values of SPDM (R452, R454; log entry 6). -/
opaque certChain : List Byte

/-- What the n-th answer of the management endpoint echoes of its request, none of it an operand of a command: the message tag
(byte 0), and of MCTP control and PLDM the instance ID, type and command (bytes 1 to 3) (R491; log entry 129). -/
opaque mgmtEcho : Nat → BitVec 32

end Sys2Proof.Config
end

