-- ==== Sys2Proof/Machine/Reg.lean ====
section
/-!
DEFINITION. What a register field is: its place in the management window, its access type and its reset value (R5, R7,
R489), and what a register is: its place, its fields and the selector that its view goes through (R500).
-/

namespace Sys2Proof.Machine

/-- The access types of R5. -/
inductive Acc where
  | ro | rw | w1c | wo | rws
  deriving DecidableEq, Repr

/-- One field of a register. Instance `i` lies `stride * i` bytes higher; item `j` of a view (R500) has its own copy. -/
structure Fld where
  off : Nat
  lo : Nat
  w : Nat
  stride : Nat := 0
  acc : Acc
  reset : Nat := 0
  /-- kept through CHIP reset, whatever its access type (R7) -/
  kept : Bool := false
  /-- shown from the structured state, not stored as a field -/
  view : Bool := false
  deriving DecidableEq, Repr

/-- The width in bytes of the management window (R489); item `j` of a view is stored `j` windows higher. -/
def windowSize : Nat := 0x200000

/-- Where the value of field `f`, instance `i`, item `j`, is kept. -/
def Fld.key (f : Fld) (i j : Nat) : Nat := (f.off + f.stride * i + windowSize * j) * 64 + f.lo

/-- The selectors of view registers (R500). -/
inductive Sel where
  | none | xltPsel | dirPsel | stpCtx | queSel | cdcPsel | mtxSlot | mtxChan | embChan | srhChan | srhPsel | poolChan
  | stoRgn | prtSel | prtExt | prtHitch | prtHal | fltFence | fltPart | secSlot | secTlog | obsPsel
  deriving DecidableEq, Repr

/-- One register of R501: `count` instances, `stride` bytes apart; instance `n` shows index `mul * n + add` of its fields. -/
structure RegInfo where
  name : String
  off : Nat
  stride : Nat
  count : Nat
  sel : Sel
  mul : Nat := 1
  add : Nat := 0
  fields : List Fld
  deriving DecidableEq, Repr

end Sys2Proof.Machine
end

