-- ==== Sys2Proof/Machine/RegTable.lean ====
section
/-!
DEFINITION. The register index of the management window (R489, R501): one `Fld` for every field of every register,
with its place, access type (R5), reset value and whether CHIP reset keeps it (R7), and the list of registers that
REG_READ and REG_WRITE go through. A field with `view := true` is shown from the structured state (Machine/Views.lean)
and is not stored a second time. Written by a script from the field maps of spec/02 to spec/22 and R501.
-/

namespace Sys2Proof.Machine.R

def MGT_ID.PART : Fld := { off := 0x0, lo := 32, w := 16, stride := 0x0, acc := .ro, reset := 0x4800 }
def MGT_ID.STEPPING : Fld := { off := 0x0, lo := 24, w := 8, stride := 0x0, acc := .ro, reset := 0x1 }
def MGT_ID.VARIANT : Fld := { off := 0x0, lo := 20, w := 4, stride := 0x0, acc := .ro, reset := 0x0, view := true }
def MGT_READY.CORE : Fld := { off := 0x8, lo := 48, w := 16, stride := 0x0, acc := .ro, reset := 0x0 }
def MGT_READY.SP : Fld := { off := 0x8, lo := 32, w := 16, stride := 0x0, acc := .ro, reset := 0x0 }
def MGT_READY.STK : Fld := { off := 0x8, lo := 24, w := 8, stride := 0x0, acc := .ro, reset := 0x0 }
def MGT_READY.SG : Fld := { off := 0x8, lo := 20, w := 4, stride := 0x0, acc := .ro, reset := 0x0 }
def MGT_READY.FG : Fld := { off := 0x8, lo := 16, w := 4, stride := 0x0, acc := .ro, reset := 0x0 }
def MGT_READY.PHO : Fld := { off := 0x8, lo := 12, w := 4, stride := 0x0, acc := .ro, reset := 0x0 }
def MGT_READY.TXN : Fld := { off := 0x8, lo := 11, w := 1, stride := 0x0, acc := .ro, reset := 0x0 }
def MGT_READY.POOL : Fld := { off := 0x8, lo := 10, w := 1, stride := 0x0, acc := .ro, reset := 0x0 }
def MGT_READY.SRH : Fld := { off := 0x8, lo := 9, w := 1, stride := 0x0, acc := .ro, reset := 0x0 }
def MGT_READY.EMB : Fld := { off := 0x8, lo := 8, w := 1, stride := 0x0, acc := .ro, reset := 0x0 }
def MGT_READY.MTX : Fld := { off := 0x8, lo := 7, w := 1, stride := 0x0, acc := .ro, reset := 0x0 }
def MGT_READY.CDC : Fld := { off := 0x8, lo := 6, w := 1, stride := 0x0, acc := .ro, reset := 0x0 }
def MGT_READY.DIR : Fld := { off := 0x8, lo := 5, w := 1, stride := 0x0, acc := .ro, reset := 0x0 }
def MGT_READY.XLT : Fld := { off := 0x8, lo := 4, w := 1, stride := 0x0, acc := .ro, reset := 0x0 }
def MGT_READY.HOME : Fld := { off := 0x8, lo := 3, w := 1, stride := 0x0, acc := .ro, reset := 0x0 }
def MGT_READY.SEC : Fld := { off := 0x8, lo := 2, w := 1, stride := 0x0, acc := .ro, reset := 0x0 }
def MGT_READY.CAL : Fld := { off := 0x8, lo := 1, w := 1, stride := 0x0, acc := .ro, reset := 0x0 }
def MGT_READY.KNOT : Fld := { off := 0x8, lo := 0, w := 1, stride := 0x0, acc := .ro, reset := 0x0 }
def MGT_ALERT.OBS : Fld := { off := 0x10, lo := 11, w := 1, stride := 0x0, acc := .ro, reset := 0x0, view := true }
def MGT_ALERT.SEC : Fld := { off := 0x10, lo := 10, w := 1, stride := 0x0, acc := .ro, reset := 0x0, view := true }
def MGT_ALERT.SRH : Fld := { off := 0x10, lo := 9, w := 1, stride := 0x0, acc := .ro, reset := 0x0, view := true }
def MGT_ALERT.CFG : Fld := { off := 0x10, lo := 8, w := 1, stride := 0x0, acc := .ro, reset := 0x0, view := true }
def MGT_ALERT.STP : Fld := { off := 0x10, lo := 7, w := 1, stride := 0x0, acc := .ro, reset := 0x0, view := true }
def MGT_ALERT.QUE : Fld := { off := 0x10, lo := 6, w := 1, stride := 0x0, acc := .ro, reset := 0x0, view := true }
def MGT_ALERT.TXN : Fld := { off := 0x10, lo := 5, w := 1, stride := 0x0, acc := .ro, reset := 0x0, view := true }
def MGT_ALERT.FLT : Fld := { off := 0x10, lo := 4, w := 1, stride := 0x0, acc := .ro, reset := 0x0, view := true }
def MGT_ALERT.STO : Fld := { off := 0x10, lo := 3, w := 1, stride := 0x0, acc := .ro, reset := 0x0, view := true }
def MGT_ALERT.LNK : Fld := { off := 0x10, lo := 2, w := 1, stride := 0x0, acc := .ro, reset := 0x0, view := true }
def MGT_ALERT.KNT : Fld := { off := 0x10, lo := 1, w := 1, stride := 0x0, acc := .ro, reset := 0x0, view := true }
def MGT_ALERT.PWR : Fld := { off := 0x10, lo := 0, w := 1, stride := 0x0, acc := .ro, reset := 0x0, view := true }
def MGT_ALERT_EN.EN : Fld := { off := 0x18, lo := 0, w := 12, stride := 0x0, acc := .rws, reset := 0x419 }
def MGT_EID.OWNER_V : Fld := { off := 0x20, lo := 16, w := 1, stride := 0x0, acc := .ro, reset := 0x0 }
def MGT_EID.OWNER : Fld := { off := 0x20, lo := 8, w := 8, stride := 0x0, acc := .ro, reset := 0x0 }
def MGT_EID.EID : Fld := { off := 0x20, lo := 0, w := 8, stride := 0x0, acc := .ro, reset := 0x0 }
def MGT_WIN_ERR.CODE : Fld := { off := 0x28, lo := 56, w := 8, stride := 0x0, acc := .ro, reset := 0x0 }
def MGT_WIN_ERR.CMD : Fld := { off := 0x28, lo := 48, w := 8, stride := 0x0, acc := .ro, reset := 0x0 }
def MGT_WIN_ERR.SRC_EID : Fld := { off := 0x28, lo := 40, w := 8, stride := 0x0, acc := .ro, reset := 0x0 }
def MGT_WIN_ERR.OFFSET : Fld := { off := 0x28, lo := 0, w := 32, stride := 0x0, acc := .ro, reset := 0x0 }
def MGT_WIN_KNOT.KNOT : Fld := { off := 0x30, lo := 0, w := 64, stride := 0x0, acc := .ro, reset := 0x0 }
def MGT_PROFILE.OP : Fld := { off := 0x40, lo := 62, w := 2, stride := 0x0, acc := .wo, reset := 0x0 }
def MGT_PROFILE.PROFILE : Fld := { off := 0x40, lo := 0, w := 2, stride := 0x0, acc := .wo, reset := 0x0 }
def PWR_IN.VIN_MV : Fld := { off := 0x10000, lo := 48, w := 16, stride := 0x0, acc := .ro, reset := 0x0 }
def PWR_IN.IIN : Fld := { off := 0x10000, lo := 32, w := 16, stride := 0x0, acc := .ro, reset := 0x0 }
def PWR_IN.PKG_W : Fld := { off := 0x10000, lo := 16, w := 16, stride := 0x0, acc := .ro, reset := 0x0 }
def PWR_THR.THROTTLE_MV : Fld := { off := 0x10008, lo := 48, w := 16, stride := 0x0, acc := .rw, reset := 0x5208 }
def PWR_THR.QUIESCE_MV : Fld := { off := 0x10008, lo := 32, w := 16, stride := 0x0, acc := .rw, reset := 0x4C2C }
def PWR_THR.RESET_MV : Fld := { off := 0x10008, lo := 16, w := 16, stride := 0x0, acc := .ro, reset := 0x4650 }
def PWR_LIMIT.LIMIT_W : Fld := { off := 0x10010, lo := 0, w := 16, stride := 0x0, acc := .rw, reset := 0x5DC }
def PWR_STATUS.PG : Fld := { off := 0x10018, lo := 11, w := 1, stride := 0x0, acc := .ro, reset := 0x1 }
def PWR_STATUS.SURGE : Fld := { off := 0x10018, lo := 10, w := 1, stride := 0x0, acc := .ro, reset := 0x0 }
def PWR_STATUS.BY_POWER : Fld := { off := 0x10018, lo := 9, w := 1, stride := 0x0, acc := .ro, reset := 0x0 }
def PWR_STATUS.BY_VOLT : Fld := { off := 0x10018, lo := 8, w := 1, stride := 0x0, acc := .ro, reset := 0x0 }
def PWR_STATUS.LEVEL : Fld := { off := 0x10018, lo := 2, w := 3, stride := 0x0, acc := .ro, reset := 0x0 }
def PWR_STATUS.STATE : Fld := { off := 0x10018, lo := 0, w := 2, stride := 0x0, acc := .ro, reset := 0x0 }
def PWR_EVENT.SURGE_EV : Fld := { off := 0x10020, lo := 3, w := 1, stride := 0x0, acc := .w1c, reset := 0x0 }
def PWR_EVENT.PG_LOSS : Fld := { off := 0x10020, lo := 2, w := 1, stride := 0x0, acc := .w1c, reset := 0x0 }
def PWR_EVENT.QUIESCE_EV : Fld := { off := 0x10020, lo := 1, w := 1, stride := 0x0, acc := .w1c, reset := 0x0 }
def PWR_EVENT.THROTTLE_EV : Fld := { off := 0x10020, lo := 0, w := 1, stride := 0x0, acc := .w1c, reset := 0x0 }
def PWR_EXT.VIN_MIN_MV : Fld := { off := 0x10028, lo := 48, w := 16, stride := 0x0, acc := .ro, reset := 0xFFFF }
def PWR_EXT.VIN_MAX_MV : Fld := { off := 0x10028, lo := 32, w := 16, stride := 0x0, acc := .ro, reset := 0x0 }
def PWR_EXT.CLR : Fld := { off := 0x10028, lo := 0, w := 1, stride := 0x0, acc := .wo, reset := 0x0 }
def PWR_THROTTLE_KNOTS.OVF : Fld := { off := 0x10100, lo := 63, w := 1, stride := 0x0, acc := .w1c, reset := 0x0 }
def PWR_THROTTLE_KNOTS.COUNT : Fld := { off := 0x10100, lo := 0, w := 48, stride := 0x0, acc := .ro, reset := 0x0 }
def PWR_QUIESCE_KNOTS.OVF : Fld := { off := 0x10108, lo := 63, w := 1, stride := 0x0, acc := .w1c, reset := 0x0 }
def PWR_QUIESCE_KNOTS.COUNT : Fld := { off := 0x10108, lo := 0, w := 48, stride := 0x0, acc := .ro, reset := 0x0 }
def PWR_SURGE_KNOTS.OVF : Fld := { off := 0x10110, lo := 63, w := 1, stride := 0x0, acc := .w1c, reset := 0x0 }
def PWR_SURGE_KNOTS.COUNT : Fld := { off := 0x10110, lo := 0, w := 48, stride := 0x0, acc := .ro, reset := 0x0 }
def RST_CMD.OP : Fld := { off := 0x20000, lo := 60, w := 4, stride := 0x0, acc := .wo, reset := 0x0 }
def RST_CMD.PID : Fld := { off := 0x20000, lo := 32, w := 10, stride := 0x0, acc := .wo, reset := 0x0 }
def RST_CMD.CORE : Fld := { off := 0x20000, lo := 0, w := 4, stride := 0x0, acc := .wo, reset := 0x0 }
def RST_CAUSE.KIND : Fld := { off := 0x20008, lo := 60, w := 4, stride := 0x0, acc := .ro, reset := 0x0, kept := true }
def RST_CAUSE.CAUSE : Fld := { off := 0x20008, lo := 56, w := 4, stride := 0x0, acc := .ro, reset := 0x0, kept := true }
def RST_CAUSE.COUNT : Fld := { off := 0x20008, lo := 32, w := 16, stride := 0x0, acc := .ro, reset := 0x0, kept := true }
def RST_KNOT.KNOT : Fld := { off := 0x20010, lo := 0, w := 64, stride := 0x0, acc := .ro, reset := 0x0, kept := true }
def RST_STATUS.CORE_RST : Fld := { off := 0x20018, lo := 16, w := 16, stride := 0x0, acc := .ro, reset := 0x0 }
def KNT_COUNT.COUNT : Fld := { off := 0x30000, lo := 0, w := 64, stride := 0x0, acc := .ro, reset := 0x0 }
def KNT_STATUS.SYNC_REJ : Fld := { off := 0x30008, lo := 11, w := 1, stride := 0x0, acc := .w1c, reset := 0x0 }
def KNT_STATUS.STEP_REFUSED : Fld := { off := 0x30008, lo := 10, w := 1, stride := 0x0, acc := .w1c, reset := 0x0 }
def KNT_STATUS.UNLOCK_EV : Fld := { off := 0x30008, lo := 9, w := 1, stride := 0x0, acc := .w1c, reset := 0x0 }
def KNT_STATUS.HOLD_EV : Fld := { off := 0x30008, lo := 8, w := 1, stride := 0x0, acc := .w1c, reset := 0x0 }
def KNT_STATUS.PROV : Fld := { off := 0x30008, lo := 7, w := 1, stride := 0x0, acc := .ro, reset := 0x1 }
def KNT_STATUS.STATE : Fld := { off := 0x30008, lo := 0, w := 4, stride := 0x0, acc := .ro, reset := 0x0 }
def KNT_DISC.MASTER_HID : Fld := { off := 0x30010, lo := 32, w := 9, stride := 0x0, acc := .rws, reset := 0x0 }
def KNT_DISC.SRC_PORT : Fld := { off := 0x30010, lo := 26, w := 6, stride := 0x0, acc := .rws, reset := 0x0 }
def KNT_DISC.ALT_PORT : Fld := { off := 0x30010, lo := 20, w := 6, stride := 0x0, acc := .rws, reset := 0x3F }
def KNT_DISC.ROLE : Fld := { off := 0x30010, lo := 16, w := 1, stride := 0x0, acc := .rws, reset := 0x0 }
def KNT_DISC.SYNC_INTERVAL : Fld := { off := 0x30010, lo := 8, w := 8, stride := 0x0, acc := .rws, reset := 0x10 }
def KNT_DISC.ENABLE : Fld := { off := 0x30010, lo := 0, w := 1, stride := 0x0, acc := .rws, reset := 0x0 }
def KNT_PHASE.FREQ_OFS : Fld := { off := 0x30018, lo := 32, w := 32, stride := 0x0, acc := .ro, reset := 0x0 }
def KNT_PHASE.PHASE_ERR : Fld := { off := 0x30018, lo := 0, w := 32, stride := 0x0, acc := .ro, reset := 0x0 }
def KNT_HOLD.HOLD_KNOTS : Fld := { off := 0x30020, lo := 0, w := 24, stride := 0x0, acc := .ro, reset := 0x0 }
def KNT_EPOCH.SEC : Fld := { off := 0x30028, lo := 16, w := 48, stride := 0x0, acc := .rws, reset := 0x0 }
def KNT_EPOCH.FRAC : Fld := { off := 0x30028, lo := 0, w := 16, stride := 0x0, acc := .rws, reset := 0x0 }
def KNT_SCHED.BE_SLOTS : Fld := { off := 0x30030, lo := 48, w := 11, stride := 0x0, acc := .ro, reset := 0x0 }
def KNT_SCHED.OBS_SLOTS : Fld := { off := 0x30030, lo := 32, w := 7, stride := 0x0, acc := .ro, reset := 0x0 }
def KNT_SCHED.RES_SLOTS : Fld := { off := 0x30030, lo := 16, w := 10, stride := 0x0, acc := .ro, reset := 0x0 }
def KNT_SCHED.SCHED_GEN : Fld := { off := 0x30030, lo := 0, w := 16, stride := 0x0, acc := .ro, reset := 0x0 }
def KNT_SEED.SEED : Fld := { off := 0x30038, lo := 0, w := 64, stride := 0x0, acc := .rws, reset := 0x0 }
def KNT_RGN.LAST_STOP : Fld := { off := 0x30100, lo := 32, w := 32, stride := 0x8, acc := .ro, reset := 0x0 }
def KNT_RGN.CYCLES : Fld := { off := 0x30100, lo := 10, w := 10, stride := 0x8, acc := .ro, reset := 0x0, view := true }
def KNT_RGN.STATE : Fld := { off := 0x30100, lo := 0, w := 2, stride := 0x8, acc := .ro, reset := 0x0 }
def CAL_TIME.SEC : Fld := { off := 0x38000, lo := 16, w := 48, stride := 0x0, acc := .rw, reset := 0x0, kept := true }
def CAL_TIME.FRAC : Fld := { off := 0x38000, lo := 0, w := 16, stride := 0x0, acc := .rw, reset := 0x0, kept := true }
def CAL_STATUS.STEERED : Fld := { off := 0x38008, lo := 3, w := 1, stride := 0x0, acc := .ro, reset := 0x0 }
def CAL_STATUS.CELL_FAIL : Fld := { off := 0x38008, lo := 2, w := 1, stride := 0x0, acc := .rws, reset := 0x0 }
def CAL_STATUS.CELL_LOW : Fld := { off := 0x38008, lo := 1, w := 1, stride := 0x0, acc := .ro, reset := 0x0 }
def CAL_STATUS.VALID : Fld := { off := 0x38008, lo := 0, w := 1, stride := 0x0, acc := .ro, reset := 0x0 }
def LNK_CTRL.ENABLE : Fld := { off := 0x40000, lo := 9, w := 1, stride := 0x400, acc := .rw, reset := 0x1 }
def LNK_CTRL.RETRAIN : Fld := { off := 0x40000, lo := 8, w := 1, stride := 0x400, acc := .wo, reset := 0x0 }
def LNK_CTRL.LANE_DISABLE : Fld := { off := 0x40000, lo := 0, w := 8, stride := 0x400, acc := .rw, reset := 0x0 }
def LNK_STATUS.SPARE_USED : Fld := { off := 0x40008, lo := 56, w := 8, stride := 0x400, acc := .ro, reset := 0x0 }
def LNK_STATUS.LANE_MAP : Fld := { off := 0x40008, lo := 48, w := 8, stride := 0x400, acc := .ro, reset := 0x0 }
def LNK_STATUS.LANES : Fld := { off := 0x40008, lo := 44, w := 4, stride := 0x400, acc := .ro, reset := 0x0 }
def LNK_STATUS.ADD_KNOTS : Fld := { off := 0x40008, lo := 40, w := 4, stride := 0x400, acc := .ro, reset := 0x0 }
def LNK_STATUS.ROLE : Fld := { off := 0x40008, lo := 36, w := 4, stride := 0x400, acc := .ro, reset := 0x0 }
def LNK_STATUS.CAUSE : Fld := { off := 0x40008, lo := 32, w := 4, stride := 0x400, acc := .ro, reset := 0x0 }
def LNK_STATUS.STATE : Fld := { off := 0x40008, lo := 0, w := 4, stride := 0x400, acc := .ro, reset := 0x0 }
def LNK_PEER.KIND : Fld := { off := 0x40010, lo := 60, w := 4, stride := 0x400, acc := .ro, reset := 0x0 }
def LNK_PEER.PEER_PORT : Fld := { off := 0x40010, lo := 48, w := 6, stride := 0x400, acc := .ro, reset := 0x0 }
def LNK_PEER.PEER_ID : Fld := { off := 0x40010, lo := 32, w := 13, stride := 0x400, acc := .ro, reset := 0x0 }
def LNK_PEER.DELAY_PS : Fld := { off := 0x40010, lo := 0, w := 32, stride := 0x400, acc := .ro, reset := 0x0 }
def LNK_HB.SUSPECT : Fld := { off := 0x40018, lo := 48, w := 1, stride := 0x400, acc := .ro, reset := 0x0 }
def LNK_HB.SKEW : Fld := { off := 0x40018, lo := 32, w := 16, stride := 0x400, acc := .ro, reset := 0x0 }
def LNK_HB.MISS_MAX : Fld := { off := 0x40018, lo := 16, w := 16, stride := 0x400, acc := .ro, reset := 0x0 }
def LNK_HB.MISS : Fld := { off := 0x40018, lo := 0, w := 16, stride := 0x400, acc := .ro, reset := 0x0 }
def LNK_THRESH.LANE_SYM_LIMIT : Fld := { off := 0x40020, lo := 32, w := 16, stride := 0x400, acc := .rw, reset := 0x4000 }
def LNK_THRESH.UNCORR_LIMIT : Fld := { off := 0x40020, lo := 16, w := 16, stride := 0x400, acc := .rw, reset := 0x40 }
def LNK_EVENT.SUSPECT_EV : Fld := { off := 0x40028, lo := 7, w := 1, stride := 0x400, acc := .w1c, reset := 0x0 }
def LNK_EVENT.FAULT_EV : Fld := { off := 0x40028, lo := 6, w := 1, stride := 0x400, acc := .w1c, reset := 0x0 }
def LNK_EVENT.LANE_DROP : Fld := { off := 0x40028, lo := 5, w := 1, stride := 0x400, acc := .w1c, reset := 0x0 }
def LNK_EVENT.SPARE_SWAP : Fld := { off := 0x40028, lo := 4, w := 1, stride := 0x400, acc := .w1c, reset := 0x0 }
def LNK_EVENT.RETRAIN_EV : Fld := { off := 0x40028, lo := 3, w := 1, stride := 0x400, acc := .w1c, reset := 0x0 }
def LNK_EVENT.DEGRADE_BUDGET : Fld := { off := 0x40028, lo := 2, w := 1, stride := 0x400, acc := .w1c, reset := 0x0 }
def LNK_EVENT.UNCORR : Fld := { off := 0x40028, lo := 1, w := 1, stride := 0x400, acc := .w1c, reset := 0x0 }
def LNK_EVENT.UP_EV : Fld := { off := 0x40028, lo := 0, w := 1, stride := 0x400, acc := .w1c, reset := 0x0 }
def LNK_CW.OVF : Fld := { off := 0x40030, lo := 63, w := 1, stride := 0x400, acc := .w1c, reset := 0x0 }
def LNK_CW.COUNT : Fld := { off := 0x40030, lo := 0, w := 48, stride := 0x400, acc := .ro, reset := 0x0 }
def LNK_CORR.OVF : Fld := { off := 0x40038, lo := 63, w := 1, stride := 0x400, acc := .w1c, reset := 0x0 }
def LNK_CORR.COUNT : Fld := { off := 0x40038, lo := 0, w := 48, stride := 0x400, acc := .ro, reset := 0x0 }
def LNK_UNCORR.OVF : Fld := { off := 0x40040, lo := 63, w := 1, stride := 0x400, acc := .w1c, reset := 0x0 }
def LNK_UNCORR.COUNT : Fld := { off := 0x40040, lo := 0, w := 48, stride := 0x400, acc := .ro, reset := 0x0 }
def LNK_REPLAY.OVF : Fld := { off := 0x40048, lo := 63, w := 1, stride := 0x400, acc := .w1c, reset := 0x0 }
def LNK_REPLAY.DROPPED : Fld := { off := 0x40048, lo := 48, w := 15, stride := 0x400, acc := .ro, reset := 0x0 }
def LNK_REPLAY.COUNT : Fld := { off := 0x40048, lo := 0, w := 48, stride := 0x400, acc := .ro, reset := 0x0 }
def LNK_LANE_ERR.OVF : Fld := { off := 0x40050, lo := 63, w := 1, stride := 0x8, acc := .w1c, reset := 0x0 }
def LNK_LANE_ERR.COUNT : Fld := { off := 0x40050, lo := 0, w := 48, stride := 0x8, acc := .ro, reset := 0x0 }
def LNK_MGMT.FEC_LOCK : Fld := { off := 0x4C000, lo := 1, w := 1, stride := 0x0, acc := .ro, reset := 0x0 }
def LNK_MGMT.UP : Fld := { off := 0x4C000, lo := 0, w := 1, stride := 0x0, acc := .ro, reset := 0x0 }
def FAB_CTRL.SPLICE_IN : Fld := { off := 0x50000, lo := 1, w := 1, stride := 0x0, acc := .rw, reset := 0x1 }
def FAB_CTRL.HOME_SPLICE : Fld := { off := 0x50000, lo := 0, w := 1, stride := 0x0, acc := .rw, reset := 0x1 }
def FAB_PEER_CID.VALID : Fld := { off := 0x50008, lo := 16, w := 1, stride := 0x0, acc := .rws, reset := 0x0 }
def FAB_PEER_CID.CID : Fld := { off := 0x50008, lo := 0, w := 13, stride := 0x0, acc := .rws, reset := 0x0 }
def FAB_AUTH_FAIL.OVF : Fld := { off := 0x50100, lo := 63, w := 1, stride := 0x0, acc := .w1c, reset := 0x0 }
def FAB_AUTH_FAIL.COUNT : Fld := { off := 0x50100, lo := 0, w := 48, stride := 0x0, acc := .ro, reset := 0x0 }
def FAB_SRC_FAIL.OVF : Fld := { off := 0x50108, lo := 63, w := 1, stride := 0x0, acc := .w1c, reset := 0x0 }
def FAB_SRC_FAIL.COUNT : Fld := { off := 0x50108, lo := 0, w := 48, stride := 0x0, acc := .ro, reset := 0x0 }
def FAB_TAG_DUP.OVF : Fld := { off := 0x50110, lo := 63, w := 1, stride := 0x0, acc := .w1c, reset := 0x0 }
def FAB_TAG_DUP.COUNT : Fld := { off := 0x50110, lo := 0, w := 48, stride := 0x0, acc := .ro, reset := 0x0 }
def FAB_BURST_TO.OVF : Fld := { off := 0x50118, lo := 63, w := 1, stride := 0x0, acc := .w1c, reset := 0x0 }
def FAB_BURST_TO.COUNT : Fld := { off := 0x50118, lo := 0, w := 48, stride := 0x0, acc := .ro, reset := 0x0 }
def FAB_ORPHAN.OVF : Fld := { off := 0x50120, lo := 63, w := 1, stride := 0x0, acc := .w1c, reset := 0x0 }
def FAB_ORPHAN.COUNT : Fld := { off := 0x50120, lo := 0, w := 48, stride := 0x0, acc := .ro, reset := 0x0 }
def FAB_STALE.OVF : Fld := { off := 0x50128, lo := 63, w := 1, stride := 0x0, acc := .w1c, reset := 0x0 }
def FAB_STALE.COUNT : Fld := { off := 0x50128, lo := 0, w := 48, stride := 0x0, acc := .ro, reset := 0x0 }
def FAB_GRACE.OVF : Fld := { off := 0x50130, lo := 63, w := 1, stride := 0x0, acc := .w1c, reset := 0x0 }
def FAB_GRACE.COUNT : Fld := { off := 0x50130, lo := 0, w := 48, stride := 0x0, acc := .ro, reset := 0x0 }
def FAB_SPLICE_MEM.OVF : Fld := { off := 0x50138, lo := 63, w := 1, stride := 0x0, acc := .w1c, reset := 0x0 }
def FAB_SPLICE_MEM.COUNT : Fld := { off := 0x50138, lo := 0, w := 48, stride := 0x0, acc := .ro, reset := 0x0 }
def FAB_SPLICE_HOME.OVF : Fld := { off := 0x50140, lo := 63, w := 1, stride := 0x0, acc := .w1c, reset := 0x0 }
def FAB_SPLICE_HOME.COUNT : Fld := { off := 0x50140, lo := 0, w := 48, stride := 0x0, acc := .ro, reset := 0x0 }
def FAB_RETRY.OVF : Fld := { off := 0x50148, lo := 63, w := 1, stride := 0x0, acc := .w1c, reset := 0x0 }
def FAB_RETRY.COUNT : Fld := { off := 0x50148, lo := 0, w := 48, stride := 0x0, acc := .ro, reset := 0x0 }
def FAB_BUDGET_MISS.OVF : Fld := { off := 0x50150, lo := 63, w := 1, stride := 0x0, acc := .w1c, reset := 0x0 }
def FAB_BUDGET_MISS.COUNT : Fld := { off := 0x50150, lo := 0, w := 48, stride := 0x0, acc := .ro, reset := 0x0 }
def FAB_ERR_LOG.STATUS : Fld := { off := 0x50200, lo := 56, w := 8, stride := 0x0, acc := .ro, reset := 0x0 }
def FAB_ERR_LOG.OPCODE : Fld := { off := 0x50200, lo := 48, w := 8, stride := 0x0, acc := .ro, reset := 0x0 }
def FAB_ERR_LOG.LINK : Fld := { off := 0x50200, lo := 42, w := 6, stride := 0x0, acc := .ro, reset := 0x0 }
def FAB_ERR_LOG.CID : Fld := { off := 0x50200, lo := 29, w := 13, stride := 0x0, acc := .ro, reset := 0x0 }
def FAB_ERR_LOG.DISCARD : Fld := { off := 0x50200, lo := 28, w := 1, stride := 0x0, acc := .ro, reset := 0x0 }
def FAB_ERR_LOG.TAG : Fld := { off := 0x50200, lo := 0, w := 16, stride := 0x0, acc := .ro, reset := 0x0 }
def FAB_ERR_KNOT.KNOT : Fld := { off := 0x50208, lo := 0, w := 64, stride := 0x0, acc := .ro, reset := 0x0 }
def XLT_CTRL.HOT_THRESH : Fld := { off := 0x60000, lo := 32, w := 8, stride := 0x0, acc := .rw, reset := 0x40 }
def XLT_CTRL.DECAY_LOG : Fld := { off := 0x60000, lo := 16, w := 8, stride := 0x0, acc := .rw, reset := 0x14 }
def XLT_CTRL.ACC_EN : Fld := { off := 0x60000, lo := 0, w := 1, stride := 0x0, acc := .rw, reset := 0x1 }
def XLT_PSEL.PID : Fld := { off := 0x60008, lo := 0, w := 10, stride := 0x0, acc := .rw, reset := 0x0 }
def XLT_PART_ROOT.V : Fld := { off := 0x60010, lo := 63, w := 1, stride := 0x0, acc := .ro, reset := 0x0 }
def XLT_PART_ROOT.SGA_OK : Fld := { off := 0x60010, lo := 60, w := 1, stride := 0x0, acc := .ro, reset := 0x0 }
def XLT_PART_ROOT.ROOT : Fld := { off := 0x60010, lo := 12, w := 48, stride := 0x0, acc := .rw, reset := 0x0 }
def XLT_PART_SHARE.PINNED : Fld := { off := 0x60018, lo := 41, w := 17, stride := 0x0, acc := .ro, reset := 0x0, view := true }
def XLT_PART_SHARE.USED : Fld := { off := 0x60018, lo := 24, w := 17, stride := 0x0, acc := .ro, reset := 0x0, view := true }
def XLT_PART_SHARE.WALK_MAX : Fld := { off := 0x60018, lo := 11, w := 6, stride := 0x0, acc := .ro, reset := 0x0, view := true }
def XLT_PART_SHARE.SHARE : Fld := { off := 0x60018, lo := 0, w := 11, stride := 0x0, acc := .ro, reset := 0x0, view := true }
def XLT_INV_CMD.PID : Fld := { off := 0x60020, lo := 32, w := 10, stride := 0x0, acc := .wo, reset := 0x0 }
def XLT_INV_CMD.SCOPE : Fld := { off := 0x60020, lo := 28, w := 2, stride := 0x0, acc := .wo, reset := 0x0 }
def XLT_INV_CMD.SIZE : Fld := { off := 0x60020, lo := 26, w := 2, stride := 0x0, acc := .wo, reset := 0x0 }
def XLT_INV_CMD.COUNT : Fld := { off := 0x60020, lo := 0, w := 26, stride := 0x0, acc := .wo, reset := 0x0 }
def XLT_INV_ADDR.CVA : Fld := { off := 0x60028, lo := 16, w := 41, stride := 0x0, acc := .rw, reset := 0x0 }
def XLT_INV_STATUS.BUSY : Fld := { off := 0x60030, lo := 63, w := 1, stride := 0x0, acc := .ro, reset := 0x0 }
def XLT_INV_STATUS.OVERRUN : Fld := { off := 0x60030, lo := 62, w := 1, stride := 0x0, acc := .w1c, reset := 0x0 }
def XLT_INV_STATUS.BADCMD : Fld := { off := 0x60030, lo := 61, w := 1, stride := 0x0, acc := .w1c, reset := 0x0 }
def XLT_INV_STATUS.DONE_KNOT : Fld := { off := 0x60030, lo := 0, w := 48, stride := 0x0, acc := .ro, reset := 0x0 }
def XLT_ACC_ADDR.UNIT : Fld := { off := 0x60038, lo := 16, w := 44, stride := 0x0, acc := .rw, reset := 0x0 }
def XLT_ACC_VAL.HOT : Fld := { off := 0x60040, lo := 7, w := 1, stride := 0x0, acc := .ro, reset := 0x0, view := true }
def XLT_ACC_VAL.COUNT : Fld := { off := 0x60040, lo := 0, w := 7, stride := 0x0, acc := .ro, reset := 0x0, view := true }
def XLT_ILV_SEL.PREV : Fld := { off := 0x60048, lo := 25, w := 1, stride := 0x0, acc := .rw, reset := 0x0 }
def XLT_ILV_SEL.REGION : Fld := { off := 0x60048, lo := 9, w := 8, stride := 0x0, acc := .rw, reset := 0x0 }
def XLT_ILV_SEL.ENTRY : Fld := { off := 0x60048, lo := 0, w := 9, stride := 0x0, acc := .rw, reset := 0x0 }
def XLT_ILV_BASE.V : Fld := { off := 0x60050, lo := 63, w := 1, stride := 0x0, acc := .ro, reset := 0x0, view := true }
def XLT_ILV_BASE.BASE : Fld := { off := 0x60050, lo := 12, w := 48, stride := 0x0, acc := .ro, reset := 0x0, view := true }
def XLT_ILV_SIZE.SIZE : Fld := { off := 0x60058, lo := 12, w := 48, stride := 0x0, acc := .ro, reset := 0x0, view := true }
def XLT_ILV_FMT.LOCAL_BASE : Fld := { off := 0x60060, lo := 12, w := 48, stride := 0x0, acc := .ro, reset := 0x0, view := true }
def XLT_ILV_FMT.SHARED : Fld := { off := 0x60060, lo := 9, w := 1, stride := 0x0, acc := .ro, reset := 0x0, view := true }
def XLT_ILV_FMT.L_LOG : Fld := { off := 0x60060, lo := 5, w := 4, stride := 0x0, acc := .ro, reset := 0x0, view := true }
def XLT_ILV_FMT.G_LOG : Fld := { off := 0x60060, lo := 0, w := 5, stride := 0x0, acc := .ro, reset := 0x0, view := true }
def XLT_ILV_ENTRY.HID : Fld := { off := 0x60068, lo := 0, w := 9, stride := 0x0, acc := .ro, reset := 0x0, view := true }
def XLT_PART_HOT.EN : Fld := { off := 0x60070, lo := 63, w := 1, stride := 0x0, acc := .rw, reset := 0x0 }
def XLT_PART_HOT.RING : Fld := { off := 0x60070, lo := 12, w := 48, stride := 0x0, acc := .rw, reset := 0x0 }
def XLT_PART_HOT.SIZE_LOG : Fld := { off := 0x60070, lo := 0, w := 5, stride := 0x0, acc := .rw, reset := 0xC }
def XLT_FAULT_LOG.STATUS : Fld := { off := 0x60080, lo := 56, w := 8, stride := 0x0, acc := .ro, reset := 0x0 }
def XLT_FAULT_LOG.CAUSE : Fld := { off := 0x60080, lo := 52, w := 4, stride := 0x0, acc := .ro, reset := 0x0 }
def XLT_FAULT_LOG.SRC : Fld := { off := 0x60080, lo := 50, w := 2, stride := 0x0, acc := .ro, reset := 0x0 }
def XLT_FAULT_LOG.LEVEL : Fld := { off := 0x60080, lo := 47, w := 3, stride := 0x0, acc := .ro, reset := 0x7 }
def XLT_FAULT_LOG.PID : Fld := { off := 0x60080, lo := 37, w := 10, stride := 0x0, acc := .ro, reset := 0x0 }
def XLT_FAULT_LOG.ID : Fld := { off := 0x60080, lo := 24, w := 13, stride := 0x0, acc := .ro, reset := 0x0 }
def XLT_FAULT_ADDR.ADDR : Fld := { off := 0x60088, lo := 0, w := 64, stride := 0x0, acc := .ro, reset := 0x0 }
def XLT_FAULT_KNOT.KNOT : Fld := { off := 0x60090, lo := 0, w := 64, stride := 0x0, acc := .ro, reset := 0x0 }
def XLT_HIT.OVF : Fld := { off := 0x60100, lo := 63, w := 1, stride := 0x0, acc := .w1c, reset := 0x0 }
def XLT_HIT.COUNT : Fld := { off := 0x60100, lo := 0, w := 48, stride := 0x0, acc := .ro, reset := 0x0 }
def XLT_MISS.OVF : Fld := { off := 0x60108, lo := 63, w := 1, stride := 0x0, acc := .w1c, reset := 0x0 }
def XLT_MISS.COUNT : Fld := { off := 0x60108, lo := 0, w := 48, stride := 0x0, acc := .ro, reset := 0x0 }
def XLT_WALK_READS.OVF : Fld := { off := 0x60110, lo := 63, w := 1, stride := 0x0, acc := .w1c, reset := 0x0 }
def XLT_WALK_READS.COUNT : Fld := { off := 0x60110, lo := 0, w := 48, stride := 0x0, acc := .ro, reset := 0x0 }
def XLT_FAULTS.OVF : Fld := { off := 0x60118, lo := 63, w := 1, stride := 0x0, acc := .w1c, reset := 0x0 }
def XLT_FAULTS.COUNT : Fld := { off := 0x60118, lo := 0, w := 48, stride := 0x0, acc := .ro, reset := 0x0 }
def XLT_INV.OVF : Fld := { off := 0x60120, lo := 63, w := 1, stride := 0x0, acc := .w1c, reset := 0x0 }
def XLT_INV.COUNT : Fld := { off := 0x60120, lo := 0, w := 48, stride := 0x0, acc := .ro, reset := 0x0 }
def XLT_HOT_REC.OVF : Fld := { off := 0x60128, lo := 63, w := 1, stride := 0x0, acc := .w1c, reset := 0x0 }
def XLT_HOT_REC.COUNT : Fld := { off := 0x60128, lo := 0, w := 48, stride := 0x0, acc := .ro, reset := 0x0 }
def XLT_HOT_DROP.OVF : Fld := { off := 0x60130, lo := 63, w := 1, stride := 0x0, acc := .w1c, reset := 0x0 }
def XLT_HOT_DROP.COUNT : Fld := { off := 0x60130, lo := 0, w := 48, stride := 0x0, acc := .ro, reset := 0x0 }
def XLT_WALK_WAIT.OVF : Fld := { off := 0x60138, lo := 63, w := 1, stride := 0x0, acc := .w1c, reset := 0x0 }
def XLT_WALK_WAIT.COUNT : Fld := { off := 0x60138, lo := 0, w := 48, stride := 0x0, acc := .ro, reset := 0x0 }
def XLT_WIN_BASE.V : Fld := { off := 0x61000, lo := 63, w := 1, stride := 0x10, acc := .rw, reset := 0x0 }
def XLT_WIN_BASE.WR : Fld := { off := 0x61000, lo := 62, w := 1, stride := 0x10, acc := .rw, reset := 0x0 }
def XLT_WIN_BASE.BASE : Fld := { off := 0x61000, lo := 16, w := 41, stride := 0x10, acc := .rw, reset := 0x0 }
def XLT_WIN_BASE.GEN : Fld := { off := 0x61000, lo := 0, w := 16, stride := 0x10, acc := .ro, reset := 0x0 }
def XLT_WIN_SIZE.SIZE : Fld := { off := 0x61008, lo := 16, w := 41, stride := 0x10, acc := .rw, reset := 0x0 }
def DIR_CTRL.RESEND : Fld := { off := 0x70000, lo := 16, w := 8, stride := 0x0, acc := .rw, reset := 0x4 }
def DIR_CTRL.BG_EVICT : Fld := { off := 0x70000, lo := 8, w := 1, stride := 0x0, acc := .rw, reset := 0x1 }
def DIR_CTRL.FREE_WAYS : Fld := { off := 0x70000, lo := 0, w := 2, stride := 0x0, acc := .rw, reset := 0x2 }
def DIR_STATUS.SWEEP_BUSY : Fld := { off := 0x70008, lo := 63, w := 1, stride := 0x0, acc := .ro, reset := 0x0, view := true }
def DIR_STATUS.SWEEP_SET : Fld := { off := 0x70008, lo := 22, w := 22, stride := 0x0, acc := .ro, reset := 0x0, view := true }
def DIR_STATUS.PENDING : Fld := { off := 0x70008, lo := 0, w := 13, stride := 0x0, acc := .ro, reset := 0x0, view := true }
def DIR_PSEL.PID : Fld := { off := 0x70010, lo := 0, w := 10, stride := 0x0, acc := .rw, reset := 0x0 }
def DIR_PART.USED : Fld := { off := 0x70018, lo := 27, w := 27, stride := 0x0, acc := .ro, reset := 0x0, view := true }
def DIR_PART.LOST : Fld := { off := 0x70018, lo := 11, w := 16, stride := 0x0, acc := .ro, reset := 0x0, view := true }
def DIR_PART.SHARE : Fld := { off := 0x70018, lo := 0, w := 11, stride := 0x0, acc := .ro, reset := 0x0, view := true }
def DIR_LOOK_LINE.DONE : Fld := { off := 0x70020, lo := 63, w := 1, stride := 0x0, acc := .ro, reset := 0x0 }
def DIR_LOOK_LINE.HIT : Fld := { off := 0x70020, lo := 62, w := 1, stride := 0x0, acc := .ro, reset := 0x0 }
def DIR_LOOK_LINE.LINE : Fld := { off := 0x70020, lo := 0, w := 38, stride := 0x0, acc := .rw, reset := 0x0 }
def DIR_LOOK_W0.WORD : Fld := { off := 0x70028, lo := 0, w := 64, stride := 0x0, acc := .ro, reset := 0x0 }
def DIR_LOOK_W1.WORD : Fld := { off := 0x70030, lo := 0, w := 64, stride := 0x0, acc := .ro, reset := 0x0 }
def DIR_LOOK_W2.WORD : Fld := { off := 0x70038, lo := 0, w := 64, stride := 0x0, acc := .ro, reset := 0x0 }
def DIR_LOOK_W3.WORD : Fld := { off := 0x70040, lo := 0, w := 64, stride := 0x0, acc := .ro, reset := 0x0 }
def DIR_LOST_LOG.CAUSE : Fld := { off := 0x70050, lo := 62, w := 2, stride := 0x0, acc := .ro, reset := 0x0 }
def DIR_LOST_LOG.PID : Fld := { off := 0x70050, lo := 52, w := 10, stride := 0x0, acc := .ro, reset := 0x0 }
def DIR_LOST_LOG.LCID : Fld := { off := 0x70050, lo := 39, w := 13, stride := 0x0, acc := .ro, reset := 0x0 }
def DIR_LOST_LOG.LINE : Fld := { off := 0x70050, lo := 0, w := 38, stride := 0x0, acc := .ro, reset := 0x0 }
def DIR_LOST_KNOT.KNOT : Fld := { off := 0x70058, lo := 0, w := 64, stride := 0x0, acc := .ro, reset := 0x0 }
def DIR_LOST_CMD.OP : Fld := { off := 0x70060, lo := 62, w := 2, stride := 0x0, acc := .wo, reset := 0x0 }
def DIR_LOST_CMD.PID : Fld := { off := 0x70060, lo := 52, w := 10, stride := 0x0, acc := .wo, reset := 0x0 }
def DIR_LOST_CMD.LINE : Fld := { off := 0x70060, lo := 0, w := 38, stride := 0x0, acc := .wo, reset := 0x0 }
def DIR_SNOOP_LOG.TRIES : Fld := { off := 0x70068, lo := 56, w := 8, stride := 0x0, acc := .ro, reset := 0x0 }
def DIR_SNOOP_LOG.LINK : Fld := { off := 0x70068, lo := 50, w := 6, stride := 0x0, acc := .ro, reset := 0x0 }
def DIR_SNOOP_LOG.PID : Fld := { off := 0x70068, lo := 40, w := 10, stride := 0x0, acc := .ro, reset := 0x0 }
def DIR_SNOOP_LOG.CID : Fld := { off := 0x70068, lo := 27, w := 13, stride := 0x0, acc := .ro, reset := 0x0 }
def DIR_CACHE_HIT.OVF : Fld := { off := 0x70100, lo := 63, w := 1, stride := 0x0, acc := .w1c, reset := 0x0 }
def DIR_CACHE_HIT.COUNT : Fld := { off := 0x70100, lo := 0, w := 48, stride := 0x0, acc := .ro, reset := 0x0 }
def DIR_CACHE_MISS.OVF : Fld := { off := 0x70108, lo := 63, w := 1, stride := 0x0, acc := .w1c, reset := 0x0 }
def DIR_CACHE_MISS.COUNT : Fld := { off := 0x70108, lo := 0, w := 48, stride := 0x0, acc := .ro, reset := 0x0 }
def DIR_ROUNDS.OVF : Fld := { off := 0x70110, lo := 63, w := 1, stride := 0x0, acc := .w1c, reset := 0x0 }
def DIR_ROUNDS.COUNT : Fld := { off := 0x70110, lo := 0, w := 48, stride := 0x0, acc := .ro, reset := 0x0 }
def DIR_SNOOPS.OVF : Fld := { off := 0x70118, lo := 63, w := 1, stride := 0x0, acc := .w1c, reset := 0x0 }
def DIR_SNOOPS.COUNT : Fld := { off := 0x70118, lo := 0, w := 48, stride := 0x0, acc := .ro, reset := 0x0 }
def DIR_BCAST.OVF : Fld := { off := 0x70120, lo := 63, w := 1, stride := 0x0, acc := .w1c, reset := 0x0 }
def DIR_BCAST.COUNT : Fld := { off := 0x70120, lo := 0, w := 48, stride := 0x0, acc := .ro, reset := 0x0 }
def DIR_BACKINV.OVF : Fld := { off := 0x70128, lo := 63, w := 1, stride := 0x0, acc := .w1c, reset := 0x0 }
def DIR_BACKINV.COUNT : Fld := { off := 0x70128, lo := 0, w := 48, stride := 0x0, acc := .ro, reset := 0x0 }
def DIR_BACKINV_XP.OVF : Fld := { off := 0x70130, lo := 63, w := 1, stride := 0x0, acc := .w1c, reset := 0x0 }
def DIR_BACKINV_XP.COUNT : Fld := { off := 0x70130, lo := 0, w := 48, stride := 0x0, acc := .ro, reset := 0x0 }
def DIR_ALIAS.OVF : Fld := { off := 0x70138, lo := 63, w := 1, stride := 0x0, acc := .w1c, reset := 0x0 }
def DIR_ALIAS.COUNT : Fld := { off := 0x70138, lo := 0, w := 48, stride := 0x0, acc := .ro, reset := 0x0 }
def DIR_CROSS.OVF : Fld := { off := 0x70140, lo := 63, w := 1, stride := 0x0, acc := .w1c, reset := 0x0 }
def DIR_CROSS.COUNT : Fld := { off := 0x70140, lo := 0, w := 48, stride := 0x0, acc := .ro, reset := 0x0 }
def DIR_WB_NOOP.OVF : Fld := { off := 0x70148, lo := 63, w := 1, stride := 0x0, acc := .w1c, reset := 0x0 }
def DIR_WB_NOOP.COUNT : Fld := { off := 0x70148, lo := 0, w := 48, stride := 0x0, acc := .ro, reset := 0x0 }
def DIR_RESEND.OVF : Fld := { off := 0x70150, lo := 63, w := 1, stride := 0x0, acc := .w1c, reset := 0x0 }
def DIR_RESEND.COUNT : Fld := { off := 0x70150, lo := 0, w := 48, stride := 0x0, acc := .ro, reset := 0x0 }
def DIR_LOST.OVF : Fld := { off := 0x70158, lo := 63, w := 1, stride := 0x0, acc := .w1c, reset := 0x0 }
def DIR_LOST.COUNT : Fld := { off := 0x70158, lo := 0, w := 48, stride := 0x0, acc := .ro, reset := 0x0 }
def DIR_LOST_CLR.OVF : Fld := { off := 0x70160, lo := 63, w := 1, stride := 0x0, acc := .w1c, reset := 0x0 }
def DIR_LOST_CLR.COUNT : Fld := { off := 0x70160, lo := 0, w := 48, stride := 0x0, acc := .ro, reset := 0x0 }
def DIR_LOST_READ.OVF : Fld := { off := 0x70168, lo := 63, w := 1, stride := 0x0, acc := .w1c, reset := 0x0 }
def DIR_LOST_READ.COUNT : Fld := { off := 0x70168, lo := 0, w := 48, stride := 0x0, acc := .ro, reset := 0x0 }
def DIR_FENCED_RESP.OVF : Fld := { off := 0x70170, lo := 63, w := 1, stride := 0x0, acc := .w1c, reset := 0x0 }
def DIR_FENCED_RESP.COUNT : Fld := { off := 0x70170, lo := 0, w := 48, stride := 0x0, acc := .ro, reset := 0x0 }
def DIR_SET_WAIT.OVF : Fld := { off := 0x70178, lo := 63, w := 1, stride := 0x0, acc := .w1c, reset := 0x0 }
def DIR_SET_WAIT.COUNT : Fld := { off := 0x70178, lo := 0, w := 48, stride := 0x0, acc := .ro, reset := 0x0 }
def STP_CTRL.WAIT_LIMIT : Fld := { off := 0x80000, lo := 8, w := 24, stride := 0x1000, acc := .rw, reset := 0x3D0900 }
def STP_CTRL.ENABLE : Fld := { off := 0x80000, lo := 0, w := 1, stride := 0x1000, acc := .rw, reset := 0x1 }
def STP_STATUS.BUSY : Fld := { off := 0x80008, lo := 32, w := 16, stride := 0x1000, acc := .ro, reset := 0x0, view := true }
def STP_STATUS.WAITING : Fld := { off := 0x80008, lo := 16, w := 16, stride := 0x1000, acc := .ro, reset := 0x0, view := true }
def STP_STATUS.ISSUED : Fld := { off := 0x80008, lo := 0, w := 5, stride := 0x1000, acc := .ro, reset := 0x0 }
def STP_CTX_SEL.CTX : Fld := { off := 0x80010, lo := 0, w := 4, stride := 0x1000, acc := .rw, reset := 0x0 }
def STP_CTX.BUSY : Fld := { off := 0x80018, lo := 63, w := 1, stride := 0x1000, acc := .ro, reset := 0x0, view := true }
def STP_CTX.STATE : Fld := { off := 0x80018, lo := 60, w := 3, stride := 0x1000, acc := .ro, reset := 0x0, view := true }
def STP_CTX.PID : Fld := { off := 0x80018, lo := 50, w := 10, stride := 0x1000, acc := .ro, reset := 0x0, view := true }
def STP_CTX.QUEUE : Fld := { off := 0x80018, lo := 44, w := 6, stride := 0x1000, acc := .ro, reset := 0x0, view := true }
def STP_CTX.SEM : Fld := { off := 0x80018, lo := 32, w := 12, stride := 0x1000, acc := .ro, reset := 0x0, view := true }
def STP_CTX.TARGET : Fld := { off := 0x80018, lo := 0, w := 32, stride := 0x1000, acc := .ro, reset := 0x0, view := true }
def STP_CTX_KNOT.KNOT : Fld := { off := 0x80020, lo := 0, w := 64, stride := 0x1000, acc := .ro, reset := 0x0, view := true }
def STP_WAIT_LOG.CTX : Fld := { off := 0x80028, lo := 60, w := 4, stride := 0x1000, acc := .ro, reset := 0x0 }
def STP_WAIT_LOG.PID : Fld := { off := 0x80028, lo := 50, w := 10, stride := 0x1000, acc := .ro, reset := 0x0 }
def STP_WAIT_LOG.QUEUE : Fld := { off := 0x80028, lo := 44, w := 6, stride := 0x1000, acc := .ro, reset := 0x0 }
def STP_WAIT_LOG.SEM : Fld := { off := 0x80028, lo := 32, w := 12, stride := 0x1000, acc := .ro, reset := 0x0 }
def STP_WAIT_LOG.TARGET : Fld := { off := 0x80028, lo := 0, w := 32, stride := 0x1000, acc := .ro, reset := 0x0 }
def STP_WAIT_KNOT.KNOT : Fld := { off := 0x80030, lo := 0, w := 64, stride := 0x1000, acc := .ro, reset := 0x0 }
def STP_SEM_FORCE.OP : Fld := { off := 0x80038, lo := 62, w := 2, stride := 0x1000, acc := .wo, reset := 0x0 }
def STP_SEM_FORCE.SEM : Fld := { off := 0x80038, lo := 32, w := 12, stride := 0x1000, acc := .wo, reset := 0x0 }
def STP_SEM_FORCE.VALUE : Fld := { off := 0x80038, lo := 0, w := 32, stride := 0x1000, acc := .wo, reset := 0x0 }
def STP_FORCE_LOG.OP : Fld := { off := 0x80040, lo := 62, w := 2, stride := 0x1000, acc := .ro, reset := 0x0 }
def STP_FORCE_LOG.PID : Fld := { off := 0x80040, lo := 50, w := 10, stride := 0x1000, acc := .ro, reset := 0x0 }
def STP_FORCE_LOG.SEM : Fld := { off := 0x80040, lo := 32, w := 12, stride := 0x1000, acc := .ro, reset := 0x0 }
def STP_FORCE_LOG.BEFORE : Fld := { off := 0x80040, lo := 0, w := 32, stride := 0x1000, acc := .ro, reset := 0x0 }
def STP_FORCE_KNOT.KNOT : Fld := { off := 0x80048, lo := 0, w := 64, stride := 0x1000, acc := .ro, reset := 0x0 }
def STP_SEM_ERR.CAUSE : Fld := { off := 0x80050, lo := 60, w := 4, stride := 0x1000, acc := .ro, reset := 0x0 }
def STP_SEM_ERR.PID : Fld := { off := 0x80050, lo := 50, w := 10, stride := 0x1000, acc := .ro, reset := 0x0 }
def STP_SEM_ERR.QUEUE : Fld := { off := 0x80050, lo := 44, w := 6, stride := 0x1000, acc := .ro, reset := 0x0 }
def STP_SEM_ERR.SEM : Fld := { off := 0x80050, lo := 32, w := 12, stride := 0x1000, acc := .ro, reset := 0x0 }
def STP_SEM_ERR.OPERAND : Fld := { off := 0x80050, lo := 0, w := 32, stride := 0x1000, acc := .ro, reset := 0x0 }
def STP_CACHE_INV.ALL : Fld := { off := 0x80058, lo := 63, w := 1, stride := 0x1000, acc := .wo, reset := 0x0 }
def STP_CACHE_INV.PID : Fld := { off := 0x80058, lo := 0, w := 10, stride := 0x1000, acc := .wo, reset := 0x0 }
def STP_EVENT.SEM_ERR : Fld := { off := 0x80068, lo := 2, w := 1, stride := 0x1000, acc := .w1c, reset := 0x0 }
def STP_EVENT.FORCE : Fld := { off := 0x80068, lo := 1, w := 1, stride := 0x1000, acc := .w1c, reset := 0x0 }
def STP_EVENT.WAIT_LONG : Fld := { off := 0x80068, lo := 0, w := 1, stride := 0x1000, acc := .w1c, reset := 0x0 }
def STP_STEPS.OVF : Fld := { off := 0x80100, lo := 63, w := 1, stride := 0x1000, acc := .w1c, reset := 0x0 }
def STP_STEPS.COUNT : Fld := { off := 0x80100, lo := 0, w := 48, stride := 0x1000, acc := .ro, reset := 0x0 }
def STP_WAIT_KNOTS.OVF : Fld := { off := 0x80108, lo := 63, w := 1, stride := 0x1000, acc := .w1c, reset := 0x0 }
def STP_WAIT_KNOTS.COUNT : Fld := { off := 0x80108, lo := 0, w := 48, stride := 0x1000, acc := .ro, reset := 0x0 }
def STP_ARRIVE_STALL.OVF : Fld := { off := 0x80110, lo := 63, w := 1, stride := 0x1000, acc := .w1c, reset := 0x0 }
def STP_ARRIVE_STALL.COUNT : Fld := { off := 0x80110, lo := 0, w := 48, stride := 0x1000, acc := .ro, reset := 0x0 }
def STP_CHAN_FULL.OVF : Fld := { off := 0x80118, lo := 63, w := 1, stride := 0x1000, acc := .w1c, reset := 0x0 }
def STP_CHAN_FULL.COUNT : Fld := { off := 0x80118, lo := 0, w := 48, stride := 0x1000, acc := .ro, reset := 0x0 }
def STP_CACHE_HIT.OVF : Fld := { off := 0x80120, lo := 63, w := 1, stride := 0x1000, acc := .w1c, reset := 0x0 }
def STP_CACHE_HIT.COUNT : Fld := { off := 0x80120, lo := 0, w := 48, stride := 0x1000, acc := .ro, reset := 0x0 }
def STP_CACHE_MISS.OVF : Fld := { off := 0x80128, lo := 63, w := 1, stride := 0x1000, acc := .w1c, reset := 0x0 }
def STP_CACHE_MISS.COUNT : Fld := { off := 0x80128, lo := 0, w := 48, stride := 0x1000, acc := .ro, reset := 0x0 }
def STP_CACHE_INVAL.OVF : Fld := { off := 0x80130, lo := 63, w := 1, stride := 0x1000, acc := .w1c, reset := 0x0 }
def STP_CACHE_INVAL.COUNT : Fld := { off := 0x80130, lo := 0, w := 48, stride := 0x1000, acc := .ro, reset := 0x0 }
def STP_SEM_OPS.OVF : Fld := { off := 0x80138, lo := 63, w := 1, stride := 0x1000, acc := .w1c, reset := 0x0 }
def STP_SEM_OPS.COUNT : Fld := { off := 0x80138, lo := 0, w := 48, stride := 0x1000, acc := .ro, reset := 0x0 }
def STP_FORCE_CNT.OVF : Fld := { off := 0x80140, lo := 63, w := 1, stride := 0x1000, acc := .w1c, reset := 0x0 }
def STP_FORCE_CNT.COUNT : Fld := { off := 0x80140, lo := 0, w := 48, stride := 0x1000, acc := .ro, reset := 0x0 }
def QUE_SEL.PID : Fld := { off := 0x90000, lo := 16, w := 10, stride := 0x0, acc := .rw, reset := 0x0 }
def QUE_SEL.QUEUE : Fld := { off := 0x90000, lo := 0, w := 6, stride := 0x0, acc := .rw, reset := 0x0 }
def QUE_CFG.V : Fld := { off := 0x90008, lo := 63, w := 1, stride := 0x0, acc := .ro, reset := 0x0, view := true }
def QUE_CFG.CORE : Fld := { off := 0x90008, lo := 32, w := 4, stride := 0x0, acc := .ro, reset := 0x0, view := true }
def QUE_CFG.NQ : Fld := { off := 0x90008, lo := 0, w := 7, stride := 0x0, acc := .ro, reset := 0x0, view := true }
def QUE_DRING.BASE : Fld := { off := 0x90010, lo := 12, w := 48, stride := 0x0, acc := .rws, reset := 0x0 }
def QUE_DRING.LOG2N : Fld := { off := 0x90010, lo := 0, w := 5, stride := 0x0, acc := .rws, reset := 0x4 }
def QUE_CRING.BASE : Fld := { off := 0x90018, lo := 12, w := 48, stride := 0x0, acc := .rws, reset := 0x0 }
def QUE_CTRL.RESUME : Fld := { off := 0x90020, lo := 1, w := 1, stride := 0x0, acc := .wo, reset := 0x0 }
def QUE_CTRL.ENABLE : Fld := { off := 0x90020, lo := 0, w := 1, stride := 0x0, acc := .rw, reset := 0x0 }
def QUE_STATUS.ACTIVE : Fld := { off := 0x90028, lo := 16, w := 5, stride := 0x0, acc := .ro, reset := 0x0, view := true }
def QUE_STATUS.CAUSE : Fld := { off := 0x90028, lo := 8, w := 4, stride := 0x0, acc := .ro, reset := 0x0 }
def QUE_STATUS.STATE : Fld := { off := 0x90028, lo := 0, w := 2, stride := 0x0, acc := .ro, reset := 0x0 }
def QUE_IDX.PI : Fld := { off := 0x90030, lo := 32, w := 32, stride := 0x0, acc := .rws, reset := 0x0 }
def QUE_IDX.FI : Fld := { off := 0x90030, lo := 0, w := 32, stride := 0x0, acc := .rws, reset := 0x0 }
def QUE_DONE.OLDEST : Fld := { off := 0x90038, lo := 32, w := 32, stride := 0x0, acc := .ro, reset := 0x0, view := true }
def QUE_DONE.DONE : Fld := { off := 0x90038, lo := 0, w := 32, stride := 0x0, acc := .ro, reset := 0x0 }
def QUE_PROG.PLANNED : Fld := { off := 0x90040, lo := 32, w := 32, stride := 0x0, acc := .ro, reset := 0x0, view := true }
def QUE_PROG.COMMITTED : Fld := { off := 0x90040, lo := 0, w := 32, stride := 0x0, acc := .ro, reset := 0x0, view := true }
def QUE_ERR_LOG.STATUS : Fld := { off := 0x90048, lo := 56, w := 8, stride := 0x0, acc := .ro, reset := 0x0 }
def QUE_ERR_LOG.SUB : Fld := { off := 0x90048, lo := 48, w := 8, stride := 0x0, acc := .ro, reset := 0x0 }
def QUE_ERR_LOG.CAUSE : Fld := { off := 0x90048, lo := 44, w := 4, stride := 0x0, acc := .ro, reset := 0x0 }
def QUE_ERR_LOG.PID : Fld := { off := 0x90048, lo := 34, w := 10, stride := 0x0, acc := .ro, reset := 0x0 }
def QUE_ERR_LOG.QUEUE : Fld := { off := 0x90048, lo := 28, w := 6, stride := 0x0, acc := .ro, reset := 0x0 }
def QUE_ERR_SEQ.SEQ : Fld := { off := 0x90050, lo := 0, w := 32, stride := 0x0, acc := .ro, reset := 0x0 }
def QUE_ERR_KNOT.KNOT : Fld := { off := 0x90058, lo := 0, w := 64, stride := 0x0, acc := .ro, reset := 0x0 }
def QUE_EVENT.REFUSED : Fld := { off := 0x90060, lo := 1, w := 1, stride := 0x0, acc := .w1c, reset := 0x0 }
def QUE_EVENT.ERR : Fld := { off := 0x90060, lo := 0, w := 1, stride := 0x0, acc := .w1c, reset := 0x0 }
def QUE_DB.OVF : Fld := { off := 0x90100, lo := 63, w := 1, stride := 0x0, acc := .w1c, reset := 0x0 }
def QUE_DB.COUNT : Fld := { off := 0x90100, lo := 0, w := 48, stride := 0x0, acc := .ro, reset := 0x0 }
def QUE_DB_STALE.OVF : Fld := { off := 0x90108, lo := 63, w := 1, stride := 0x0, acc := .w1c, reset := 0x0 }
def QUE_DB_STALE.COUNT : Fld := { off := 0x90108, lo := 0, w := 48, stride := 0x0, acc := .ro, reset := 0x0 }
def QUE_DB_OVR.OVF : Fld := { off := 0x90110, lo := 63, w := 1, stride := 0x0, acc := .w1c, reset := 0x0 }
def QUE_DB_OVR.COUNT : Fld := { off := 0x90110, lo := 0, w := 48, stride := 0x0, acc := .ro, reset := 0x0 }
def QUE_KICK.OVF : Fld := { off := 0x90118, lo := 63, w := 1, stride := 0x0, acc := .w1c, reset := 0x0 }
def QUE_KICK.COUNT : Fld := { off := 0x90118, lo := 0, w := 48, stride := 0x0, acc := .ro, reset := 0x0 }
def QUE_KICK_LOST.OVF : Fld := { off := 0x90120, lo := 63, w := 1, stride := 0x0, acc := .w1c, reset := 0x0 }
def QUE_KICK_LOST.COUNT : Fld := { off := 0x90120, lo := 0, w := 48, stride := 0x0, acc := .ro, reset := 0x0 }
def QUE_FETCH.OVF : Fld := { off := 0x90128, lo := 63, w := 1, stride := 0x0, acc := .w1c, reset := 0x0 }
def QUE_FETCH.COUNT : Fld := { off := 0x90128, lo := 0, w := 48, stride := 0x0, acc := .ro, reset := 0x0 }
def QUE_REFUSED.OVF : Fld := { off := 0x90130, lo := 63, w := 1, stride := 0x0, acc := .w1c, reset := 0x0 }
def QUE_REFUSED.COUNT : Fld := { off := 0x90130, lo := 0, w := 48, stride := 0x0, acc := .ro, reset := 0x0 }
def QUE_CR.OVF : Fld := { off := 0x90138, lo := 63, w := 1, stride := 0x0, acc := .w1c, reset := 0x0 }
def QUE_CR.COUNT : Fld := { off := 0x90138, lo := 0, w := 48, stride := 0x0, acc := .ro, reset := 0x0 }
def QUE_CR_DROP.OVF : Fld := { off := 0x90140, lo := 63, w := 1, stride := 0x0, acc := .w1c, reset := 0x0 }
def QUE_CR_DROP.COUNT : Fld := { off := 0x90140, lo := 0, w := 48, stride := 0x0, acc := .ro, reset := 0x0 }
def QUE_BUDGET_MISS.OVF : Fld := { off := 0x90148, lo := 63, w := 1, stride := 0x0, acc := .w1c, reset := 0x0 }
def QUE_BUDGET_MISS.COUNT : Fld := { off := 0x90148, lo := 0, w := 48, stride := 0x0, acc := .ro, reset := 0x0 }
def CDC_PSEL.PID : Fld := { off := 0xA0000, lo := 0, w := 10, stride := 0x0, acc := .rw, reset := 0x0 }
def CDC_SLOT_ID.TABLE_ID : Fld := { off := 0xA0010, lo := 32, w := 32, stride := 0x10, acc := .ro, reset := 0x0, view := true }
def CDC_SLOT_ID.TAG : Fld := { off := 0xA0010, lo := 0, w := 32, stride := 0x10, acc := .ro, reset := 0x0, view := true }
def CDC_SLOT_ST.STATE : Fld := { off := 0xA0018, lo := 62, w := 2, stride := 0x10, acc := .ro, reset := 0x0, view := true }
def CDC_SLOT_ST.NCTX : Fld := { off := 0xA0018, lo := 56, w := 3, stride := 0x10, acc := .ro, reset := 0x0, view := true }
def CDC_SLOT_ST.GEN : Fld := { off := 0xA0018, lo := 48, w := 8, stride := 0x10, acc := .ro, reset := 0x0, view := true }
def CDC_SLOT_ST.REFS : Fld := { off := 0xA0018, lo := 0, w := 24, stride := 0x10, acc := .ro, reset := 0x0, view := true }
def CDC_ERR_LOG.STATUS : Fld := { off := 0xA0080, lo := 56, w := 8, stride := 0x0, acc := .ro, reset := 0x0 }
def CDC_ERR_LOG.CAUSE : Fld := { off := 0xA0080, lo := 52, w := 4, stride := 0x0, acc := .ro, reset := 0x0 }
def CDC_ERR_LOG.SRC : Fld := { off := 0xA0080, lo := 50, w := 2, stride := 0x0, acc := .ro, reset := 0x0 }
def CDC_ERR_LOG.PID : Fld := { off := 0xA0080, lo := 40, w := 10, stride := 0x0, acc := .ro, reset := 0x0 }
def CDC_ERR_LOG.ID : Fld := { off := 0xA0080, lo := 27, w := 13, stride := 0x0, acc := .ro, reset := 0x0 }
def CDC_ERR_LOG.SS : Fld := { off := 0xA0080, lo := 16, w := 5, stride := 0x0, acc := .ro, reset := 0x0 }
def CDC_ERR_ADDR.ADDR : Fld := { off := 0xA0088, lo := 0, w := 64, stride := 0x0, acc := .ro, reset := 0x0 }
def CDC_ERR_KNOT.KNOT : Fld := { off := 0xA0090, lo := 0, w := 64, stride := 0x0, acc := .ro, reset := 0x0 }
def CDC_DEC_BLK.OVF : Fld := { off := 0xA0100, lo := 63, w := 1, stride := 0x0, acc := .w1c, reset := 0x0 }
def CDC_DEC_BLK.COUNT : Fld := { off := 0xA0100, lo := 0, w := 48, stride := 0x0, acc := .ro, reset := 0x0 }
def CDC_ENC_BLK.OVF : Fld := { off := 0xA0108, lo := 63, w := 1, stride := 0x0, acc := .w1c, reset := 0x0 }
def CDC_ENC_BLK.COUNT : Fld := { off := 0xA0108, lo := 0, w := 48, stride := 0x0, acc := .ro, reset := 0x0 }
def CDC_RAW_BLK.OVF : Fld := { off := 0xA0110, lo := 63, w := 1, stride := 0x0, acc := .w1c, reset := 0x0 }
def CDC_RAW_BLK.COUNT : Fld := { off := 0xA0110, lo := 0, w := 48, stride := 0x0, acc := .ro, reset := 0x0 }
def CDC_FALLBACK.OVF : Fld := { off := 0xA0118, lo := 63, w := 1, stride := 0x0, acc := .w1c, reset := 0x0 }
def CDC_FALLBACK.COUNT : Fld := { off := 0xA0118, lo := 0, w := 48, stride := 0x0, acc := .ro, reset := 0x0 }
def CDC_LIT_SS.OVF : Fld := { off := 0xA0120, lo := 63, w := 1, stride := 0x0, acc := .w1c, reset := 0x0 }
def CDC_LIT_SS.COUNT : Fld := { off := 0xA0120, lo := 0, w := 48, stride := 0x0, acc := .ro, reset := 0x0 }
def CDC_TBL_MISS.OVF : Fld := { off := 0xA0128, lo := 63, w := 1, stride := 0x0, acc := .w1c, reset := 0x0 }
def CDC_TBL_MISS.COUNT : Fld := { off := 0xA0128, lo := 0, w := 48, stride := 0x0, acc := .ro, reset := 0x0 }
def CDC_BAD_BLK.OVF : Fld := { off := 0xA0130, lo := 63, w := 1, stride := 0x0, acc := .w1c, reset := 0x0 }
def CDC_BAD_BLK.COUNT : Fld := { off := 0xA0130, lo := 0, w := 48, stride := 0x0, acc := .ro, reset := 0x0 }
def CDC_CODED_BYTES.OVF : Fld := { off := 0xA0138, lo := 63, w := 1, stride := 0x0, acc := .w1c, reset := 0x0 }
def CDC_CODED_BYTES.COUNT : Fld := { off := 0xA0138, lo := 0, w := 48, stride := 0x0, acc := .ro, reset := 0x0 }
def CDC_RAW_BYTES.OVF : Fld := { off := 0xA0140, lo := 63, w := 1, stride := 0x0, acc := .w1c, reset := 0x0 }
def CDC_RAW_BYTES.COUNT : Fld := { off := 0xA0140, lo := 0, w := 48, stride := 0x0, acc := .ro, reset := 0x0 }
def CDC_VERIFY_WAIT.OVF : Fld := { off := 0xA0148, lo := 63, w := 1, stride := 0x0, acc := .w1c, reset := 0x0 }
def CDC_VERIFY_WAIT.COUNT : Fld := { off := 0xA0148, lo := 0, w := 48, stride := 0x0, acc := .ro, reset := 0x0 }
def MTX_SLOT_SEL.SLOT : Fld := { off := 0xB0000, lo := 0, w := 6, stride := 0x0, acc := .rw, reset := 0x0 }
def MTX_SLOT.STATE : Fld := { off := 0xB0008, lo := 62, w := 2, stride := 0x0, acc := .ro, reset := 0x0, view := true }
def MTX_SLOT.OWNED : Fld := { off := 0xB0008, lo := 61, w := 1, stride := 0x0, acc := .ro, reset := 0x0, view := true }
def MTX_SLOT.PID : Fld := { off := 0xB0008, lo := 51, w := 10, stride := 0x0, acc := .ro, reset := 0x0, view := true }
def MTX_SLOT.REFS : Fld := { off := 0xB0008, lo := 32, w := 9, stride := 0x0, acc := .ro, reset := 0x0, view := true }
def MTX_SLOT.LEN : Fld := { off := 0xB0008, lo := 0, w := 32, stride := 0x0, acc := .ro, reset := 0x0, view := true }
def MTX_SLOT_REC.ADDR : Fld := { off := 0xB0010, lo := 0, w := 64, stride := 0x0, acc := .ro, reset := 0x0, view := true }
def MTX_CHAN_SEL.CHAN : Fld := { off := 0xB0018, lo := 0, w := 4, stride := 0x0, acc := .rw, reset := 0x0 }
def MTX_CHAN.UNITS : Fld := { off := 0xB0020, lo := 32, w := 11, stride := 0x0, acc := .ro, reset := 0x0, view := true }
def MTX_CHAN.DGROUPS : Fld := { off := 0xB0020, lo := 22, w := 5, stride := 0x0, acc := .ro, reset := 0x0, view := true }
def MTX_CHAN.SRAM_KIB : Fld := { off := 0xB0020, lo := 0, w := 18, stride := 0x0, acc := .ro, reset := 0x0, view := true }
def MTX_ERR_LOG.STATUS : Fld := { off := 0xB0080, lo := 56, w := 8, stride := 0x0, acc := .ro, reset := 0x0 }
def MTX_ERR_LOG.CAUSE : Fld := { off := 0xB0080, lo := 52, w := 4, stride := 0x0, acc := .ro, reset := 0x0 }
def MTX_ERR_LOG.PID : Fld := { off := 0xB0080, lo := 42, w := 10, stride := 0x0, acc := .ro, reset := 0x0 }
def MTX_ERR_LOG.CORE : Fld := { off := 0xB0080, lo := 38, w := 4, stride := 0x0, acc := .ro, reset := 0x0 }
def MTX_ERR_LOG.SLOT : Fld := { off := 0xB0080, lo := 32, w := 6, stride := 0x0, acc := .ro, reset := 0x0 }
def MTX_ERR_LOG.UNIT : Fld := { off := 0xB0080, lo := 0, w := 32, stride := 0x0, acc := .ro, reset := 0x0 }
def MTX_ERR_KNOT.KNOT : Fld := { off := 0xB0088, lo := 0, w := 64, stride := 0x0, acc := .ro, reset := 0x0 }
def MTX_CMDS.OVF : Fld := { off := 0xB0100, lo := 63, w := 1, stride := 0x0, acc := .w1c, reset := 0x0 }
def MTX_CMDS.COUNT : Fld := { off := 0xB0100, lo := 0, w := 48, stride := 0x0, acc := .ro, reset := 0x0 }
def MTX_STEPS.OVF : Fld := { off := 0xB0108, lo := 63, w := 1, stride := 0x0, acc := .w1c, reset := 0x0 }
def MTX_STEPS.COUNT : Fld := { off := 0xB0108, lo := 0, w := 48, stride := 0x0, acc := .ro, reset := 0x0 }
def MTX_PRODUCTS.OVF : Fld := { off := 0xB0110, lo := 63, w := 1, stride := 0x0, acc := .w1c, reset := 0x0 }
def MTX_PRODUCTS.COUNT : Fld := { off := 0xB0110, lo := 0, w := 48, stride := 0x0, acc := .ro, reset := 0x0 }
def MTX_FUNC.OVF : Fld := { off := 0xB0118, lo := 63, w := 1, stride := 0x0, acc := .w1c, reset := 0x0 }
def MTX_FUNC.COUNT : Fld := { off := 0xB0118, lo := 0, w := 48, stride := 0x0, acc := .ro, reset := 0x0 }
def MTX_W_BYTES.OVF : Fld := { off := 0xB0120, lo := 63, w := 1, stride := 0x0, acc := .w1c, reset := 0x0 }
def MTX_W_BYTES.COUNT : Fld := { off := 0xB0120, lo := 0, w := 48, stride := 0x0, acc := .ro, reset := 0x0 }
def MTX_KV_BYTES.OVF : Fld := { off := 0xB0128, lo := 63, w := 1, stride := 0x0, acc := .w1c, reset := 0x0 }
def MTX_KV_BYTES.COUNT : Fld := { off := 0xB0128, lo := 0, w := 48, stride := 0x0, acc := .ro, reset := 0x0 }
def MTX_SPILL_BYTES.OVF : Fld := { off := 0xB0130, lo := 63, w := 1, stride := 0x0, acc := .w1c, reset := 0x0 }
def MTX_SPILL_BYTES.COUNT : Fld := { off := 0xB0130, lo := 0, w := 48, stride := 0x0, acc := .ro, reset := 0x0 }
def MTX_STALL_FETCH.OVF : Fld := { off := 0xB0138, lo := 63, w := 1, stride := 0x0, acc := .w1c, reset := 0x0 }
def MTX_STALL_FETCH.COUNT : Fld := { off := 0xB0138, lo := 0, w := 48, stride := 0x0, acc := .ro, reset := 0x0 }
def MTX_STALL_SHARE.OVF : Fld := { off := 0xB0140, lo := 63, w := 1, stride := 0x0, acc := .w1c, reset := 0x0 }
def MTX_STALL_SHARE.COUNT : Fld := { off := 0xB0140, lo := 0, w := 48, stride := 0x0, acc := .ro, reset := 0x0 }
def MTX_STALL_OTHER.OVF : Fld := { off := 0xB0148, lo := 63, w := 1, stride := 0x0, acc := .w1c, reset := 0x0 }
def MTX_STALL_OTHER.COUNT : Fld := { off := 0xB0148, lo := 0, w := 48, stride := 0x0, acc := .ro, reset := 0x0 }
def MTX_PLAN_MISS.OVF : Fld := { off := 0xB0150, lo := 63, w := 1, stride := 0x0, acc := .w1c, reset := 0x0 }
def MTX_PLAN_MISS.COUNT : Fld := { off := 0xB0150, lo := 0, w := 48, stride := 0x0, acc := .ro, reset := 0x0 }
def EMB_CHAN_SEL.CHAN : Fld := { off := 0xC0000, lo := 0, w := 4, stride := 0x0, acc := .rw, reset := 0x0 }
def EMB_CHAN.LANES : Fld := { off := 0xC0008, lo := 32, w := 6, stride := 0x0, acc := .ro, reset := 0x0, view := true }
def EMB_CHAN.SRAM_KIB : Fld := { off := 0xC0008, lo := 0, w := 18, stride := 0x0, acc := .ro, reset := 0x0, view := true }
def EMB_ERR_LOG.STATUS : Fld := { off := 0xC0080, lo := 56, w := 8, stride := 0x0, acc := .ro, reset := 0x0 }
def EMB_ERR_LOG.CAUSE : Fld := { off := 0xC0080, lo := 52, w := 4, stride := 0x0, acc := .ro, reset := 0x0 }
def EMB_ERR_LOG.PID : Fld := { off := 0xC0080, lo := 42, w := 10, stride := 0x0, acc := .ro, reset := 0x0 }
def EMB_ERR_LOG.CORE : Fld := { off := 0xC0080, lo := 38, w := 4, stride := 0x0, acc := .ro, reset := 0x0 }
def EMB_ERR_LOG.OPCODE : Fld := { off := 0xC0080, lo := 35, w := 3, stride := 0x0, acc := .ro, reset := 0x0 }
def EMB_ERR_LOG.POS : Fld := { off := 0xC0080, lo := 0, w := 32, stride := 0x0, acc := .ro, reset := 0x0 }
def EMB_ERR_KNOT.KNOT : Fld := { off := 0xC0088, lo := 0, w := 64, stride := 0x0, acc := .ro, reset := 0x0 }
def EMB_CMDS.OVF : Fld := { off := 0xC0100, lo := 63, w := 1, stride := 0x0, acc := .w1c, reset := 0x0 }
def EMB_CMDS.COUNT : Fld := { off := 0xC0100, lo := 0, w := 48, stride := 0x0, acc := .ro, reset := 0x0 }
def EMB_STEPS.OVF : Fld := { off := 0xC0108, lo := 63, w := 1, stride := 0x0, acc := .w1c, reset := 0x0 }
def EMB_STEPS.COUNT : Fld := { off := 0xC0108, lo := 0, w := 48, stride := 0x0, acc := .ro, reset := 0x0 }
def EMB_POSITIONS.OVF : Fld := { off := 0xC0110, lo := 63, w := 1, stride := 0x0, acc := .w1c, reset := 0x0 }
def EMB_POSITIONS.COUNT : Fld := { off := 0xC0110, lo := 0, w := 48, stride := 0x0, acc := .ro, reset := 0x0 }
def EMB_DUP.OVF : Fld := { off := 0xC0118, lo := 63, w := 1, stride := 0x0, acc := .w1c, reset := 0x0 }
def EMB_DUP.COUNT : Fld := { off := 0xC0118, lo := 0, w := 48, stride := 0x0, acc := .ro, reset := 0x0 }
def EMB_SKIPPED.OVF : Fld := { off := 0xC0120, lo := 63, w := 1, stride := 0x0, acc := .w1c, reset := 0x0 }
def EMB_SKIPPED.COUNT : Fld := { off := 0xC0120, lo := 0, w := 48, stride := 0x0, acc := .ro, reset := 0x0 }
def EMB_LINES_NEAR.OVF : Fld := { off := 0xC0128, lo := 63, w := 1, stride := 0x0, acc := .w1c, reset := 0x0 }
def EMB_LINES_NEAR.COUNT : Fld := { off := 0xC0128, lo := 0, w := 48, stride := 0x0, acc := .ro, reset := 0x0 }
def EMB_LINES_FAR.OVF : Fld := { off := 0xC0130, lo := 63, w := 1, stride := 0x0, acc := .w1c, reset := 0x0 }
def EMB_LINES_FAR.COUNT : Fld := { off := 0xC0130, lo := 0, w := 48, stride := 0x0, acc := .ro, reset := 0x0 }
def EMB_LINES_PEER.OVF : Fld := { off := 0xC0138, lo := 63, w := 1, stride := 0x0, acc := .w1c, reset := 0x0 }
def EMB_LINES_PEER.COUNT : Fld := { off := 0xC0138, lo := 0, w := 48, stride := 0x0, acc := .ro, reset := 0x0 }
def EMB_ROWS_APPLIED.OVF : Fld := { off := 0xC0140, lo := 63, w := 1, stride := 0x0, acc := .w1c, reset := 0x0 }
def EMB_ROWS_APPLIED.COUNT : Fld := { off := 0xC0140, lo := 0, w := 48, stride := 0x0, acc := .ro, reset := 0x0 }
def EMB_ROWS_WRITTEN.OVF : Fld := { off := 0xC0148, lo := 63, w := 1, stride := 0x0, acc := .w1c, reset := 0x0 }
def EMB_ROWS_WRITTEN.COUNT : Fld := { off := 0xC0148, lo := 0, w := 48, stride := 0x0, acc := .ro, reset := 0x0 }
def EMB_ROWS_REPLACED.OVF : Fld := { off := 0xC0150, lo := 63, w := 1, stride := 0x0, acc := .w1c, reset := 0x0 }
def EMB_ROWS_REPLACED.COUNT : Fld := { off := 0xC0150, lo := 0, w := 48, stride := 0x0, acc := .ro, reset := 0x0 }
def EMB_SCRATCH_BYTES.OVF : Fld := { off := 0xC0158, lo := 63, w := 1, stride := 0x0, acc := .w1c, reset := 0x0 }
def EMB_SCRATCH_BYTES.COUNT : Fld := { off := 0xC0158, lo := 0, w := 48, stride := 0x0, acc := .ro, reset := 0x0 }
def EMB_STALL_FETCH.OVF : Fld := { off := 0xC0160, lo := 63, w := 1, stride := 0x0, acc := .w1c, reset := 0x0 }
def EMB_STALL_FETCH.COUNT : Fld := { off := 0xC0160, lo := 0, w := 48, stride := 0x0, acc := .ro, reset := 0x0 }
def SRH_CHAN_SEL.CHAN : Fld := { off := 0xD0000, lo := 0, w := 4, stride := 0x0, acc := .rw, reset := 0x0 }
def SRH_CHAN.LANES : Fld := { off := 0xD0008, lo := 32, w := 6, stride := 0x0, acc := .ro, reset := 0x0, view := true }
def SRH_CHAN.SRAM_KIB : Fld := { off := 0xD0008, lo := 0, w := 18, stride := 0x0, acc := .ro, reset := 0x0, view := true }
def SRH_PSEL.PID : Fld := { off := 0xD0010, lo := 0, w := 10, stride := 0x0, acc := .rw, reset := 0x0 }
def SRH_PART.OWNER : Fld := { off := 0xD0018, lo := 63, w := 1, stride := 0x0, acc := .ro, reset := 0x0, view := true }
def SRH_MRG.ACTIVE : Fld := { off := 0xD0028, lo := 63, w := 1, stride := 0x0, acc := .ro, reset := 0x0, view := true }
def SRH_MRG.RESUMED : Fld := { off := 0xD0028, lo := 62, w := 1, stride := 0x0, acc := .ro, reset := 0x0, view := true }
def SRH_MRG.PHASE : Fld := { off := 0xD0028, lo := 59, w := 3, stride := 0x0, acc := .ro, reset := 0x0, view := true }
def SRH_MRG.PID : Fld := { off := 0xD0028, lo := 45, w := 10, stride := 0x0, acc := .ro, reset := 0x0, view := true }
def SRH_MRG.NEXT : Fld := { off := 0xD0028, lo := 0, w := 32, stride := 0x0, acc := .ro, reset := 0x0, view := true }
def SRH_MRG_IDX.ADDR : Fld := { off := 0xD0030, lo := 0, w := 64, stride := 0x0, acc := .ro, reset := 0x0, view := true }
def SRH_MRG_EPOCH.EPOCH : Fld := { off := 0xD0038, lo := 0, w := 64, stride := 0x0, acc := .ro, reset := 0x0, view := true }
def SRH_ERR_LOG.STATUS : Fld := { off := 0xD0080, lo := 56, w := 8, stride := 0x0, acc := .ro, reset := 0x0 }
def SRH_ERR_LOG.CAUSE : Fld := { off := 0xD0080, lo := 52, w := 4, stride := 0x0, acc := .ro, reset := 0x0 }
def SRH_ERR_LOG.PID : Fld := { off := 0xD0080, lo := 42, w := 10, stride := 0x0, acc := .ro, reset := 0x0 }
def SRH_ERR_LOG.CORE : Fld := { off := 0xD0080, lo := 38, w := 4, stride := 0x0, acc := .ro, reset := 0x0 }
def SRH_ERR_LOG.OPCODE : Fld := { off := 0xD0080, lo := 35, w := 3, stride := 0x0, acc := .ro, reset := 0x0 }
def SRH_ERR_LOG.POS : Fld := { off := 0xD0080, lo := 0, w := 32, stride := 0x0, acc := .ro, reset := 0x0 }
def SRH_ERR_KNOT.KNOT : Fld := { off := 0xD0088, lo := 0, w := 64, stride := 0x0, acc := .ro, reset := 0x0 }
def SRH_EVENT.MERGE_LOST : Fld := { off := 0xD0090, lo := 2, w := 1, stride := 0x0, acc := .w1c, reset := 0x0 }
def SRH_EVENT.MERGE_RESUMED : Fld := { off := 0xD0090, lo := 1, w := 1, stride := 0x0, acc := .w1c, reset := 0x0 }
def SRH_EVENT.MERGE_DONE : Fld := { off := 0xD0090, lo := 0, w := 1, stride := 0x0, acc := .w1c, reset := 0x0 }
def SRH_CMDS.OVF : Fld := { off := 0xD0100, lo := 63, w := 1, stride := 0x0, acc := .w1c, reset := 0x0 }
def SRH_CMDS.COUNT : Fld := { off := 0xD0100, lo := 0, w := 48, stride := 0x0, acc := .ro, reset := 0x0 }
def SRH_STEPS.OVF : Fld := { off := 0xD0108, lo := 63, w := 1, stride := 0x0, acc := .w1c, reset := 0x0 }
def SRH_STEPS.COUNT : Fld := { off := 0xD0108, lo := 0, w := 48, stride := 0x0, acc := .ro, reset := 0x0 }
def SRH_COMPARES.OVF : Fld := { off := 0xD0110, lo := 63, w := 1, stride := 0x0, acc := .w1c, reset := 0x0 }
def SRH_COMPARES.COUNT : Fld := { off := 0xD0110, lo := 0, w := 48, stride := 0x0, acc := .ro, reset := 0x0 }
def SRH_CODE_BYTES.OVF : Fld := { off := 0xD0118, lo := 63, w := 1, stride := 0x0, acc := .w1c, reset := 0x0 }
def SRH_CODE_BYTES.COUNT : Fld := { off := 0xD0118, lo := 0, w := 48, stride := 0x0, acc := .ro, reset := 0x0 }
def SRH_SLOW_SEG.OVF : Fld := { off := 0xD0120, lo := 63, w := 1, stride := 0x0, acc := .w1c, reset := 0x0 }
def SRH_SLOW_SEG.COUNT : Fld := { off := 0xD0120, lo := 0, w := 48, stride := 0x0, acc := .ro, reset := 0x0 }
def SRH_ROUNDS.OVF : Fld := { off := 0xD0128, lo := 63, w := 1, stride := 0x0, acc := .w1c, reset := 0x0 }
def SRH_ROUNDS.COUNT : Fld := { off := 0xD0128, lo := 0, w := 48, stride := 0x0, acc := .ro, reset := 0x0 }
def SRH_TOMB_VISIT.OVF : Fld := { off := 0xD0130, lo := 63, w := 1, stride := 0x0, acc := .w1c, reset := 0x0 }
def SRH_TOMB_VISIT.COUNT : Fld := { off := 0xD0130, lo := 0, w := 48, stride := 0x0, acc := .ro, reset := 0x0 }
def SRH_SHORT.OVF : Fld := { off := 0xD0138, lo := 63, w := 1, stride := 0x0, acc := .w1c, reset := 0x0 }
def SRH_SHORT.COUNT : Fld := { off := 0xD0138, lo := 0, w := 48, stride := 0x0, acc := .ro, reset := 0x0 }
def SRH_POST_LOSS.OVF : Fld := { off := 0xD0140, lo := 63, w := 1, stride := 0x0, acc := .w1c, reset := 0x0 }
def SRH_POST_LOSS.COUNT : Fld := { off := 0xD0140, lo := 0, w := 48, stride := 0x0, acc := .ro, reset := 0x0 }
def SRH_INSERTED.OVF : Fld := { off := 0xD0148, lo := 63, w := 1, stride := 0x0, acc := .w1c, reset := 0x0 }
def SRH_INSERTED.COUNT : Fld := { off := 0xD0148, lo := 0, w := 48, stride := 0x0, acc := .ro, reset := 0x0 }
def SRH_DELETED.OVF : Fld := { off := 0xD0150, lo := 63, w := 1, stride := 0x0, acc := .w1c, reset := 0x0 }
def SRH_DELETED.COUNT : Fld := { off := 0xD0150, lo := 0, w := 48, stride := 0x0, acc := .ro, reset := 0x0 }
def SRH_DEL_NOOP.OVF : Fld := { off := 0xD0158, lo := 63, w := 1, stride := 0x0, acc := .w1c, reset := 0x0 }
def SRH_DEL_NOOP.COUNT : Fld := { off := 0xD0158, lo := 0, w := 48, stride := 0x0, acc := .ro, reset := 0x0 }
def SRH_LINKED.OVF : Fld := { off := 0xD0160, lo := 63, w := 1, stride := 0x0, acc := .w1c, reset := 0x0 }
def SRH_LINKED.COUNT : Fld := { off := 0xD0160, lo := 0, w := 48, stride := 0x0, acc := .ro, reset := 0x0 }
def SRH_PURGED.OVF : Fld := { off := 0xD0168, lo := 63, w := 1, stride := 0x0, acc := .w1c, reset := 0x0 }
def SRH_PURGED.COUNT : Fld := { off := 0xD0168, lo := 0, w := 48, stride := 0x0, acc := .ro, reset := 0x0 }
def SRH_CONFLICT.OVF : Fld := { off := 0xD0170, lo := 63, w := 1, stride := 0x0, acc := .w1c, reset := 0x0 }
def SRH_CONFLICT.COUNT : Fld := { off := 0xD0170, lo := 0, w := 48, stride := 0x0, acc := .ro, reset := 0x0 }
def SRH_STALL_FETCH.OVF : Fld := { off := 0xD0178, lo := 63, w := 1, stride := 0x0, acc := .w1c, reset := 0x0 }
def SRH_STALL_FETCH.COUNT : Fld := { off := 0xD0178, lo := 0, w := 48, stride := 0x0, acc := .ro, reset := 0x0 }
def POOL_CHAN_SEL.CHAN : Fld := { off := 0xE0000, lo := 0, w := 4, stride := 0x0, acc := .rw, reset := 0x0 }
def POOL_CHAN.UNITS : Fld := { off := 0xE0008, lo := 32, w := 6, stride := 0x0, acc := .ro, reset := 0x0, view := true }
def POOL_CHAN.SRAM_KIB : Fld := { off := 0xE0008, lo := 0, w := 18, stride := 0x0, acc := .ro, reset := 0x0, view := true }
def POOL_ERR_LOG.STATUS : Fld := { off := 0xE0080, lo := 56, w := 8, stride := 0x0, acc := .ro, reset := 0x0 }
def POOL_ERR_LOG.OPCODE : Fld := { off := 0xE0080, lo := 52, w := 4, stride := 0x0, acc := .ro, reset := 0x0 }
def POOL_ERR_LOG.PID : Fld := { off := 0xE0080, lo := 42, w := 10, stride := 0x0, acc := .ro, reset := 0x0 }
def POOL_ERR_LOG.CORE : Fld := { off := 0xE0080, lo := 38, w := 4, stride := 0x0, acc := .ro, reset := 0x0 }
def POOL_ERR_LOG.UNIT : Fld := { off := 0xE0080, lo := 0, w := 32, stride := 0x0, acc := .ro, reset := 0x0 }
def POOL_ERR_KNOT.KNOT : Fld := { off := 0xE0088, lo := 0, w := 64, stride := 0x0, acc := .ro, reset := 0x0 }
def POOL_CMDS.OVF : Fld := { off := 0xE0100, lo := 63, w := 1, stride := 0x0, acc := .w1c, reset := 0x0 }
def POOL_CMDS.COUNT : Fld := { off := 0xE0100, lo := 0, w := 48, stride := 0x0, acc := .ro, reset := 0x0 }
def POOL_STEPS.OVF : Fld := { off := 0xE0108, lo := 63, w := 1, stride := 0x0, acc := .w1c, reset := 0x0 }
def POOL_STEPS.COUNT : Fld := { off := 0xE0108, lo := 0, w := 48, stride := 0x0, acc := .ro, reset := 0x0 }
def POOL_RD_BYTES.OVF : Fld := { off := 0xE0110, lo := 63, w := 1, stride := 0x0, acc := .w1c, reset := 0x0 }
def POOL_RD_BYTES.COUNT : Fld := { off := 0xE0110, lo := 0, w := 48, stride := 0x0, acc := .ro, reset := 0x0 }
def POOL_WR_BYTES.OVF : Fld := { off := 0xE0118, lo := 63, w := 1, stride := 0x0, acc := .w1c, reset := 0x0 }
def POOL_WR_BYTES.COUNT : Fld := { off := 0xE0118, lo := 0, w := 48, stride := 0x0, acc := .ro, reset := 0x0 }
def POOL_TERMS.OVF : Fld := { off := 0xE0120, lo := 63, w := 1, stride := 0x0, acc := .w1c, reset := 0x0 }
def POOL_TERMS.COUNT : Fld := { off := 0xE0120, lo := 0, w := 48, stride := 0x0, acc := .ro, reset := 0x0 }
def POOL_HASH_BYTES.OVF : Fld := { off := 0xE0128, lo := 63, w := 1, stride := 0x0, acc := .w1c, reset := 0x0 }
def POOL_HASH_BYTES.COUNT : Fld := { off := 0xE0128, lo := 0, w := 48, stride := 0x0, acc := .ro, reset := 0x0 }
def TXN_CTRL.HOLD : Fld := { off := 0xF0000, lo := 32, w := 16, stride := 0x0, acc := .rw, reset := 0x400 }
def TXN_CTRL.RESEND : Fld := { off := 0xF0000, lo := 16, w := 16, stride := 0x0, acc := .rw, reset := 0x100 }
def TXN_CTRL.LEAD : Fld := { off := 0xF0000, lo := 0, w := 8, stride := 0x0, acc := .rw, reset := 0x8 }
def TXN_STATUS.COORD : Fld := { off := 0xF0008, lo := 32, w := 13, stride := 0x0, acc := .ro, reset := 0x0, view := true }
def TXN_STATUS.OPEN : Fld := { off := 0xF0008, lo := 0, w := 13, stride := 0x0, acc := .ro, reset := 0x0, view := true }
def TXN_SEL.OCID : Fld := { off := 0xF0010, lo := 32, w := 13, stride := 0x0, acc := .rw, reset := 0x0 }
def TXN_SEL.ID : Fld := { off := 0xF0010, lo := 0, w := 24, stride := 0x0, acc := .rw, reset := 0x0 }
def TXN_VIEW.FOUND : Fld := { off := 0xF0018, lo := 63, w := 1, stride := 0x0, acc := .ro, reset := 0x0 }
def TXN_VIEW.STATE : Fld := { off := 0xF0018, lo := 60, w := 3, stride := 0x0, acc := .ro, reset := 0x0 }
def TXN_VIEW.COORD : Fld := { off := 0xF0018, lo := 59, w := 1, stride := 0x0, acc := .ro, reset := 0x0 }
def TXN_VIEW.NPART : Fld := { off := 0xF0018, lo := 54, w := 5, stride := 0x0, acc := .ro, reset := 0x0 }
def TXN_VIEW.SLED : Fld := { off := 0xF0018, lo := 50, w := 4, stride := 0x0, acc := .ro, reset := 0x0 }
def TXN_VIEW.PID : Fld := { off := 0xF0018, lo := 40, w := 10, stride := 0x0, acc := .ro, reset := 0x0 }
def TXN_VIEW.STATUS : Fld := { off := 0xF0018, lo := 32, w := 8, stride := 0x0, acc := .ro, reset := 0x0 }
def TXN_VIEW.SUB : Fld := { off := 0xF0018, lo := 24, w := 8, stride := 0x0, acc := .ro, reset := 0x0 }
def TXN_VIEW_KNOT.KNOT : Fld := { off := 0xF0020, lo := 0, w := 64, stride := 0x0, acc := .ro, reset := 0x0 }
def TXN_FORCE.OP : Fld := { off := 0xF0028, lo := 62, w := 2, stride := 0x0, acc := .wo, reset := 0x0 }
def TXN_FORCE.OCID : Fld := { off := 0xF0028, lo := 32, w := 13, stride := 0x0, acc := .wo, reset := 0x0 }
def TXN_FORCE.ID : Fld := { off := 0xF0028, lo := 0, w := 24, stride := 0x0, acc := .wo, reset := 0x0 }
def TXN_LOG.STATUS : Fld := { off := 0xF0030, lo := 56, w := 8, stride := 0x0, acc := .ro, reset := 0x0 }
def TXN_LOG.SUB : Fld := { off := 0xF0030, lo := 48, w := 8, stride := 0x0, acc := .ro, reset := 0x0 }
def TXN_LOG.COORD : Fld := { off := 0xF0030, lo := 47, w := 1, stride := 0x0, acc := .ro, reset := 0x0 }
def TXN_LOG.PID : Fld := { off := 0xF0030, lo := 37, w := 10, stride := 0x0, acc := .ro, reset := 0x0 }
def TXN_LOG.OCID : Fld := { off := 0xF0030, lo := 24, w := 13, stride := 0x0, acc := .ro, reset := 0x0 }
def TXN_LOG.ID : Fld := { off := 0xF0030, lo := 0, w := 24, stride := 0x0, acc := .ro, reset := 0x0 }
def TXN_LOG_KNOT.KNOT : Fld := { off := 0xF0038, lo := 0, w := 64, stride := 0x0, acc := .ro, reset := 0x0 }
def TXN_EVENT.ORPHAN : Fld := { off := 0xF0040, lo := 2, w := 1, stride := 0x0, acc := .w1c, reset := 0x0 }
def TXN_EVENT.POOL_FAIL : Fld := { off := 0xF0040, lo := 1, w := 1, stride := 0x0, acc := .w1c, reset := 0x0 }
def TXN_EVENT.LATE : Fld := { off := 0xF0040, lo := 0, w := 1, stride := 0x0, acc := .w1c, reset := 0x0 }
def TXN_PREPARED.OVF : Fld := { off := 0xF0100, lo := 63, w := 1, stride := 0x0, acc := .w1c, reset := 0x0 }
def TXN_PREPARED.COUNT : Fld := { off := 0xF0100, lo := 0, w := 48, stride := 0x0, acc := .ro, reset := 0x0 }
def TXN_COMMITTED.OVF : Fld := { off := 0xF0108, lo := 63, w := 1, stride := 0x0, acc := .w1c, reset := 0x0 }
def TXN_COMMITTED.COUNT : Fld := { off := 0xF0108, lo := 0, w := 48, stride := 0x0, acc := .ro, reset := 0x0 }
def TXN_ABORTED.OVF : Fld := { off := 0xF0110, lo := 63, w := 1, stride := 0x0, acc := .w1c, reset := 0x0 }
def TXN_ABORTED.COUNT : Fld := { off := 0xF0110, lo := 0, w := 48, stride := 0x0, acc := .ro, reset := 0x0 }
def TXN_CONFLICT.OVF : Fld := { off := 0xF0118, lo := 63, w := 1, stride := 0x0, acc := .w1c, reset := 0x0 }
def TXN_CONFLICT.COUNT : Fld := { off := 0xF0118, lo := 0, w := 48, stride := 0x0, acc := .ro, reset := 0x0 }
def TXN_POOL_FAIL.OVF : Fld := { off := 0xF0120, lo := 63, w := 1, stride := 0x0, acc := .w1c, reset := 0x0 }
def TXN_POOL_FAIL.COUNT : Fld := { off := 0xF0120, lo := 0, w := 48, stride := 0x0, acc := .ro, reset := 0x0 }
def TXN_LATE.OVF : Fld := { off := 0xF0128, lo := 63, w := 1, stride := 0x0, acc := .w1c, reset := 0x0 }
def TXN_LATE.COUNT : Fld := { off := 0xF0128, lo := 0, w := 48, stride := 0x0, acc := .ro, reset := 0x0 }
def TXN_LOCK_WAIT.OVF : Fld := { off := 0xF0130, lo := 63, w := 1, stride := 0x0, acc := .w1c, reset := 0x0 }
def TXN_LOCK_WAIT.COUNT : Fld := { off := 0xF0130, lo := 0, w := 48, stride := 0x0, acc := .ro, reset := 0x0 }
def TXN_LOCAL.OVF : Fld := { off := 0xF0138, lo := 63, w := 1, stride := 0x0, acc := .w1c, reset := 0x0 }
def TXN_LOCAL.COUNT : Fld := { off := 0xF0138, lo := 0, w := 48, stride := 0x0, acc := .ro, reset := 0x0 }
def TXN_PUB_OK.OVF : Fld := { off := 0xF0140, lo := 63, w := 1, stride := 0x0, acc := .w1c, reset := 0x0 }
def TXN_PUB_OK.COUNT : Fld := { off := 0xF0140, lo := 0, w := 48, stride := 0x0, acc := .ro, reset := 0x0 }
def TXN_PUB_NOOP.OVF : Fld := { off := 0xF0148, lo := 63, w := 1, stride := 0x0, acc := .w1c, reset := 0x0 }
def TXN_PUB_NOOP.COUNT : Fld := { off := 0xF0148, lo := 0, w := 48, stride := 0x0, acc := .ro, reset := 0x0 }
def TXN_PUB_CONFLICT.OVF : Fld := { off := 0xF0150, lo := 63, w := 1, stride := 0x0, acc := .w1c, reset := 0x0 }
def TXN_PUB_CONFLICT.COUNT : Fld := { off := 0xF0150, lo := 0, w := 48, stride := 0x0, acc := .ro, reset := 0x0 }
def SEM.V : Fld := { off := 0x100000, lo := 63, w := 1, stride := 0x8, acc := .ro, reset := 0x0, view := true }
def SEM.KIND : Fld := { off := 0x100000, lo := 61, w := 2, stride := 0x8, acc := .ro, reset := 0x0, view := true }
def SEM.PID : Fld := { off := 0x100000, lo := 50, w := 10, stride := 0x8, acc := .ro, reset := 0x0, view := true }
def SEM.NM1 : Fld := { off := 0x100000, lo := 40, w := 8, stride := 0x8, acc := .ro, reset := 0x0, view := true }
def SEM.WAITERS : Fld := { off := 0x100000, lo := 32, w := 8, stride := 0x8, acc := .ro, reset := 0x0, view := true }
def SEM.VALUE : Fld := { off := 0x100000, lo := 0, w := 32, stride := 0x8, acc := .rw, reset := 0x0, view := true }
def STO_CTRL.FAIL_KNOTS : Fld := { off := 0x180000, lo := 16, w := 24, stride := 0x0, acc := .rw, reset := 0x3D0900 }
def STO_CTRL.SP2 : Fld := { off := 0x180000, lo := 2, w := 1, stride := 0x0, acc := .ro, reset := 0x0, view := true }
def STO_CTRL.AUTO_REBUILD : Fld := { off := 0x180000, lo := 1, w := 1, stride := 0x0, acc := .rws, reset := 0x1 }
def STO_CTRL.MIG_EN : Fld := { off := 0x180000, lo := 0, w := 1, stride := 0x0, acc := .rw, reset := 0x1 }
def STO_REBUILD.ACTIVE : Fld := { off := 0x180008, lo := 63, w := 1, stride := 0x0, acc := .ro, reset := 0x0 }
def STO_REBUILD.RESUMED : Fld := { off := 0x180008, lo := 62, w := 1, stride := 0x0, acc := .ro, reset := 0x0 }
def STO_REBUILD.CHAN : Fld := { off := 0x180008, lo := 56, w := 4, stride := 0x0, acc := .rws, reset := 0x0 }
def STO_REBUILD.POS : Fld := { off := 0x180008, lo := 52, w := 4, stride := 0x0, acc := .ro, reset := 0x0 }
def STO_REBUILD.PORT : Fld := { off := 0x180008, lo := 48, w := 4, stride := 0x0, acc := .ro, reset := 0x0 }
def STO_REBUILD.INTERVAL : Fld := { off := 0x180008, lo := 32, w := 16, stride := 0x0, acc := .rws, reset := 0x400 }
def STO_REBUILD.NEXT : Fld := { off := 0x180008, lo := 0, w := 32, stride := 0x0, acc := .ro, reset := 0x0 }
def STO_NEAR.FREE : Fld := { off := 0x180010, lo := 16, w := 24, stride := 0x0, acc := .ro, reset := 0x0, view := true }
def STO_NEAR.STACK_UP : Fld := { off := 0x180010, lo := 0, w := 8, stride := 0x0, acc := .ro, reset := 0x0 }
def STO_MIG.PROMOTE_MAX : Fld := { off := 0x180018, lo := 32, w := 16, stride := 0x0, acc := .rw, reset := 0x4 }
def STO_MIG.QUEUED : Fld := { off := 0x180018, lo := 0, w := 32, stride := 0x0, acc := .ro, reset := 0x0, view := true }
def STO_RGN_SEL.REGION : Fld := { off := 0x180020, lo := 0, w := 8, stride := 0x0, acc := .rw, reset := 0x0 }
def STO_RGN.V : Fld := { off := 0x180028, lo := 63, w := 1, stride := 0x0, acc := .ro, reset := 0x0, view := true }
def STO_RGN.LOST : Fld := { off := 0x180028, lo := 62, w := 1, stride := 0x0, acc := .ro, reset := 0x0 }
def STO_RGN.TIER : Fld := { off := 0x180028, lo := 60, w := 2, stride := 0x0, acc := .ro, reset := 0x0, view := true }
def STO_RGN.PROT : Fld := { off := 0x180028, lo := 57, w := 3, stride := 0x0, acc := .ro, reset := 0x0, view := true }
def STO_RGN.REACH : Fld := { off := 0x180028, lo := 56, w := 1, stride := 0x0, acc := .ro, reset := 0x0, view := true }
def STO_RGN.MEMBER : Fld := { off := 0x180028, lo := 52, w := 4, stride := 0x0, acc := .ro, reset := 0x0, view := true }
def STO_RGN.NROWS : Fld := { off := 0x180028, lo := 26, w := 26, stride := 0x0, acc := .ro, reset := 0x0, view := true }
def STO_RGN.ROW_BASE : Fld := { off := 0x180028, lo := 0, w := 26, stride := 0x0, acc := .ro, reset := 0x0, view := true }
def STO_RGN_USE.QUOTA : Fld := { off := 0x180030, lo := 40, w := 24, stride := 0x0, acc := .ro, reset := 0x0, view := true }
def STO_RGN_USE.RESIDENT : Fld := { off := 0x180030, lo := 16, w := 24, stride := 0x0, acc := .ro, reset := 0x0, view := true }
def STO_CMD.OP : Fld := { off := 0x180038, lo := 60, w := 4, stride := 0x0, acc := .wo, reset := 0x0 }
def STO_CMD.REGION : Fld := { off := 0x180038, lo := 52, w := 8, stride := 0x0, acc := .wo, reset := 0x0 }
def STO_CMD.POS : Fld := { off := 0x180038, lo := 48, w := 4, stride := 0x0, acc := .wo, reset := 0x0 }
def STO_CMD_STATUS.BUSY : Fld := { off := 0x180040, lo := 63, w := 1, stride := 0x0, acc := .ro, reset := 0x0 }
def STO_CMD_STATUS.ERR : Fld := { off := 0x180040, lo := 62, w := 1, stride := 0x0, acc := .w1c, reset := 0x0 }
def STO_EVENT.SCRUB_FIX : Fld := { off := 0x180048, lo := 6, w := 1, stride := 0x0, acc := .w1c, reset := 0x0 }
def STO_EVENT.SHADOW_DONE : Fld := { off := 0x180048, lo := 5, w := 1, stride := 0x0, acc := .w1c, reset := 0x0 }
def STO_EVENT.STACK_FAIL : Fld := { off := 0x180048, lo := 4, w := 1, stride := 0x0, acc := .w1c, reset := 0x0 }
def STO_EVENT.LOSS : Fld := { off := 0x180048, lo := 3, w := 1, stride := 0x0, acc := .w1c, reset := 0x0 }
def STO_EVENT.REBUILD_DONE : Fld := { off := 0x180048, lo := 2, w := 1, stride := 0x0, acc := .w1c, reset := 0x0 }
def STO_EVENT.SLED_FAILED : Fld := { off := 0x180048, lo := 1, w := 1, stride := 0x0, acc := .w1c, reset := 0x0 }
def STO_EVENT.SLED_SUSPECT : Fld := { off := 0x180048, lo := 0, w := 1, stride := 0x0, acc := .w1c, reset := 0x0 }
def STO_SHADOW.STATE : Fld := { off := 0x180050, lo := 61, w := 3, stride := 0x0, acc := .ro, reset := 0x0 }
def STO_SHADOW.MODE : Fld := { off := 0x180050, lo := 56, w := 2, stride := 0x0, acc := .rw, reset := 0x0 }
def STO_SHADOW.SRC_HID : Fld := { off := 0x180050, lo := 47, w := 9, stride := 0x0, acc := .rw, reset := 0x0 }
def STO_SHADOW.PID : Fld := { off := 0x180050, lo := 37, w := 10, stride := 0x0, acc := .rw, reset := 0x0 }
def STO_SHADOW.NTRIAL : Fld := { off := 0x180050, lo := 0, w := 32, stride := 0x0, acc := .rw, reset := 0x0 }
def STO_SHADOW_TRIAL.ADDR : Fld := { off := 0x180058, lo := 0, w := 64, stride := 0x0, acc := .rw, reset := 0x0 }
def STO_SHADOW_LOG.STATUS : Fld := { off := 0x180060, lo := 56, w := 8, stride := 0x0, acc := .ro, reset := 0x0 }
def STO_SHADOW_LOG.PHASE : Fld := { off := 0x180060, lo := 53, w := 3, stride := 0x0, acc := .ro, reset := 0x0 }
def STO_SHADOW_LOG.REGION : Fld := { off := 0x180060, lo := 32, w := 8, stride := 0x0, acc := .ro, reset := 0x0 }
def STO_SHADOW_LOG.ENTRY : Fld := { off := 0x180060, lo := 0, w := 32, stride := 0x0, acc := .ro, reset := 0x0 }
def STO_ERR_LOG.STATUS : Fld := { off := 0x180080, lo := 56, w := 8, stride := 0x0, acc := .ro, reset := 0x0 }
def STO_ERR_LOG.CAUSE : Fld := { off := 0x180080, lo := 52, w := 4, stride := 0x0, acc := .ro, reset := 0x0 }
def STO_ERR_LOG.POS : Fld := { off := 0x180080, lo := 48, w := 4, stride := 0x0, acc := .ro, reset := 0x0 }
def STO_ERR_LOG.REGION : Fld := { off := 0x180080, lo := 40, w := 8, stride := 0x0, acc := .ro, reset := 0x0 }
def STO_ERR_LOG.ROW : Fld := { off := 0x180080, lo := 0, w := 26, stride := 0x0, acc := .ro, reset := 0x0 }
def STO_ERR_ADDR.ADDR : Fld := { off := 0x180088, lo := 0, w := 64, stride := 0x0, acc := .ro, reset := 0x0 }
def STO_ERR_KNOT.KNOT : Fld := { off := 0x180090, lo := 0, w := 64, stride := 0x0, acc := .ro, reset := 0x0 }
def STO_SLED.STATE : Fld := { off := 0x180200, lo := 61, w := 3, stride := 0x8, acc := .ro, reset := 0x0 }
def STO_SLED.PORT : Fld := { off := 0x180200, lo := 52, w := 4, stride := 0x8, acc := .ro, reset := 0x0 }
def STO_SLED.CAUSE : Fld := { off := 0x180200, lo := 48, w := 4, stride := 0x8, acc := .ro, reset := 0x0 }
def STO_SLED.ROWS_MAX : Fld := { off := 0x180200, lo := 0, w := 32, stride := 0x8, acc := .ro, reset := 0x0 }
def STO_SLED_ID.SERIAL : Fld := { off := 0x180280, lo := 0, w := 64, stride := 0x8, acc := .ro, reset := 0x0 }
def STO_NEAR_RD.OVF : Fld := { off := 0x180400, lo := 63, w := 1, stride := 0x0, acc := .w1c, reset := 0x0 }
def STO_NEAR_RD.COUNT : Fld := { off := 0x180400, lo := 0, w := 48, stride := 0x0, acc := .ro, reset := 0x0 }
def STO_FAR_RD.OVF : Fld := { off := 0x180408, lo := 63, w := 1, stride := 0x0, acc := .w1c, reset := 0x0 }
def STO_FAR_RD.COUNT : Fld := { off := 0x180408, lo := 0, w := 48, stride := 0x0, acc := .ro, reset := 0x0 }
def STO_FAR_WR.OVF : Fld := { off := 0x180410, lo := 63, w := 1, stride := 0x0, acc := .w1c, reset := 0x0 }
def STO_FAR_WR.COUNT : Fld := { off := 0x180410, lo := 0, w := 48, stride := 0x0, acc := .ro, reset := 0x0 }
def STO_PARITY.OVF : Fld := { off := 0x180418, lo := 63, w := 1, stride := 0x0, acc := .w1c, reset := 0x0 }
def STO_PARITY.COUNT : Fld := { off := 0x180418, lo := 0, w := 48, stride := 0x0, acc := .ro, reset := 0x0 }
def STO_PROMOTE.OVF : Fld := { off := 0x180420, lo := 63, w := 1, stride := 0x0, acc := .w1c, reset := 0x0 }
def STO_PROMOTE.COUNT : Fld := { off := 0x180420, lo := 0, w := 48, stride := 0x0, acc := .ro, reset := 0x0 }
def STO_DEMOTE.OVF : Fld := { off := 0x180428, lo := 63, w := 1, stride := 0x0, acc := .w1c, reset := 0x0 }
def STO_DEMOTE.COUNT : Fld := { off := 0x180428, lo := 0, w := 48, stride := 0x0, acc := .ro, reset := 0x0 }
def STO_WRITEBACK.OVF : Fld := { off := 0x180430, lo := 63, w := 1, stride := 0x0, acc := .w1c, reset := 0x0 }
def STO_WRITEBACK.COUNT : Fld := { off := 0x180430, lo := 0, w := 48, stride := 0x0, acc := .ro, reset := 0x0 }
def STO_DEMOTE_CANCEL.OVF : Fld := { off := 0x180438, lo := 63, w := 1, stride := 0x0, acc := .w1c, reset := 0x0 }
def STO_DEMOTE_CANCEL.COUNT : Fld := { off := 0x180438, lo := 0, w := 48, stride := 0x0, acc := .ro, reset := 0x0 }
def STO_RECON.OVF : Fld := { off := 0x180440, lo := 63, w := 1, stride := 0x0, acc := .w1c, reset := 0x0 }
def STO_RECON.COUNT : Fld := { off := 0x180440, lo := 0, w := 48, stride := 0x0, acc := .ro, reset := 0x0 }
def STO_NEAR_FIX.OVF : Fld := { off := 0x180448, lo := 63, w := 1, stride := 0x0, acc := .w1c, reset := 0x0 }
def STO_NEAR_FIX.COUNT : Fld := { off := 0x180448, lo := 0, w := 48, stride := 0x0, acc := .ro, reset := 0x0 }
def STO_FAR_FIX.OVF : Fld := { off := 0x180450, lo := 63, w := 1, stride := 0x0, acc := .w1c, reset := 0x0 }
def STO_FAR_FIX.COUNT : Fld := { off := 0x180450, lo := 0, w := 48, stride := 0x0, acc := .ro, reset := 0x0 }
def STO_REBUILD_ROWS.OVF : Fld := { off := 0x180458, lo := 63, w := 1, stride := 0x0, acc := .w1c, reset := 0x0 }
def STO_REBUILD_ROWS.COUNT : Fld := { off := 0x180458, lo := 0, w := 48, stride := 0x0, acc := .ro, reset := 0x0 }
def STO_SCRUB_FIX.OVF : Fld := { off := 0x180460, lo := 63, w := 1, stride := 0x0, acc := .w1c, reset := 0x0 }
def STO_SCRUB_FIX.COUNT : Fld := { off := 0x180460, lo := 0, w := 48, stride := 0x0, acc := .ro, reset := 0x0 }
def STO_EC_DELTA.OVF : Fld := { off := 0x180468, lo := 63, w := 1, stride := 0x0, acc := .w1c, reset := 0x0 }
def STO_EC_DELTA.COUNT : Fld := { off := 0x180468, lo := 0, w := 48, stride := 0x0, acc := .ro, reset := 0x0 }
def STO_EC_APPLY.OVF : Fld := { off := 0x180470, lo := 63, w := 1, stride := 0x0, acc := .w1c, reset := 0x0 }
def STO_EC_APPLY.COUNT : Fld := { off := 0x180470, lo := 0, w := 48, stride := 0x0, acc := .ro, reset := 0x0 }
def PRT_SEL.PID : Fld := { off := 0x190000, lo := 0, w := 10, stride := 0x0, acc := .rw, reset := 0x0 }
def PRT_PART.V : Fld := { off := 0x190008, lo := 63, w := 1, stride := 0x0, acc := .ro, reset := 0x0, view := true }
def PRT_PART.SESS : Fld := { off := 0x190008, lo := 62, w := 1, stride := 0x0, acc := .ro, reset := 0x0, view := true }
def PRT_PART.OWNER : Fld := { off := 0x190008, lo := 61, w := 1, stride := 0x0, acc := .ro, reset := 0x0, view := true }
def PRT_PART.SGA_OK : Fld := { off := 0x190008, lo := 60, w := 1, stride := 0x0, acc := .ro, reset := 0x0, view := true }
def PRT_PART.NHITCH : Fld := { off := 0x190008, lo := 42, w := 15, stride := 0x0, acc := .ro, reset := 0x0, view := true }
def PRT_PART.RES_SLOTS : Fld := { off := 0x190008, lo := 32, w := 10, stride := 0x0, acc := .ro, reset := 0x0, view := true }
def PRT_PART.NEXT : Fld := { off := 0x190008, lo := 23, w := 9, stride := 0x0, acc := .ro, reset := 0x0, view := true }
def PRT_PART.MAPGEN : Fld := { off := 0x190008, lo := 0, w := 16, stride := 0x0, acc := .ro, reset := 0x0, view := true }
def PRT_GEN.BUSY : Fld := { off := 0x190010, lo := 63, w := 1, stride := 0x0, acc := .ro, reset := 0x0, view := true }
def PRT_GEN.PENDING : Fld := { off := 0x190010, lo := 32, w := 16, stride := 0x0, acc := .ro, reset := 0x0, view := true }
def PRT_GEN.PREV : Fld := { off := 0x190010, lo := 16, w := 16, stride := 0x0, acc := .ro, reset := 0x0, view := true }
def PRT_GEN.CUR : Fld := { off := 0x190010, lo := 0, w := 16, stride := 0x0, acc := .ro, reset := 0x0, view := true }
def PRT_GEN_KNOT.KNOT : Fld := { off := 0x190018, lo := 0, w := 64, stride := 0x0, acc := .ro, reset := 0x0, view := true }
def PRT_GEN_CMD.OP : Fld := { off := 0x190020, lo := 62, w := 2, stride := 0x0, acc := .wo, reset := 0x0 }
def PRT_GEN_CMD.NEWGEN : Fld := { off := 0x190020, lo := 0, w := 16, stride := 0x0, acc := .wo, reset := 0x0 }
def PRT_GEN_T.T : Fld := { off := 0x190028, lo := 0, w := 64, stride := 0x0, acc := .rw, reset := 0x0 }
def PRT_EXT_SEL.STAGED : Fld := { off := 0x190030, lo := 63, w := 1, stride := 0x0, acc := .rw, reset := 0x0 }
def PRT_EXT_SEL.EXT : Fld := { off := 0x190030, lo := 0, w := 8, stride := 0x0, acc := .rw, reset := 0x0 }
def PRT_EXT_BASE.V : Fld := { off := 0x190038, lo := 63, w := 1, stride := 0x0, acc := .rw, reset := 0x0, view := true }
def PRT_EXT_BASE.FENCED : Fld := { off := 0x190038, lo := 62, w := 1, stride := 0x0, acc := .ro, reset := 0x0, view := true }
def PRT_EXT_BASE.BASE : Fld := { off := 0x190038, lo := 16, w := 41, stride := 0x0, acc := .rw, reset := 0x0, view := true }
def PRT_EXT_LEN.RIGHTS : Fld := { off := 0x190040, lo := 60, w := 4, stride := 0x0, acc := .rw, reset := 0x0, view := true }
def PRT_EXT_LEN.LEN : Fld := { off := 0x190040, lo := 16, w := 41, stride := 0x0, acc := .rw, reset := 0x0, view := true }
def PRT_EXT_LEN.REGION : Fld := { off := 0x190040, lo := 0, w := 8, stride := 0x0, acc := .rw, reset := 0x0, view := true }
def PRT_STG_LIST.REGION : Fld := { off := 0x190048, lo := 56, w := 8, stride := 0x0, acc := .wo, reset := 0x0 }
def PRT_STG_LIST.ENTRY : Fld := { off := 0x190048, lo := 47, w := 9, stride := 0x0, acc := .wo, reset := 0x0 }
def PRT_STG_LIST.HID : Fld := { off := 0x190048, lo := 0, w := 9, stride := 0x0, acc := .wo, reset := 0x0 }
def PRT_HITCH_SEL.INDEX : Fld := { off := 0x190050, lo := 0, w := 14, stride := 0x0, acc := .rw, reset := 0x0 }
def PRT_HITCH.STATE : Fld := { off := 0x190058, lo := 62, w := 2, stride := 0x0, acc := .ro, reset := 0x0, view := true }
def PRT_HITCH.SGA_OK : Fld := { off := 0x190058, lo := 61, w := 1, stride := 0x0, acc := .ro, reset := 0x0, view := true }
def PRT_HITCH.STAGES : Fld := { off := 0x190058, lo := 57, w := 4, stride := 0x0, acc := .ro, reset := 0x0, view := true }
def PRT_HITCH.PID : Fld := { off := 0x190058, lo := 13, w := 10, stride := 0x0, acc := .ro, reset := 0x0, view := true }
def PRT_HITCH.CID : Fld := { off := 0x190058, lo := 0, w := 13, stride := 0x0, acc := .ro, reset := 0x0, view := true }
def PRT_HITCH_CMD.OP : Fld := { off := 0x190060, lo := 62, w := 2, stride := 0x0, acc := .wo, reset := 0x0 }
def PRT_HITCH_CMD.SGA_OK : Fld := { off := 0x190060, lo := 61, w := 1, stride := 0x0, acc := .wo, reset := 0x0 }
def PRT_HITCH_CMD.STAGES : Fld := { off := 0x190060, lo := 57, w := 4, stride := 0x0, acc := .wo, reset := 0x0 }
def PRT_HITCH_CMD.PID : Fld := { off := 0x190060, lo := 13, w := 10, stride := 0x0, acc := .wo, reset := 0x0 }
def PRT_HITCH_CMD.CID : Fld := { off := 0x190060, lo := 0, w := 13, stride := 0x0, acc := .wo, reset := 0x0 }
def PRT_GRANT_CMD.OP : Fld := { off := 0x190068, lo := 61, w := 3, stride := 0x0, acc := .wo, reset := 0x0 }
def PRT_GRANT_CMD.MODE : Fld := { off := 0x190068, lo := 60, w := 1, stride := 0x0, acc := .wo, reset := 0x0 }
def PRT_GRANT_CMD.RIGHTS : Fld := { off := 0x190068, lo := 56, w := 3, stride := 0x0, acc := .wo, reset := 0x0 }
def PRT_GRANT_CMD.EXT : Fld := { off := 0x190068, lo := 23, w := 8, stride := 0x0, acc := .wo, reset := 0x0 }
def PRT_GRANT_CMD.PID : Fld := { off := 0x190068, lo := 13, w := 10, stride := 0x0, acc := .wo, reset := 0x0 }
def PRT_GRANT_CMD.CID : Fld := { off := 0x190068, lo := 0, w := 13, stride := 0x0, acc := .wo, reset := 0x0 }
def PRT_CMD_STATUS.BUSY : Fld := { off := 0x190070, lo := 63, w := 1, stride := 0x0, acc := .ro, reset := 0x0, kept := true }
def PRT_CMD_STATUS.ERR : Fld := { off := 0x190070, lo := 62, w := 1, stride := 0x0, acc := .w1c, reset := 0x0 }
def PRT_CMD_STATUS.PHASE : Fld := { off := 0x190070, lo := 60, w := 2, stride := 0x0, acc := .ro, reset := 0x0, kept := true }
def PRT_CMD_STATUS.CAUSE : Fld := { off := 0x190070, lo := 56, w := 4, stride := 0x0, acc := .ro, reset := 0x0 }
def PRT_CMD_STATUS.FENCE_KNOT : Fld := { off := 0x190070, lo := 0, w := 48, stride := 0x0, acc := .ro, reset := 0x0, kept := true }
def PRT_KEY.REST_V : Fld := { off := 0x190078, lo := 63, w := 1, stride := 0x0, acc := .ro, reset := 0x0, view := true }
def PRT_KEY.SESS_V : Fld := { off := 0x190078, lo := 62, w := 1, stride := 0x0, acc := .ro, reset := 0x0, view := true }
def PRT_KEY.PREV_V : Fld := { off := 0x190078, lo := 61, w := 1, stride := 0x0, acc := .ro, reset := 0x0, view := true }
def PRT_KEY.STAGED_V : Fld := { off := 0x190078, lo := 60, w := 1, stride := 0x0, acc := .ro, reset := 0x0, view := true }
def PRT_KEY.ARMED : Fld := { off := 0x190078, lo := 59, w := 1, stride := 0x0, acc := .ro, reset := 0x0, view := true }
def PRT_KEY.SESS_GEN : Fld := { off := 0x190078, lo := 32, w := 16, stride := 0x0, acc := .ro, reset := 0x0, kept := true, view := true }
def PRT_KEY_KNOT.KNOT : Fld := { off := 0x190080, lo := 0, w := 64, stride := 0x0, acc := .ro, reset := 0x0, kept := true }
def PRT_KEY_CMD.OP : Fld := { off := 0x190088, lo := 62, w := 2, stride := 0x0, acc := .wo, reset := 0x0 }
def PRT_KEY_T.R : Fld := { off := 0x190090, lo := 0, w := 64, stride := 0x0, acc := .rws, reset := 0x0 }
def PRT_HAL_SEL.HAL : Fld := { off := 0x190098, lo := 0, w := 2, stride := 0x0, acc := .rw, reset := 0x0 }
def PRT_HAL_LIST.ADDR : Fld := { off := 0x1900A0, lo := 0, w := 64, stride := 0x0, acc := .rw, reset := 0x0 }
def PRT_HAL_CTRL.EN : Fld := { off := 0x1900A8, lo := 63, w := 1, stride := 0x0, acc := .rw, reset := 0x0 }
def PRT_HAL_CTRL.LEAD : Fld := { off := 0x1900A8, lo := 48, w := 8, stride := 0x0, acc := .rw, reset := 0x10 }
def PRT_HAL_CTRL.LEN : Fld := { off := 0x1900A8, lo := 0, w := 32, stride := 0x0, acc := .rw, reset := 0x0 }
def PRT_HAL_CUR.CUR : Fld := { off := 0x1900B0, lo := 0, w := 32, stride := 0x0, acc := .ro, reset := 0x0 }
def PRT_REVOKED.OVF : Fld := { off := 0x190100, lo := 63, w := 1, stride := 0x0, acc := .w1c, reset := 0x0 }
def PRT_REVOKED.COUNT : Fld := { off := 0x190100, lo := 0, w := 48, stride := 0x0, acc := .ro, reset := 0x0 }
def PRT_HITCH_OPS.OVF : Fld := { off := 0x190108, lo := 63, w := 1, stride := 0x0, acc := .w1c, reset := 0x0 }
def PRT_HITCH_OPS.COUNT : Fld := { off := 0x190108, lo := 0, w := 48, stride := 0x0, acc := .ro, reset := 0x0 }
def PRT_GEN_COMMITS.OVF : Fld := { off := 0x190110, lo := 63, w := 1, stride := 0x0, acc := .w1c, reset := 0x0 }
def PRT_GEN_COMMITS.COUNT : Fld := { off := 0x190110, lo := 0, w := 48, stride := 0x0, acc := .ro, reset := 0x0 }
def PRT_KEY_OLD.OVF : Fld := { off := 0x190118, lo := 63, w := 1, stride := 0x0, acc := .w1c, reset := 0x0 }
def PRT_KEY_OLD.COUNT : Fld := { off := 0x190118, lo := 0, w := 48, stride := 0x0, acc := .ro, reset := 0x0 }
def PRT_HAL_PROMOTE.OVF : Fld := { off := 0x190120, lo := 63, w := 1, stride := 0x0, acc := .w1c, reset := 0x0 }
def PRT_HAL_PROMOTE.COUNT : Fld := { off := 0x190120, lo := 0, w := 48, stride := 0x0, acc := .ro, reset := 0x0 }
def PRT_HAL_LATE.OVF : Fld := { off := 0x190128, lo := 63, w := 1, stride := 0x0, acc := .w1c, reset := 0x0 }
def PRT_HAL_LATE.COUNT : Fld := { off := 0x190128, lo := 0, w := 48, stride := 0x0, acc := .ro, reset := 0x0 }
def PRT_SCRUB_LINES.OVF : Fld := { off := 0x190130, lo := 63, w := 1, stride := 0x0, acc := .w1c, reset := 0x0 }
def PRT_SCRUB_LINES.COUNT : Fld := { off := 0x190130, lo := 0, w := 48, stride := 0x0, acc := .ro, reset := 0x0 }
def FLT_CTRL.SNOOP_SUSP : Fld := { off := 0x1A0000, lo := 0, w := 8, stride := 0x0, acc := .rw, reset := 0x4 }
def FLT_CMD.OP : Fld := { off := 0x1A0008, lo := 60, w := 4, stride := 0x0, acc := .wo, reset := 0x0 }
def FLT_CMD.PID : Fld := { off := 0x1A0008, lo := 48, w := 10, stride := 0x0, acc := .wo, reset := 0x0 }
def FLT_CMD.HID : Fld := { off := 0x1A0008, lo := 36, w := 9, stride := 0x0, acc := .wo, reset := 0x0 }
def FLT_CMD.CID : Fld := { off := 0x1A0008, lo := 0, w := 13, stride := 0x0, acc := .wo, reset := 0x0 }
def FLT_CMD_STATUS.ERR : Fld := { off := 0x1A0010, lo := 63, w := 1, stride := 0x0, acc := .w1c, reset := 0x0 }
def FLT_CMD_STATUS.CAUSE : Fld := { off := 0x1A0010, lo := 56, w := 4, stride := 0x0, acc := .ro, reset := 0x0 }
def FLT_CMD_STATUS.LAST_KNOT : Fld := { off := 0x1A0010, lo := 0, w := 48, stride := 0x0, acc := .ro, reset := 0x0 }
def FLT_SELF.FENCED_SEEN : Fld := { off := 0x1A0018, lo := 1, w := 1, stride := 0x0, acc := .rws, reset := 0x0 }
def FLT_SELF.ISOLATED : Fld := { off := 0x1A0018, lo := 0, w := 1, stride := 0x0, acc := .rws, reset := 0x1 }
def FLT_FENCE_SEL.KIND : Fld := { off := 0x1A0020, lo := 16, w := 1, stride := 0x0, acc := .rw, reset := 0x0 }
def FLT_FENCE_SEL.ID : Fld := { off := 0x1A0020, lo := 0, w := 13, stride := 0x0, acc := .rw, reset := 0x0 }
def FLT_FENCE.FENCED : Fld := { off := 0x1A0028, lo := 63, w := 1, stride := 0x0, acc := .ro, reset := 0x0, view := true }
def FLT_FENCE.SHADOW : Fld := { off := 0x1A0028, lo := 62, w := 1, stride := 0x0, acc := .ro, reset := 0x0, view := true }
def FLT_FENCE.KNOT : Fld := { off := 0x1A0028, lo := 0, w := 48, stride := 0x0, acc := .ro, reset := 0x0, view := true }
def FLT_PART_SEL.PID : Fld := { off := 0x1A0030, lo := 0, w := 10, stride := 0x0, acc := .rw, reset := 0x0 }
def FLT_PART.STATE : Fld := { off := 0x1A0038, lo := 62, w := 2, stride := 0x0, acc := .ro, reset := 0x0, view := true }
def FLT_PART.KNOT : Fld := { off := 0x1A0038, lo := 0, w := 48, stride := 0x0, acc := .ro, reset := 0x0, view := true }
def FLT_SUSP_LOG.KIND : Fld := { off := 0x1A0040, lo := 60, w := 4, stride := 0x0, acc := .ro, reset := 0x0 }
def FLT_SUSP_LOG.CLEAR : Fld := { off := 0x1A0040, lo := 59, w := 1, stride := 0x0, acc := .ro, reset := 0x0 }
def FLT_SUSP_LOG.LINK : Fld := { off := 0x1A0040, lo := 50, w := 6, stride := 0x0, acc := .ro, reset := 0x0 }
def FLT_SUSP_LOG.IS_HID : Fld := { off := 0x1A0040, lo := 13, w := 1, stride := 0x0, acc := .ro, reset := 0x0 }
def FLT_SUSP_LOG.ID : Fld := { off := 0x1A0040, lo := 0, w := 13, stride := 0x0, acc := .ro, reset := 0x0 }
def FLT_SUSP_KNOT.KNOT : Fld := { off := 0x1A0048, lo := 0, w := 64, stride := 0x0, acc := .ro, reset := 0x0 }
def FLT_EVENT.TORN : Fld := { off := 0x1A0050, lo := 2, w := 1, stride := 0x0, acc := .w1c, reset := 0x0 }
def FLT_EVENT.ISOLATED : Fld := { off := 0x1A0050, lo := 1, w := 1, stride := 0x0, acc := .w1c, reset := 0x0 }
def FLT_EVENT.SUSPECT : Fld := { off := 0x1A0050, lo := 0, w := 1, stride := 0x0, acc := .w1c, reset := 0x0 }
def FLT_SUSPECTS.OVF : Fld := { off := 0x1A0100, lo := 63, w := 1, stride := 0x0, acc := .w1c, reset := 0x0 }
def FLT_SUSPECTS.COUNT : Fld := { off := 0x1A0100, lo := 0, w := 48, stride := 0x0, acc := .ro, reset := 0x0 }
def FLT_VERDICTS.OVF : Fld := { off := 0x1A0108, lo := 63, w := 1, stride := 0x0, acc := .w1c, reset := 0x0 }
def FLT_VERDICTS.COUNT : Fld := { off := 0x1A0108, lo := 0, w := 48, stride := 0x0, acc := .ro, reset := 0x0 }
def FLT_FENCED.OVF : Fld := { off := 0x1A0110, lo := 63, w := 1, stride := 0x0, acc := .w1c, reset := 0x0 }
def FLT_FENCED.COUNT : Fld := { off := 0x1A0110, lo := 0, w := 48, stride := 0x0, acc := .ro, reset := 0x0 }
def FLT_TORN.OVF : Fld := { off := 0x1A0118, lo := 63, w := 1, stride := 0x0, acc := .w1c, reset := 0x0 }
def FLT_TORN.COUNT : Fld := { off := 0x1A0118, lo := 0, w := 48, stride := 0x0, acc := .ro, reset := 0x0 }
def FLT_EC_SKIP.OVF : Fld := { off := 0x1A0120, lo := 63, w := 1, stride := 0x0, acc := .w1c, reset := 0x0 }
def FLT_EC_SKIP.COUNT : Fld := { off := 0x1A0120, lo := 0, w := 48, stride := 0x0, acc := .ro, reset := 0x0 }
def FLT_TEAR_LINES.OVF : Fld := { off := 0x1A0128, lo := 63, w := 1, stride := 0x0, acc := .w1c, reset := 0x0 }
def FLT_TEAR_LINES.COUNT : Fld := { off := 0x1A0128, lo := 0, w := 48, stride := 0x0, acc := .ro, reset := 0x0 }
def CFG_STATUS.STATE : Fld := { off := 0x1B0000, lo := 62, w := 2, stride := 0x0, acc := .ro, reset := 0x0 }
def CFG_STATUS.ACTIVE : Fld := { off := 0x1B0000, lo := 60, w := 2, stride := 0x0, acc := .ro, reset := 0x0 }
def CFG_STATUS.BOOT : Fld := { off := 0x1B0000, lo := 58, w := 2, stride := 0x0, acc := .rws, reset := 0x0 }
def CFG_STATUS.PSEL : Fld := { off := 0x1B0000, lo := 56, w := 2, stride := 0x0, acc := .ro, reset := 0x0 }
def CFG_STATUS.CAUSE : Fld := { off := 0x1B0000, lo := 52, w := 4, stride := 0x0, acc := .ro, reset := 0x0 }
def CFG_STATUS.HID : Fld := { off := 0x1B0000, lo := 0, w := 9, stride := 0x0, acc := .ro, reset := 0x0 }
def CFG_PROF.VALID : Fld := { off := 0x1B0010, lo := 63, w := 1, stride := 0x8, acc := .ro, reset := 0x0, kept := true, view := true }
def CFG_PROF.WRITING : Fld := { off := 0x1B0010, lo := 62, w := 1, stride := 0x8, acc := .ro, reset := 0x0, view := true }
def CFG_PROF.PAGES : Fld := { off := 0x1B0010, lo := 32, w := 15, stride := 0x8, acc := .ro, reset := 0x0, kept := true, view := true }
def CFG_PROF.VER_LO : Fld := { off := 0x1B0010, lo := 0, w := 32, stride := 0x8, acc := .ro, reset := 0x0, kept := true, view := true }
def CFG_FLOOR.VER : Fld := { off := 0x1B0030, lo := 0, w := 64, stride := 0x0, acc := .rw, reset := 0x0, kept := true, view := true }
def CFG_IMG_ID.BUILD_ID : Fld := { off := 0x1B0038, lo := 0, w := 64, stride := 0x0, acc := .ro, reset := 0x0 }
def CFG_LOAD_KNOT.KNOT : Fld := { off := 0x1B0040, lo := 0, w := 64, stride := 0x0, acc := .ro, reset := 0x0 }
def CFG_PARTIAL_T.T : Fld := { off := 0x1B0048, lo := 0, w := 64, stride := 0x0, acc := .rw, reset := 0x0 }
def CFG_EVENT.APPLIED : Fld := { off := 0x1B0050, lo := 1, w := 1, stride := 0x0, acc := .w1c, reset := 0x0 }
def CFG_EVENT.REFUSED : Fld := { off := 0x1B0050, lo := 0, w := 1, stride := 0x0, acc := .w1c, reset := 0x0 }
def CFG_ERR_LOG.CAUSE : Fld := { off := 0x1B0080, lo := 60, w := 4, stride := 0x0, acc := .ro, reset := 0x0 }
def CFG_ERR_LOG.OP : Fld := { off := 0x1B0080, lo := 58, w := 2, stride := 0x0, acc := .ro, reset := 0x0 }
def CFG_ERR_LOG.PROFILE : Fld := { off := 0x1B0080, lo := 56, w := 2, stride := 0x0, acc := .ro, reset := 0x0 }
def CFG_ERR_LOG.SECTION : Fld := { off := 0x1B0080, lo := 52, w := 4, stride := 0x0, acc := .ro, reset := 0x0 }
def CFG_ERR_LOG.ENTRY : Fld := { off := 0x1B0080, lo := 0, w := 32, stride := 0x0, acc := .ro, reset := 0x0 }
def CFG_ERR_KNOT.KNOT : Fld := { off := 0x1B0088, lo := 0, w := 64, stride := 0x0, acc := .ro, reset := 0x0 }
def SEC_STATUS.ZEROISED : Fld := { off := 0x1C0000, lo := 36, w := 1, stride := 0x0, acc := .ro, reset := 0x0 }
def SEC_STATUS.DEBUG_OPEN : Fld := { off := 0x1C0000, lo := 32, w := 4, stride := 0x0, acc := .ro, reset := 0x0 }
def SEC_STATUS.REVOKED : Fld := { off := 0x1C0000, lo := 16, w := 8, stride := 0x0, acc := .ro, reset := 0x0, view := true }
def SEC_STATUS.VALID : Fld := { off := 0x1C0000, lo := 8, w := 8, stride := 0x0, acc := .ro, reset := 0x0, view := true }
def SEC_STATUS.KEM_GEN : Fld := { off := 0x1C0000, lo := 0, w := 8, stride := 0x0, acc := .ro, reset := 0x0 }
def SEC_SLOT_SEL.SLOT : Fld := { off := 0x1C0008, lo := 0, w := 3, stride := 0x0, acc := .rw, reset := 0x0 }
def SEC_SLOT.VALID : Fld := { off := 0x1C0010, lo := 63, w := 1, stride := 0x0, acc := .ro, reset := 0x0, view := true }
def SEC_SLOT.REVOKED : Fld := { off := 0x1C0010, lo := 62, w := 1, stride := 0x0, acc := .ro, reset := 0x0, view := true }
def SEC_SLOT.ROLES : Fld := { off := 0x1C0010, lo := 56, w := 5, stride := 0x0, acc := .ro, reset := 0x0, view := true }
def SEC_SLOT_ID.KEY_ID : Fld := { off := 0x1C0018, lo := 0, w := 64, stride := 0x0, acc := .ro, reset := 0x0, view := true }
def SEC_EVENT.SIG_FAIL : Fld := { off := 0x1C0020, lo := 5, w := 1, stride := 0x0, acc := .w1c, reset := 0x0 }
def SEC_EVENT.LOG_LOST : Fld := { off := 0x1C0020, lo := 4, w := 1, stride := 0x0, acc := .w1c, reset := 0x0 }
def SEC_EVENT.DEBUG_UNLOCK : Fld := { off := 0x1C0020, lo := 3, w := 1, stride := 0x0, acc := .w1c, reset := 0x0 }
def SEC_EVENT.ZEROISE : Fld := { off := 0x1C0020, lo := 2, w := 1, stride := 0x0, acc := .w1c, reset := 0x0 }
def SEC_EVENT.TAMPER : Fld := { off := 0x1C0020, lo := 1, w := 1, stride := 0x0, acc := .w1c, reset := 0x0 }
def SEC_EVENT.REFUSED : Fld := { off := 0x1C0020, lo := 0, w := 1, stride := 0x0, acc := .w1c, reset := 0x0 }
def SEC_TLOG_SEL.AGE : Fld := { off := 0x1C0028, lo := 0, w := 8, stride := 0x0, acc := .rw, reset := 0x0 }
def SEC_TLOG_W0.WORD : Fld := { off := 0x1C0030, lo := 0, w := 64, stride := 0x0, acc := .ro, reset := 0x0, view := true }
def SEC_TLOG_W1.WORD : Fld := { off := 0x1C0038, lo := 0, w := 64, stride := 0x0, acc := .ro, reset := 0x0, view := true }
def SEC_TLOG_W2.WORD : Fld := { off := 0x1C0040, lo := 0, w := 64, stride := 0x0, acc := .ro, reset := 0x0, view := true }
def SEC_TLOG_W3.WORD : Fld := { off := 0x1C0048, lo := 0, w := 64, stride := 0x0, acc := .ro, reset := 0x0, view := true }
def SEC_TLOG_HEAD.HELD : Fld := { off := 0x1C0050, lo := 16, w := 9, stride := 0x0, acc := .ro, reset := 0x0, kept := true, view := true }
def SEC_TLOG_HEAD.SEQ : Fld := { off := 0x1C0050, lo := 0, w := 16, stride := 0x0, acc := .ro, reset := 0x0, kept := true, view := true }
def SEC_DBG_ADDR.UNIT : Fld := { off := 0x1C0058, lo := 60, w := 4, stride := 0x0, acc := .rw, reset := 0x0 }
def SEC_DBG_ADDR.ADDR : Fld := { off := 0x1C0058, lo := 0, w := 48, stride := 0x0, acc := .rw, reset := 0x0 }
def SEC_DBG_DATA.DATA : Fld := { off := 0x1C0060, lo := 0, w := 64, stride := 0x0, acc := .rw, reset := 0x0 }
def SEC_ERR_LOG.REQ : Fld := { off := 0x1C0080, lo := 56, w := 8, stride := 0x0, acc := .ro, reset := 0x0 }
def SEC_ERR_LOG.RESULT : Fld := { off := 0x1C0080, lo := 48, w := 8, stride := 0x0, acc := .ro, reset := 0x0 }
def SEC_ERR_LOG.SLOT : Fld := { off := 0x1C0080, lo := 45, w := 3, stride := 0x0, acc := .ro, reset := 0x0 }
def SEC_ERR_LOG.PID : Fld := { off := 0x1C0080, lo := 32, w := 10, stride := 0x0, acc := .ro, reset := 0x0 }
def SEC_ERR_KNOT.KNOT : Fld := { off := 0x1C0088, lo := 0, w := 64, stride := 0x0, acc := .ro, reset := 0x0 }
def SEC_SIG_OK.OVF : Fld := { off := 0x1C0100, lo := 63, w := 1, stride := 0x0, acc := .w1c, reset := 0x0 }
def SEC_SIG_OK.COUNT : Fld := { off := 0x1C0100, lo := 0, w := 48, stride := 0x0, acc := .ro, reset := 0x0 }
def SEC_SIG_FAIL.OVF : Fld := { off := 0x1C0108, lo := 63, w := 1, stride := 0x0, acc := .w1c, reset := 0x0 }
def SEC_SIG_FAIL.COUNT : Fld := { off := 0x1C0108, lo := 0, w := 48, stride := 0x0, acc := .ro, reset := 0x0 }
def SEC_KEY_DELIVER.OVF : Fld := { off := 0x1C0110, lo := 63, w := 1, stride := 0x0, acc := .w1c, reset := 0x0 }
def SEC_KEY_DELIVER.COUNT : Fld := { off := 0x1C0110, lo := 0, w := 48, stride := 0x0, acc := .ro, reset := 0x0 }
def SEC_SPDM_REQ.OVF : Fld := { off := 0x1C0118, lo := 63, w := 1, stride := 0x0, acc := .w1c, reset := 0x0 }
def SEC_SPDM_REQ.COUNT : Fld := { off := 0x1C0118, lo := 0, w := 48, stride := 0x0, acc := .ro, reset := 0x0 }
def LCS_STATE.PENDING : Fld := { off := 0x1D0000, lo := 8, w := 1, stride := 0x0, acc := .ro, reset := 0x0 }
def LCS_STATE.STATE : Fld := { off := 0x1D0000, lo := 0, w := 5, stride := 0x0, acc := .ro, reset := 0x0, view := true }
def LCS_SERIAL.SERIAL : Fld := { off := 0x1D0008, lo := 0, w := 64, stride := 0x0, acc := .ro, reset := 0x0, view := true }
def OBS_TRACE_CTL.EN : Fld := { off := 0x1E0000, lo := 63, w := 1, stride := 0x0, acc := .rws, reset := 0x0 }
def OBS_TRACE_CTL.STOP_FULL : Fld := { off := 0x1E0000, lo := 62, w := 1, stride := 0x0, acc := .rws, reset := 0x0 }
def OBS_TRACE_CTL.FROZEN : Fld := { off := 0x1E0000, lo := 61, w := 1, stride := 0x0, acc := .rws, reset := 0x0 }
def OBS_TRACE_CTL.TYPES : Fld := { off := 0x1E0000, lo := 48, w := 5, stride := 0x0, acc := .rws, reset := 0x0 }
def OBS_TRACE_CTL.PC_LOG : Fld := { off := 0x1E0000, lo := 40, w := 8, stride := 0x0, acc := .rws, reset := 0x4 }
def OBS_TRACE_CTL.CORES : Fld := { off := 0x1E0000, lo := 16, w := 16, stride := 0x0, acc := .rws, reset := 0xFFFF }
def OBS_TRACE_CTL.ALLPID : Fld := { off := 0x1E0000, lo := 15, w := 1, stride := 0x0, acc := .rws, reset := 0x1 }
def OBS_TRACE_CTL.PID : Fld := { off := 0x1E0000, lo := 0, w := 10, stride := 0x0, acc := .rws, reset := 0x0 }
def OBS_TRACE_PTR.PROD : Fld := { off := 0x1E0008, lo := 0, w := 48, stride := 0x0, acc := .ro, reset := 0x0, kept := true }
def OBS_SMP_PTR.PROD : Fld := { off := 0x1E0010, lo := 0, w := 48, stride := 0x0, acc := .ro, reset := 0x0, kept := true }
def OBS_STATUS.LINES : Fld := { off := 0x1E0018, lo := 32, w := 12, stride := 0x0, acc := .ro, reset := 0x0, view := true }
def OBS_STATUS.STAGED : Fld := { off := 0x1E0018, lo := 0, w := 19, stride := 0x0, acc := .ro, reset := 0x0, view := true }
def OBS_MARK.VALUE : Fld := { off := 0x1E0020, lo := 0, w := 64, stride := 0x0, acc := .wo, reset := 0x0 }
def OBS_APER_SEL.BUF : Fld := { off := 0x1E0028, lo := 63, w := 1, stride := 0x0, acc := .rw, reset := 0x0 }
def OBS_APER_SEL.PAGE : Fld := { off := 0x1E0028, lo := 0, w := 20, stride := 0x0, acc := .rw, reset := 0x0 }
def OBS_EVENT.RING_DROP : Fld := { off := 0x1E0030, lo := 3, w := 1, stride := 0x0, acc := .w1c, reset := 0x0 }
def OBS_EVENT.FROZE : Fld := { off := 0x1E0030, lo := 2, w := 1, stride := 0x0, acc := .w1c, reset := 0x0 }
def OBS_EVENT.WP_ALERT : Fld := { off := 0x1E0030, lo := 1, w := 1, stride := 0x0, acc := .w1c, reset := 0x0 }
def OBS_EVENT.LOST : Fld := { off := 0x1E0030, lo := 0, w := 1, stride := 0x0, acc := .w1c, reset := 0x0 }
def OBS_FLUSH.FLUSH : Fld := { off := 0x1E0038, lo := 0, w := 1, stride := 0x0, acc := .wo, reset := 0x0 }
def OBS_SMP_CTL.EN : Fld := { off := 0x1E0100, lo := 63, w := 1, stride := 0x8, acc := .rws, reset := 0x0 }
def OBS_SMP_CTL.DEST : Fld := { off := 0x1E0100, lo := 62, w := 1, stride := 0x8, acc := .rws, reset := 0x0 }
def OBS_SMP_CTL.SET : Fld := { off := 0x1E0100, lo := 52, w := 4, stride := 0x8, acc := .rws, reset := 0x0 }
def OBS_SMP_CTL.SEL : Fld := { off := 0x1E0100, lo := 32, w := 10, stride := 0x8, acc := .rws, reset := 0x0 }
def OBS_SMP_CTL.IVL : Fld := { off := 0x1E0100, lo := 0, w := 20, stride := 0x8, acc := .rws, reset := 0x0 }
def OBS_WP_CTL.EN : Fld := { off := 0x1E0200, lo := 63, w := 1, stride := 0x20, acc := .rws, reset := 0x0 }
def OBS_WP_CTL.SPACE : Fld := { off := 0x1E0200, lo := 62, w := 1, stride := 0x20, acc := .rws, reset := 0x0 }
def OBS_WP_CTL.ALLPID : Fld := { off := 0x1E0200, lo := 61, w := 1, stride := 0x20, acc := .rws, reset := 0x0 }
def OBS_WP_CTL.KINDS : Fld := { off := 0x1E0200, lo := 56, w := 4, stride := 0x20, acc := .rws, reset := 0x0 }
def OBS_WP_CTL.ACTIONS : Fld := { off := 0x1E0200, lo := 52, w := 4, stride := 0x20, acc := .rws, reset := 0x0 }
def OBS_WP_CTL.MAX : Fld := { off := 0x1E0200, lo := 32, w := 16, stride := 0x20, acc := .rws, reset := 0x0 }
def OBS_WP_CTL.PID : Fld := { off := 0x1E0200, lo := 0, w := 10, stride := 0x20, acc := .rws, reset := 0x0 }
def OBS_WP_BASE.LINE : Fld := { off := 0x1E0208, lo := 7, w := 53, stride := 0x20, acc := .rws, reset := 0x0 }
def OBS_WP_LIMIT.LINE : Fld := { off := 0x1E0210, lo := 7, w := 53, stride := 0x20, acc := .rws, reset := 0x0 }
def OBS_WP_HITS.OVF : Fld := { off := 0x1E0218, lo := 63, w := 1, stride := 0x20, acc := .w1c, reset := 0x0 }
def OBS_WP_HITS.COUNT : Fld := { off := 0x1E0218, lo := 0, w := 48, stride := 0x20, acc := .ro, reset := 0x0 }
def OBS_PSEL.PID : Fld := { off := 0x1E0400, lo := 0, w := 10, stride := 0x0, acc := .rw, reset := 0x0 }
def OBS_PART_CTR.OVF : Fld := { off := 0x1E0408, lo := 63, w := 1, stride := 0x8, acc := .w1c, reset := 0x0 }
def OBS_PART_CTR.COUNT : Fld := { off := 0x1E0408, lo := 0, w := 48, stride := 0x8, acc := .ro, reset := 0x0 }
def OBS_RING.EN : Fld := { off := 0x1E0448, lo := 63, w := 1, stride := 0x0, acc := .rws, reset := 0x0 }
def OBS_RING.SYNC : Fld := { off := 0x1E0448, lo := 62, w := 1, stride := 0x0, acc := .rws, reset := 0x0 }
def OBS_RING.PC : Fld := { off := 0x1E0448, lo := 61, w := 1, stride := 0x0, acc := .rws, reset := 0x0 }
def OBS_RING.RING : Fld := { off := 0x1E0448, lo := 12, w := 48, stride := 0x0, acc := .rws, reset := 0x0 }
def OBS_RING.SIZE_LOG : Fld := { off := 0x1E0448, lo := 0, w := 5, stride := 0x0, acc := .rws, reset := 0xC }
def OBS_STEP_OVERRUN.OVF : Fld := { off := 0x1E0500, lo := 63, w := 1, stride := 0x0, acc := .w1c, reset := 0x0 }
def OBS_STEP_OVERRUN.COUNT : Fld := { off := 0x1E0500, lo := 0, w := 48, stride := 0x0, acc := .ro, reset := 0x0 }
def OBS_ADMIT_RES.OVF : Fld := { off := 0x1E0508, lo := 63, w := 1, stride := 0x0, acc := .w1c, reset := 0x0 }
def OBS_ADMIT_RES.COUNT : Fld := { off := 0x1E0508, lo := 0, w := 48, stride := 0x0, acc := .ro, reset := 0x0 }
def OBS_ADMIT_BORROW.OVF : Fld := { off := 0x1E0510, lo := 63, w := 1, stride := 0x0, acc := .w1c, reset := 0x0 }
def OBS_ADMIT_BORROW.COUNT : Fld := { off := 0x1E0510, lo := 0, w := 48, stride := 0x0, acc := .ro, reset := 0x0 }
def OBS_ADMIT_BE.OVF : Fld := { off := 0x1E0518, lo := 63, w := 1, stride := 0x0, acc := .w1c, reset := 0x0 }
def OBS_ADMIT_BE.COUNT : Fld := { off := 0x1E0518, lo := 0, w := 48, stride := 0x0, acc := .ro, reset := 0x0 }
def OBS_TRACE_REC.OVF : Fld := { off := 0x1E0520, lo := 63, w := 1, stride := 0x0, acc := .w1c, reset := 0x0 }
def OBS_TRACE_REC.COUNT : Fld := { off := 0x1E0520, lo := 0, w := 48, stride := 0x0, acc := .ro, reset := 0x0 }
def OBS_SMP_REC.OVF : Fld := { off := 0x1E0528, lo := 63, w := 1, stride := 0x0, acc := .w1c, reset := 0x0 }
def OBS_SMP_REC.COUNT : Fld := { off := 0x1E0528, lo := 0, w := 48, stride := 0x0, acc := .ro, reset := 0x0 }
def OBS_RING_REC.OVF : Fld := { off := 0x1E0530, lo := 63, w := 1, stride := 0x0, acc := .w1c, reset := 0x0 }
def OBS_RING_REC.COUNT : Fld := { off := 0x1E0530, lo := 0, w := 48, stride := 0x0, acc := .ro, reset := 0x0 }
def OBS_LOST.OVF : Fld := { off := 0x1E0538, lo := 63, w := 1, stride := 0x0, acc := .w1c, reset := 0x0 }
def OBS_LOST.COUNT : Fld := { off := 0x1E0538, lo := 0, w := 48, stride := 0x0, acc := .ro, reset := 0x0 }
def OBS_WR_LINES.OVF : Fld := { off := 0x1E0540, lo := 63, w := 1, stride := 0x0, acc := .w1c, reset := 0x0 }
def OBS_WR_LINES.COUNT : Fld := { off := 0x1E0540, lo := 0, w := 48, stride := 0x0, acc := .ro, reset := 0x0 }
def OBS_SWEEP_LINES.OVF : Fld := { off := 0x1E0548, lo := 63, w := 1, stride := 0x0, acc := .w1c, reset := 0x0 }
def OBS_SWEEP_LINES.COUNT : Fld := { off := 0x1E0548, lo := 0, w := 48, stride := 0x0, acc := .ro, reset := 0x0 }
def OBS_APER.WORD : Fld := { off := 0x1E8000, lo := 0, w := 64, stride := 0x8, acc := .ro, reset := 0x0, view := true }

/-- Registers 0 to 11 of the index (R501). -/
def regTable0 : List RegInfo := [
  { name := "MGT_ID", off := 0x0, stride := 0x8, count := 1, sel := .none, fields := [MGT_ID.PART, MGT_ID.STEPPING, MGT_ID.VARIANT] },
  { name := "MGT_READY", off := 0x8, stride := 0x8, count := 1, sel := .none, fields := [MGT_READY.CORE, MGT_READY.SP, MGT_READY.STK, MGT_READY.SG, MGT_READY.FG, MGT_READY.PHO, MGT_READY.TXN, MGT_READY.POOL, MGT_READY.SRH, MGT_READY.EMB, MGT_READY.MTX, MGT_READY.CDC, MGT_READY.DIR, MGT_READY.XLT, MGT_READY.HOME, MGT_READY.SEC, MGT_READY.CAL, MGT_READY.KNOT] },
  { name := "MGT_ALERT", off := 0x10, stride := 0x8, count := 1, sel := .none, fields := [MGT_ALERT.OBS, MGT_ALERT.SEC, MGT_ALERT.SRH, MGT_ALERT.CFG, MGT_ALERT.STP, MGT_ALERT.QUE, MGT_ALERT.TXN, MGT_ALERT.FLT, MGT_ALERT.STO, MGT_ALERT.LNK, MGT_ALERT.KNT, MGT_ALERT.PWR] },
  { name := "MGT_ALERT_EN", off := 0x18, stride := 0x8, count := 1, sel := .none, fields := [MGT_ALERT_EN.EN] },
  { name := "MGT_EID", off := 0x20, stride := 0x8, count := 1, sel := .none, fields := [MGT_EID.OWNER_V, MGT_EID.OWNER, MGT_EID.EID] },
  { name := "MGT_WIN_ERR", off := 0x28, stride := 0x8, count := 1, sel := .none, fields := [MGT_WIN_ERR.CODE, MGT_WIN_ERR.CMD, MGT_WIN_ERR.SRC_EID, MGT_WIN_ERR.OFFSET] },
  { name := "MGT_WIN_KNOT", off := 0x30, stride := 0x8, count := 1, sel := .none, fields := [MGT_WIN_KNOT.KNOT] },
  { name := "MGT_PROFILE", off := 0x40, stride := 0x8, count := 1, sel := .none, fields := [MGT_PROFILE.OP, MGT_PROFILE.PROFILE] },
  { name := "PWR_IN", off := 0x10000, stride := 0x8, count := 1, sel := .none, fields := [PWR_IN.VIN_MV, PWR_IN.IIN, PWR_IN.PKG_W] },
  { name := "PWR_THR", off := 0x10008, stride := 0x8, count := 1, sel := .none, fields := [PWR_THR.THROTTLE_MV, PWR_THR.QUIESCE_MV, PWR_THR.RESET_MV] },
  { name := "PWR_LIMIT", off := 0x10010, stride := 0x8, count := 1, sel := .none, fields := [PWR_LIMIT.LIMIT_W] },
  { name := "PWR_STATUS", off := 0x10018, stride := 0x8, count := 1, sel := .none, fields := [PWR_STATUS.PG, PWR_STATUS.SURGE, PWR_STATUS.BY_POWER, PWR_STATUS.BY_VOLT, PWR_STATUS.LEVEL, PWR_STATUS.STATE] } ]

/-- Registers 12 to 23 of the index (R501). -/
def regTable1 : List RegInfo := [
  { name := "PWR_EVENT", off := 0x10020, stride := 0x8, count := 1, sel := .none, fields := [PWR_EVENT.SURGE_EV, PWR_EVENT.PG_LOSS, PWR_EVENT.QUIESCE_EV, PWR_EVENT.THROTTLE_EV] },
  { name := "PWR_EXT", off := 0x10028, stride := 0x8, count := 1, sel := .none, fields := [PWR_EXT.VIN_MIN_MV, PWR_EXT.VIN_MAX_MV, PWR_EXT.CLR] },
  { name := "PWR_THROTTLE_KNOTS", off := 0x10100, stride := 0x8, count := 1, sel := .none, fields := [PWR_THROTTLE_KNOTS.OVF, PWR_THROTTLE_KNOTS.COUNT] },
  { name := "PWR_QUIESCE_KNOTS", off := 0x10108, stride := 0x8, count := 1, sel := .none, fields := [PWR_QUIESCE_KNOTS.OVF, PWR_QUIESCE_KNOTS.COUNT] },
  { name := "PWR_SURGE_KNOTS", off := 0x10110, stride := 0x8, count := 1, sel := .none, fields := [PWR_SURGE_KNOTS.OVF, PWR_SURGE_KNOTS.COUNT] },
  { name := "RST_CMD", off := 0x20000, stride := 0x8, count := 1, sel := .none, fields := [RST_CMD.OP, RST_CMD.PID, RST_CMD.CORE] },
  { name := "RST_CAUSE", off := 0x20008, stride := 0x8, count := 1, sel := .none, fields := [RST_CAUSE.KIND, RST_CAUSE.CAUSE, RST_CAUSE.COUNT] },
  { name := "RST_KNOT", off := 0x20010, stride := 0x8, count := 1, sel := .none, fields := [RST_KNOT.KNOT] },
  { name := "RST_STATUS", off := 0x20018, stride := 0x8, count := 1, sel := .none, fields := [RST_STATUS.CORE_RST] },
  { name := "KNT_COUNT", off := 0x30000, stride := 0x8, count := 1, sel := .none, fields := [KNT_COUNT.COUNT] },
  { name := "KNT_STATUS", off := 0x30008, stride := 0x8, count := 1, sel := .none, fields := [KNT_STATUS.SYNC_REJ, KNT_STATUS.STEP_REFUSED, KNT_STATUS.UNLOCK_EV, KNT_STATUS.HOLD_EV, KNT_STATUS.PROV, KNT_STATUS.STATE] },
  { name := "KNT_DISC", off := 0x30010, stride := 0x8, count := 1, sel := .none, fields := [KNT_DISC.MASTER_HID, KNT_DISC.SRC_PORT, KNT_DISC.ALT_PORT, KNT_DISC.ROLE, KNT_DISC.SYNC_INTERVAL, KNT_DISC.ENABLE] } ]

/-- Registers 24 to 35 of the index (R501). -/
def regTable2 : List RegInfo := [
  { name := "KNT_PHASE", off := 0x30018, stride := 0x8, count := 1, sel := .none, fields := [KNT_PHASE.FREQ_OFS, KNT_PHASE.PHASE_ERR] },
  { name := "KNT_HOLD", off := 0x30020, stride := 0x8, count := 1, sel := .none, fields := [KNT_HOLD.HOLD_KNOTS] },
  { name := "KNT_EPOCH", off := 0x30028, stride := 0x8, count := 1, sel := .none, fields := [KNT_EPOCH.SEC, KNT_EPOCH.FRAC] },
  { name := "KNT_SCHED", off := 0x30030, stride := 0x8, count := 1, sel := .none, fields := [KNT_SCHED.BE_SLOTS, KNT_SCHED.OBS_SLOTS, KNT_SCHED.RES_SLOTS, KNT_SCHED.SCHED_GEN] },
  { name := "KNT_SEED", off := 0x30038, stride := 0x8, count := 1, sel := .none, fields := [KNT_SEED.SEED] },
  { name := "KNT_RGN", off := 0x30100, stride := 0x8, count := 16, sel := .none, fields := [KNT_RGN.LAST_STOP, KNT_RGN.CYCLES, KNT_RGN.STATE] },
  { name := "CAL_TIME", off := 0x38000, stride := 0x8, count := 1, sel := .none, fields := [CAL_TIME.SEC, CAL_TIME.FRAC] },
  { name := "CAL_STATUS", off := 0x38008, stride := 0x8, count := 1, sel := .none, fields := [CAL_STATUS.STEERED, CAL_STATUS.CELL_FAIL, CAL_STATUS.CELL_LOW, CAL_STATUS.VALID] },
  { name := "LNK_CTRL", off := 0x40000, stride := 0x400, count := 48, sel := .none, fields := [LNK_CTRL.ENABLE, LNK_CTRL.RETRAIN, LNK_CTRL.LANE_DISABLE] },
  { name := "LNK_STATUS", off := 0x40008, stride := 0x400, count := 48, sel := .none, fields := [LNK_STATUS.SPARE_USED, LNK_STATUS.LANE_MAP, LNK_STATUS.LANES, LNK_STATUS.ADD_KNOTS, LNK_STATUS.ROLE, LNK_STATUS.CAUSE, LNK_STATUS.STATE] },
  { name := "LNK_PEER", off := 0x40010, stride := 0x400, count := 48, sel := .none, fields := [LNK_PEER.KIND, LNK_PEER.PEER_PORT, LNK_PEER.PEER_ID, LNK_PEER.DELAY_PS] },
  { name := "LNK_HB", off := 0x40018, stride := 0x400, count := 48, sel := .none, fields := [LNK_HB.SUSPECT, LNK_HB.SKEW, LNK_HB.MISS_MAX, LNK_HB.MISS] } ]

/-- Registers 36 to 47 of the index (R501). -/
def regTable3 : List RegInfo := [
  { name := "LNK_THRESH", off := 0x40020, stride := 0x400, count := 48, sel := .none, fields := [LNK_THRESH.LANE_SYM_LIMIT, LNK_THRESH.UNCORR_LIMIT] },
  { name := "LNK_EVENT", off := 0x40028, stride := 0x400, count := 48, sel := .none, fields := [LNK_EVENT.SUSPECT_EV, LNK_EVENT.FAULT_EV, LNK_EVENT.LANE_DROP, LNK_EVENT.SPARE_SWAP, LNK_EVENT.RETRAIN_EV, LNK_EVENT.DEGRADE_BUDGET, LNK_EVENT.UNCORR, LNK_EVENT.UP_EV] },
  { name := "LNK_CW", off := 0x40030, stride := 0x400, count := 48, sel := .none, fields := [LNK_CW.OVF, LNK_CW.COUNT] },
  { name := "LNK_CORR", off := 0x40038, stride := 0x400, count := 48, sel := .none, fields := [LNK_CORR.OVF, LNK_CORR.COUNT] },
  { name := "LNK_UNCORR", off := 0x40040, stride := 0x400, count := 48, sel := .none, fields := [LNK_UNCORR.OVF, LNK_UNCORR.COUNT] },
  { name := "LNK_REPLAY", off := 0x40048, stride := 0x400, count := 48, sel := .none, fields := [LNK_REPLAY.OVF, LNK_REPLAY.DROPPED, LNK_REPLAY.COUNT] },
  { name := "LNK_LANE_ERR", off := 0x40050, stride := 0x400, count := 48, sel := .none, mul := 128, add := 0, fields := [LNK_LANE_ERR.OVF, LNK_LANE_ERR.COUNT] },
  { name := "LNK_LANE_ERR", off := 0x40058, stride := 0x400, count := 48, sel := .none, mul := 128, add := 1, fields := [LNK_LANE_ERR.OVF, LNK_LANE_ERR.COUNT] },
  { name := "LNK_LANE_ERR", off := 0x40060, stride := 0x400, count := 48, sel := .none, mul := 128, add := 2, fields := [LNK_LANE_ERR.OVF, LNK_LANE_ERR.COUNT] },
  { name := "LNK_LANE_ERR", off := 0x40068, stride := 0x400, count := 48, sel := .none, mul := 128, add := 3, fields := [LNK_LANE_ERR.OVF, LNK_LANE_ERR.COUNT] },
  { name := "LNK_LANE_ERR", off := 0x40070, stride := 0x400, count := 48, sel := .none, mul := 128, add := 4, fields := [LNK_LANE_ERR.OVF, LNK_LANE_ERR.COUNT] },
  { name := "LNK_LANE_ERR", off := 0x40078, stride := 0x400, count := 48, sel := .none, mul := 128, add := 5, fields := [LNK_LANE_ERR.OVF, LNK_LANE_ERR.COUNT] } ]

/-- Registers 48 to 59 of the index (R501). -/
def regTable4 : List RegInfo := [
  { name := "LNK_LANE_ERR", off := 0x40080, stride := 0x400, count := 48, sel := .none, mul := 128, add := 6, fields := [LNK_LANE_ERR.OVF, LNK_LANE_ERR.COUNT] },
  { name := "LNK_LANE_ERR", off := 0x40088, stride := 0x400, count := 48, sel := .none, mul := 128, add := 7, fields := [LNK_LANE_ERR.OVF, LNK_LANE_ERR.COUNT] },
  { name := "LNK_MGMT", off := 0x4C000, stride := 0x8, count := 1, sel := .none, fields := [LNK_MGMT.FEC_LOCK, LNK_MGMT.UP] },
  { name := "FAB_CTRL", off := 0x50000, stride := 0x8, count := 1, sel := .none, fields := [FAB_CTRL.SPLICE_IN, FAB_CTRL.HOME_SPLICE] },
  { name := "FAB_PEER_CID", off := 0x50008, stride := 0x8, count := 1, sel := .none, fields := [FAB_PEER_CID.VALID, FAB_PEER_CID.CID] },
  { name := "FAB_AUTH_FAIL", off := 0x50100, stride := 0x8, count := 1, sel := .none, fields := [FAB_AUTH_FAIL.OVF, FAB_AUTH_FAIL.COUNT] },
  { name := "FAB_SRC_FAIL", off := 0x50108, stride := 0x8, count := 1, sel := .none, fields := [FAB_SRC_FAIL.OVF, FAB_SRC_FAIL.COUNT] },
  { name := "FAB_TAG_DUP", off := 0x50110, stride := 0x8, count := 1, sel := .none, fields := [FAB_TAG_DUP.OVF, FAB_TAG_DUP.COUNT] },
  { name := "FAB_BURST_TO", off := 0x50118, stride := 0x8, count := 1, sel := .none, fields := [FAB_BURST_TO.OVF, FAB_BURST_TO.COUNT] },
  { name := "FAB_ORPHAN", off := 0x50120, stride := 0x8, count := 1, sel := .none, fields := [FAB_ORPHAN.OVF, FAB_ORPHAN.COUNT] },
  { name := "FAB_STALE", off := 0x50128, stride := 0x8, count := 1, sel := .none, fields := [FAB_STALE.OVF, FAB_STALE.COUNT] },
  { name := "FAB_GRACE", off := 0x50130, stride := 0x8, count := 1, sel := .none, fields := [FAB_GRACE.OVF, FAB_GRACE.COUNT] } ]

/-- Registers 60 to 71 of the index (R501). -/
def regTable5 : List RegInfo := [
  { name := "FAB_SPLICE_MEM", off := 0x50138, stride := 0x8, count := 1, sel := .none, fields := [FAB_SPLICE_MEM.OVF, FAB_SPLICE_MEM.COUNT] },
  { name := "FAB_SPLICE_HOME", off := 0x50140, stride := 0x8, count := 1, sel := .none, fields := [FAB_SPLICE_HOME.OVF, FAB_SPLICE_HOME.COUNT] },
  { name := "FAB_RETRY", off := 0x50148, stride := 0x8, count := 1, sel := .none, fields := [FAB_RETRY.OVF, FAB_RETRY.COUNT] },
  { name := "FAB_BUDGET_MISS", off := 0x50150, stride := 0x8, count := 1, sel := .none, fields := [FAB_BUDGET_MISS.OVF, FAB_BUDGET_MISS.COUNT] },
  { name := "FAB_ERR_LOG", off := 0x50200, stride := 0x8, count := 1, sel := .none, fields := [FAB_ERR_LOG.STATUS, FAB_ERR_LOG.OPCODE, FAB_ERR_LOG.LINK, FAB_ERR_LOG.CID, FAB_ERR_LOG.DISCARD, FAB_ERR_LOG.TAG] },
  { name := "FAB_ERR_KNOT", off := 0x50208, stride := 0x8, count := 1, sel := .none, fields := [FAB_ERR_KNOT.KNOT] },
  { name := "XLT_CTRL", off := 0x60000, stride := 0x8, count := 1, sel := .none, fields := [XLT_CTRL.HOT_THRESH, XLT_CTRL.DECAY_LOG, XLT_CTRL.ACC_EN] },
  { name := "XLT_PSEL", off := 0x60008, stride := 0x8, count := 1, sel := .none, fields := [XLT_PSEL.PID] },
  { name := "XLT_PART_ROOT", off := 0x60010, stride := 0x8, count := 1, sel := .xltPsel, fields := [XLT_PART_ROOT.V, XLT_PART_ROOT.SGA_OK, XLT_PART_ROOT.ROOT] },
  { name := "XLT_PART_SHARE", off := 0x60018, stride := 0x8, count := 1, sel := .xltPsel, fields := [XLT_PART_SHARE.PINNED, XLT_PART_SHARE.USED, XLT_PART_SHARE.WALK_MAX, XLT_PART_SHARE.SHARE] },
  { name := "XLT_INV_CMD", off := 0x60020, stride := 0x8, count := 1, sel := .none, fields := [XLT_INV_CMD.PID, XLT_INV_CMD.SCOPE, XLT_INV_CMD.SIZE, XLT_INV_CMD.COUNT] },
  { name := "XLT_INV_ADDR", off := 0x60028, stride := 0x8, count := 1, sel := .none, fields := [XLT_INV_ADDR.CVA] } ]

/-- Registers 72 to 83 of the index (R501). -/
def regTable6 : List RegInfo := [
  { name := "XLT_INV_STATUS", off := 0x60030, stride := 0x8, count := 1, sel := .none, fields := [XLT_INV_STATUS.BUSY, XLT_INV_STATUS.OVERRUN, XLT_INV_STATUS.BADCMD, XLT_INV_STATUS.DONE_KNOT] },
  { name := "XLT_ACC_ADDR", off := 0x60038, stride := 0x8, count := 1, sel := .none, fields := [XLT_ACC_ADDR.UNIT] },
  { name := "XLT_ACC_VAL", off := 0x60040, stride := 0x8, count := 1, sel := .none, fields := [XLT_ACC_VAL.HOT, XLT_ACC_VAL.COUNT] },
  { name := "XLT_ILV_SEL", off := 0x60048, stride := 0x8, count := 1, sel := .none, fields := [XLT_ILV_SEL.PREV, XLT_ILV_SEL.REGION, XLT_ILV_SEL.ENTRY] },
  { name := "XLT_ILV_BASE", off := 0x60050, stride := 0x8, count := 1, sel := .none, fields := [XLT_ILV_BASE.V, XLT_ILV_BASE.BASE] },
  { name := "XLT_ILV_SIZE", off := 0x60058, stride := 0x8, count := 1, sel := .none, fields := [XLT_ILV_SIZE.SIZE] },
  { name := "XLT_ILV_FMT", off := 0x60060, stride := 0x8, count := 1, sel := .none, fields := [XLT_ILV_FMT.LOCAL_BASE, XLT_ILV_FMT.SHARED, XLT_ILV_FMT.L_LOG, XLT_ILV_FMT.G_LOG] },
  { name := "XLT_ILV_ENTRY", off := 0x60068, stride := 0x8, count := 1, sel := .none, fields := [XLT_ILV_ENTRY.HID] },
  { name := "XLT_PART_HOT", off := 0x60070, stride := 0x8, count := 1, sel := .xltPsel, fields := [XLT_PART_HOT.EN, XLT_PART_HOT.RING, XLT_PART_HOT.SIZE_LOG] },
  { name := "XLT_FAULT_LOG", off := 0x60080, stride := 0x8, count := 1, sel := .none, fields := [XLT_FAULT_LOG.STATUS, XLT_FAULT_LOG.CAUSE, XLT_FAULT_LOG.SRC, XLT_FAULT_LOG.LEVEL, XLT_FAULT_LOG.PID, XLT_FAULT_LOG.ID] },
  { name := "XLT_FAULT_ADDR", off := 0x60088, stride := 0x8, count := 1, sel := .none, fields := [XLT_FAULT_ADDR.ADDR] },
  { name := "XLT_FAULT_KNOT", off := 0x60090, stride := 0x8, count := 1, sel := .none, fields := [XLT_FAULT_KNOT.KNOT] } ]

/-- Registers 84 to 95 of the index (R501). -/
def regTable7 : List RegInfo := [
  { name := "XLT_HIT", off := 0x60100, stride := 0x8, count := 1, sel := .none, fields := [XLT_HIT.OVF, XLT_HIT.COUNT] },
  { name := "XLT_MISS", off := 0x60108, stride := 0x8, count := 1, sel := .none, fields := [XLT_MISS.OVF, XLT_MISS.COUNT] },
  { name := "XLT_WALK_READS", off := 0x60110, stride := 0x8, count := 1, sel := .none, fields := [XLT_WALK_READS.OVF, XLT_WALK_READS.COUNT] },
  { name := "XLT_FAULTS", off := 0x60118, stride := 0x8, count := 1, sel := .none, fields := [XLT_FAULTS.OVF, XLT_FAULTS.COUNT] },
  { name := "XLT_INV", off := 0x60120, stride := 0x8, count := 1, sel := .none, fields := [XLT_INV.OVF, XLT_INV.COUNT] },
  { name := "XLT_HOT_REC", off := 0x60128, stride := 0x8, count := 1, sel := .none, fields := [XLT_HOT_REC.OVF, XLT_HOT_REC.COUNT] },
  { name := "XLT_HOT_DROP", off := 0x60130, stride := 0x8, count := 1, sel := .none, fields := [XLT_HOT_DROP.OVF, XLT_HOT_DROP.COUNT] },
  { name := "XLT_WALK_WAIT", off := 0x60138, stride := 0x8, count := 1, sel := .none, fields := [XLT_WALK_WAIT.OVF, XLT_WALK_WAIT.COUNT] },
  { name := "XLT_WIN_BASE", off := 0x61000, stride := 0x10, count := 64, sel := .xltPsel, fields := [XLT_WIN_BASE.V, XLT_WIN_BASE.WR, XLT_WIN_BASE.BASE, XLT_WIN_BASE.GEN] },
  { name := "XLT_WIN_SIZE", off := 0x61008, stride := 0x10, count := 64, sel := .xltPsel, fields := [XLT_WIN_SIZE.SIZE] },
  { name := "DIR_CTRL", off := 0x70000, stride := 0x8, count := 1, sel := .none, fields := [DIR_CTRL.RESEND, DIR_CTRL.BG_EVICT, DIR_CTRL.FREE_WAYS] },
  { name := "DIR_STATUS", off := 0x70008, stride := 0x8, count := 1, sel := .none, fields := [DIR_STATUS.SWEEP_BUSY, DIR_STATUS.SWEEP_SET, DIR_STATUS.PENDING] } ]

/-- Registers 96 to 107 of the index (R501). -/
def regTable8 : List RegInfo := [
  { name := "DIR_PSEL", off := 0x70010, stride := 0x8, count := 1, sel := .none, fields := [DIR_PSEL.PID] },
  { name := "DIR_PART", off := 0x70018, stride := 0x8, count := 1, sel := .dirPsel, fields := [DIR_PART.USED, DIR_PART.LOST, DIR_PART.SHARE] },
  { name := "DIR_LOOK_LINE", off := 0x70020, stride := 0x8, count := 1, sel := .none, fields := [DIR_LOOK_LINE.DONE, DIR_LOOK_LINE.HIT, DIR_LOOK_LINE.LINE] },
  { name := "DIR_LOOK_W0", off := 0x70028, stride := 0x8, count := 1, sel := .none, fields := [DIR_LOOK_W0.WORD] },
  { name := "DIR_LOOK_W1", off := 0x70030, stride := 0x8, count := 1, sel := .none, fields := [DIR_LOOK_W1.WORD] },
  { name := "DIR_LOOK_W2", off := 0x70038, stride := 0x8, count := 1, sel := .none, fields := [DIR_LOOK_W2.WORD] },
  { name := "DIR_LOOK_W3", off := 0x70040, stride := 0x8, count := 1, sel := .none, fields := [DIR_LOOK_W3.WORD] },
  { name := "DIR_LOST_LOG", off := 0x70050, stride := 0x8, count := 1, sel := .none, fields := [DIR_LOST_LOG.CAUSE, DIR_LOST_LOG.PID, DIR_LOST_LOG.LCID, DIR_LOST_LOG.LINE] },
  { name := "DIR_LOST_KNOT", off := 0x70058, stride := 0x8, count := 1, sel := .none, fields := [DIR_LOST_KNOT.KNOT] },
  { name := "DIR_LOST_CMD", off := 0x70060, stride := 0x8, count := 1, sel := .none, fields := [DIR_LOST_CMD.OP, DIR_LOST_CMD.PID, DIR_LOST_CMD.LINE] },
  { name := "DIR_SNOOP_LOG", off := 0x70068, stride := 0x8, count := 1, sel := .none, fields := [DIR_SNOOP_LOG.TRIES, DIR_SNOOP_LOG.LINK, DIR_SNOOP_LOG.PID, DIR_SNOOP_LOG.CID] },
  { name := "DIR_CACHE_HIT", off := 0x70100, stride := 0x8, count := 1, sel := .none, fields := [DIR_CACHE_HIT.OVF, DIR_CACHE_HIT.COUNT] } ]

/-- Registers 108 to 119 of the index (R501). -/
def regTable9 : List RegInfo := [
  { name := "DIR_CACHE_MISS", off := 0x70108, stride := 0x8, count := 1, sel := .none, fields := [DIR_CACHE_MISS.OVF, DIR_CACHE_MISS.COUNT] },
  { name := "DIR_ROUNDS", off := 0x70110, stride := 0x8, count := 1, sel := .none, fields := [DIR_ROUNDS.OVF, DIR_ROUNDS.COUNT] },
  { name := "DIR_SNOOPS", off := 0x70118, stride := 0x8, count := 1, sel := .none, fields := [DIR_SNOOPS.OVF, DIR_SNOOPS.COUNT] },
  { name := "DIR_BCAST", off := 0x70120, stride := 0x8, count := 1, sel := .none, fields := [DIR_BCAST.OVF, DIR_BCAST.COUNT] },
  { name := "DIR_BACKINV", off := 0x70128, stride := 0x8, count := 1, sel := .none, fields := [DIR_BACKINV.OVF, DIR_BACKINV.COUNT] },
  { name := "DIR_BACKINV_XP", off := 0x70130, stride := 0x8, count := 1, sel := .none, fields := [DIR_BACKINV_XP.OVF, DIR_BACKINV_XP.COUNT] },
  { name := "DIR_ALIAS", off := 0x70138, stride := 0x8, count := 1, sel := .none, fields := [DIR_ALIAS.OVF, DIR_ALIAS.COUNT] },
  { name := "DIR_CROSS", off := 0x70140, stride := 0x8, count := 1, sel := .none, fields := [DIR_CROSS.OVF, DIR_CROSS.COUNT] },
  { name := "DIR_WB_NOOP", off := 0x70148, stride := 0x8, count := 1, sel := .none, fields := [DIR_WB_NOOP.OVF, DIR_WB_NOOP.COUNT] },
  { name := "DIR_RESEND", off := 0x70150, stride := 0x8, count := 1, sel := .none, fields := [DIR_RESEND.OVF, DIR_RESEND.COUNT] },
  { name := "DIR_LOST", off := 0x70158, stride := 0x8, count := 1, sel := .none, fields := [DIR_LOST.OVF, DIR_LOST.COUNT] },
  { name := "DIR_LOST_CLR", off := 0x70160, stride := 0x8, count := 1, sel := .none, fields := [DIR_LOST_CLR.OVF, DIR_LOST_CLR.COUNT] } ]

/-- Registers 120 to 131 of the index (R501). -/
def regTable10 : List RegInfo := [
  { name := "DIR_LOST_READ", off := 0x70168, stride := 0x8, count := 1, sel := .none, fields := [DIR_LOST_READ.OVF, DIR_LOST_READ.COUNT] },
  { name := "DIR_FENCED_RESP", off := 0x70170, stride := 0x8, count := 1, sel := .none, fields := [DIR_FENCED_RESP.OVF, DIR_FENCED_RESP.COUNT] },
  { name := "DIR_SET_WAIT", off := 0x70178, stride := 0x8, count := 1, sel := .none, fields := [DIR_SET_WAIT.OVF, DIR_SET_WAIT.COUNT] },
  { name := "STP_CTRL", off := 0x80000, stride := 0x1000, count := 16, sel := .none, fields := [STP_CTRL.WAIT_LIMIT, STP_CTRL.ENABLE] },
  { name := "STP_STATUS", off := 0x80008, stride := 0x1000, count := 16, sel := .none, fields := [STP_STATUS.BUSY, STP_STATUS.WAITING, STP_STATUS.ISSUED] },
  { name := "STP_CTX_SEL", off := 0x80010, stride := 0x1000, count := 16, sel := .none, fields := [STP_CTX_SEL.CTX] },
  { name := "STP_CTX", off := 0x80018, stride := 0x1000, count := 16, sel := .stpCtx, fields := [STP_CTX.BUSY, STP_CTX.STATE, STP_CTX.PID, STP_CTX.QUEUE, STP_CTX.SEM, STP_CTX.TARGET] },
  { name := "STP_CTX_KNOT", off := 0x80020, stride := 0x1000, count := 16, sel := .stpCtx, fields := [STP_CTX_KNOT.KNOT] },
  { name := "STP_WAIT_LOG", off := 0x80028, stride := 0x1000, count := 16, sel := .none, fields := [STP_WAIT_LOG.CTX, STP_WAIT_LOG.PID, STP_WAIT_LOG.QUEUE, STP_WAIT_LOG.SEM, STP_WAIT_LOG.TARGET] },
  { name := "STP_WAIT_KNOT", off := 0x80030, stride := 0x1000, count := 16, sel := .none, fields := [STP_WAIT_KNOT.KNOT] },
  { name := "STP_SEM_FORCE", off := 0x80038, stride := 0x1000, count := 16, sel := .none, fields := [STP_SEM_FORCE.OP, STP_SEM_FORCE.SEM, STP_SEM_FORCE.VALUE] },
  { name := "STP_FORCE_LOG", off := 0x80040, stride := 0x1000, count := 16, sel := .none, fields := [STP_FORCE_LOG.OP, STP_FORCE_LOG.PID, STP_FORCE_LOG.SEM, STP_FORCE_LOG.BEFORE] } ]

/-- Registers 132 to 143 of the index (R501). -/
def regTable11 : List RegInfo := [
  { name := "STP_FORCE_KNOT", off := 0x80048, stride := 0x1000, count := 16, sel := .none, fields := [STP_FORCE_KNOT.KNOT] },
  { name := "STP_SEM_ERR", off := 0x80050, stride := 0x1000, count := 16, sel := .none, fields := [STP_SEM_ERR.CAUSE, STP_SEM_ERR.PID, STP_SEM_ERR.QUEUE, STP_SEM_ERR.SEM, STP_SEM_ERR.OPERAND] },
  { name := "STP_CACHE_INV", off := 0x80058, stride := 0x1000, count := 16, sel := .none, fields := [STP_CACHE_INV.ALL, STP_CACHE_INV.PID] },
  { name := "STP_EVENT", off := 0x80068, stride := 0x1000, count := 16, sel := .none, fields := [STP_EVENT.SEM_ERR, STP_EVENT.FORCE, STP_EVENT.WAIT_LONG] },
  { name := "STP_STEPS", off := 0x80100, stride := 0x1000, count := 16, sel := .none, fields := [STP_STEPS.OVF, STP_STEPS.COUNT] },
  { name := "STP_WAIT_KNOTS", off := 0x80108, stride := 0x1000, count := 16, sel := .none, fields := [STP_WAIT_KNOTS.OVF, STP_WAIT_KNOTS.COUNT] },
  { name := "STP_ARRIVE_STALL", off := 0x80110, stride := 0x1000, count := 16, sel := .none, fields := [STP_ARRIVE_STALL.OVF, STP_ARRIVE_STALL.COUNT] },
  { name := "STP_CHAN_FULL", off := 0x80118, stride := 0x1000, count := 16, sel := .none, fields := [STP_CHAN_FULL.OVF, STP_CHAN_FULL.COUNT] },
  { name := "STP_CACHE_HIT", off := 0x80120, stride := 0x1000, count := 16, sel := .none, fields := [STP_CACHE_HIT.OVF, STP_CACHE_HIT.COUNT] },
  { name := "STP_CACHE_MISS", off := 0x80128, stride := 0x1000, count := 16, sel := .none, fields := [STP_CACHE_MISS.OVF, STP_CACHE_MISS.COUNT] },
  { name := "STP_CACHE_INVAL", off := 0x80130, stride := 0x1000, count := 16, sel := .none, fields := [STP_CACHE_INVAL.OVF, STP_CACHE_INVAL.COUNT] },
  { name := "STP_SEM_OPS", off := 0x80138, stride := 0x1000, count := 16, sel := .none, fields := [STP_SEM_OPS.OVF, STP_SEM_OPS.COUNT] } ]

/-- Registers 144 to 155 of the index (R501). -/
def regTable12 : List RegInfo := [
  { name := "STP_FORCE_CNT", off := 0x80140, stride := 0x1000, count := 16, sel := .none, fields := [STP_FORCE_CNT.OVF, STP_FORCE_CNT.COUNT] },
  { name := "QUE_SEL", off := 0x90000, stride := 0x8, count := 1, sel := .none, fields := [QUE_SEL.PID, QUE_SEL.QUEUE] },
  { name := "QUE_CFG", off := 0x90008, stride := 0x8, count := 1, sel := .queSel, fields := [QUE_CFG.V, QUE_CFG.CORE, QUE_CFG.NQ] },
  { name := "QUE_DRING", off := 0x90010, stride := 0x8, count := 1, sel := .queSel, fields := [QUE_DRING.BASE, QUE_DRING.LOG2N] },
  { name := "QUE_CRING", off := 0x90018, stride := 0x8, count := 1, sel := .queSel, fields := [QUE_CRING.BASE] },
  { name := "QUE_CTRL", off := 0x90020, stride := 0x8, count := 1, sel := .queSel, fields := [QUE_CTRL.RESUME, QUE_CTRL.ENABLE] },
  { name := "QUE_STATUS", off := 0x90028, stride := 0x8, count := 1, sel := .queSel, fields := [QUE_STATUS.ACTIVE, QUE_STATUS.CAUSE, QUE_STATUS.STATE] },
  { name := "QUE_IDX", off := 0x90030, stride := 0x8, count := 1, sel := .queSel, fields := [QUE_IDX.PI, QUE_IDX.FI] },
  { name := "QUE_DONE", off := 0x90038, stride := 0x8, count := 1, sel := .queSel, fields := [QUE_DONE.OLDEST, QUE_DONE.DONE] },
  { name := "QUE_PROG", off := 0x90040, stride := 0x8, count := 1, sel := .queSel, fields := [QUE_PROG.PLANNED, QUE_PROG.COMMITTED] },
  { name := "QUE_ERR_LOG", off := 0x90048, stride := 0x8, count := 1, sel := .none, fields := [QUE_ERR_LOG.STATUS, QUE_ERR_LOG.SUB, QUE_ERR_LOG.CAUSE, QUE_ERR_LOG.PID, QUE_ERR_LOG.QUEUE] },
  { name := "QUE_ERR_SEQ", off := 0x90050, stride := 0x8, count := 1, sel := .none, fields := [QUE_ERR_SEQ.SEQ] } ]

/-- Registers 156 to 167 of the index (R501). -/
def regTable13 : List RegInfo := [
  { name := "QUE_ERR_KNOT", off := 0x90058, stride := 0x8, count := 1, sel := .none, fields := [QUE_ERR_KNOT.KNOT] },
  { name := "QUE_EVENT", off := 0x90060, stride := 0x8, count := 1, sel := .none, fields := [QUE_EVENT.REFUSED, QUE_EVENT.ERR] },
  { name := "QUE_DB", off := 0x90100, stride := 0x8, count := 1, sel := .none, fields := [QUE_DB.OVF, QUE_DB.COUNT] },
  { name := "QUE_DB_STALE", off := 0x90108, stride := 0x8, count := 1, sel := .none, fields := [QUE_DB_STALE.OVF, QUE_DB_STALE.COUNT] },
  { name := "QUE_DB_OVR", off := 0x90110, stride := 0x8, count := 1, sel := .none, fields := [QUE_DB_OVR.OVF, QUE_DB_OVR.COUNT] },
  { name := "QUE_KICK", off := 0x90118, stride := 0x8, count := 1, sel := .none, fields := [QUE_KICK.OVF, QUE_KICK.COUNT] },
  { name := "QUE_KICK_LOST", off := 0x90120, stride := 0x8, count := 1, sel := .none, fields := [QUE_KICK_LOST.OVF, QUE_KICK_LOST.COUNT] },
  { name := "QUE_FETCH", off := 0x90128, stride := 0x8, count := 1, sel := .none, fields := [QUE_FETCH.OVF, QUE_FETCH.COUNT] },
  { name := "QUE_REFUSED", off := 0x90130, stride := 0x8, count := 1, sel := .none, fields := [QUE_REFUSED.OVF, QUE_REFUSED.COUNT] },
  { name := "QUE_CR", off := 0x90138, stride := 0x8, count := 1, sel := .none, fields := [QUE_CR.OVF, QUE_CR.COUNT] },
  { name := "QUE_CR_DROP", off := 0x90140, stride := 0x8, count := 1, sel := .none, fields := [QUE_CR_DROP.OVF, QUE_CR_DROP.COUNT] },
  { name := "QUE_BUDGET_MISS", off := 0x90148, stride := 0x8, count := 1, sel := .none, fields := [QUE_BUDGET_MISS.OVF, QUE_BUDGET_MISS.COUNT] } ]

/-- Registers 168 to 179 of the index (R501). -/
def regTable14 : List RegInfo := [
  { name := "CDC_PSEL", off := 0xA0000, stride := 0x8, count := 1, sel := .none, fields := [CDC_PSEL.PID] },
  { name := "CDC_SLOT_ID", off := 0xA0010, stride := 0x10, count := 4, sel := .cdcPsel, fields := [CDC_SLOT_ID.TABLE_ID, CDC_SLOT_ID.TAG] },
  { name := "CDC_SLOT_ST", off := 0xA0018, stride := 0x10, count := 4, sel := .cdcPsel, fields := [CDC_SLOT_ST.STATE, CDC_SLOT_ST.NCTX, CDC_SLOT_ST.GEN, CDC_SLOT_ST.REFS] },
  { name := "CDC_ERR_LOG", off := 0xA0080, stride := 0x8, count := 1, sel := .none, fields := [CDC_ERR_LOG.STATUS, CDC_ERR_LOG.CAUSE, CDC_ERR_LOG.SRC, CDC_ERR_LOG.PID, CDC_ERR_LOG.ID, CDC_ERR_LOG.SS] },
  { name := "CDC_ERR_ADDR", off := 0xA0088, stride := 0x8, count := 1, sel := .none, fields := [CDC_ERR_ADDR.ADDR] },
  { name := "CDC_ERR_KNOT", off := 0xA0090, stride := 0x8, count := 1, sel := .none, fields := [CDC_ERR_KNOT.KNOT] },
  { name := "CDC_DEC_BLK", off := 0xA0100, stride := 0x8, count := 1, sel := .none, fields := [CDC_DEC_BLK.OVF, CDC_DEC_BLK.COUNT] },
  { name := "CDC_ENC_BLK", off := 0xA0108, stride := 0x8, count := 1, sel := .none, fields := [CDC_ENC_BLK.OVF, CDC_ENC_BLK.COUNT] },
  { name := "CDC_RAW_BLK", off := 0xA0110, stride := 0x8, count := 1, sel := .none, fields := [CDC_RAW_BLK.OVF, CDC_RAW_BLK.COUNT] },
  { name := "CDC_FALLBACK", off := 0xA0118, stride := 0x8, count := 1, sel := .none, fields := [CDC_FALLBACK.OVF, CDC_FALLBACK.COUNT] },
  { name := "CDC_LIT_SS", off := 0xA0120, stride := 0x8, count := 1, sel := .none, fields := [CDC_LIT_SS.OVF, CDC_LIT_SS.COUNT] },
  { name := "CDC_TBL_MISS", off := 0xA0128, stride := 0x8, count := 1, sel := .none, fields := [CDC_TBL_MISS.OVF, CDC_TBL_MISS.COUNT] } ]

/-- Registers 180 to 191 of the index (R501). -/
def regTable15 : List RegInfo := [
  { name := "CDC_BAD_BLK", off := 0xA0130, stride := 0x8, count := 1, sel := .none, fields := [CDC_BAD_BLK.OVF, CDC_BAD_BLK.COUNT] },
  { name := "CDC_CODED_BYTES", off := 0xA0138, stride := 0x8, count := 1, sel := .none, fields := [CDC_CODED_BYTES.OVF, CDC_CODED_BYTES.COUNT] },
  { name := "CDC_RAW_BYTES", off := 0xA0140, stride := 0x8, count := 1, sel := .none, fields := [CDC_RAW_BYTES.OVF, CDC_RAW_BYTES.COUNT] },
  { name := "CDC_VERIFY_WAIT", off := 0xA0148, stride := 0x8, count := 1, sel := .none, fields := [CDC_VERIFY_WAIT.OVF, CDC_VERIFY_WAIT.COUNT] },
  { name := "MTX_SLOT_SEL", off := 0xB0000, stride := 0x8, count := 1, sel := .none, fields := [MTX_SLOT_SEL.SLOT] },
  { name := "MTX_SLOT", off := 0xB0008, stride := 0x8, count := 1, sel := .mtxSlot, fields := [MTX_SLOT.STATE, MTX_SLOT.OWNED, MTX_SLOT.PID, MTX_SLOT.REFS, MTX_SLOT.LEN] },
  { name := "MTX_SLOT_REC", off := 0xB0010, stride := 0x8, count := 1, sel := .mtxSlot, fields := [MTX_SLOT_REC.ADDR] },
  { name := "MTX_CHAN_SEL", off := 0xB0018, stride := 0x8, count := 1, sel := .none, fields := [MTX_CHAN_SEL.CHAN] },
  { name := "MTX_CHAN", off := 0xB0020, stride := 0x8, count := 1, sel := .mtxChan, fields := [MTX_CHAN.UNITS, MTX_CHAN.DGROUPS, MTX_CHAN.SRAM_KIB] },
  { name := "MTX_ERR_LOG", off := 0xB0080, stride := 0x8, count := 1, sel := .none, fields := [MTX_ERR_LOG.STATUS, MTX_ERR_LOG.CAUSE, MTX_ERR_LOG.PID, MTX_ERR_LOG.CORE, MTX_ERR_LOG.SLOT, MTX_ERR_LOG.UNIT] },
  { name := "MTX_ERR_KNOT", off := 0xB0088, stride := 0x8, count := 1, sel := .none, fields := [MTX_ERR_KNOT.KNOT] },
  { name := "MTX_CMDS", off := 0xB0100, stride := 0x8, count := 1, sel := .none, fields := [MTX_CMDS.OVF, MTX_CMDS.COUNT] } ]

/-- Registers 192 to 203 of the index (R501). -/
def regTable16 : List RegInfo := [
  { name := "MTX_STEPS", off := 0xB0108, stride := 0x8, count := 1, sel := .none, fields := [MTX_STEPS.OVF, MTX_STEPS.COUNT] },
  { name := "MTX_PRODUCTS", off := 0xB0110, stride := 0x8, count := 1, sel := .none, fields := [MTX_PRODUCTS.OVF, MTX_PRODUCTS.COUNT] },
  { name := "MTX_FUNC", off := 0xB0118, stride := 0x8, count := 1, sel := .none, fields := [MTX_FUNC.OVF, MTX_FUNC.COUNT] },
  { name := "MTX_W_BYTES", off := 0xB0120, stride := 0x8, count := 1, sel := .none, fields := [MTX_W_BYTES.OVF, MTX_W_BYTES.COUNT] },
  { name := "MTX_KV_BYTES", off := 0xB0128, stride := 0x8, count := 1, sel := .none, fields := [MTX_KV_BYTES.OVF, MTX_KV_BYTES.COUNT] },
  { name := "MTX_SPILL_BYTES", off := 0xB0130, stride := 0x8, count := 1, sel := .none, fields := [MTX_SPILL_BYTES.OVF, MTX_SPILL_BYTES.COUNT] },
  { name := "MTX_STALL_FETCH", off := 0xB0138, stride := 0x8, count := 1, sel := .none, fields := [MTX_STALL_FETCH.OVF, MTX_STALL_FETCH.COUNT] },
  { name := "MTX_STALL_SHARE", off := 0xB0140, stride := 0x8, count := 1, sel := .none, fields := [MTX_STALL_SHARE.OVF, MTX_STALL_SHARE.COUNT] },
  { name := "MTX_STALL_OTHER", off := 0xB0148, stride := 0x8, count := 1, sel := .none, fields := [MTX_STALL_OTHER.OVF, MTX_STALL_OTHER.COUNT] },
  { name := "MTX_PLAN_MISS", off := 0xB0150, stride := 0x8, count := 1, sel := .none, fields := [MTX_PLAN_MISS.OVF, MTX_PLAN_MISS.COUNT] },
  { name := "EMB_CHAN_SEL", off := 0xC0000, stride := 0x8, count := 1, sel := .none, fields := [EMB_CHAN_SEL.CHAN] },
  { name := "EMB_CHAN", off := 0xC0008, stride := 0x8, count := 1, sel := .embChan, fields := [EMB_CHAN.LANES, EMB_CHAN.SRAM_KIB] } ]

/-- Registers 204 to 215 of the index (R501). -/
def regTable17 : List RegInfo := [
  { name := "EMB_ERR_LOG", off := 0xC0080, stride := 0x8, count := 1, sel := .none, fields := [EMB_ERR_LOG.STATUS, EMB_ERR_LOG.CAUSE, EMB_ERR_LOG.PID, EMB_ERR_LOG.CORE, EMB_ERR_LOG.OPCODE, EMB_ERR_LOG.POS] },
  { name := "EMB_ERR_KNOT", off := 0xC0088, stride := 0x8, count := 1, sel := .none, fields := [EMB_ERR_KNOT.KNOT] },
  { name := "EMB_CMDS", off := 0xC0100, stride := 0x8, count := 1, sel := .none, fields := [EMB_CMDS.OVF, EMB_CMDS.COUNT] },
  { name := "EMB_STEPS", off := 0xC0108, stride := 0x8, count := 1, sel := .none, fields := [EMB_STEPS.OVF, EMB_STEPS.COUNT] },
  { name := "EMB_POSITIONS", off := 0xC0110, stride := 0x8, count := 1, sel := .none, fields := [EMB_POSITIONS.OVF, EMB_POSITIONS.COUNT] },
  { name := "EMB_DUP", off := 0xC0118, stride := 0x8, count := 1, sel := .none, fields := [EMB_DUP.OVF, EMB_DUP.COUNT] },
  { name := "EMB_SKIPPED", off := 0xC0120, stride := 0x8, count := 1, sel := .none, fields := [EMB_SKIPPED.OVF, EMB_SKIPPED.COUNT] },
  { name := "EMB_LINES_NEAR", off := 0xC0128, stride := 0x8, count := 1, sel := .none, fields := [EMB_LINES_NEAR.OVF, EMB_LINES_NEAR.COUNT] },
  { name := "EMB_LINES_FAR", off := 0xC0130, stride := 0x8, count := 1, sel := .none, fields := [EMB_LINES_FAR.OVF, EMB_LINES_FAR.COUNT] },
  { name := "EMB_LINES_PEER", off := 0xC0138, stride := 0x8, count := 1, sel := .none, fields := [EMB_LINES_PEER.OVF, EMB_LINES_PEER.COUNT] },
  { name := "EMB_ROWS_APPLIED", off := 0xC0140, stride := 0x8, count := 1, sel := .none, fields := [EMB_ROWS_APPLIED.OVF, EMB_ROWS_APPLIED.COUNT] },
  { name := "EMB_ROWS_WRITTEN", off := 0xC0148, stride := 0x8, count := 1, sel := .none, fields := [EMB_ROWS_WRITTEN.OVF, EMB_ROWS_WRITTEN.COUNT] } ]

/-- Registers 216 to 227 of the index (R501). -/
def regTable18 : List RegInfo := [
  { name := "EMB_ROWS_REPLACED", off := 0xC0150, stride := 0x8, count := 1, sel := .none, fields := [EMB_ROWS_REPLACED.OVF, EMB_ROWS_REPLACED.COUNT] },
  { name := "EMB_SCRATCH_BYTES", off := 0xC0158, stride := 0x8, count := 1, sel := .none, fields := [EMB_SCRATCH_BYTES.OVF, EMB_SCRATCH_BYTES.COUNT] },
  { name := "EMB_STALL_FETCH", off := 0xC0160, stride := 0x8, count := 1, sel := .none, fields := [EMB_STALL_FETCH.OVF, EMB_STALL_FETCH.COUNT] },
  { name := "SRH_CHAN_SEL", off := 0xD0000, stride := 0x8, count := 1, sel := .none, fields := [SRH_CHAN_SEL.CHAN] },
  { name := "SRH_CHAN", off := 0xD0008, stride := 0x8, count := 1, sel := .srhChan, fields := [SRH_CHAN.LANES, SRH_CHAN.SRAM_KIB] },
  { name := "SRH_PSEL", off := 0xD0010, stride := 0x8, count := 1, sel := .none, fields := [SRH_PSEL.PID] },
  { name := "SRH_PART", off := 0xD0018, stride := 0x8, count := 1, sel := .srhPsel, fields := [SRH_PART.OWNER] },
  { name := "SRH_MRG", off := 0xD0028, stride := 0x8, count := 1, sel := .srhChan, fields := [SRH_MRG.ACTIVE, SRH_MRG.RESUMED, SRH_MRG.PHASE, SRH_MRG.PID, SRH_MRG.NEXT] },
  { name := "SRH_MRG_IDX", off := 0xD0030, stride := 0x8, count := 1, sel := .srhChan, fields := [SRH_MRG_IDX.ADDR] },
  { name := "SRH_MRG_EPOCH", off := 0xD0038, stride := 0x8, count := 1, sel := .srhChan, fields := [SRH_MRG_EPOCH.EPOCH] },
  { name := "SRH_ERR_LOG", off := 0xD0080, stride := 0x8, count := 1, sel := .none, fields := [SRH_ERR_LOG.STATUS, SRH_ERR_LOG.CAUSE, SRH_ERR_LOG.PID, SRH_ERR_LOG.CORE, SRH_ERR_LOG.OPCODE, SRH_ERR_LOG.POS] },
  { name := "SRH_ERR_KNOT", off := 0xD0088, stride := 0x8, count := 1, sel := .none, fields := [SRH_ERR_KNOT.KNOT] } ]

/-- Registers 228 to 239 of the index (R501). -/
def regTable19 : List RegInfo := [
  { name := "SRH_EVENT", off := 0xD0090, stride := 0x8, count := 1, sel := .none, fields := [SRH_EVENT.MERGE_LOST, SRH_EVENT.MERGE_RESUMED, SRH_EVENT.MERGE_DONE] },
  { name := "SRH_CMDS", off := 0xD0100, stride := 0x8, count := 1, sel := .none, fields := [SRH_CMDS.OVF, SRH_CMDS.COUNT] },
  { name := "SRH_STEPS", off := 0xD0108, stride := 0x8, count := 1, sel := .none, fields := [SRH_STEPS.OVF, SRH_STEPS.COUNT] },
  { name := "SRH_COMPARES", off := 0xD0110, stride := 0x8, count := 1, sel := .none, fields := [SRH_COMPARES.OVF, SRH_COMPARES.COUNT] },
  { name := "SRH_CODE_BYTES", off := 0xD0118, stride := 0x8, count := 1, sel := .none, fields := [SRH_CODE_BYTES.OVF, SRH_CODE_BYTES.COUNT] },
  { name := "SRH_SLOW_SEG", off := 0xD0120, stride := 0x8, count := 1, sel := .none, fields := [SRH_SLOW_SEG.OVF, SRH_SLOW_SEG.COUNT] },
  { name := "SRH_ROUNDS", off := 0xD0128, stride := 0x8, count := 1, sel := .none, fields := [SRH_ROUNDS.OVF, SRH_ROUNDS.COUNT] },
  { name := "SRH_TOMB_VISIT", off := 0xD0130, stride := 0x8, count := 1, sel := .none, fields := [SRH_TOMB_VISIT.OVF, SRH_TOMB_VISIT.COUNT] },
  { name := "SRH_SHORT", off := 0xD0138, stride := 0x8, count := 1, sel := .none, fields := [SRH_SHORT.OVF, SRH_SHORT.COUNT] },
  { name := "SRH_POST_LOSS", off := 0xD0140, stride := 0x8, count := 1, sel := .none, fields := [SRH_POST_LOSS.OVF, SRH_POST_LOSS.COUNT] },
  { name := "SRH_INSERTED", off := 0xD0148, stride := 0x8, count := 1, sel := .none, fields := [SRH_INSERTED.OVF, SRH_INSERTED.COUNT] },
  { name := "SRH_DELETED", off := 0xD0150, stride := 0x8, count := 1, sel := .none, fields := [SRH_DELETED.OVF, SRH_DELETED.COUNT] } ]

/-- Registers 240 to 251 of the index (R501). -/
def regTable20 : List RegInfo := [
  { name := "SRH_DEL_NOOP", off := 0xD0158, stride := 0x8, count := 1, sel := .none, fields := [SRH_DEL_NOOP.OVF, SRH_DEL_NOOP.COUNT] },
  { name := "SRH_LINKED", off := 0xD0160, stride := 0x8, count := 1, sel := .none, fields := [SRH_LINKED.OVF, SRH_LINKED.COUNT] },
  { name := "SRH_PURGED", off := 0xD0168, stride := 0x8, count := 1, sel := .none, fields := [SRH_PURGED.OVF, SRH_PURGED.COUNT] },
  { name := "SRH_CONFLICT", off := 0xD0170, stride := 0x8, count := 1, sel := .none, fields := [SRH_CONFLICT.OVF, SRH_CONFLICT.COUNT] },
  { name := "SRH_STALL_FETCH", off := 0xD0178, stride := 0x8, count := 1, sel := .none, fields := [SRH_STALL_FETCH.OVF, SRH_STALL_FETCH.COUNT] },
  { name := "POOL_CHAN_SEL", off := 0xE0000, stride := 0x8, count := 1, sel := .none, fields := [POOL_CHAN_SEL.CHAN] },
  { name := "POOL_CHAN", off := 0xE0008, stride := 0x8, count := 1, sel := .poolChan, fields := [POOL_CHAN.UNITS, POOL_CHAN.SRAM_KIB] },
  { name := "POOL_ERR_LOG", off := 0xE0080, stride := 0x8, count := 1, sel := .none, fields := [POOL_ERR_LOG.STATUS, POOL_ERR_LOG.OPCODE, POOL_ERR_LOG.PID, POOL_ERR_LOG.CORE, POOL_ERR_LOG.UNIT] },
  { name := "POOL_ERR_KNOT", off := 0xE0088, stride := 0x8, count := 1, sel := .none, fields := [POOL_ERR_KNOT.KNOT] },
  { name := "POOL_CMDS", off := 0xE0100, stride := 0x8, count := 1, sel := .none, fields := [POOL_CMDS.OVF, POOL_CMDS.COUNT] },
  { name := "POOL_STEPS", off := 0xE0108, stride := 0x8, count := 1, sel := .none, fields := [POOL_STEPS.OVF, POOL_STEPS.COUNT] },
  { name := "POOL_RD_BYTES", off := 0xE0110, stride := 0x8, count := 1, sel := .none, fields := [POOL_RD_BYTES.OVF, POOL_RD_BYTES.COUNT] } ]

/-- Registers 252 to 263 of the index (R501). -/
def regTable21 : List RegInfo := [
  { name := "POOL_WR_BYTES", off := 0xE0118, stride := 0x8, count := 1, sel := .none, fields := [POOL_WR_BYTES.OVF, POOL_WR_BYTES.COUNT] },
  { name := "POOL_TERMS", off := 0xE0120, stride := 0x8, count := 1, sel := .none, fields := [POOL_TERMS.OVF, POOL_TERMS.COUNT] },
  { name := "POOL_HASH_BYTES", off := 0xE0128, stride := 0x8, count := 1, sel := .none, fields := [POOL_HASH_BYTES.OVF, POOL_HASH_BYTES.COUNT] },
  { name := "TXN_CTRL", off := 0xF0000, stride := 0x8, count := 1, sel := .none, fields := [TXN_CTRL.HOLD, TXN_CTRL.RESEND, TXN_CTRL.LEAD] },
  { name := "TXN_STATUS", off := 0xF0008, stride := 0x8, count := 1, sel := .none, fields := [TXN_STATUS.COORD, TXN_STATUS.OPEN] },
  { name := "TXN_SEL", off := 0xF0010, stride := 0x8, count := 1, sel := .none, fields := [TXN_SEL.OCID, TXN_SEL.ID] },
  { name := "TXN_VIEW", off := 0xF0018, stride := 0x8, count := 1, sel := .none, fields := [TXN_VIEW.FOUND, TXN_VIEW.STATE, TXN_VIEW.COORD, TXN_VIEW.NPART, TXN_VIEW.SLED, TXN_VIEW.PID, TXN_VIEW.STATUS, TXN_VIEW.SUB] },
  { name := "TXN_VIEW_KNOT", off := 0xF0020, stride := 0x8, count := 1, sel := .none, fields := [TXN_VIEW_KNOT.KNOT] },
  { name := "TXN_FORCE", off := 0xF0028, stride := 0x8, count := 1, sel := .none, fields := [TXN_FORCE.OP, TXN_FORCE.OCID, TXN_FORCE.ID] },
  { name := "TXN_LOG", off := 0xF0030, stride := 0x8, count := 1, sel := .none, fields := [TXN_LOG.STATUS, TXN_LOG.SUB, TXN_LOG.COORD, TXN_LOG.PID, TXN_LOG.OCID, TXN_LOG.ID] },
  { name := "TXN_LOG_KNOT", off := 0xF0038, stride := 0x8, count := 1, sel := .none, fields := [TXN_LOG_KNOT.KNOT] },
  { name := "TXN_EVENT", off := 0xF0040, stride := 0x8, count := 1, sel := .none, fields := [TXN_EVENT.ORPHAN, TXN_EVENT.POOL_FAIL, TXN_EVENT.LATE] } ]

/-- Registers 264 to 275 of the index (R501). -/
def regTable22 : List RegInfo := [
  { name := "TXN_PREPARED", off := 0xF0100, stride := 0x8, count := 1, sel := .none, fields := [TXN_PREPARED.OVF, TXN_PREPARED.COUNT] },
  { name := "TXN_COMMITTED", off := 0xF0108, stride := 0x8, count := 1, sel := .none, fields := [TXN_COMMITTED.OVF, TXN_COMMITTED.COUNT] },
  { name := "TXN_ABORTED", off := 0xF0110, stride := 0x8, count := 1, sel := .none, fields := [TXN_ABORTED.OVF, TXN_ABORTED.COUNT] },
  { name := "TXN_CONFLICT", off := 0xF0118, stride := 0x8, count := 1, sel := .none, fields := [TXN_CONFLICT.OVF, TXN_CONFLICT.COUNT] },
  { name := "TXN_POOL_FAIL", off := 0xF0120, stride := 0x8, count := 1, sel := .none, fields := [TXN_POOL_FAIL.OVF, TXN_POOL_FAIL.COUNT] },
  { name := "TXN_LATE", off := 0xF0128, stride := 0x8, count := 1, sel := .none, fields := [TXN_LATE.OVF, TXN_LATE.COUNT] },
  { name := "TXN_LOCK_WAIT", off := 0xF0130, stride := 0x8, count := 1, sel := .none, fields := [TXN_LOCK_WAIT.OVF, TXN_LOCK_WAIT.COUNT] },
  { name := "TXN_LOCAL", off := 0xF0138, stride := 0x8, count := 1, sel := .none, fields := [TXN_LOCAL.OVF, TXN_LOCAL.COUNT] },
  { name := "TXN_PUB_OK", off := 0xF0140, stride := 0x8, count := 1, sel := .none, fields := [TXN_PUB_OK.OVF, TXN_PUB_OK.COUNT] },
  { name := "TXN_PUB_NOOP", off := 0xF0148, stride := 0x8, count := 1, sel := .none, fields := [TXN_PUB_NOOP.OVF, TXN_PUB_NOOP.COUNT] },
  { name := "TXN_PUB_CONFLICT", off := 0xF0150, stride := 0x8, count := 1, sel := .none, fields := [TXN_PUB_CONFLICT.OVF, TXN_PUB_CONFLICT.COUNT] },
  { name := "SEM", off := 0x100000, stride := 0x8, count := 65536, sel := .none, fields := [SEM.V, SEM.KIND, SEM.PID, SEM.NM1, SEM.WAITERS, SEM.VALUE] } ]

/-- Registers 276 to 287 of the index (R501). -/
def regTable23 : List RegInfo := [
  { name := "STO_CTRL", off := 0x180000, stride := 0x8, count := 1, sel := .none, fields := [STO_CTRL.FAIL_KNOTS, STO_CTRL.SP2, STO_CTRL.AUTO_REBUILD, STO_CTRL.MIG_EN] },
  { name := "STO_REBUILD", off := 0x180008, stride := 0x8, count := 1, sel := .none, fields := [STO_REBUILD.ACTIVE, STO_REBUILD.RESUMED, STO_REBUILD.CHAN, STO_REBUILD.POS, STO_REBUILD.PORT, STO_REBUILD.INTERVAL, STO_REBUILD.NEXT] },
  { name := "STO_NEAR", off := 0x180010, stride := 0x8, count := 1, sel := .none, fields := [STO_NEAR.FREE, STO_NEAR.STACK_UP] },
  { name := "STO_MIG", off := 0x180018, stride := 0x8, count := 1, sel := .none, fields := [STO_MIG.PROMOTE_MAX, STO_MIG.QUEUED] },
  { name := "STO_RGN_SEL", off := 0x180020, stride := 0x8, count := 1, sel := .none, fields := [STO_RGN_SEL.REGION] },
  { name := "STO_RGN", off := 0x180028, stride := 0x8, count := 1, sel := .stoRgn, fields := [STO_RGN.V, STO_RGN.LOST, STO_RGN.TIER, STO_RGN.PROT, STO_RGN.REACH, STO_RGN.MEMBER, STO_RGN.NROWS, STO_RGN.ROW_BASE] },
  { name := "STO_RGN_USE", off := 0x180030, stride := 0x8, count := 1, sel := .stoRgn, fields := [STO_RGN_USE.QUOTA, STO_RGN_USE.RESIDENT] },
  { name := "STO_CMD", off := 0x180038, stride := 0x8, count := 1, sel := .none, fields := [STO_CMD.OP, STO_CMD.REGION, STO_CMD.POS] },
  { name := "STO_CMD_STATUS", off := 0x180040, stride := 0x8, count := 1, sel := .none, fields := [STO_CMD_STATUS.BUSY, STO_CMD_STATUS.ERR] },
  { name := "STO_EVENT", off := 0x180048, stride := 0x8, count := 1, sel := .none, fields := [STO_EVENT.SCRUB_FIX, STO_EVENT.SHADOW_DONE, STO_EVENT.STACK_FAIL, STO_EVENT.LOSS, STO_EVENT.REBUILD_DONE, STO_EVENT.SLED_FAILED, STO_EVENT.SLED_SUSPECT] },
  { name := "STO_SHADOW", off := 0x180050, stride := 0x8, count := 1, sel := .none, fields := [STO_SHADOW.STATE, STO_SHADOW.MODE, STO_SHADOW.SRC_HID, STO_SHADOW.PID, STO_SHADOW.NTRIAL] },
  { name := "STO_SHADOW_TRIAL", off := 0x180058, stride := 0x8, count := 1, sel := .none, fields := [STO_SHADOW_TRIAL.ADDR] } ]

/-- Registers 288 to 299 of the index (R501). -/
def regTable24 : List RegInfo := [
  { name := "STO_SHADOW_LOG", off := 0x180060, stride := 0x8, count := 1, sel := .none, fields := [STO_SHADOW_LOG.STATUS, STO_SHADOW_LOG.PHASE, STO_SHADOW_LOG.REGION, STO_SHADOW_LOG.ENTRY] },
  { name := "STO_ERR_LOG", off := 0x180080, stride := 0x8, count := 1, sel := .none, fields := [STO_ERR_LOG.STATUS, STO_ERR_LOG.CAUSE, STO_ERR_LOG.POS, STO_ERR_LOG.REGION, STO_ERR_LOG.ROW] },
  { name := "STO_ERR_ADDR", off := 0x180088, stride := 0x8, count := 1, sel := .none, fields := [STO_ERR_ADDR.ADDR] },
  { name := "STO_ERR_KNOT", off := 0x180090, stride := 0x8, count := 1, sel := .none, fields := [STO_ERR_KNOT.KNOT] },
  { name := "STO_SLED", off := 0x180200, stride := 0x8, count := 16, sel := .none, fields := [STO_SLED.STATE, STO_SLED.PORT, STO_SLED.CAUSE, STO_SLED.ROWS_MAX] },
  { name := "STO_SLED_ID", off := 0x180280, stride := 0x8, count := 16, sel := .none, fields := [STO_SLED_ID.SERIAL] },
  { name := "STO_NEAR_RD", off := 0x180400, stride := 0x8, count := 1, sel := .none, fields := [STO_NEAR_RD.OVF, STO_NEAR_RD.COUNT] },
  { name := "STO_FAR_RD", off := 0x180408, stride := 0x8, count := 1, sel := .none, fields := [STO_FAR_RD.OVF, STO_FAR_RD.COUNT] },
  { name := "STO_FAR_WR", off := 0x180410, stride := 0x8, count := 1, sel := .none, fields := [STO_FAR_WR.OVF, STO_FAR_WR.COUNT] },
  { name := "STO_PARITY", off := 0x180418, stride := 0x8, count := 1, sel := .none, fields := [STO_PARITY.OVF, STO_PARITY.COUNT] },
  { name := "STO_PROMOTE", off := 0x180420, stride := 0x8, count := 1, sel := .none, fields := [STO_PROMOTE.OVF, STO_PROMOTE.COUNT] },
  { name := "STO_DEMOTE", off := 0x180428, stride := 0x8, count := 1, sel := .none, fields := [STO_DEMOTE.OVF, STO_DEMOTE.COUNT] } ]

/-- Registers 300 to 311 of the index (R501). -/
def regTable25 : List RegInfo := [
  { name := "STO_WRITEBACK", off := 0x180430, stride := 0x8, count := 1, sel := .none, fields := [STO_WRITEBACK.OVF, STO_WRITEBACK.COUNT] },
  { name := "STO_DEMOTE_CANCEL", off := 0x180438, stride := 0x8, count := 1, sel := .none, fields := [STO_DEMOTE_CANCEL.OVF, STO_DEMOTE_CANCEL.COUNT] },
  { name := "STO_RECON", off := 0x180440, stride := 0x8, count := 1, sel := .none, fields := [STO_RECON.OVF, STO_RECON.COUNT] },
  { name := "STO_NEAR_FIX", off := 0x180448, stride := 0x8, count := 1, sel := .none, fields := [STO_NEAR_FIX.OVF, STO_NEAR_FIX.COUNT] },
  { name := "STO_FAR_FIX", off := 0x180450, stride := 0x8, count := 1, sel := .none, fields := [STO_FAR_FIX.OVF, STO_FAR_FIX.COUNT] },
  { name := "STO_REBUILD_ROWS", off := 0x180458, stride := 0x8, count := 1, sel := .none, fields := [STO_REBUILD_ROWS.OVF, STO_REBUILD_ROWS.COUNT] },
  { name := "STO_SCRUB_FIX", off := 0x180460, stride := 0x8, count := 1, sel := .none, fields := [STO_SCRUB_FIX.OVF, STO_SCRUB_FIX.COUNT] },
  { name := "STO_EC_DELTA", off := 0x180468, stride := 0x8, count := 1, sel := .none, fields := [STO_EC_DELTA.OVF, STO_EC_DELTA.COUNT] },
  { name := "STO_EC_APPLY", off := 0x180470, stride := 0x8, count := 1, sel := .none, fields := [STO_EC_APPLY.OVF, STO_EC_APPLY.COUNT] },
  { name := "PRT_SEL", off := 0x190000, stride := 0x8, count := 1, sel := .none, fields := [PRT_SEL.PID] },
  { name := "PRT_PART", off := 0x190008, stride := 0x8, count := 1, sel := .prtSel, fields := [PRT_PART.V, PRT_PART.SESS, PRT_PART.OWNER, PRT_PART.SGA_OK, PRT_PART.NHITCH, PRT_PART.RES_SLOTS, PRT_PART.NEXT, PRT_PART.MAPGEN] },
  { name := "PRT_GEN", off := 0x190010, stride := 0x8, count := 1, sel := .prtSel, fields := [PRT_GEN.BUSY, PRT_GEN.PENDING, PRT_GEN.PREV, PRT_GEN.CUR] } ]

/-- Registers 312 to 323 of the index (R501). -/
def regTable26 : List RegInfo := [
  { name := "PRT_GEN_KNOT", off := 0x190018, stride := 0x8, count := 1, sel := .prtSel, fields := [PRT_GEN_KNOT.KNOT] },
  { name := "PRT_GEN_CMD", off := 0x190020, stride := 0x8, count := 1, sel := .none, fields := [PRT_GEN_CMD.OP, PRT_GEN_CMD.NEWGEN] },
  { name := "PRT_GEN_T", off := 0x190028, stride := 0x8, count := 1, sel := .none, fields := [PRT_GEN_T.T] },
  { name := "PRT_EXT_SEL", off := 0x190030, stride := 0x8, count := 1, sel := .none, fields := [PRT_EXT_SEL.STAGED, PRT_EXT_SEL.EXT] },
  { name := "PRT_EXT_BASE", off := 0x190038, stride := 0x8, count := 1, sel := .prtExt, fields := [PRT_EXT_BASE.V, PRT_EXT_BASE.FENCED, PRT_EXT_BASE.BASE] },
  { name := "PRT_EXT_LEN", off := 0x190040, stride := 0x8, count := 1, sel := .prtExt, fields := [PRT_EXT_LEN.RIGHTS, PRT_EXT_LEN.LEN, PRT_EXT_LEN.REGION] },
  { name := "PRT_STG_LIST", off := 0x190048, stride := 0x8, count := 1, sel := .none, fields := [PRT_STG_LIST.REGION, PRT_STG_LIST.ENTRY, PRT_STG_LIST.HID] },
  { name := "PRT_HITCH_SEL", off := 0x190050, stride := 0x8, count := 1, sel := .none, fields := [PRT_HITCH_SEL.INDEX] },
  { name := "PRT_HITCH", off := 0x190058, stride := 0x8, count := 1, sel := .prtHitch, fields := [PRT_HITCH.STATE, PRT_HITCH.SGA_OK, PRT_HITCH.STAGES, PRT_HITCH.PID, PRT_HITCH.CID] },
  { name := "PRT_HITCH_CMD", off := 0x190060, stride := 0x8, count := 1, sel := .none, fields := [PRT_HITCH_CMD.OP, PRT_HITCH_CMD.SGA_OK, PRT_HITCH_CMD.STAGES, PRT_HITCH_CMD.PID, PRT_HITCH_CMD.CID] },
  { name := "PRT_GRANT_CMD", off := 0x190068, stride := 0x8, count := 1, sel := .none, fields := [PRT_GRANT_CMD.OP, PRT_GRANT_CMD.MODE, PRT_GRANT_CMD.RIGHTS, PRT_GRANT_CMD.EXT, PRT_GRANT_CMD.PID, PRT_GRANT_CMD.CID] },
  { name := "PRT_CMD_STATUS", off := 0x190070, stride := 0x8, count := 1, sel := .none, fields := [PRT_CMD_STATUS.BUSY, PRT_CMD_STATUS.ERR, PRT_CMD_STATUS.PHASE, PRT_CMD_STATUS.CAUSE, PRT_CMD_STATUS.FENCE_KNOT] } ]

/-- Registers 324 to 335 of the index (R501). -/
def regTable27 : List RegInfo := [
  { name := "PRT_KEY", off := 0x190078, stride := 0x8, count := 1, sel := .prtSel, fields := [PRT_KEY.REST_V, PRT_KEY.SESS_V, PRT_KEY.PREV_V, PRT_KEY.STAGED_V, PRT_KEY.ARMED, PRT_KEY.SESS_GEN] },
  { name := "PRT_KEY_KNOT", off := 0x190080, stride := 0x8, count := 1, sel := .prtSel, fields := [PRT_KEY_KNOT.KNOT] },
  { name := "PRT_KEY_CMD", off := 0x190088, stride := 0x8, count := 1, sel := .none, fields := [PRT_KEY_CMD.OP] },
  { name := "PRT_KEY_T", off := 0x190090, stride := 0x8, count := 1, sel := .prtSel, fields := [PRT_KEY_T.R] },
  { name := "PRT_HAL_SEL", off := 0x190098, stride := 0x8, count := 1, sel := .none, fields := [PRT_HAL_SEL.HAL] },
  { name := "PRT_HAL_LIST", off := 0x1900A0, stride := 0x8, count := 1, sel := .prtHal, fields := [PRT_HAL_LIST.ADDR] },
  { name := "PRT_HAL_CTRL", off := 0x1900A8, stride := 0x8, count := 1, sel := .prtHal, fields := [PRT_HAL_CTRL.EN, PRT_HAL_CTRL.LEAD, PRT_HAL_CTRL.LEN] },
  { name := "PRT_HAL_CUR", off := 0x1900B0, stride := 0x8, count := 1, sel := .prtHal, fields := [PRT_HAL_CUR.CUR] },
  { name := "PRT_REVOKED", off := 0x190100, stride := 0x8, count := 1, sel := .none, fields := [PRT_REVOKED.OVF, PRT_REVOKED.COUNT] },
  { name := "PRT_HITCH_OPS", off := 0x190108, stride := 0x8, count := 1, sel := .none, fields := [PRT_HITCH_OPS.OVF, PRT_HITCH_OPS.COUNT] },
  { name := "PRT_GEN_COMMITS", off := 0x190110, stride := 0x8, count := 1, sel := .none, fields := [PRT_GEN_COMMITS.OVF, PRT_GEN_COMMITS.COUNT] },
  { name := "PRT_KEY_OLD", off := 0x190118, stride := 0x8, count := 1, sel := .none, fields := [PRT_KEY_OLD.OVF, PRT_KEY_OLD.COUNT] } ]

/-- Registers 336 to 347 of the index (R501). -/
def regTable28 : List RegInfo := [
  { name := "PRT_HAL_PROMOTE", off := 0x190120, stride := 0x8, count := 1, sel := .none, fields := [PRT_HAL_PROMOTE.OVF, PRT_HAL_PROMOTE.COUNT] },
  { name := "PRT_HAL_LATE", off := 0x190128, stride := 0x8, count := 1, sel := .none, fields := [PRT_HAL_LATE.OVF, PRT_HAL_LATE.COUNT] },
  { name := "PRT_SCRUB_LINES", off := 0x190130, stride := 0x8, count := 1, sel := .none, fields := [PRT_SCRUB_LINES.OVF, PRT_SCRUB_LINES.COUNT] },
  { name := "FLT_CTRL", off := 0x1A0000, stride := 0x8, count := 1, sel := .none, fields := [FLT_CTRL.SNOOP_SUSP] },
  { name := "FLT_CMD", off := 0x1A0008, stride := 0x8, count := 1, sel := .none, fields := [FLT_CMD.OP, FLT_CMD.PID, FLT_CMD.HID, FLT_CMD.CID] },
  { name := "FLT_CMD_STATUS", off := 0x1A0010, stride := 0x8, count := 1, sel := .none, fields := [FLT_CMD_STATUS.ERR, FLT_CMD_STATUS.CAUSE, FLT_CMD_STATUS.LAST_KNOT] },
  { name := "FLT_SELF", off := 0x1A0018, stride := 0x8, count := 1, sel := .none, fields := [FLT_SELF.FENCED_SEEN, FLT_SELF.ISOLATED] },
  { name := "FLT_FENCE_SEL", off := 0x1A0020, stride := 0x8, count := 1, sel := .none, fields := [FLT_FENCE_SEL.KIND, FLT_FENCE_SEL.ID] },
  { name := "FLT_FENCE", off := 0x1A0028, stride := 0x8, count := 1, sel := .fltFence, fields := [FLT_FENCE.FENCED, FLT_FENCE.SHADOW, FLT_FENCE.KNOT] },
  { name := "FLT_PART_SEL", off := 0x1A0030, stride := 0x8, count := 1, sel := .none, fields := [FLT_PART_SEL.PID] },
  { name := "FLT_PART", off := 0x1A0038, stride := 0x8, count := 1, sel := .fltPart, fields := [FLT_PART.STATE, FLT_PART.KNOT] },
  { name := "FLT_SUSP_LOG", off := 0x1A0040, stride := 0x8, count := 1, sel := .none, fields := [FLT_SUSP_LOG.KIND, FLT_SUSP_LOG.CLEAR, FLT_SUSP_LOG.LINK, FLT_SUSP_LOG.IS_HID, FLT_SUSP_LOG.ID] } ]

/-- Registers 348 to 359 of the index (R501). -/
def regTable29 : List RegInfo := [
  { name := "FLT_SUSP_KNOT", off := 0x1A0048, stride := 0x8, count := 1, sel := .none, fields := [FLT_SUSP_KNOT.KNOT] },
  { name := "FLT_EVENT", off := 0x1A0050, stride := 0x8, count := 1, sel := .none, fields := [FLT_EVENT.TORN, FLT_EVENT.ISOLATED, FLT_EVENT.SUSPECT] },
  { name := "FLT_SUSPECTS", off := 0x1A0100, stride := 0x8, count := 1, sel := .none, fields := [FLT_SUSPECTS.OVF, FLT_SUSPECTS.COUNT] },
  { name := "FLT_VERDICTS", off := 0x1A0108, stride := 0x8, count := 1, sel := .none, fields := [FLT_VERDICTS.OVF, FLT_VERDICTS.COUNT] },
  { name := "FLT_FENCED", off := 0x1A0110, stride := 0x8, count := 1, sel := .none, fields := [FLT_FENCED.OVF, FLT_FENCED.COUNT] },
  { name := "FLT_TORN", off := 0x1A0118, stride := 0x8, count := 1, sel := .none, fields := [FLT_TORN.OVF, FLT_TORN.COUNT] },
  { name := "FLT_EC_SKIP", off := 0x1A0120, stride := 0x8, count := 1, sel := .none, fields := [FLT_EC_SKIP.OVF, FLT_EC_SKIP.COUNT] },
  { name := "FLT_TEAR_LINES", off := 0x1A0128, stride := 0x8, count := 1, sel := .none, fields := [FLT_TEAR_LINES.OVF, FLT_TEAR_LINES.COUNT] },
  { name := "CFG_STATUS", off := 0x1B0000, stride := 0x8, count := 1, sel := .none, fields := [CFG_STATUS.STATE, CFG_STATUS.ACTIVE, CFG_STATUS.BOOT, CFG_STATUS.PSEL, CFG_STATUS.CAUSE, CFG_STATUS.HID] },
  { name := "CFG_PROF", off := 0x1B0010, stride := 0x8, count := 4, sel := .none, fields := [CFG_PROF.VALID, CFG_PROF.WRITING, CFG_PROF.PAGES, CFG_PROF.VER_LO] },
  { name := "CFG_FLOOR", off := 0x1B0030, stride := 0x8, count := 1, sel := .none, fields := [CFG_FLOOR.VER] },
  { name := "CFG_IMG_ID", off := 0x1B0038, stride := 0x8, count := 1, sel := .none, fields := [CFG_IMG_ID.BUILD_ID] } ]

/-- Registers 360 to 371 of the index (R501). -/
def regTable30 : List RegInfo := [
  { name := "CFG_LOAD_KNOT", off := 0x1B0040, stride := 0x8, count := 1, sel := .none, fields := [CFG_LOAD_KNOT.KNOT] },
  { name := "CFG_PARTIAL_T", off := 0x1B0048, stride := 0x8, count := 1, sel := .none, fields := [CFG_PARTIAL_T.T] },
  { name := "CFG_EVENT", off := 0x1B0050, stride := 0x8, count := 1, sel := .none, fields := [CFG_EVENT.APPLIED, CFG_EVENT.REFUSED] },
  { name := "CFG_ERR_LOG", off := 0x1B0080, stride := 0x8, count := 1, sel := .none, fields := [CFG_ERR_LOG.CAUSE, CFG_ERR_LOG.OP, CFG_ERR_LOG.PROFILE, CFG_ERR_LOG.SECTION, CFG_ERR_LOG.ENTRY] },
  { name := "CFG_ERR_KNOT", off := 0x1B0088, stride := 0x8, count := 1, sel := .none, fields := [CFG_ERR_KNOT.KNOT] },
  { name := "SEC_STATUS", off := 0x1C0000, stride := 0x8, count := 1, sel := .none, fields := [SEC_STATUS.ZEROISED, SEC_STATUS.DEBUG_OPEN, SEC_STATUS.REVOKED, SEC_STATUS.VALID, SEC_STATUS.KEM_GEN] },
  { name := "SEC_SLOT_SEL", off := 0x1C0008, stride := 0x8, count := 1, sel := .none, fields := [SEC_SLOT_SEL.SLOT] },
  { name := "SEC_SLOT", off := 0x1C0010, stride := 0x8, count := 1, sel := .secSlot, fields := [SEC_SLOT.VALID, SEC_SLOT.REVOKED, SEC_SLOT.ROLES] },
  { name := "SEC_SLOT_ID", off := 0x1C0018, stride := 0x8, count := 1, sel := .secSlot, fields := [SEC_SLOT_ID.KEY_ID] },
  { name := "SEC_EVENT", off := 0x1C0020, stride := 0x8, count := 1, sel := .none, fields := [SEC_EVENT.SIG_FAIL, SEC_EVENT.LOG_LOST, SEC_EVENT.DEBUG_UNLOCK, SEC_EVENT.ZEROISE, SEC_EVENT.TAMPER, SEC_EVENT.REFUSED] },
  { name := "SEC_TLOG_SEL", off := 0x1C0028, stride := 0x8, count := 1, sel := .none, fields := [SEC_TLOG_SEL.AGE] },
  { name := "SEC_TLOG_W0", off := 0x1C0030, stride := 0x8, count := 1, sel := .secTlog, fields := [SEC_TLOG_W0.WORD] } ]

/-- Registers 372 to 383 of the index (R501). -/
def regTable31 : List RegInfo := [
  { name := "SEC_TLOG_W1", off := 0x1C0038, stride := 0x8, count := 1, sel := .secTlog, fields := [SEC_TLOG_W1.WORD] },
  { name := "SEC_TLOG_W2", off := 0x1C0040, stride := 0x8, count := 1, sel := .secTlog, fields := [SEC_TLOG_W2.WORD] },
  { name := "SEC_TLOG_W3", off := 0x1C0048, stride := 0x8, count := 1, sel := .secTlog, fields := [SEC_TLOG_W3.WORD] },
  { name := "SEC_TLOG_HEAD", off := 0x1C0050, stride := 0x8, count := 1, sel := .none, fields := [SEC_TLOG_HEAD.HELD, SEC_TLOG_HEAD.SEQ] },
  { name := "SEC_DBG_ADDR", off := 0x1C0058, stride := 0x8, count := 1, sel := .none, fields := [SEC_DBG_ADDR.UNIT, SEC_DBG_ADDR.ADDR] },
  { name := "SEC_DBG_DATA", off := 0x1C0060, stride := 0x8, count := 1, sel := .none, fields := [SEC_DBG_DATA.DATA] },
  { name := "SEC_ERR_LOG", off := 0x1C0080, stride := 0x8, count := 1, sel := .none, fields := [SEC_ERR_LOG.REQ, SEC_ERR_LOG.RESULT, SEC_ERR_LOG.SLOT, SEC_ERR_LOG.PID] },
  { name := "SEC_ERR_KNOT", off := 0x1C0088, stride := 0x8, count := 1, sel := .none, fields := [SEC_ERR_KNOT.KNOT] },
  { name := "SEC_SIG_OK", off := 0x1C0100, stride := 0x8, count := 1, sel := .none, fields := [SEC_SIG_OK.OVF, SEC_SIG_OK.COUNT] },
  { name := "SEC_SIG_FAIL", off := 0x1C0108, stride := 0x8, count := 1, sel := .none, fields := [SEC_SIG_FAIL.OVF, SEC_SIG_FAIL.COUNT] },
  { name := "SEC_KEY_DELIVER", off := 0x1C0110, stride := 0x8, count := 1, sel := .none, fields := [SEC_KEY_DELIVER.OVF, SEC_KEY_DELIVER.COUNT] },
  { name := "SEC_SPDM_REQ", off := 0x1C0118, stride := 0x8, count := 1, sel := .none, fields := [SEC_SPDM_REQ.OVF, SEC_SPDM_REQ.COUNT] } ]

/-- Registers 384 to 395 of the index (R501). -/
def regTable32 : List RegInfo := [
  { name := "LCS_STATE", off := 0x1D0000, stride := 0x8, count := 1, sel := .none, fields := [LCS_STATE.PENDING, LCS_STATE.STATE] },
  { name := "LCS_SERIAL", off := 0x1D0008, stride := 0x8, count := 1, sel := .none, fields := [LCS_SERIAL.SERIAL] },
  { name := "OBS_TRACE_CTL", off := 0x1E0000, stride := 0x8, count := 1, sel := .none, fields := [OBS_TRACE_CTL.EN, OBS_TRACE_CTL.STOP_FULL, OBS_TRACE_CTL.FROZEN, OBS_TRACE_CTL.TYPES, OBS_TRACE_CTL.PC_LOG, OBS_TRACE_CTL.CORES, OBS_TRACE_CTL.ALLPID, OBS_TRACE_CTL.PID] },
  { name := "OBS_TRACE_PTR", off := 0x1E0008, stride := 0x8, count := 1, sel := .none, fields := [OBS_TRACE_PTR.PROD] },
  { name := "OBS_SMP_PTR", off := 0x1E0010, stride := 0x8, count := 1, sel := .none, fields := [OBS_SMP_PTR.PROD] },
  { name := "OBS_STATUS", off := 0x1E0018, stride := 0x8, count := 1, sel := .none, fields := [OBS_STATUS.LINES, OBS_STATUS.STAGED] },
  { name := "OBS_MARK", off := 0x1E0020, stride := 0x8, count := 1, sel := .none, fields := [OBS_MARK.VALUE] },
  { name := "OBS_APER_SEL", off := 0x1E0028, stride := 0x8, count := 1, sel := .none, fields := [OBS_APER_SEL.BUF, OBS_APER_SEL.PAGE] },
  { name := "OBS_EVENT", off := 0x1E0030, stride := 0x8, count := 1, sel := .none, fields := [OBS_EVENT.RING_DROP, OBS_EVENT.FROZE, OBS_EVENT.WP_ALERT, OBS_EVENT.LOST] },
  { name := "OBS_FLUSH", off := 0x1E0038, stride := 0x8, count := 1, sel := .none, fields := [OBS_FLUSH.FLUSH] },
  { name := "OBS_SMP_CTL", off := 0x1E0100, stride := 0x8, count := 16, sel := .none, fields := [OBS_SMP_CTL.EN, OBS_SMP_CTL.DEST, OBS_SMP_CTL.SET, OBS_SMP_CTL.SEL, OBS_SMP_CTL.IVL] },
  { name := "OBS_WP_CTL", off := 0x1E0200, stride := 0x20, count := 16, sel := .none, fields := [OBS_WP_CTL.EN, OBS_WP_CTL.SPACE, OBS_WP_CTL.ALLPID, OBS_WP_CTL.KINDS, OBS_WP_CTL.ACTIONS, OBS_WP_CTL.MAX, OBS_WP_CTL.PID] } ]

/-- Registers 396 to 407 of the index (R501). -/
def regTable33 : List RegInfo := [
  { name := "OBS_WP_BASE", off := 0x1E0208, stride := 0x20, count := 16, sel := .none, fields := [OBS_WP_BASE.LINE] },
  { name := "OBS_WP_LIMIT", off := 0x1E0210, stride := 0x20, count := 16, sel := .none, fields := [OBS_WP_LIMIT.LINE] },
  { name := "OBS_WP_HITS", off := 0x1E0218, stride := 0x20, count := 16, sel := .none, fields := [OBS_WP_HITS.OVF, OBS_WP_HITS.COUNT] },
  { name := "OBS_PSEL", off := 0x1E0400, stride := 0x8, count := 1, sel := .none, fields := [OBS_PSEL.PID] },
  { name := "OBS_PART_CTR", off := 0x1E0408, stride := 0x8, count := 8, sel := .obsPsel, fields := [OBS_PART_CTR.OVF, OBS_PART_CTR.COUNT] },
  { name := "OBS_RING", off := 0x1E0448, stride := 0x8, count := 1, sel := .obsPsel, fields := [OBS_RING.EN, OBS_RING.SYNC, OBS_RING.PC, OBS_RING.RING, OBS_RING.SIZE_LOG] },
  { name := "OBS_STEP_OVERRUN", off := 0x1E0500, stride := 0x8, count := 1, sel := .none, fields := [OBS_STEP_OVERRUN.OVF, OBS_STEP_OVERRUN.COUNT] },
  { name := "OBS_ADMIT_RES", off := 0x1E0508, stride := 0x8, count := 1, sel := .none, fields := [OBS_ADMIT_RES.OVF, OBS_ADMIT_RES.COUNT] },
  { name := "OBS_ADMIT_BORROW", off := 0x1E0510, stride := 0x8, count := 1, sel := .none, fields := [OBS_ADMIT_BORROW.OVF, OBS_ADMIT_BORROW.COUNT] },
  { name := "OBS_ADMIT_BE", off := 0x1E0518, stride := 0x8, count := 1, sel := .none, fields := [OBS_ADMIT_BE.OVF, OBS_ADMIT_BE.COUNT] },
  { name := "OBS_TRACE_REC", off := 0x1E0520, stride := 0x8, count := 1, sel := .none, fields := [OBS_TRACE_REC.OVF, OBS_TRACE_REC.COUNT] },
  { name := "OBS_SMP_REC", off := 0x1E0528, stride := 0x8, count := 1, sel := .none, fields := [OBS_SMP_REC.OVF, OBS_SMP_REC.COUNT] } ]

/-- Registers 408 to 412 of the index (R501). -/
def regTable34 : List RegInfo := [
  { name := "OBS_RING_REC", off := 0x1E0530, stride := 0x8, count := 1, sel := .none, fields := [OBS_RING_REC.OVF, OBS_RING_REC.COUNT] },
  { name := "OBS_LOST", off := 0x1E0538, stride := 0x8, count := 1, sel := .none, fields := [OBS_LOST.OVF, OBS_LOST.COUNT] },
  { name := "OBS_WR_LINES", off := 0x1E0540, stride := 0x8, count := 1, sel := .none, fields := [OBS_WR_LINES.OVF, OBS_WR_LINES.COUNT] },
  { name := "OBS_SWEEP_LINES", off := 0x1E0548, stride := 0x8, count := 1, sel := .none, fields := [OBS_SWEEP_LINES.OVF, OBS_SWEEP_LINES.COUNT] },
  { name := "OBS_APER", off := 0x1E8000, stride := 0x8, count := 512, sel := .none, fields := [OBS_APER.WORD] } ]

/-- Every register of R501, in order of offset within each block. -/
def regTable : List RegInfo :=
  regTable0 ++ regTable1 ++ regTable2 ++ regTable3 ++ regTable4 ++ regTable5 ++
  regTable6 ++ regTable7 ++ regTable8 ++ regTable9 ++ regTable10 ++ regTable11 ++
  regTable12 ++ regTable13 ++ regTable14 ++ regTable15 ++ regTable16 ++ regTable17 ++
  regTable18 ++ regTable19 ++ regTable20 ++ regTable21 ++ regTable22 ++ regTable23 ++
  regTable24 ++ regTable25 ++ regTable26 ++ regTable27 ++ regTable28 ++ regTable29 ++
  regTable30 ++ regTable31 ++ regTable32 ++ regTable33 ++ regTable34

end Sys2Proof.Machine.R
end

