-- ==== Sys2Proof/Machine/Assoc.lean ====
section
/-!
DEFINITION. Sparse data by key: a list of (key, value) pairs in one canonical form, keys strictly rising and no entry
equal to what an unlisted key reads as. The register fields, the store's bytes and the per-item tables use it.
-/

namespace Sys2Proof.Machine

/-- Sparse data: (key, value) pairs, keys strictly rising, no entry equal to the default. -/
abbrev AMap (α : Type) := List (Nat × α)

/-- What key `x` reads as: its entry, or `d`. -/
def AMap.get {α : Type} (d : α) : AMap α → Nat → α
  | [], _ => d
  | (k, v) :: t, x => if k = x then v else AMap.get d t x

/-- Puts an entry in its place. -/
def AMap.insert {α : Type} : AMap α → Nat → α → AMap α
  | [], x, v => [(x, v)]
  | (k, w) :: t, x, v => if x < k then (x, v) :: (k, w) :: t else (k, w) :: AMap.insert t x v

/-- Removes a key's entry. -/
def AMap.erase {α : Type} (m : AMap α) (x : Nat) : AMap α := m.filter (fun e => !decide (e.1 = x))

/-- `x := v`, keeping the canonical form: writing the default removes the entry. -/
def AMap.put {α : Type} [DecidableEq α] (d : α) (m : AMap α) (x : Nat) (v : α) : AMap α :=
  if v = d then m.erase x else (m.erase x).insert x v

/-- Every entry whose key lies in [lo, hi) back to the default. -/
def AMap.clear {α : Type} (m : AMap α) (lo hi : Nat) : AMap α :=
  m.filter (fun e => decide (e.1 < lo) || decide (hi ≤ e.1))

/-- Keys strictly rising. -/
def AMap.sorted {α : Type} : AMap α → Bool
  | [] => true
  | [_] => true
  | (k, _) :: (k', v') :: t => decide (k < k') && AMap.sorted ((k', v') :: t)

/-- The canonical form: keys strictly rising, and no entry equal to the default. -/
def AMap.wf {α : Type} [DecidableEq α] (d : α) (m : AMap α) : Bool :=
  AMap.sorted m && m.all (fun e => !decide (e.2 = d))

/-- Apply `f` to the value of key `x`. -/
def AMap.upd {α : Type} [DecidableEq α] (d : α) (m : AMap α) (x : Nat) (f : α → α) : AMap α :=
  m.put d x (f (m.get d x))

end Sys2Proof.Machine
end

