-- ==== Sys2Proof/Machine/Bytes.lean ====
section
/-!
DEFINITION. Bit fields, byte order and signed readings (R3: little-endian, bit 0 the least significant bit).
-/

namespace Sys2Proof.Machine

/-- Bits [hi:lo] of `v`. -/
def bits (v hi lo : Nat) : Nat := (v >>> lo) % 2 ^ (hi + 1 - lo)

/-- Bit `i` of `v`, as a truth value. -/
def bitAt (v i : Nat) : Bool := (v >>> i) % 2 == 1

/-- `v` with bit `i` set. -/
def setBit (v i : Nat) : Nat := if bitAt v i then v else v + 2 ^ i

/-- `v` with bit `i` cleared. -/
def clrBit (v i : Nat) : Nat := if bitAt v i then v - 2 ^ i else v

/-- The number of one bits of `v` below bit `w`. -/
def popcount (v w : Nat) : Nat := ((List.range w).filter (fun i => bitAt v i)).length

/-- One for true, zero for false. -/
def b2n (b : Bool) : Nat := if b then 1 else 0

/-- The two's-complement reading of the `w`-bit number `v`. -/
def toSigned (w v : Nat) : Int := if bitAt v (w - 1) then (v % 2 ^ w : Int) - 2 ^ w else (v % 2 ^ w : Int)

/-- The `w`-bit two's-complement pattern of `x`. -/
def ofSigned (w : Nat) (x : Int) : Nat := (x % (2 ^ w : Int)).toNat

/-- The little-endian number that the bytes spell (R3). -/
def leNat : List Byte → Nat
  | [] => 0
  | b :: t => b.toNat + 256 * leNat t

/-- The `n` little-endian bytes of `v` (R3). -/
def leBytes : Nat → Nat → List Byte
  | 0, _ => []
  | n + 1, v => BitVec.ofNat 8 v :: leBytes n (v / 256)

/-- `n` bytes of `l` from offset `o`; short data is padded with zero bytes. -/
def slice (l : List Byte) (o n : Nat) : List Byte :=
  let x := (l.drop o).take n
  x ++ List.replicate (n - x.length) 0

/-- The little-endian number in the `n` bytes of `l` from offset `o`. -/
def le (l : List Byte) (o n : Nat) : Nat := leNat (slice l o n)

/-- `v` rounded up to whole units of `u`. -/
def ceilDiv (v u : Nat) : Nat := (v + u - 1) / u

/-- The bytes are all zero. -/
def allZero (l : List Byte) : Bool := l.all (fun b => b == 0)

/-- floor(log2 v), zero for zero. -/
def log2 (v : Nat) : Nat := Nat.log2 v

/-- Puts `x` in its place, after those that do not come after it. -/
def putBy {α : Type} (before : α → α → Bool) (x : α) : List α → List α
  | [] => [x]
  | y :: l => if before x y then x :: y :: l else y :: putBy before x l

/-- `l` in the order `before`; elements of equal place keep theirs. -/
def sortBy {α : Type} (before : α → α → Bool) (l : List α) : List α := l.foldl (fun a x => putBy before x a) []

/-- `l` cut into pieces of `n` elements, `k` pieces. -/
def chunks {α : Type} (n : Nat) : Nat → List α → List (List α)
  | 0, _ => []
  | k + 1, l => l.take n :: chunks n k (l.drop n)

end Sys2Proof.Machine
end

