-- ==== Sys2Proof/Machine/State.lean ====
section
/-!
DEFINITION. The machine's state as plain data: every register field (one sparse map), every table, queue, buffer and
sequencer that spec/00 to spec/23 give the controller, the two tiers of the store, the commands that wait, and the
reasons a step can stop.
-/

namespace Sys2Proof.Machine

/-! ### What leaves the controller -/

/-- An OLP response (R68, R70, R74). The payload is the plaintext; `enc` says whether it travels as ciphertext (R71). -/
structure Resp where
  link : Nat
  op : Nat
  enc : Bool
  tag : Nat
  pid : Nat
  hid : Nat
  cid : Nat
  len : Nat
  cls : Bool
  mapgen : Nat
  issue : Nat
  arg : Nat
  serve : Nat
  hint : Nat
  sub : Nat
  status : Nat
  payload : List Byte
  check : BitVec 64
  deriving DecidableEq, Repr

/-- Everything the controller sends: OLP messages, what its ports send below them, and the answers of the management port.
`Out` only records; beside the port's count of its own bytes (R51) no rule reads it back. -/
inductive Out where
  /-- an OLP response (R74) -/
  | resp (r : Resp)
  /-- an OLP request of the controller (R67 to R73): opcode, header, CHECK, and the payload as plaintext. A snoop (R139), a
  request to another Helak (R80), a store-profile request (R81), a HEARTBEAT or a KNOT_SYNC (R79) -/
  | req (op : Nat) (m : ReqMsg)
  /-- codewords that a link launches (R51, R54): their sequence numbers, and their link control field: ACK, NAK, and LANE_CHG
  with the wavelengths it stands for -/
  | codewords (link : Nat) (seqs : List Nat) (ack : Nat) (nak : Bool) (laneChg : Option Nat)
  /-- the controller's own identification block (R59): kind, HID, own port number -/
  | ident (link kind hid port : Nat)
  /-- codewords sent again after a NAK or a retrain (R52, R61) -/
  | resend (link : Nat) (seqs : List Nat)
  /-- a codeword passed to the transaction layer, in sequence order and once (R52) -/
  | deliver (link seq : Nat)
  /-- an answer of the MCTP endpoint to an EID: protocol, completion code and data (R491 to R498); `mgmtFrames` gives its frames -/
  | mgmt (eid proto cc : Nat) (data : List Byte)
  deriving DecidableEq, Repr

/-! ### The knot discipline (R19 to R47, R517, R519) -/

/-- What the discipline keeps beside its registers: the running exchange and the last accepted sync. Times are in ps on
the controller's own log line (R519). -/
structure KnotSt where
  /-- ENABLE as it took effect at the last boundary (R37) -/
  running : Bool := false
  /-- the first lock after the reset has happened (R39, R40) -/
  lockedOnce : Bool := false
  /-- sequence number of the next KNOT_SYNC sent (R34) -/
  seq : Nat := 0
  /-- the ticks (`Body.tick`) of the last sync and the last delay request sent, plus 1 (R34, R35) -/
  syncAt : Nat := 0
  askAt : Nat := 0
  /-- the last accepted sync: t1, c1, t2 (R519) -/
  t1 : Int := 0
  c1 : Int := 0
  t2 : Int := 0
  /-- the delay requests sent since the one last answered: SEQ and send time -/
  asked : List (Nat × Int) := []
  /-- the latest answered delay request: t3, t4, c3 -/
  t3 : Int := 0
  t4 : Int := 0
  c3 : Int := 0
  /-- a delay request sent since ACQUIRE was last entered has been answered -/
  answered : Bool := false
  /-- consecutive exchanges within ±2 ns (R36) -/
  run : Nat := 0
  /-- whole knots by which the last exchange found the provisional log line ahead of the source (R40) -/
  ahead : Int := 0
  /-- the tick and the port of the last accepted sync -/
  lastSync : Nat := 0
  lastPort : Nat := 0
  /-- the delay answers to launch in the next knot: link, knot, ps, CORR_PS, MASTER_HID, SEQ (R519) -/
  answers : List (Nat × Nat × Nat × Nat × Nat × Nat) := []
  /-- fraction of a calendar unit, in 10^-6 units of 1/65,536 s (R47) -/
  calRem : Nat := 0
  /-- stopped regions' next first records: region, stop knot, restart knot (R46) -/
  gaps : List (Nat × Nat × Nat) := []
  deriving DecidableEq, Repr

/-! ### The optical ports (R48 to R66) -/

/-- A KNOT_SYNC's payload (R34), the receiving port, and the ps after the boundary at which it was taken in. -/
structure SyncMsg where
  link : Nat
  knot : Nat
  sendPs : Nat
  corrPs : Nat
  masterHid : Nat
  seq : Nat
  kind : Nat
  atPs : Nat
  deriving DecidableEq, Repr

/-- A drop of wavelengths in progress (R54): the knot K it started in, as a tick, the wavelengths, whether this side started
it and whether the partner's LANE_CHG has come. -/
structure LaneDrop where
  k : Nat
  mask : Nat
  mine : Bool
  answered : Bool
  deriving DecidableEq, Repr

/-- What a data port keeps beside its registers (R52 to R64). Its times are ticks (`Body.tick`). -/
structure LinkSt where
  /-- when DARK was left for training, while UP or DEGRADED has not been reached (R57) -/
  leftDark : Option Nat := none
  /-- when FAULT was entered (R58) -/
  faultAt : Nat := 0
  /-- when MEASURE was entered, or its part of RETRAIN (R57) -/
  measureAt : Nat := 0
  /-- since when a retraining port has had light on fewer than 4 wavelengths (R57) -/
  fewLight : Option Nat := none
  /-- the wavelengths on which light is found -/
  light : Nat := 0
  /-- the phase of a retraining port: 0 equalise, 1 align, 2 measure (R57) -/
  phase : Nat := 0
  /-- the wavelengths whose primary and spare have both failed (R53) -/
  dead : Nat := 0
  drops : List LaneDrop := []
  /-- codewords received, symbol errors of each wavelength and uncorrectable codewords in the error window (R54) -/
  winCw : Nat := 0
  winSym : AMap Nat := []
  winUncorr : Nat := 0
  /-- the retry buffer: sequence numbers of the codewords not yet acknowledged, oldest first (R52) -/
  unacked : List Nat := []
  /-- codewords that wait for the port's next knot, for one of the 256 places of the retry buffer, or for the end of RETRAIN -/
  held : Nat := 0
  /-- codewords sent again that the port's coming knots still have to carry (R51, R52) -/
  resent : Nat := 0
  /-- the sequence number of the next codeword sent (R51) -/
  txSeq : Nat := 0
  /-- the next sequence number the receiver passes on, and whether the codeword before it in line was lost or uncorrectable
  (NAK, R51) -/
  rxSeq : Nat := 0
  nak : Bool := false
  /-- the role has changed and the port has not come back under the new one: nothing is admitted from it (R61) -/
  noAdmit : Bool := false
  /-- at least one HEARTBEAT taken in during this knot (R64) -/
  hbSeen : Bool := false
  /-- UP has been entered since reset, so MISS counts (R64) -/
  everUp : Bool := false
  deriving DecidableEq, Repr

/-! ### The image in effect and the profiles (R407 to R424, R521) -/

/-- A PART entry (R410). `qcore` gives the core of each queue; `seqSlots` has bit s set for matrix slot s. -/
structure PartDef where
  pid : Nat
  sess : Bool
  owner : Bool
  sgaOk : Bool
  nq : Nat
  resSlots : Nat
  xltShare : Nat
  walkMax : Nat
  dirShare : Nat
  seizeMax : Nat
  qcore : List Nat
  seqSlots : Nat
  deriving DecidableEq, Repr

/-- A HITCH entry (R410). -/
structure HitchDef where
  cid : Nat
  pid : Nat
  stages : Nat
  sgaOk : Bool
  deriving DecidableEq, Repr

/-- An ILV entry: one interleave region (R120, R411). -/
structure Region where
  id : Nat
  gLog : Nat
  lLog : Nat
  shared : Bool
  coded : Bool
  base : Nat
  size : Nat
  localBase : Nat
  hdrBase : Nat
  keyOwner : Nat
  list : List Nat
  pids : List Nat
  deriving DecidableEq, Repr

/-- A SCHED entry (R412). -/
structure SchedDef where
  link : Nat
  inBytes : Nat
  outBytes : Nat
  deriving DecidableEq, Repr

/-- A CHAN entry (R413): engine 1 CDC, 2 MTX, 3 EMB, 4 SRH, 5 POOL; `owner` 0xFFFF for none. -/
structure ChanDef where
  engine : Nat
  chan : Nat
  owner : Nat
  units : Nat
  aux : Nat
  sramKib : Nat
  deriving DecidableEq, Repr

/-- A CORE entry (R413): the best-effort weight, and CTX_MAX and WAYS on each of the 16 cores. -/
structure CoreDef where
  pid : Nat
  weight : Nat
  ctxMax : List Nat
  ways : List Nat
  deriving DecidableEq, Repr

/-- A PROT entry (R414): tier policy (R344), reachability (R346), scheme (R345), group and rows. -/
structure ProtDef where
  region : Nat
  tier : Nat
  swap : Bool
  scheme : Nat
  member : Nat
  group : Nat
  rowBase : Nat
  nRows : Nat
  quota : Nat
  deriving DecidableEq, Repr

/-- A PEER entry (R414). -/
structure PeerDef where
  hid : Nat
  cid : Nat
  stages : Nat
  link : Nat
  deriving DecidableEq, Repr

/-- A GROUP entry (R414). -/
structure GroupDef where
  num : Nat
  members : List Nat
  deriving DecidableEq, Repr

/-- A SEM entry (R521). -/
structure SemDef where
  core : Nat
  barrier : Bool
  sem : Nat
  pid : Nat
  num : Nat
  deriving DecidableEq, Repr

/-- An image, its sections taken apart (R407 to R415, R521). -/
structure Image where
  hid : Nat
  sp2 : Bool
  length : Nat
  partCode : Nat
  stepping : Nat
  ver : Nat
  buildId : Nat
  parts : List PartDef
  hitches : List HitchDef
  regions : List Region
  sched : List SchedDef
  chans : List ChanDef
  cores : List CoreDef
  links : List Nat
  portmap : List Nat
  prots : List ProtDef
  obsSlots : Nat
  traceFrames : Nat
  sampleFrames : Nat
  rings : List (Nat × Nat)
  peers : List PeerDef
  groups : List GroupDef
  sems : List SemDef
  /-- bytes 0 to 15 of the SHA-384 digest of the protection plan (R355) -/
  plan : Nat
  /-- KEY_ID of the signature section (R415) -/
  keyId : Nat
  deriving DecidableEq, Repr

/-- One slot of the profile memory (R418). -/
structure Profile where
  valid : Bool := false
  writing : Bool := false
  bytes : List Byte := []
  deriving DecidableEq, Repr

/-- The configuration unit (R418 to R424). -/
structure CfgSt where
  profiles : AMap Profile := []
  /-- CFG_FLOOR.VER, kept in the profile memory -/
  floor : Nat := 0
  /-- the image in effect -/
  img : Option Image := none
  /-- the occasion of the load in progress: the profile, and whether a SWITCH named it -/
  loading : Option (Nat × Bool) := none
  /-- a POWER reset (not a CHIP reset) came before the load in progress (R420) -/
  afterPower : Bool := true
  /-- the pending PARTIAL: profile, T, and the image once its checks have passed (R422) -/
  partialRec : Option (Nat × Nat × Option Image) := none
  /-- regions whose rows are being filled with zeros (R356) -/
  zeroing : List Nat := []
  /-- the regions of the image that was last in effect, kept over a CHIP reset (R219) -/
  was : List Region := []
  deriving DecidableEq, Repr

/-! ### Partitions, hitches and composition (R370 to R392) -/

/-- An extent of a partition (R379). RIGHTS has R in bit 0, W in bit 1, A in bit 2 and E in bit 3. -/
structure Extent where
  idx : Nat
  base : Nat
  len : Nat
  region : Nat
  rights : Nat
  fenced : Bool
  /-- V of a staged extent; the current table holds valid ones only -/
  valid : Bool := true
  deriving DecidableEq, Repr

/-- A page of the composition: the extent table and the home lists of the partition's own regions (R384). -/
structure Compo where
  exts : List Extent := []
  /-- region and its list of HIDs, where it differs from the image's -/
  lists : List (Nat × List Nat) := []
  deriving DecidableEq, Repr

/-- The keys of a partition (R372 to R374, R446): key bytes, none where absent. -/
structure PartKeys where
  rest : Option (List Byte) := none
  sess : Option (List Byte) := none
  prev : Option (List Byte) := none
  staged : Option (List Byte) := none
  /-- the armed rollover's boundary R -/
  roll : Option Nat := none
  /-- the boundary R of the rollover whose previous key is held -/
  rolled : Option Nat := none
  gen : Nat := 0
  deriving DecidableEq, Repr

/-- The composition of one partition (R371, R379, R384, R385) and its keys. -/
structure PartSt where
  cur : Compo := {}
  prev : Compo := {}
  staged : Compo := {}
  /-- generation G, the boundary at which it took effect, and whether there is a generation before it -/
  gen : Nat := 0
  genKnot : Nat := 0
  hasPrev : Bool := false
  /-- the pending commit: NEWGEN and T -/
  commit : Option (Nat × Nat) := none
  keys : PartKeys := {}
  /-- LIVE 0, TEARING 1, TORN 2 (R401), and the knot of the last change -/
  flt : Nat := 0
  fltKnot : Nat := 0
  /-- the phase of a teardown: 0 none, 1 draining, 2 sweeping (R401) -/
  tearPhase : Nat := 0
  /-- halyard entries already read, and entries in the lead with the unit each names: halyard, entry, unit (R382) -/
  halRead : List (Nat × Nat) := []
  halUnits : List (Nat × Nat × Nat) := []
  deriving DecidableEq, Repr

/-- A hitch (R376): 1 ACTIVE, 2 REVOKING; a FREE entry is not listed. -/
structure Hitch where
  idx : Nat
  cid : Nat
  pid : Nat
  stages : Nat
  sgaOk : Bool
  state : Nat
  deriving DecidableEq, Repr

/-- A grant (R380): rights R, W, A in bits 0 to 2; `fenced` by REVOKE_GRANT (R389). -/
structure Grant where
  cid : Nat
  pid : Nat
  ext : Nat
  rights : Nat
  fenced : Bool
  deriving DecidableEq, Repr

/-- What a revocation takes (R388). -/
inductive RevOp where
  | grant (cid pid ext : Nat)
  | extent (pid ext : Nat) (zero : Bool)
  | hitch (cid pid : Nat)
  deriving DecidableEq, Repr

/-- Hitches, grants and the revocation in progress (R376 to R392). -/
structure PrtSt where
  hitches : List Hitch := []
  grants : List Grant := []
  /-- the revocation and its fence boundary F -/
  rev : Option (RevOp × Nat) := none
  deriving DecidableEq, Repr

/-! ### Translation (R103 to R127) -/

/-- A leaf translation held by the cache (R111, R112). `size` 0: 64 KiB, 1: 2 MiB, 2: 1 GiB. `perm` holds the leaf's
bits R 0, W 1, A 2, E 3. `used` is the last use, for least recently used. -/
structure TlbEntry where
  pid : Nat
  page : Nat
  size : Nat
  sga : Nat
  perm : Nat
  pinned : Bool
  used : Nat
  deriving DecidableEq, Repr

/-- A translation fault: status, sub-cause, cause code and level (R115). -/
structure XErr where
  status : Nat
  sub : Nat
  cause : Nat
  level : Nat := 7
  deriving DecidableEq, Repr

/-- A translated page: SGA of its base, permission bits R 0, W 1, A 2, E 3, size code. -/
structure Leaf where
  sga : Nat
  perm : Nat
  size : Nat
  cleat : Bool
  deriving DecidableEq, Repr

/-- What a walk finds: a leaf, a fault, or a line that must first be read from its owner (R110). -/
inductive WalkRes where
  | leaf (l : Leaf) (reads : Nat)
  | err (e : XErr) (reads : Nat)
  | need (line : Nat)
  deriving DecidableEq, Repr

/-- A page walk: the page of 64 KiB it was started for, whether it holds a walker, the knot of the miss and the key of
R84 (issue knot, CID) of the request that caused it. -/
structure Walk where
  pid : Nat
  page : Nat
  running : Bool
  started : Nat
  knot : Nat
  issue : Nat
  cid : Nat
  /-- lines read from owners that kept them (R110), and the rounds still waited for -/
  keep : List (Nat × List Byte) := []
  rounds : List Nat := []
  /-- what its reads have found (R110) -/
  res : Option WalkRes := none
  deriving DecidableEq, Repr

/-- A pointer-conversion window in force (R105, R106): the base and the size in units of 64 KiB. -/
structure Win where
  v : Bool := false
  wr : Bool := false
  base : Nat := 0
  size : Nat := 0
  deriving DecidableEq, Repr

/-- The scope of an invalidation (R117). -/
structure InvScope where
  /-- 0 page, 1 run, 2 partition, 3 all -/
  scope : Nat
  pid : Nat
  size : Nat
  count : Nat
  cva : Nat
  deriving DecidableEq, Repr

/-- The translation unit. -/
structure XltSt where
  /-- the windows in force, by PID × 64 + window (R106) -/
  wins : AMap Win := []
  tlb : List TlbEntry := []
  walks : List Walk := []
  /-- the partition that received the first walker when walkers were last given out (R113) -/
  turn : Nat := 0
  /-- the management invalidation in progress: its scope and boundary B (R118) -/
  inv : Option (InvScope × Nat) := none
  /-- the partition-scope invalidations of ROOT writes that are not complete: PID and boundary B (R118, R119) -/
  roots : List (Nat × Nat) := []
  /-- access counters of the home slice, by unit of the local slice: HOT in bit 7, COUNT below (R124) -/
  acc : AMap Nat := []
  /-- counts uses, for least recently used -/
  clock : Nat := 0
  /-- the boundary for which the decay sweep has run last, plus 1 (R125) -/
  decayed : Nat := 0
  /-- hot records whose ring's lines are held by clients: PID and the record (R127) -/
  hotWait : List (Nat × List Byte) := []
  /-- header lines of hot rings, read from the clients that own them (R127) -/
  hotSeen : List (Nat × List Byte) := []
  deriving DecidableEq, Repr

/-! ### The tiers of the store (R344 to R369) -/

/-- A resident unit: its frame, and for a WB unit whether it is dirty (R348). -/
structure Resident where
  unit : Nat
  frame : Nat
  dirty : Bool
  deriving DecidableEq, Repr

/-- A migration (R350, R351): a promotion (the frame it took, the knot it started in), or a write-back, which frees the
frame at its end where it is a demotion: the lines already written back, and whether a write has dirtied it again. -/
inductive Migration where
  | promote (unit frame : Nat)
  | writeback (unit : Nat) (demote : Bool) (done : Nat) (again : Bool)
  deriving DecidableEq, Repr

/-- What is known of the sled on a store port: its serial number, its rows, and its label (none: blank). -/
structure Sled where
  serial : Nat := 0
  rows : Nat := 0
  label : Option SledLabel := none
  deriving DecidableEq, Repr

/-- The rebuild journal record (R363). -/
structure RebuildRec where
  knot : Nat
  next : Nat
  last : Nat
  pos : Nat
  port : Nat
  spare : Bool
  serial : Nat
  /-- the slot of the journal that the next record goes to (R355) -/
  slot : Nat := 0
  deriving DecidableEq, Repr

/-- An access of the far store under way (R357 to R359, R366). -/
structure FarOp where
  id : Nat
  /-- the requests that wait for it -/
  reqs : List Nat
  region : Nat
  row : Nat
  scheme : Nat
  /-- admission boundary of its requests (R358), and the knot it was started in -/
  knot : Nat
  started : Nat
  /-- a parity round: its reads come first, its writes second -/
  parity : Bool := false
  phase : Nat := 1
  /-- what the second round writes: position, sled address, lines -/
  writes : List (Nat × Nat × Nat) := []
  /-- the pieces of the home slice that it covers: local offset and length -/
  span : List (Nat × Nat) := []
  /-- the lines of a chunk that it covers: sled address of the first, and how many; CLASS -/
  areas : List (Nat × Nat)
  cls : Bool
  /-- a reconstruction (R359), the positions whose chunk was found bad in it, and the position to write back to -/
  recon : Bool := false
  bad : List Nat := []
  fix : Option Nat := none
  /-- a write: what the lines become, by local line -/
  new : List (Nat × List Byte) := []
  /-- the steps that wait for it: core and context (R160) -/
  ctxs : List (Nat × Nat) := []
  /-- store-profile requests not answered: number, position, whether a write -/
  out : List (Nat × Nat × Bool) := []
  /-- parity members whose delta is not acknowledged (R366); `PeerOut` holds the deltas -/
  members : List Nat := []
  deriving DecidableEq, Repr

/-- A store-profile request not yet answered (R81): its number, position, store port, opcode, and its message, with the tag and
the issue knot once it has been sent. It is kept back while its position is SUSPECT (R359), or 4,096 others of its port are
unanswered (R87). -/
structure SledOut where
  id : Nat
  pos : Nat
  port : Nat
  op : Nat
  m : ReqMsg
  sent : Bool
  deriving DecidableEq, Repr

/-- The store unit. -/
structure StoSt where
  resident : List Resident := []
  /-- units waiting for promotion, oldest first: those that halyards queued stand ahead (R349, R382) -/
  ahead : List Nat := []
  queue : List Nat := []
  migrations : List Migration := []
  /-- the flush in progress: region and the units still to be written back (R351) -/
  flush : Option (Nat × List Nat) := none
  /-- near-tier lines that read ST_UNCORRECTABLE, by local line number (R352) -/
  bad : List Nat := []
  /-- regions that are LOST (R361) -/
  lost : List Nat := []
  /-- the sleds on the store ports -/
  sleds : AMap Sled := []
  /-- accesses of the sleds and of parity members under way; those of a parity round are the intent log (R357, R358) -/
  ops : List FarOp := []
  nextOp : Nat := 1
  /-- store-profile requests not answered, oldest first, their number so far, and the next tag of each store port (R81, R87) -/
  asked : List SledOut := []
  posted : Nat := 0
  tags : AMap Nat := []
  /-- the running rebuild's record, as the journal positions hold it (R362, R363) -/
  rebuild : Option RebuildRec := none
  /-- the journal positions of the boundary before (R355) -/
  journals : List Nat := []
  rebuildStart : Nat := 0
  /-- the rebuild waits for its step core after an ENGINE reset (R363) -/
  rebuildPaused : Bool := false
  /-- positions that STO_CMD REBUILD has named (R362) -/
  rebuildNamed : List Nat := []
  /-- the region that STO_CMD ACCEPT is clearing (R361) -/
  accepting : Option Nat := none
  /-- PIN regions being refilled after a POWER reset (R369) -/
  refill : List Nat := []
  /-- shadowing: trial entries still to run, FILL work done (R367, R368) -/
  trialNext : Nat := 0
  fillDone : Bool := false
  /-- the local offset that FILL works on, and what has come in for it: member and bytes (R367) -/
  shadowAt : Option Nat := none
  shadowGot : List (Nat × List Byte) := []
  /-- a stack has failed as a whole (R352) -/
  stackDead : Bool := false
  /-- the next holding position of a seizing record, round robin (R355) -/
  holdNext : Nat := 0
  deriving DecidableEq, Repr

/-! ### Requests (R67 to R102, R518) -/

/-- How far a request has come. -/
inductive Stage where
  /-- header checked, not admitted -/
  | waiting
  /-- admitted, service not begun: to be tried again at the next event -/
  | ready
  /-- waits for a page walk (R113) -/
  | walk
  /-- waits for snoop rounds of its lines (R138) -/
  | snoop
  /-- in service: waits for the sleds or for parity members (R357, R366) -/
  | sled
  deriving DecidableEq, Repr

/-- A request that has passed its header check. `m.payload` is the plaintext. -/
structure Req where
  id : Nat
  op : Nat
  m : ReqMsg
  /-- the full issue knot (R31) -/
  issueK : Nat
  /-- the tick of the header check -/
  checked : Nat
  /-- order of arrival on the port, for members of a splice their order in the list (R84) -/
  order : Nat
  stage : Stage := .waiting
  admitted : Nat := 0
  /-- admitted into its own partition's slots: holds the reserved budget (R28) -/
  own : Bool := false
  /-- served under map G − 1 (R100) -/
  grace : Bool := false
  /-- verified under the previous session key (R374) -/
  prevKey : Bool := false
  /-- the splice it belongs to; 0: none (R96) -/
  splice : Nat := 0
  /-- served spliced: ST_OK_SPLICED in place of ST_OK (R96, R98) -/
  spliced : Bool := false
  /-- a member of a COMBINED splice (R97): the combined payload, carried by one member, and nothing on the others -/
  combined : Option (List Byte) := none
  /-- STAGES of the hitch or PEER entry at admission (R30) -/
  stages : Nat := 0
  /-- rounds waited for, and the largest stage count of each (R141) -/
  rounds : List Nat := []
  /-- 2 knots for each round waited for, and 2 for each switch stage of its farthest target (R30, R141) -/
  snoopKnots : Nat := 0
  /-- it has waited behind a round of one of its lines: a round of its own starts at a boundary only (R522) -/
  behind : Bool := false
  /-- why it has not been served: 1 no way can be taken (R149), 2 a lock (R330), 3 no verification lane (R234) -/
  waitsFor : Nat := 0
  /-- the ports that its snoops and its far accesses cross, as links (R101) -/
  ports : List Nat := []
  /-- another member of its splice makes the read of the store (R98, R517) -/
  rides : Bool := false
  /-- knots added by the tiers (R357) and by reconstruction -/
  extra : Nat := 0
  /-- pages that walks have translated for it: a later fault on one tells the level of its leaf (XLT_FAULT_LOG.LEVEL) -/
  walked : List Nat := []
  /-- once translated: (local offset, SGA, length) of each piece -/
  segs : Option (List (Nat × Nat × Nat)) := none
  /-- data of an owner that kept its line (SNOOP_SHARE KEEP) (R143) -/
  keep : List (Nat × List Byte) := []
  /-- the far accesses have been started, and those still under way -/
  farStarted : Bool := false
  farOps : List Nat := []
  /-- a WRITEBACK or EVICT_CLEAN that has answered a snoop (R146) -/
  crossed : Bool := false
  /-- a CODED_STORE's block has passed R233; the table slot it holds a reference on (R229) -/
  verified : Bool := false
  slotRef : Option Nat := none
  /-- a status that the tiers have already decided, 0 if none -/
  verdict : Nat := 0
  deriving DecidableEq, Repr

/-- A partial burst held for a port (R89 to R93). -/
structure Burst where
  op : Nat
  m : ReqMsg
  /-- the tick at which the head was taken in -/
  h : Nat
  /-- the reserved bits of its segments' headers (R83) -/
  rsvd : Nat := 0
  /-- INDEX of the last segment in place -/
  index : Nat
  /-- a later segment made it malformed; discarded at the next boundary (R90) -/
  bad : Bool := false
  deriving DecidableEq, Repr

/-- A group of exact adds that has acted (R77): its boundary, location, TYPE and RND, the bits m before it, and the exact
sum of what it adds so far, as an accumulator image of 40 bytes or as an integer of 8 bytes. -/
structure AddGroup where
  knot : Nat
  loc : Nat
  ty : Nat
  rnd : Nat
  m : Nat
  sum : List Byte
  deriving DecidableEq, Repr

/-- The transaction layer. -/
structure OlpSt where
  reqs : List Req := []
  /-- arrivals so far: numbers requests and orders them -/
  arrivals : Nat := 0
  bursts : List Burst := []
  /-- bursts refused by R91: link, CID, tag, issue and the tick of the refusal -/
  refused : List (Nat × Nat × Nat × Nat × Nat) := []
  /-- orphan triples answered: link, CID, tag, issue and the tick of the answer (R93) -/
  orphans : List (Nat × Nat × Nat × Nat × Nat) := []
  /-- next snoop tag of each fabric port (R78, R87) -/
  snoopTag : AMap Nat := []
  /-- next peer request tag of each fabric port (R80, R87) -/
  peerTag : AMap Nat := []
  /-- groups of exact adds already applied (R77) -/
  groups : List AddGroup := []
  /-- the port that each CID's requests last came in on, plus 1 -/
  cidLink : AMap Nat := []
  /-- near-tier bytes drawn in this knot, by PID; 1024 stands for the common capacity, 1025 for
  observation, 1026 for the traffic of R351 (R25, R27, R517) -/
  nearUsed : AMap Nat := []
  /-- far-store bytes drawn in this knot, by PID × 2, plus 1 for writes; PID 1024 stands for the common capacity -/
  farUsed : AMap Nat := []
  /-- sub-streams that the verification lanes have taken in this knot (R234) -/
  lanes : Nat := 0
  /-- where the weighted round robin of step 4 of R27 stands -/
  rrPid : Nat := 0
  deriving DecidableEq, Repr

/-! ### The coherence directory (R128 to R155, R522) -/

/-- The states of a directory entry (R135); I has no entry. -/
inductive DState where
  | s | sb | x | l
  deriving DecidableEq, Repr

/-- A snoop round that a CHIP reset cut short, to be sent again (R154): its snoop, the holder it left out, and the one holder
it went to. -/
structure Redo where
  share : Bool := false
  keep : Bool := false
  without : Option Nat := none
  only : Option Nat := none
  deriving DecidableEq, Repr

/-- A directory entry (R134). `ptrs` lists the valid pointers, oldest first. -/
structure DirEntry where
  line : Nat
  st : DState
  space : Bool
  raddr : Nat
  pid : Nat
  /-- each with the port of the grant (R140) -/
  ptrs : List (Nat × Nat) := []
  /-- state SB: the ports of the grants that its cleared pointers named, and of later ones (R140) -/
  ports : List (Nat × Nat) := []
  lcid : Nat := 0
  lknot : Nat := 0
  /-- REISSUE: the round to send again (R154) -/
  reissue : Option Redo := none
  /-- last use, for least recently used -/
  used : Nat := 0
  deriving DecidableEq, Repr

/-- A snoop not yet answered (R139): its tags and issue knots, oldest first (none while 4,096 others of its port are
unanswered, R87), the tick of its last launch, and the launches so far beyond the first. -/
structure SnoopOut where
  cid : Nat
  link : Nat
  tags : List (Nat × Nat)
  sentAt : Nat
  tries : Nat := 0
  deriving DecidableEq, Repr

/-- What a round is for, which says what its completion does to the entry. -/
inductive RoundFor where
  /-- a request: SNOOP_INV (false) or SNOOP_SHARE (true), with KEEP (R143) -/
  | request (id : Nat) (share keep : Bool)
  /-- a page walk's read, with KEEP (R110) -/
  | walk (pid page : Nat)
  /-- an engine read, with KEEP, or write of a context (R147, R148) -/
  | engine (core ctx : Nat) (keep : Bool)
  /-- the lock of a seizing: write lock or read lock (R330) -/
  | seize (ocid sid : Nat) (share : Bool)
  /-- a controller write, or a revocation or teardown sweep: the entry becomes I -/
  | invalidate
  /-- the controller's read of a line that a client owns, with KEEP (R127) -/
  | look
  /-- a way is taken (R150) -/
  | backinv
  /-- one CID loses the line (R391, REVOKE_GRANT and UNHITCH) -/
  | drop (cid : Nat)
  /-- a round sent again after a CHIP reset (R154) -/
  | reissue (r : Redo)
  deriving DecidableEq, Repr

/-- A snoop round (R138): its line, its purpose, the answers still awaited and what has come in. -/
structure Round where
  id : Nat
  line : Nat
  purpose : RoundFor
  waiting : List SnoopOut
  /-- CLASS of its snoops, and the holder it leaves out -/
  cls : Bool
  without : Option Nat := none
  started : Nat
  /-- the data of a DIRTY answer -/
  data : Option (List Byte) := none
  /-- an owner answered CLEAN or DIRTY, and stays a holder -/
  ownerKept : Bool := false
  /-- an owner answered NOT_PRESENT to a resent snoop (R142) -/
  lostResend : Bool := false
  /-- the CID whose death the round met as owner (R151) -/
  lostDead : Option Nat := none
  deriving DecidableEq, Repr

/-- A sweep of the directory (R151, R391, R401): the next set, and what it takes. -/
structure Sweep where
  next : Nat
  /-- CIDs fenced at or before its start -/
  cids : List Nat := []
  /-- partitions whose L entries are accepted (R153) -/
  accept : List Nat := []
  started : Nat
  deriving DecidableEq, Repr

/-- The directory. -/
structure DirSt where
  /-- the valid entries, by local line number -/
  entries : AMap (Option DirEntry) := []
  rounds : List Round := []
  nextRound : Nat := 1
  clock : Nat := 0
  /-- the reclaim sweep, and the CIDs and partitions that wait for the next one (R151, R153) -/
  sweep : Option Sweep := none
  nextCids : List Nat := []
  nextAccept : List Nat := []
  /-- sweep positions of the revocation (R391) and of each tearing partition (R401) -/
  revSweep : Option Nat := none
  tearSweeps : AMap Nat := []
  /-- sets held by the SRAM cache, most recent first (R133) -/
  cached : List Nat := []
  deriving DecidableEq, Repr

/-! ### Failure (R395 to R406) -/

/-- A fenced CID or HID: the verdict boundary V, and whether ADMIT_SHADOW holds (R397 to R406). -/
structure Fence where
  isHid : Bool
  id : Nat
  knot : Nat
  shadow : Bool := false
  /-- a reclaim sweep that began at or after V has completed (R404) -/
  swept : Bool := false
  /-- the peer CID fenced with a HID -/
  peerCid : Nat := 0
  deriving DecidableEq, Repr

/-! ### Engines: what they keep between commands -/

/-- A codec table slot (R228): state 0 EMPTY, 1 LOADING, 2 READY, 3 RETIRING. -/
structure TableSlot where
  state : Nat := 0
  tableId : Nat := 0
  tag : Nat := 0
  gen : Nat := 0
  nctx : Nat := 0
  /-- F[0..255] of each context -/
  freqs : List (List Nat) := []
  refs : Nat := 0
  /-- the LOAD_TABLE or DROP_TABLE that waits for REFS = 0: core, context, and whether it loads -/
  waiter : Option (Nat × Nat × Bool) := none
  deriving DecidableEq, Repr

/-- A sequence slot of the matrix engine (R247, R248): 0 FREE, 1 OPEN, 2 CLOSING, and its copy of the record. -/
structure SeqSlot where
  state : Nat := 0
  /-- address word of the record -/
  record : Nat := 0
  len : Nat := 0
  refs : Nat := 0
  layers : Nat := 0
  cap : Nat := 0
  kvfmt : Nat := 0
  hkv : Nat := 0
  dhead : Nat := 0
  nlayers : Nat := 0
  scratch : Nat := 0
  scratchLen : Nat := 0
  /-- the SEQ_CLOSE that waits: core and context -/
  closer : Option (Nat × Nat) := none
  deriving DecidableEq, Repr

/-- What a command does at its completion boundary beside its signals. -/
inductive Hook where
  | none
  /-- SEQ_OPEN: the slot and its copy of the record (R250) -/
  | seqOpen (slot : Nat) (v : SeqSlot)
  /-- SEQ_ADVANCE: the slot and N (R250) -/
  | seqAdvance (slot n : Nat)
  /-- a search command: items inserted, deleted, found deleted, linked and purged -/
  | search (inserted deleted noop linked purged : Nat)
  deriving DecidableEq, Repr

/-! ### Step cores and work queues (R156 to R198) -/

/-- What a command context does (R157, R190 to R194, STP_CTX.STATE). -/
inductive CtxPhase where
  /-- holds no command -/
  | idle
  /-- its descriptor has been fetched and becomes usable at the next boundary (R189) -/
  | fetched
  /-- its operand block is still to be read (R188) -/
  | block
  /-- its waits are not all satisfied, or a fence holds it (R191) -/
  | waiting
  /-- released; its steps are issued (R192) -/
  | running
  /-- the command has completed; its arrival is stalled and holds the context (R174) -/
  | stalled
  deriving DecidableEq, Repr

/-- What a step does at one place of the store, when it is issued or when it commits. -/
inductive EAct where
  /-- the step reads there -/
  | read
  /-- writes bytes -/
  | put (data : List Byte)
  /-- adds exactly to elements of a TYPE, under RND: integers, or accumulator images of 40 bytes (R77, R281) -/
  | add (ty rnd : Nat) (vals : List Nat) (imgs : List (List Byte))
  /-- adds exact sums to the elements of a SINT row (R281): the row's format, RND and an image for each element -/
  | sint (fmt rnd : Nat) (imgs : List (List Byte))
  /-- a local seizing (R324): the step commits only if these bytes stand there; otherwise the command ends
  ST_SEIZE_CONFLICT (R309, R310, R311). An entry of ROW_REPLACE has no condition (R285) -/
  | expect (data : List Byte)
  /-- the SWAP of a merge on its index header (R311): MAIN_COUNT and ENTRY become these -/
  | swap (main entry : Nat)
  /-- the merge journal's record takes on a phase and an item (R312) -/
  | journal (phase next : Nat)
  /-- stores a coded block: header and payload (R219, R221) -/
  | block (hdr data : List Byte)
  /-- a table slot takes on a new table (R230): the slot's key -/
  | table (key : Nat) (slot : TableSlot)
  deriving DecidableEq, Repr

/-- One access of a step (R160, R192): its step (counted from 1), the CVA it named (none for an SGA word), the
SGA, its length, and what it does. Accesses lie within one page. -/
structure StepAcc where
  step : Nat
  cva : Option Nat
  sga : Nat
  len : Nat
  act : EAct
  deriving DecidableEq, Repr

/-- What a command's program has seen or decided, in order (R160, R192): the end of a step, a number, bytes, the places of an
access (offset, SGA, length), or a failure that it went on from. The step after those issued is run on what they saw. -/
inductive Seen where
  | step
  | num (n : Nat)
  | bytes (b : List Byte)
  | pieces (ps : List (Nat × Nat × Nat))
  /-- the plan of a step over coded blocks: for each block its header and the slot that it matches, 4 for none (R237) -/
  | plan (b : List Byte)
  | fail (st sub result : Nat)
  deriving DecidableEq, Repr

/-- A command context (R157). -/
structure Ctx where
  phase : CtxPhase := .idle
  pid : Nat := 0
  queue : Nat := 0
  /-- descriptor index k (R181) -/
  idx : Nat := 0
  desc : List Byte := []
  /-- the operand words: W5 to W7, or the operand block (R188) -/
  ops : List Byte := []
  /-- the fetch followed a DOORBELL or KICK: the ways are invalidated first (R165) -/
  fresh : Bool := false
  /-- the boundary at which the descriptor became (or becomes) usable, and that of release -/
  usable : Nat := 0
  release : Nat := 0
  /-- ended before its release: WAITED and RUN of its record are free values (log entry 27) -/
  unreleased : Bool := false
  /-- knot in which the current state was entered (STP_CTX_KNOT) -/
  since : Nat := 0
  /-- knot in which the waits began; each wait satisfied, and reported to STP_WAIT_LOG (R171, R177) -/
  waitFrom : Nat := 0
  wait0 : Bool := false
  wait1 : Bool := false
  long0 : Bool := false
  long1 : Bool := false
  /-- steps committed, their number once the last one has been issued, and a step issued in this knot (R192) -/
  steps : Nat := 0
  planned : Option Nat := none
  issued : Bool := false
  /-- the last step has been issued, or the command has ended, with this outcome -/
  done : Bool := false
  status : Nat := 0
  sub : Nat := 0
  result : Nat := 0
  /-- lines of other home slices that peers have returned, and peer requests still awaited (R162) -/
  remote : List (Nat × List Byte) := []
  peerWait : Nat := 0
  /-- lines (of the SGA space) that the step-core cache misses (R164) -/
  missing : List Nat := []
  /-- snoop rounds that must complete before the command can be carried out (R148) -/
  rounds : List Nat := []
  /-- far accesses that it waits for, whether one of its writes has failed, and the lines that cannot be read (R359) -/
  farOps : List Nat := []
  farBad : Bool := false
  badLines : List Nat := []
  /-- reads of other home slices that were answered otherwise (R162), and cached lines that cannot be read: the key under which
  `remote` would hold the bytes, status and SUB -/
  badKeys : List (Nat × Nat × Nat) := []
  /-- barrier arrivals (head, generation) that are stalled (R174) -/
  arrivals : List (Nat × Nat) := []
  /-- the accesses of the step issued in this knot -/
  accs : List StepAcc := []
  /-- what the steps committed have seen, and what the step issued in this knot has (R160) -/
  tape : List Seen := []
  cur : List Seen := []
  /-- local lines whose far copies have been read for its next steps (R18, R255), and pages (CVA in units of 64 KiB) whose walks it
  has asked for, for its next step (R113) -/
  got : List Nat := []
  walked : List Nat := []
  /-- the first boundary at which a line read by the step core can be used (R164) -/
  holdTo : Nat := 0
  /-- boundary + 1 at which the issue of its next step was last tried (R158); the step has been issued before and runs again
  (R24); knot + 1 of the last answer of a peer (R162) -/
  tried : Nat := 0
  again : Bool := false
  peerAt : Nat := 0
  /-- why its next step was not issued when it was last tried: 1 its bytes, 2 the channel's share, 3 spilled scores (R265) -/
  stall : Nat := 0
  /-- the RESULT of the command if it is aborted after 0, 1, 2, ... steps; 0 beyond the list (R290) -/
  progs : List Nat := []
  /-- the number of steps depends on data (QUE_PROG) -/
  dyn : Bool := false
  /-- table slots on which the command holds references, and those of the blocks of each step planned, oldest first (R229) -/
  refs : List Nat := []
  plans : List (List Nat) := []
  /-- the invalidation of an INVALIDATE command and its boundary B (R118) -/
  inv : Option (InvScope × Nat) := none
  /-- sequence slots referenced, each with its snapshot of LEN (R250, R251) -/
  snaps : List (Nat × Nat) := []
  /-- PLAN of a matrix command (R266); 0: none -/
  plan : Nat := 0
  hook : Hook := .none
  /-- its place among the commands of its core, by the order of release (R147, R191) -/
  ord : Nat := 0
  /-- its signals do not commit: it was refused, aborted, or ended by a peer's answer (R162, R170, R179) -/
  mute : Bool := false
  /-- steps after the first wait for the search commands on this index header that were released before this knot (R311) -/
  gate : Option (Nat × Nat) := none
  deriving DecidableEq, Repr

/-- A line of a step core's data cache (R164): partition, SGA line, its 128 bytes, last use. -/
structure CacheLine where
  pid : Nat
  line : Nat
  data : List Byte
  used : Nat
  deriving DecidableEq, Repr

/-- A step core. -/
structure CoreSt where
  ctxs : AMap Ctx := []
  cache : List CacheLine := []
  clock : Nat := 0
  /-- the context that the round robin of R158 started with at the previous boundary, and commands released so far -/
  rr : Nat := 15
  ords : Nat := 0
  /-- queues that found all 16 contexts busy, longest waiting first (R159) -/
  starved : List (Nat × Nat) := []
  /-- forced changes for the next boundary: semaphore, ADD (else SET), value (R178) -/
  forces : List (Nat × Bool × Nat) := []
  /-- semaphores changed at this boundary: semaphore, RKIND, context and SEQ of the change (R479) -/
  sigs : List (Nat × Nat × Nat × Nat) := []
  /-- what the steps issued in this knot draw on each engine channel: engine and draw (R158) -/
  used : AMap Nat := []
  deriving DecidableEq, Repr

/-- What the queues keep beside their registers: producer indices that take effect at the next boundary (R184), and the
queues whose next fetch follows a DOORBELL or KICK (R165). A queue's key is PID × 64 + its number. -/
structure QueSt where
  newPI : List (Nat × Nat) := []
  rung : List Nat := []
  /-- KICKs that commit at this boundary, each with its core, context, queue, PID and SEQ: they are applied after the boundary's
  DOORBELLs (R185) -/
  kicks : List (Nat × Nat × Nat × Nat × Nat × Nat) := []
  /-- queues whose rings lie in an extent that was fenced, until they are placed anew (R197) -/
  revoked : List Nat := []
  deriving DecidableEq, Repr

/-- A journaled merge (R312). It lives in sled metadata, so it outlives every reset. -/
structure MergeRec where
  hdr : Nat
  erel : Nat
  t0 : Nat
  next : Nat
  phase : Nat
  core : Nat
  pid : Nat
  main0 : Nat
  knot : Nat
  build : Nat
  compact : Bool
  /-- the context that runs it; none after a reset, until it is resumed -/
  ctx : Option Nat
  resumed : Bool := false
  /-- the slot of the journal that the next record goes to (R355) -/
  slot : Nat := 0
  deriving DecidableEq, Repr

/-! ### Seizings (R324 to R343) -/

/-- An action of a seizing (R327): KIND 1 WRITE, 2 EXPECT, 3 ADD, 4 PUBLISH; its local offset once translated. -/
structure SAction where
  kind : Nat
  addr : Nat
  rnd : Nat
  ty : Nat
  data : List Byte
  loc : Nat := 0
  deriving DecidableEq, Repr

/-- Where an answer goes: the request's message, without payload, and its opcode. -/
structure ReplyTo where
  op : Nat
  m : ReqMsg
  issueK : Nat
  prevKey : Bool := false
  deriving DecidableEq, Repr

/-- A participant record of a fabric seizing (R325 to R338), with what a coordinator keeps beside it. -/
structure Seizing where
  ocid : Nat
  sid : Nat
  pid : Nat
  index : Nat
  oneshot : Bool
  /-- HIDs of PART -/
  parts : List Nat
  actions : List SAction
  /-- locks: local line and whether it is a write lock (R330) -/
  locks : List (Nat × Bool) := []
  /-- the knot of its prepare -/
  preparedAt : Nat
  /-- holders are still being snooped (step 6 of R329) -/
  preparing : Bool := true
  /-- the record's write is outstanding (step 9 of R329) -/
  writing : Bool := false
  /-- position of the holding sled (R336) -/
  sled : Nat := 0
  /-- the PREPARE and the COMMIT still to be answered -/
  reply : Option ReplyTo := none
  commitReply : Option ReplyTo := none
  /-- the SEIZE command of this controller that formed it: core and context -/
  cmd : Option (Nat × Nat) := none
  /-- the vote sent: status and SUB -/
  vote : Option (Nat × Nat) := none
  /-- coordinator: the participants that have voted ST_OK, SEIZE_COMMIT admitted, the first cause to abort -/
  yes : List Nat := []
  commitSeen : Bool := false
  cause : Option (Nat × Nat) := none
  /-- the outcome, once decided or taken in: status and SUB; status 0 for COMMIT -/
  outcome : Option (Nat × Nat) := none
  /-- the decision record's write is outstanding (R331) -/
  deciding : Bool := false
  /-- the effect knot C -/
  effect : Nat := 0
  /-- DECIDE was taken in after C (R332) -/
  late : Bool := false
  applied : Bool := false
  /-- participants that have acknowledged DECIDE, and the knot of the last sending of DECIDE or INQUIRE -/
  acked : List Nat := []
  lastSend : Nat := 0
  /-- the boundary at which it was applied or aborted here; the record is then no longer open -/
  closedAt : Option Nat := none
  deriving DecidableEq, Repr

/-- A SEIZE command under way (R339): its prepares not yet answered, the first failing answer, and its coordinator. -/
structure Origin where
  core : Nat
  ctx : Nat
  sid : Nat
  pid : Nat
  waiting : Nat
  fail : Option (Nat × Nat) := none
  coord : Nat
  /-- SEIZE_COMMIT or SEIZE_ABORT has been sent -/
  sent : Bool := false
  deriving DecidableEq, Repr

/-- The seizing unit. -/
structure TxnSt where
  recs : List Seizing := []
  /-- votes kept before their ORIGIN PREPARE: OCID, ID, index, status, SUB, knot (R331) -/
  early : List (Nat × Nat × Nat × Nat × Nat × Nat) := []
  /-- the ID that SEIZE uses next (R339) -/
  nextId : Nat := 0
  origins : List Origin := []
  deriving DecidableEq, Repr

/-! ### Requests to other Helaks (R80) -/

/-- What a peer request is for. -/
inductive PeerFor where
  /-- a line of another home that a context reads (R162), by SGA line -/
  | load (core ctx line : Nat)
  /-- bytes of another home that a context writes -/
  | store (core ctx : Nat)
  /-- the delta of an EC8 write (R366): the far operation, the parity member -/
  | delta (op hid : Nat)
  /-- messages of the seizing protocol -/
  | vote
  | inquire
  | decide (ocid sid index : Nat)
  | prepare (core ctx : Nat)
  | finish (core ctx : Nat)
  /-- a read of the source or of a group member for shadowing (R367) -/
  | shadow (loc member : Nat)
  deriving DecidableEq, Repr

/-- A peer request not yet answered. -/
structure PeerOut where
  link : Nat
  tag : Nat
  hid : Nat
  op : Nat
  addr : Nat
  arg : Nat
  pid : Nat
  payload : List Byte
  /-- bytes asked for, where it carries none -/
  want : Nat
  /-- the knot it was sent in -/
  knot : Nat
  purpose : PeerFor
  /-- it waits until fewer than 4,096 requests of its port are unanswered (R87) -/
  waits : Bool := false
  deriving DecidableEq, Repr

/-! ### Observation (R468 to R488) -/

/-- A record in staging (R487): its destination (0 trace buffer, 1 sample buffer, 2 + PID a ring), the knot it was formed
in, its TYPE, and its bytes. -/
structure ObsRec where
  dest : Nat
  knot : Nat
  ty : Nat
  bytes : List Byte
  deriving DecidableEq, Repr

/-- The run counters of a context (R477). -/
structure RunCtr where
  seq : Nat := 0
  steps : Nat := 0
  wait : Nat := 0
  stall : Nat := 0
  bytes : Nat := 0
  pq : Nat := 0
  valid : Bool := false
  deriving DecidableEq, Repr

/-- A sync record that waits for its place among those of its boundary (R472, R479). -/
structure SyncEv where
  ty : Nat
  core : Nat
  ctx : Nat
  queue : Nat
  op : Nat
  pid : Nat
  sem : Nat
  seq : Nat
  operand : Nat
  value : Nat
  ext : List Byte
  deriving DecidableEq, Repr

/-- The observation unit. -/
structure ObsSt where
  /-- records that wait for their lines, oldest first (R487) -/
  staged : List ObsRec := []
  /-- records dropped since the last one of a destination was taken: destination, count, bytes, first knot -/
  lost : List (Nat × Nat × Nat × Nat) := []
  /-- the trace and sample buffers, by offset -/
  trace : AMap Byte := []
  smp : AMap Byte := []
  /-- the ring's PROD, by PID -/
  ringProd : AMap Nat := []
  /-- each program's previous values and wraps (R476); none for one that has taken no sample since its enable -/
  prev : AMap (List (Nat × Nat)) := []
  /-- samples latched at this boundary and not yet written: program, destination, RFLAGS, timestamp, body (R474) -/
  latched : List (Nat × Nat × Nat × List Byte × List Byte) := []
  /-- the knot of each core's latest PC record, plus 1 (R480) -/
  pcAt : AMap Nat := []
  /-- record lines left in this knot (R486) -/
  left : Nat := 0
  /-- programs whose next sample follows a PARTIAL that added or removed their partition (R469) -/
  fresh : List Nat := []
  /-- run counters, by core × 16 + context -/
  run : AMap RunCtr := []
  /-- commands whose descriptors became usable at this boundary: core, context, SEQ and PQ of the counters to come (R477) -/
  runNew : List (Nat × Nat × Nat × Nat) := []
  /-- sync records of this boundary (R472) -/
  syncs : List SyncEv := []
  /-- recorded waits: core, context, wait 0 or 1 or a stalled arrival's number, and the knot of WAIT_BEGIN (R479) -/
  waits : List (Nat × Nat × Nat × Nat) := []
  /-- OBS_TRACE_CTL.EN as it took effect at the last boundary (R23) -/
  tracing : Bool := false
  /-- trace capture stops at the next boundary (R482) -/
  freeze : Bool := false
  /-- watchpoints whose EN clears at the next boundary -/
  spent : List Nat := []
  /-- watchpoints that have been enabled: the first knot whose accesses match, and the hits since (R482) -/
  armed : AMap (Nat × Nat) := []
  deriving DecidableEq, Repr

/-! ### Security, power and the management endpoint -/

/-- A key slot of the security root (R447): the digest of its record in the fuses, the record, and the role mask. -/
structure SecSlot where
  valid : Bool := false
  revoked : Bool := false
  roles : Nat := 0
  digest : List Byte := []
  record : List Byte := []
  deriving DecidableEq, Repr

/-- The security root (R446 to R467), but for the partition keys (`PartKeys`). -/
structure SecSt where
  slots : List SecSlot := []
  /-- the life-cycle fuses (R458) and the device serial -/
  lcs : Nat := 3
  serial : Nat := 0
  /-- the request nonce (R449), and the number of the ML-KEM key pair in use (R455); 0: none -/
  nonce : List Byte := []
  kem : Nat := 0
  /-- key pairs generated so far -/
  kemMade : Nat := 0
  /-- a transition being burned: the target and the knot of acceptance (R460) -/
  burn : Option (Nat × Nat) := none
  /-- the fuses read RETURN and the owner's hold is not yet destroyed (R461) -/
  destroy : Bool := false
  /-- the tamper log, newest entry first (R466), and the number of the next entry -/
  tlog : List (List Byte) := []
  tseq : Nat := 0
  /-- knot of the last SIG_FAIL entry (R464) -/
  sigFailAt : Option Nat := none
  /-- the SPDM messages of the connection so far, as the signed responses cover them (R454) -/
  transcript : List Byte := []
  /-- the hash that the last signed response signed (R454) -/
  signedHash : Option (List Byte) := none
  deriving DecidableEq, Repr

/-- The power unit (R428 to R437). -/
structure PwrSt where
  /-- the package is off, or is held in POWER reset, until the power-on conditions hold (R434) -/
  off : Bool := true
  /-- consecutive knots in which the input, and the power, have met the end condition of throttle, and those in which
  the end condition of quiesce has held (R431) -/
  okVolt : Nat := 0
  okPower : Nat := 0
  okQuiesce : Nat := 0
  /-- knots since the last change of level (R432) -/
  levelFor : Nat := 4000
  /-- quiesce: the stop knot once the engine regions and the stacks have stopped, and its end (R433) -/
  stopped : Option Nat := none
  ended : Option Nat := none
  /-- the reset input is asserted, as recognised: for so many knots (R435) -/
  pin : Option Nat := none
  /-- MGT_READY.HOME has been set since the last POWER reset (R435) -/
  homeSeen : Bool := false
  /-- the backup cell fell below 2.7 V while the input was absent (R47, R467) -/
  cellLost : Bool := false
  /-- the next knot's mean starts PWR_EXT afresh (CLR) -/
  extClr : Bool := false
  deriving DecidableEq, Repr

/-- The management endpoint (R491 to R500). -/
structure MgtSt where
  /-- the last REG_WRITE applied: instance ID, request bytes, the tick, and the response (R497) -/
  lastWrite : Option (Nat × List Byte × Nat × List Byte) := none
  /-- the alert output's present assertion has been reported, and the tick of the last report (R498) -/
  alertTold : Bool := false
  /-- the terminus ID that PLDM Type 0 assigned (R491) -/
  tid : Nat := 0
  alertAt : Option Nat := none
  deriving DecidableEq, Repr

/-! ### The machine -/

/-- What ends a phase of a port's training, or a port's FAULT (R57 to R60); it takes effect at a knot boundary. -/
inductive TrainEv where
  | light
  | equalised
  | aligned
  | measured (dPs : Nat)
  | identified (kind id port : Nat)
  /-- TRAIN_TIMEOUT (8,192 knots), LANES (4,000 knots) -/
  | tooLong
  | fewLanes
  /-- the 4,000,000 knots of FAULT are over -/
  | recovered
  deriving DecidableEq, Repr

/-- What the state of the input asks for; it takes effect at a knot boundary (R431, R433): throttle, quiesce, its stop, its end and
its restart. -/
inductive PwrEv where
  | throttle
  | quiesce
  | drained
  | ended
  | restart
  deriving DecidableEq, Repr

/-- What the store and its sleds have come to; it takes effect at a knot boundary (R350, R351, R360 to R363, R367). -/
inductive StoEv where
  /-- a unit's promotion, a demotion, a flush (R350, R351) -/
  | promoted (unit : Nat)
  | demoted (unit : Nat)
  | flushed
  /-- zero fill, PIN refill, ACCEPT (R356, R361, R369) -/
  | zeroed (region : Nat)
  | refilled (region : Nat)
  | accepted
  /-- a position recovers, has been SUSPECT for FAIL_KNOTS, or has its sled identified (R360) -/
  | recovered (pos : Nat)
  | timeout (pos : Nat)
  | identified (port : Nat) (x : Sled)
  /-- a rebuild starts, goes on by a row, or is resumed (R362, R363) -/
  | rebuild (pos : Nat)
  | rebuildRow
  | rebuildOn
  /-- FILL, VERIFY and a trial entry are done (R367, R368) -/
  | fillDone
  | verified (rows : List Nat) (digests : List (Nat × List Byte))
  | trial
  deriving DecidableEq, Repr

/-- An action that a register write arms and the next boundary performs (R23). -/
inductive Act where
  /-- what the store and its sleds have come to -/
  | sto (ev : StoEv)
  | pwr (ev : PwrEv)
  /-- a signed request that the security root decides: its code, the requester's EID and its payload (R449) -/
  | signed (req eid : Nat) (payload : List Byte)
  /-- a port's training goes on (R57) -/
  | train (link : Nat) (ev : TrainEv)
  /-- MGT_PWR's level after THROTTLE_STEP or THROTTLE_RELAX (R45, R432) -/
  | level (up : Bool)
  /-- OBS_TRACE_CTL.EN is written (R23, R471) -/
  | traceEn (v : Nat)
  /-- LNK_CTRL.RETRAIN of a link, and any other cause that calls for retraining (R54, R57, R58) -/
  | linkRetrain (link : Nat)
  /-- a laser out of range (R53), and a breach of LANE_SYM_LIMIT (R54) -/
  | laserSpare (link lane : Nat)
  | laneDrop (link mask : Nat)
  /-- the discipline state that an accepted KNOT_SYNC or an exchange calls for (R36) -/
  | disc (st : Nat)
  /-- the port of a position entered FAULT or OFF (R360, cause PORT) -/
  | portFailed (port : Nat)
  /-- XLT_PART_ROOT.ROOT of a partition (R119) -/
  | root (pid root : Nat)
  /-- XLT_WIN_BASE of a window is written (R106) -/
  | rebase (pid win : Nat) (w : Win)
  /-- DIR_LOOK_LINE (R134), DIR_LOST_CMD (R153) -/
  | dirLook (line : Nat)
  | acceptLine (line : Nat)
  | acceptPid (pid : Nat)
  /-- STP_CACHE_INV (R165) -/
  | cacheInv (core : Nat) (all : Bool) (pid : Nat)
  /-- QUE_CTRL: ENABLE := 1, ENABLE := 0, RESUME (R196) -/
  | queEnable (key : Nat)
  | queDisable (key : Nat)
  | queResume (key : Nat)
  /-- TXN_FORCE and TXN_SEL (R338) -/
  | txnForce (commit : Bool) (ocid sid : Nat)
  | txnLook (ocid sid : Nat)
  /-- a sled's answer declares its position failed (R359): position and cause -/
  | posFail (pos cause : Nat)
  /-- PRT_HITCH_CMD (R377): 1 HITCH, 2 UNHITCH, 3 MODIFY; PRT_GRANT_CMD (R380, R388, R391) -/
  | hitch (op cid pid stages : Nat) (sga : Bool)
  | grant (cid pid ext rights : Nat)
  | revoke (op : RevOp)
  | reopen (pid ext : Nat)
  /-- FLT_CMD (R397): OP, PID, HID, CID -/
  | fltOrder (op pid hid cid : Nat)
  /-- RST_CMD and other causes of a reset (R438): 1 ENGINE, 2 PARTITION, 3 CHIP, 4 POWER; core or PID, or cause -/
  | reset (kind arg : Nat)
  /-- a load that has passed its checks takes effect (R419) -/
  | image (prof : Nat) (i : Image)
  /-- a load of a profile, named by a SWITCH or by a reset (R419) -/
  | load (prof : Nat) (switch : Bool)
  /-- STO_CMD ACCEPT and FLUSH of a region, a MODE written to STO_SHADOW, and a stack that has failed -/
  | stoAccept (region : Nat)
  | stoFlush (region : Nat)
  | shadowMode (mode : Nat)
  | stackDead
  /-- OBS_MARK and OBS_FLUSH (R471, R486), and EN of a sample program (R474) -/
  | obsMark (v : Nat)
  | obsFlush
  | smpEnable (n : Nat)
  /-- SEC_DBG_ADDR (R462) -/
  | dbgRead
  deriving DecidableEq, Repr

/-- Everything but the security root, the management endpoint and the queue of commands. The functions of most chapters
act on it alone, so that none of them can reach a fuse, a key slot or the tamper log. -/
structure Body where
  /-- every stored register field of R501, by `Fld.key`; an unlisted field reads its reset value -/
  regs : AMap Nat := []
  knot : KnotSt := {}
  links : AMap LinkSt := []
  /-- start boundary of each photonic die's port groups, as a tick plus 1; 0: not started (R62) -/
  groupStart : AMap Nat := []
  /-- the tick at which a position turned SUSPECT (R360) -/
  suspectAt : AMap Nat := []
  cfg : CfgSt := {}
  parts : AMap PartSt := []
  prt : PrtSt := {}
  xlt : XltSt := {}
  sto : StoSt := {}
  olp : OlpSt := {}
  dir : DirSt := {}
  fences : List Fence := []
  /-- the near tier: the frames' bytes, by local offset (R348) -/
  near : AMap Byte := []
  /-- the far copies, as plaintext, by local offset (R347, R353) -/
  far : AMap Byte := []
  cores : AMap CoreSt := []
  que : QueSt := {}
  txn : TxnSt := {}
  /-- requests to other Helaks not yet answered (R80) -/
  peers : List PeerOut := []
  obs : ObsSt := {}
  /-- codec table slots, by PID × 4 + slot (R228) -/
  tables : AMap TableSlot := []
  /-- sequence slots, and products formed beyond the last whole 2^20 counted (R247, MTX_PRODUCTS) -/
  seqs : AMap SeqSlot := []
  mtxFrac : Nat := 0
  /-- merges, one for each channel at most, and comparisons beyond the last whole 2^20 counted (R312, SRH_COMPARES) -/
  merges : List MergeRec := []
  srhFrac : Nat := 0
  /-- reduction terms beyond the last whole 2^20 counted (POOL_TERMS) -/
  poolFrac : Nat := 0
  pwr : PwrSt := {}
  /-- actions armed for the next boundary, oldest first (R23) -/
  acts : List Act := []
  /-- every message handed to a port or to the management endpoint, newest first (log entry 31) -/
  out : List Out := []
  /-- MODEL'S OWN: boundaries passed. Durations are counted on it, because the log line is replaced at the first lock (R10,
  R40; log entry 100) -/
  tick : Nat := 0
  /-- MODEL'S OWN: how many of them the ports have taken (log entry 99) -/
  launched : Nat := 0
  /-- MODEL'S OWN: how many free values have been drawn (log entry 4) -/
  drawn : Nat := 0
  deriving DecidableEq, Repr

/-- The whole state. -/
structure State extends Body where
  sec : SecSt := {}
  mgt : MgtSt := {}
  /-- the commands that wait, first in first out -/
  pending : List Instr := []
  deriving DecidableEq, Repr

/-- What acts on the body alone. -/
def State.upd (s : State) (f : Body → Body) : State := { s with toBody := f s.toBody }

/-! ### How a step can stop, and the state after reset -/

/-- The reasons of a fault. No command of the table faults: each has an effect, if only to be ignored. -/
inductive Fault where
  /-- raised by no meaning; safe, since nothing depends on it -/
  | none
  deriving DecidableEq, Repr

/-- The reasons of a refusal. -/
inductive Refusal where
  /-- raised by an arm of `exec` for a command that has no meaning yet; safe: nothing can be proved to follow it -/
  | notModelled (mnemonic : String)
  deriving DecidableEq, Repr

/-- The IMAGE key slot of a shipped part, with roles IMAGE, LC and DEBUG (R447). Which key it holds is not stated: a
record of zeros and its digest (DESIGN CHOICE, log entry 3). -/
def factorySlot : SecSlot where
  valid := true
  roles := 0b01101
  record := List.replicate 2688 0
  digest :=
    [0xD7, 0x49, 0x6D, 0xF6, 0xC4, 0x08, 0x70, 0x96, 0xC5, 0xC4, 0x15, 0x05, 0x55, 0xD0, 0x02, 0x4A, 0x65, 0x84,
     0x00, 0xF4, 0x4C, 0xB7, 0xB8, 0x44, 0xAA, 0x06, 0x48, 0x30, 0x09, 0xBD, 0x82, 0xE5, 0x14, 0x4D, 0x0C, 0xEE,
     0xA6, 0x89, 0xAD, 0xB2, 0x21, 0x74, 0x47, 0x7F, 0x1B, 0x8F, 0x1B, 0xBC]

/-- The machine after a POWER reset of a shipped part whose input has just come: held until POWER_ON (R434, R438; log
entries 2 and 3). Every register field reads its reset value but for RST_CAUSE, which records that reset. The package ships
without a backup cell, so that the first start finds the tamper log and the calendar lost (R467, R514). -/
def State.reset : State := {
  regs := [(0x20008 * 64 + 32, 1), (0x20008 * 64 + 56, 1), (0x20008 * 64 + 60, 4)]
  pwr := { cellLost := true }
  sec := { slots := factorySlot :: List.replicate 7 {} } }

end Sys2Proof.Machine
end

