-- ==== Sys2Proof/Machine/Ops.lean ====
section
/-!
DEFINITION. The named operations over the registers and the shared parts of the state: reading and writing a field,
counting an event (R66), drawing a free value, arming a boundary action (R23) and sending a message.
-/

namespace Sys2Proof.Machine

/-- The value of field `f`, instance `i`, item `j` (R5). -/
def Body.get (s : Body) (f : Fld) (i : Nat := 0) (j : Nat := 0) : Nat := AMap.get f.reset s.regs (f.key i j)

/-- The field is not zero. -/
def Body.on (s : Body) (f : Fld) (i : Nat := 0) (j : Nat := 0) : Bool := decide (s.get f i j ≠ 0)

/-- `f := v`, cut to the field's width. -/
def Body.set (s : Body) (f : Fld) (v : Nat) (i : Nat := 0) (j : Nat := 0) : Body :=
  { s with regs := AMap.put f.reset s.regs (f.key i j) (v % 2 ^ f.w) }

/-- Sets bit `b` of field `f`. -/
def Body.setB (s : Body) (f : Fld) (b : Nat) (i : Nat := 0) (j : Nat := 0) : Body :=
  s.set f (setBit (s.get f i j) b) i j

/-- `f := min (f + n) max`: a saturating field. -/
def Body.sat (s : Body) (f : Fld) (n : Nat) (i : Nat := 0) (j : Nat := 0) : Body :=
  s.set f (min (s.get f i j + n) (2 ^ f.w - 1)) i j

/-- The log line (R9, R20). -/
def Body.now (s : Body) : Nat := s.get R.KNT_COUNT.COUNT

/-- The block's readiness bit that gates a window offset (R490): true where the block is open. -/
def gateOpen (s : Body) (off : Nat) : Bool :=
  if off < 0x50000 then true
  else if off < 0x60000 then s.on R.MGT_READY.HOME
  else if off < 0x70000 then s.on R.MGT_READY.XLT
  else if off < 0x80000 then s.on R.MGT_READY.DIR
  else if off < 0x90000 then bitAt (s.get R.MGT_READY.CORE) ((off - 0x80000) / 0x1000)
  else if off < 0xA0000 then s.on R.MGT_READY.HOME
  else if off < 0xB0000 then s.on R.MGT_READY.CDC
  else if off < 0xC0000 then s.on R.MGT_READY.MTX
  else if off < 0xD0000 then s.on R.MGT_READY.EMB
  else if off < 0xE0000 then s.on R.MGT_READY.SRH
  else if off < 0xF0000 then s.on R.MGT_READY.POOL
  else if off < 0x100000 then s.on R.MGT_READY.TXN
  else if off < 0x180000 then bitAt (s.get R.MGT_READY.CORE) ((off - 0x100000) / 0x8000)
  else if off < 0x1A0000 then s.on R.MGT_READY.HOME
  else if off < 0x1C0000 then true
  else if off < 0x1D0000 then s.on R.MGT_READY.SEC
  else if off < 0x1E0000 then true
  else s.on R.MGT_READY.HOME

/-- Adds `n` to a counter of R66: 48 bits, wrapping, and a wrap sets OVF. A counter counts from the boundary at which
its block's readiness bit is set (R468). `f` is the counter's COUNT. -/
def Body.count (s : Body) (f : Fld) (n : Nat := 1) (i : Nat := 0) (j : Nat := 0) : Body :=
  if gateOpen s (f.off + f.stride * i) then
    let v := s.get f i j + n
    let s' := s.set f v i j
    if v < 2 ^ 48 then s' else s'.set { f with lo := 63, w := 1, acc := .w1c } 1 i j
  else s

/-- Draws the next free value, cut to `w` bits (log entry 4). -/
def Body.free (s : Body) (w : Nat) : Nat × Body :=
  ((Config.freeWord s.drawn).toNat % 2 ^ w, { s with drawn := s.drawn + 1 })

/-- Sends a message. -/
def Body.send (s : Body) (o : Out) : Body := { s with out := o :: s.out }

/-- Arms an action for the next boundary (R23). -/
def Body.arm (s : Body) (a : Act) : Body := { s with acts := s.acts ++ [a] }

/-- Link `n`'s own state. -/
def Body.link (s : Body) (n : Nat) : LinkSt := AMap.get {} s.links n

/-- Changes link `n`'s own state. -/
def Body.setLink (s : Body) (n : Nat) (l : LinkSt) : Body := { s with links := AMap.put {} s.links n l }

/-- This controller's HID: that of the image in effect (R407). -/
def Body.hid (s : Body) : Nat := s.get R.CFG_STATUS.HID

/-- QUIESCE (R433): nothing is admitted, no step is issued, and rebuild, migration, write-back and halyards pause. -/
def quiet (s : Body) : Bool := s.get R.PWR_STATUS.STATE == 2

/-- Raises a suspicion (R395): kind 1 LINK, 2 SNOOP, 3 PEER; `link` is 0x3F for the latter two. -/
def suspicion (s : Body) (kind link : Nat) (isHid : Bool) (id : Nat) (clear : Bool) : Body :=
  let s := s.set R.FLT_SUSP_LOG.KIND kind
  let s := s.set R.FLT_SUSP_LOG.CLEAR (b2n clear)
  let s := s.set R.FLT_SUSP_LOG.LINK link
  let s := s.set R.FLT_SUSP_LOG.IS_HID (b2n isHid)
  let s := s.set R.FLT_SUSP_LOG.ID id
  let s := s.set R.FLT_SUSP_KNOT.KNOT s.now
  (if clear then s else s.count R.FLT_SUSPECTS.COUNT).set R.FLT_EVENT.SUSPECT 1

/-! ### The same on the whole state -/

def State.set (s : State) (f : Fld) (v : Nat) (i : Nat := 0) (j : Nat := 0) : State := s.upd (fun b => b.set f v i j)

def State.setB (s : State) (f : Fld) (b : Nat) (i : Nat := 0) (j : Nat := 0) : State := s.upd (fun d => d.setB f b i j)

def State.count (s : State) (f : Fld) (n : Nat := 1) (i : Nat := 0) (j : Nat := 0) : State := s.upd (fun b => b.count f n i j)

def State.send (s : State) (o : Out) : State := s.upd (fun b => b.send o)

def State.free (s : State) (w : Nat) : Nat × State := ((s.toBody.free w).1, s.upd (fun b => (b.free w).2))

def State.arm (s : State) (a : Act) : State := s.upd (fun b => b.arm a)

end Sys2Proof.Machine
end

