-- ==== Sys2Proof/Machine/Flags.lean ====
section
/-!
DEFINITION. The alert flags that are computed from the event flags of the blocks (R437, MGT_ALERT).
-/

namespace Sys2Proof.Machine

/-- MGT_ALERT: each bit is the OR of its sources. -/
def alertBits (s : Body) : Nat :=
  let any := fun (l : List Fld) => l.any (fun f => s.on f)
  let ports := fun (f : Fld) => (List.range 48).any (fun n => s.on f n)
  b2n (any [R.PWR_EVENT.SURGE_EV, R.PWR_EVENT.PG_LOSS, R.PWR_EVENT.QUIESCE_EV, R.PWR_EVENT.THROTTLE_EV]) +
  2 * b2n (s.on R.KNT_STATUS.UNLOCK_EV) +
  4 * b2n (ports R.LNK_EVENT.FAULT_EV || ports R.LNK_EVENT.SUSPECT_EV) +
  8 * b2n (any [R.STO_EVENT.LOSS, R.STO_EVENT.SLED_FAILED, R.STO_EVENT.STACK_FAIL]) +
  16 * b2n (any [R.FLT_EVENT.TORN, R.FLT_EVENT.ISOLATED, R.FLT_EVENT.SUSPECT]) +
  32 * b2n (any [R.TXN_EVENT.ORPHAN, R.TXN_EVENT.POOL_FAIL]) +
  64 * b2n (s.on R.QUE_EVENT.ERR) +
  128 * b2n ((List.range 16).any (fun c => s.on R.STP_EVENT.WAIT_LONG c)) +
  256 * b2n (s.on R.CFG_EVENT.REFUSED) +
  512 * b2n (s.on R.SRH_EVENT.MERGE_LOST) +
  1024 * b2n (any [R.SEC_EVENT.TAMPER, R.SEC_EVENT.ZEROISE, R.SEC_EVENT.LOG_LOST]) +
  2048 * b2n (any [R.OBS_EVENT.WP_ALERT, R.OBS_EVENT.LOST])

/-- The alert output is asserted (R437). -/
def alertOn (s : Body) : Bool := !s.pwr.off && alertBits s &&& s.get R.MGT_ALERT_EN.EN != 0

end Sys2Proof.Machine
end

