-- ==== Sys2Proof/Machine/Arith.lean ====
section
/-!
DEFINITION. Number formats and exact arithmetic (spec/09, R199 to R218): the float formats as exact dyadic numbers, the
long accumulator, the one rounding at its end, microscaled blocks and scaled integers.
-/

namespace Sys2Proof.Machine

/-- An exact value: NaN, an infinity, or ±m × 2^e. The sign of a zero is kept (R213). -/
inductive Num where
  | nan
  | inf (neg : Bool)
  | fin (neg : Bool) (m : Nat) (e : Int)
  deriving DecidableEq, Repr

/-- +0. -/
def Num.zero : Num := .fin false 0 0

/-- An integer as an exact value. -/
def Num.ofInt (x : Int) : Num := .fin (decide (x < 0)) x.natAbs 0

/-- A float format (R200): exponent and mantissa bits, bias, whether the all-ones exponent holds infinities and NaNs
(IEEE), and whether all-ones exponent and mantissa is the only NaN (E4M3). -/
structure FFmt where
  eb : Nat
  mb : Nat
  bias : Nat
  ieee : Bool
  nanTop : Bool
  deriving DecidableEq, Repr

def fFP32 : FFmt := ⟨8, 23, 127, true, false⟩
def fFP16 : FFmt := ⟨5, 10, 15, true, false⟩
def fBF16 : FFmt := ⟨8, 7, 127, true, false⟩
def fE4M3 : FFmt := ⟨4, 3, 7, false, true⟩
def fE5M2 : FFmt := ⟨5, 2, 15, true, false⟩
def fE3M2 : FFmt := ⟨3, 2, 3, false, false⟩
def fE2M3 : FFmt := ⟨2, 3, 1, false, false⟩
def fE2M1 : FFmt := ⟨2, 1, 1, false, false⟩

/-- Width in bits of a float format. -/
def FFmt.w (f : FFmt) : Nat := 1 + f.eb + f.mb

/-- The value of the bits `x` (R200, R201, R202). -/
def FFmt.dec (f : FFmt) (x : Nat) : Num :=
  let neg := bitAt x (f.eb + f.mb)
  let ex := bits x (f.eb + f.mb - 1) f.mb
  let mn := x % 2 ^ f.mb
  if f.ieee && ex == 2 ^ f.eb - 1 then (if mn = 0 then .inf neg else .nan)
  else if f.nanTop && ex == 2 ^ f.eb - 1 && mn == 2 ^ f.mb - 1 then .nan
  else if ex = 0 then .fin neg mn (1 - (f.bias : Int) - f.mb)
  else .fin neg (2 ^ f.mb + mn) ((ex : Int) - f.bias - f.mb)

/-- The canonical NaN (R202); zero for formats without one. -/
def FFmt.canonNaN (f : FFmt) : Nat :=
  if f.ieee then (2 ^ f.eb - 1) * 2 ^ f.mb + 2 ^ (f.mb - 1) else if f.nanTop then 2 ^ (f.eb + f.mb) - 1 else 0

/-- Bits of the largest finite value, without the sign. -/
def FFmt.maxFin (f : FFmt) : Nat :=
  if f.ieee then (2 ^ f.eb - 1) * 2 ^ f.mb - 1
  else if f.nanTop then 2 ^ (f.eb + f.mb) - 2 else 2 ^ (f.eb + f.mb) - 1

/-- Whether a magnitude lying between `n` and `n + 1` units rounds up, under RND (R211): `r` over `d` is the fraction. -/
def roundUp (rnd : Nat) (neg : Bool) (n r d : Nat) : Bool :=
  if r = 0 then false
  else if rnd = 0 then decide (d < 2 * r) || (decide (2 * r = d) && n % 2 == 1)
  else if rnd = 1 then false
  else if rnd = 2 then !neg
  else neg

/-- floor(log2 (p / q)) for p, q > 0. -/
def log2Q (p q : Nat) : Int :=
  let k : Int := (log2 p : Int) - log2 q
  if 0 ≤ k then (if p < q * 2 ^ k.toNat then k - 1 else k)
  else if p * 2 ^ (-k).toNat < q then k - 1 else k

/-- The integer part of (p / q) / 2^e, its remainder and the divisor. -/
def scaleQ (p q : Nat) (e : Int) : Nat × Nat × Nat :=
  let p := if e < 0 then p * 2 ^ (-e).toNat else p
  let q := if 0 ≤ e then q * 2 ^ e.toNat else q
  (p / q, p % q, q)

/-- What lies beyond the largest finite value (R212, R214). -/
def FFmt.overflow (f : FFmt) (rnd : Nat) (neg : Bool) : Nat :=
  let sg := b2n neg * 2 ^ (f.eb + f.mb)
  if f.ieee && (rnd == 0 || (rnd == 2 && !neg) || (rnd == 3 && neg)) then sg + (2 ^ f.eb - 1) * 2 ^ f.mb
  else sg + f.maxFin

/-- Rounds the rational ±p/q to the format, once (R212, R213). -/
def FFmt.encQ (f : FFmt) (rnd : Nat) (neg : Bool) (p q : Nat) : Nat :=
  let sg := b2n neg * 2 ^ (f.eb + f.mb)
  if p = 0 then sg
  else
    let emin : Int := 1 - (f.bias : Int)
    let k := max (log2Q p q) emin
    let (n, r, d) := scaleQ p q (k - f.mb)
    let n := if roundUp rnd neg n r d then n + 1 else n
    -- n < 2^mb: subnormal, exponent field 0; n = 2^(mb+1): the carry raises the exponent field by one
    let ex := if n < 2 ^ f.mb then 0 else (k - emin + 1).toNat
    let mag := if n < 2 ^ f.mb then n else ex * 2 ^ f.mb + (n - 2 ^ f.mb)
    if f.maxFin < mag then f.overflow rnd neg else sg + mag

/-- ±m × 2^e as a fraction. -/
def dyQ (m : Nat) (e : Int) : Nat × Nat := if 0 ≤ e then (m * 2 ^ e.toNat, 1) else (m, 2 ^ (-e).toNat)

/-- Rounds an exact value to the format: the conversion of a single value (R212, R213, R214). -/
def FFmt.enc (f : FFmt) (rnd : Nat) : Num → Nat
  | .nan => f.canonNaN
  | .inf neg => b2n neg * 2 ^ (f.eb + f.mb) + (if f.ieee then (2 ^ f.eb - 1) * 2 ^ f.mb else f.maxFin)
  | .fin neg m e => let (p, q) := dyQ m e; f.encQ rnd neg p q

/-! ### Exact operations on values -/

/-- The product (0 × ∞ is NaN, R208). -/
def Num.mul : Num → Num → Num
  | .nan, _ => .nan
  | _, .nan => .nan
  | .inf a, .inf b => .inf (xor a b)
  | .inf a, .fin b m _ => if m = 0 then .nan else .inf (xor a b)
  | .fin a m _, .inf b => if m = 0 then .nan else .inf (xor a b)
  | .fin a m e, .fin b n g => .fin (xor a b) (m * n) (e + g)

/-- The value times 2^k. -/
def Num.scale (k : Int) : Num → Num
  | .fin a m e => .fin a m (e + k)
  | x => x

/-- The value with the other sign. -/
def Num.neg : Num → Num
  | .nan => .nan
  | .inf a => .inf (!a)
  | .fin a m e => .fin (!a) m e

/-- The signed numerator over 2^152 if the value is a multiple of 2^-152. -/
def dyInt (neg : Bool) (m : Nat) : Int := if neg then -(m : Int) else m

/-- The exact sum of two finite values; NaN and infinities as IEEE 754 combines them. An exact zero is +0 (R213). -/
def Num.add : Num → Num → Num
  | .nan, _ => .nan
  | _, .nan => .nan
  | .inf a, .inf b => if a = b then .inf a else .nan
  | .inf a, .fin .. => .inf a
  | .fin .., .inf b => .inf b
  | .fin a m e, .fin b n g =>
    let l := min e g
    let s := dyInt a (m * 2 ^ (e - l).toNat) + dyInt b (n * 2 ^ (g - l).toNat)
    .fin (decide (s < 0)) s.natAbs l

/-- Whether the value is NaN. -/
def Num.isNaN : Num → Bool
  | .nan => true
  | _ => false

/-- `x < y` for values that are not NaN, with −0 < +0 (R217). -/
def Num.lt : Num → Num → Bool
  | .nan, _ => false
  | _, .nan => false
  | .inf a, .inf b => a && !b
  | .inf a, .fin .. => a
  | .fin .., .inf b => !b
  | .fin a m e, .fin b n g =>
    let l := min e g
    let x := dyInt a (m * 2 ^ (e - l).toNat)
    let y := dyInt b (n * 2 ^ (g - l).toNat)
    decide (x < y) || (decide (x = y) && a && !b)

/-! ### The long accumulator (R207 to R213) -/

/-- The long accumulator: VALUE as an integer in units of 2^-152, and the flags (R207). -/
structure LAcc where
  v : Int := 0
  nan : Bool := false
  pinf : Bool := false
  ninf : Bool := false
  tiny : Bool := false
  deriving DecidableEq, Repr

/-- VALUE is kept modulo 2^312, as two's complement (R209). -/
def accWrap (x : Int) : Int := toSigned 312 (ofSigned 312 x)

/-- Enters a term (R208). -/
def LAcc.term (a : LAcc) : Num → LAcc
  | .nan => { a with nan := true }
  | .inf false => { a with pinf := true }
  | .inf true => { a with ninf := true }
  | .fin neg m e =>
    let (p, q) := dyQ m e
    if 2 ^ 128 * q ≤ p then (if neg then { a with ninf := true } else { a with pinf := true })
    else
      let (n, r, d) := scaleQ p q (-152)
      let n' := if roundUp 0 neg n r d then n + 1 else n
      { a with v := accWrap (a.v + dyInt neg n'), tiny := a.tiny || decide (r ≠ 0) }

/-- Combines two accumulators (R209). -/
def LAcc.comb (a b : LAcc) : LAcc :=
  { v := accWrap (a.v + b.v), nan := a.nan || b.nan, pinf := a.pinf || b.pinf, ninf := a.ninf || b.ninf,
    tiny := a.tiny || b.tiny }

/-- The exact value that an accumulator stands for (R212). -/
def LAcc.num (a : LAcc) : Num :=
  if a.nan || (a.pinf && a.ninf) then .nan
  else if a.pinf then .inf false
  else if a.ninf then .inf true
  else .fin (decide (a.v < 0)) a.v.natAbs (-152)

/-- The final rounding to a float format (R212). -/
def LAcc.round (f : FFmt) (rnd : Nat) (a : LAcc) : Nat := f.enc rnd a.num

/-- The ACC image of 40 bytes (R207). -/
def LAcc.image (a : LAcc) : List Byte :=
  leBytes 39 (ofSigned 312 a.v) ++
    [BitVec.ofNat 8 (b2n a.nan + 2 * b2n a.pinf + 4 * b2n a.ninf + 8 * b2n a.tiny)]

/-- The accumulator that an image of 40 bytes holds; none where a reserved bit is set (R210). -/
def LAcc.ofImage (l : List Byte) : Option LAcc :=
  let f := le l 39 1
  if 16 ≤ f then none
  else some { v := toSigned 312 (le l 0 39), nan := bitAt f 0, pinf := bitAt f 1, ninf := bitAt f 2, tiny := bitAt f 3 }

/-! ### Conversions -/

/-- A value to an integer destination of `w` bits, outside the atomics (R215): rounded, saturated, 0 for NaN. -/
def toIntSat (rnd w : Nat) (signed : Bool) (x : Num) : Int :=
  let lo : Int := if signed then -(2 ^ (w - 1) : Int) else 0
  let hi : Int := if signed then 2 ^ (w - 1) - 1 else 2 ^ w - 1
  match x with
  | .nan => 0
  | .inf neg => if neg then lo else hi
  | .fin neg m e =>
    let (p, q) := dyQ m e
    let n := p / q
    let n := if roundUp rnd neg n (p % q) q then n + 1 else n
    min hi (max lo (dyInt neg n))

/-- The float format of a plain code 0x0 to 0x4 (R199). -/
def fmtOfCode : Nat → Option FFmt
  | 0 => some fFP32
  | 1 => some fFP16
  | 2 => some fBF16
  | 3 => some fE4M3
  | 4 => some fE5M2
  | _ => none

/-- Element width in bits of a format code, shared scales and pairs apart (R199). -/
def elemBits : Nat → Nat
  | 0 => 32
  | 1 | 2 => 16
  | 3 | 4 | 5 | 6 => 8
  | 7 | 8 => 6
  | 9 => 4
  | 0xA | 0xB => 8
  | 0xC => 4
  | 0xE => 512
  | _ => 0

/-- The element format inside a microscaled block: none for MXINT8 (R199, R203). -/
def mxElem : Nat → Option FFmt
  | 5 => some fE4M3
  | 6 => some fE5M2
  | 7 => some fE3M2
  | 8 => some fE2M3
  | 9 => some fE2M1
  | _ => none

/-- EMAX of a microscaled format (R205). -/
def mxEmax : Nat → Int
  | 5 => 8
  | 6 => 15
  | 7 => 4
  | 8 => 2
  | 9 => 2
  | _ => 0

/-- Element `i` of `w` bits in a little-endian bit string (R203, R206). -/
def bitElem (w : Nat) (l : List Byte) (i : Nat) : Nat := bits (leNat l) (w * i + w - 1) (w * i)

/-- The value of a microscaled element before its scale (R203, R204). -/
def mxRaw (code x : Nat) : Num :=
  match mxElem code with
  | some f => f.dec x
  | none => (Num.ofInt (toSigned 8 x)).scale (-6)

/-- The 32 values of a microscaled block: element bytes and scale byte (R203). -/
def mxDec (code : Nat) (elems : List Byte) (scale : Nat) : List Num :=
  (List.range 32).map fun i =>
    if scale = 0xFF then .nan
    else (mxRaw code (bitElem (elemBits code) elems i)).scale ((scale : Int) - 127)

/-- The larger of two magnitudes, by cross multiplication. -/
def Num.absLt (x y : Num) : Bool :=
  match x, y with
  | .fin _ m e, .fin _ n g => Num.lt (.fin false m e) (.fin false n g)
  | _, _ => false

/-- Packs `w`-bit elements into bytes, element 0 lowest (R203). -/
def packBits (w : Nat) (xs : List Nat) : List Byte :=
  leBytes (xs.length * w / 8) (xs.foldr (fun x a => x % 2 ^ w + a * 2 ^ w) 0)

/-- Writes a microscaled block (R205): element bytes and scale. -/
def mxEnc (code rnd : Nat) (xs : List Num) : List Byte × Nat :=
  let w := elemBits code
  if xs.any Num.isNaN then (packBits w (List.replicate 32 0), 0xFF)
  else
    let a := xs.foldl (fun a x => match x with | .fin .. => if Num.absLt a x then x else a | _ => a) Num.zero
    let ex : Int := match a with
      | .fin _ m e => if m = 0 then -127 else (log2 m : Int) + e - mxEmax code
      | _ => -127
    let ex := min (max ex (-127)) 127
    let conv := fun x : Num =>
      match mxElem code with
      | some f => match x with
        | .inf neg => f.enc rnd (.inf neg)
        | x => f.enc rnd (x.scale (-ex))
      | none => ofSigned 8 (toIntSat rnd 8 true (x.scale (6 - ex)))
    (packBits w (xs.map conv), (ex + 127).toNat)

/-- The two terms of a scaled-integer element: q × s and b (R206). -/
def sintTerms (q : Int) (s b : Num) : List Num :=
  if s.isNaN || b.isNaN then [.nan] else [(Num.ofInt q).mul s, b]

/-- Writes a scaled-integer element: clamp(round((x − b) / s)) (R206). An infinite b makes the quotient infinite, an infinite s
zero; where it has no value, the element is open. -/
def sintEnc (w rnd : Nat) (x s b : Num) : Int :=
  let hi : Int := 2 ^ (w - 1) - 1
  let lo : Int := -(2 ^ (w - 1))
  let open_ := toSigned w ((Config.sintOpen w rnd (fFP32.enc 0 x) (fFP32.enc 0 s) (fFP32.enc 0 b)).toNat % 2 ^ w)
  match x, s, b with
  | .nan, _, _ => 0
  | _, .fin _ 0 _, _ => 0
  | .inf neg, _, _ => if neg then lo else hi
  | .fin .., .fin sn _ _, .inf bn => if xor bn sn then hi else lo
  | .fin .., .inf _, .fin .. => 0
  | .fin .., .fin sn sm se, .fin .. =>
    match x.add b.neg with
    | .fin dn dm de =>
      let neg := xor dn sn
      let (p1, q1) := dyQ dm de
      let (p2, q2) := dyQ sm se
      let p := p1 * q2
      let q := q1 * p2
      let n := if roundUp rnd neg (p / q) (p % q) q then p / q + 1 else p / q
      min hi (max lo (dyInt neg n))
    | _ => 0
  | _, _, _ => open_

/-- Minimum and maximum of IEEE 754-2019 on values with their bits (R217). -/
def numMin (f : FFmt) (x y : Nat) : Nat :=
  if (f.dec x).isNaN || (f.dec y).isNaN then f.canonNaN else if (f.dec y).lt (f.dec x) then y else x

def numMax (f : FFmt) (x y : Nat) : Nat :=
  if (f.dec x).isNaN || (f.dec y).isNaN then f.canonNaN else if (f.dec x).lt (f.dec y) then y else x

end Sys2Proof.Machine
end

