-- ==== Sys2Proof/Machine/Hash.lean ====
section
/-!
DEFINITION. The checks and digests that the spec names with all their parameters: CRC-64 of ECMA-182 (R71), CRC-32C
(R222) and SHA-384 (FIPS 180-4, named by R226, R320, R417, R448; log entry 6).
-/

namespace Sys2Proof.Machine

/-- One bit of the CRC-64 of R71, most significant bit first. -/
def crc64Bit (c : Nat) : Nat :=
  if c / 2 ^ 63 % 2 = 1 then ((c * 2) % 2 ^ 64) ^^^ 0x42F0E1EBA9EA3693 else (c * 2) % 2 ^ 64

/-- One byte of the CRC-64. -/
def crc64Byte (c b : Nat) : Nat :=
  crc64Bit (crc64Bit (crc64Bit (crc64Bit (crc64Bit (crc64Bit (crc64Bit (crc64Bit (c ^^^ (b * 2 ^ 56)))))))))

/-- The CRC-64 of ECMA-182, initial value and final XOR all ones, not reflected (R71). -/
def crc64 (l : List Byte) : Nat := (l.foldl (fun c b => crc64Byte c b.toNat) (2 ^ 64 - 1)) ^^^ (2 ^ 64 - 1)

/-- One bit of the reflected CRC-32C (R222): the polynomial 0x1EDC6F41 reversed. -/
def crc32cBit (c : Nat) : Nat := if c % 2 = 1 then (c / 2) ^^^ 0x82F63B78 else c / 2

def crc32cByte (c b : Nat) : Nat :=
  crc32cBit (crc32cBit (crc32cBit (crc32cBit (crc32cBit (crc32cBit (crc32cBit (crc32cBit (c ^^^ b))))))))

/-- The CRC-32C of R222. -/
def crc32c (l : List Byte) : Nat := (l.foldl (fun c b => crc32cByte c b.toNat) (2 ^ 32 - 1)) ^^^ (2 ^ 32 - 1)

/-- One bit, and one byte, of the reflected CRC-32 of IEEE 802.3: the polynomial 0x04C11DB7 reversed (R65). -/
def crc32Bit (c : Nat) : Nat := if c % 2 = 1 then (c / 2) ^^^ 0xEDB88320 else c / 2

def crc32Byte (c b : Nat) : Nat := crc32Bit (crc32Bit (crc32Bit (crc32Bit (crc32Bit (crc32Bit (crc32Bit (crc32Bit (c ^^^ b))))))))

/-- The CRC-32 of the management port's frames (R65). -/
def crc32 (l : List Byte) : Nat := (l.foldl (fun c b => crc32Byte c b.toNat) (2 ^ 32 - 1)) ^^^ (2 ^ 32 - 1)

/-! ### SHA-384 -/

/-- 64-bit right rotation. -/
def rotr64 (x n : Nat) : Nat := (x >>> n) ||| ((x <<< (64 - n)) % 2 ^ 64)

/-- The whole part of the `k`-th root of `n`, decided bit by bit below bit `b`; `x` holds the bits decided so far. -/
def rootFrom (k n : Nat) : Nat → Nat → Nat
  | 0, x => x
  | b + 1, x => rootFrom k n b (if (x + 2 ^ b) ^ k ≤ n then x + 2 ^ b else x)

/-- The first 64 bits of the fraction of the `k`-th root of `p`, a prime below 2^10. -/
def rootFrac (k p : Nat) : Nat := rootFrom k (p * 2 ^ (64 * k)) 74 0 % 2 ^ 64

/-- The first 80 primes. -/
def primes80 : List Nat := (List.range 410).filter (fun p => decide (1 < p) && (List.range p).all (fun d => d < 2 || p % d != 0))

/-- The round constants: fractions of cube roots of primes. -/
def sha512K : List Nat := primes80.map (rootFrac 3)

/-- The initial hash value of SHA-384: fractions of square roots of the ninth prime to the sixteenth. -/
def sha384H : List Nat := ((primes80.drop 8).take 8).map (rootFrac 2)

/-- The big-endian number in bytes. -/
def beNat (l : List Byte) : Nat := l.foldl (fun a b => a * 256 + b.toNat) 0

/-- The `n` big-endian bytes of `v`. -/
def beBytes (n v : Nat) : List Byte := (leBytes n v).reverse

/-- The message schedule, newest word first; `n` more words. -/
def shaSched : Nat → List Nat → List Nat
  | 0, w => w
  | n + 1, w =>
    let a := w.getD 1 0
    let b := w.getD 14 0
    let s1 := rotr64 a 19 ^^^ rotr64 a 61 ^^^ (a >>> 6)
    let s0 := rotr64 b 1 ^^^ rotr64 b 8 ^^^ (b >>> 7)
    shaSched n (((s1 + w.getD 6 0 + s0 + w.getD 15 0) % 2 ^ 64) :: w)

/-- The eight working variables. -/
abbrev Sha8 := Nat × Nat × Nat × Nat × Nat × Nat × Nat × Nat

/-- One round. -/
def shaRound (v : Sha8) (kw : Nat × Nat) : Sha8 :=
  let (a, b, c, d, e, f, g, h) := v
  let s1 := rotr64 e 14 ^^^ rotr64 e 18 ^^^ rotr64 e 41
  let ch := (e &&& f) ^^^ ((2 ^ 64 - 1 - e) &&& g)
  let t1 := h + s1 + ch + kw.1 + kw.2
  let s0 := rotr64 a 28 ^^^ rotr64 a 34 ^^^ rotr64 a 39
  let mj := (a &&& b) ^^^ (a &&& c) ^^^ (b &&& c)
  ((t1 + s0 + mj) % 2 ^ 64, a, b, c, (d + t1) % 2 ^ 64, e, f, g)

/-- One block of 128 bytes. -/
def shaBlock (h : List Nat) (blk : List Byte) : List Nat :=
  let w0 := (List.range 16).map (fun i => beNat ((blk.drop (8 * i)).take 8))
  let w := (shaSched 64 w0.reverse).reverse
  let v0 : Sha8 := (h.getD 0 0, h.getD 1 0, h.getD 2 0, h.getD 3 0, h.getD 4 0, h.getD 5 0, h.getD 6 0, h.getD 7 0)
  let (a, b, c, d, e, f, g, i) := (sha512K.zip w).foldl shaRound v0
  (List.zipWith (fun x y => (x + y) % 2 ^ 64) h [a, b, c, d, e, f, g, i])

/-- The padded message. -/
def shaPad (l : List Byte) : List Byte :=
  let n := l.length
  let z := (239 - n % 128) % 128
  l ++ [0x80] ++ List.replicate z 0 ++ beBytes 16 (8 * n)

/-- SHA-384: 48 bytes. -/
def sha384 (l : List Byte) : List Byte :=
  let p := shaPad l
  ((chunks 128 (p.length / 128) p).foldl shaBlock sha384H |>.take 6).flatMap (beBytes 8)

end Sys2Proof.Machine
end

