-- ==== Sys2Proof/Machine/CodecFmt.lean ====
section
/-!
DEFINITION. The codec's block format (spec/10, R222 to R231): headers, planes and sub-streams, the rANS decoder and the
canonical encoder, and table images.
-/

namespace Sys2Proof.Machine

/-- A block header taken apart (R222). -/
structure BlkHdr where
  ver : Nat
  kind : Nat
  planes : Nat
  gen : Nat
  tableId : Nat
  tag : Nat
  crc : Nat
  lens : List Nat
  payload : Nat
  reserved : Nat
  deriving DecidableEq, Repr

/-- Reads the 64 bytes of a header. -/
def blkHdr (h : List Byte) : BlkHdr := {
  ver := le h 0 1
  kind := le h 1 1 % 4
  planes := 2 ^ (le h 1 1 / 4 % 4)
  gen := le h 2 1
  tableId := le h 4 4
  tag := le h 8 4
  crc := le h 12 4
  lens := (List.range 16).map (fun i => le h (16 + 2 * i) 2)
  payload := le h 48 4
  reserved := le h 1 1 / 16 + le h 3 1 + le h 52 12 }

/-- Whether the header is all zero: EMPTY. -/
def isEmptyBlk (h : List Byte) : Bool := allZero (slice h 0 64)

/-- The VER, MODE, reserved and KIND rules of R222. -/
def hdrOk (h : List Byte) : Bool :=
  let b := blkHdr h
  isEmptyBlk h ||
  (b.ver == 1 && decide (b.kind < 2) && decide (b.planes ≤ 4) && b.reserved == 0 &&
    (if b.kind = 0 then b.tableId != 0
     else b.planes == 1 && b.tableId == 0 && b.gen == 0 && b.tag == 0 && b.lens.all (fun x => x == 0)))

/-- The LEN and PAYLOAD rules of R222. -/
def lensOk (h : List Byte) : Bool :=
  let b := blkHdr h
  if isEmptyBlk h then true
  else if b.kind = 0 then
    b.lens.all (fun x => decide (4 ≤ x) && decide (x ≤ 4096)) && b.payload == b.lens.foldl (· + ·) 0
  else b.payload == 65536

/-- Cumulative counts C[0..255] of a context. -/
def cumul (f : List Nat) : List Nat := (f.foldl (fun (a : List Nat × Nat) x => (a.1 ++ [a.2], a.2 + x)) ([], 0)).1

/-- The symbol of a slot: the s with C[s] ≤ slot < C[s] + F[s]; its F and C. -/
def ransSym : List (Nat × Nat) → Nat → Nat → Option (Nat × Nat × Nat)
  | [], _, _ => none
  | (f, c) :: t, i, slot =>
    if c ≤ slot ∧ slot < c + f then some (i, f, c) else ransSym t (i + 1) slot

/-- Reads bytes until the state reaches the lower bound (R224). -/
def ransFill : Nat → Nat → List Byte → Option (Nat × List Byte)
  | 0, x, b => if x < 2 ^ 23 then none else some (x, b)
  | k + 1, x, b =>
    if x < 2 ^ 23 then
      match b with
      | [] => none
      | y :: t => ransFill k (x * 256 + y.toNat) t
    else some (x, b)

/-- The symbol loop of R224: `n` symbols still to decode. -/
def ransLoop (fc : List (Nat × Nat)) : Nat → Nat → List Byte → Option (List Byte)
  | 0, x, b => if x = 2 ^ 23 ∧ b.isEmpty then some [] else none
  | n + 1, x, b =>
    let slot := x % 4096
    match ransSym fc 0 slot with
    | none => none
    | some (s, f, c) =>
      match ransFill 4 (f * (x / 4096) + slot - c) b with
      | none => none
      | some (x, b) =>
        match ransLoop fc n x b with
        | none => none
        | some t => some (BitVec.ofNat 8 s :: t)

/-- Decodes a coded sub-stream; none marks STREAM (R224). -/
def ransDecode (f : List Nat) (b : List Byte) : Option (List Byte) :=
  if b.length < 4 then none
  else
    let x := le b 0 4
    if x < 2 ^ 23 ∨ 2 ^ 31 ≤ x then none else ransLoop (f.zip (cumul f)) 4096 x (b.drop 4)

/-- Emits low bytes while the state is too large for the symbol (R225). -/
def ransEmit (f : Nat) : Nat → Nat → List Byte → Nat × List Byte
  | 0, x, out => (x, out)
  | k + 1, x, out => if 2 ^ 19 * f ≤ x then ransEmit f k (x / 256) (BitVec.ofNat 8 x :: out) else (x, out)

/-- The encoder's loop over the symbols, last symbol first (R225). -/
def ransPut (f c : List Nat) : List Byte → Nat → List Byte → Option (Nat × List Byte)
  | [], x, out => some (x, out)
  | s :: t, x, out =>
    let fs := f.getD s.toNat 0
    if fs = 0 then none
    else
      let (x, out) := ransEmit fs 4 x out
      ransPut f c t ((x / fs) * 4096 + x % fs + c.getD s.toNat 0) out

/-- The canonical encoding of a sub-stream, or none where it is stored literal (R225). -/
def ransEncode (f : List Nat) (b : List Byte) : Option (List Byte) :=
  match ransPut f (cumul f) b.reverse (2 ^ 23) [] with
  | none => none
  | some (x, out) =>
    let o := leBytes 4 x ++ out
    if 4096 ≤ o.length then none else some o

/-- Sub-stream `s` of the raw bytes, P planes (R223). -/
def subStream (p : Nat) (raw : List Byte) (s : Nat) : List Byte :=
  let per := 16 / p
  let plane := s / per
  let seg := s % per
  (List.range 4096).map (fun i => raw.getD ((seg * 4096 + i) * p + plane) 0)

/-- The raw bytes from the 16 sub-streams (R223). -/
def interleave (p : Nat) (ss : List (List Byte)) : List Byte :=
  let per := 16 / p
  (List.range 65536).map (fun r =>
    let e := r / p
    (ss.getD (r % p * per + e / 4096) []).getD (e % 4096) 0)

/-- Cuts a payload at the stored lengths. -/
def cutLens : List Nat → List Byte → List (List Byte)
  | [], _ => []
  | n :: t, b => b.take n :: cutLens t (b.drop n)

/-- Decodes sub-streams in order; the index of the first that fails. -/
def decodeSubs (t : TableSlot) (p : Nat) : Nat → List (List Byte) → Except Nat (List (List Byte))
  | _, [] => .ok []
  | i, b :: r =>
    let d := if b.length = 4096 then some b else ransDecode (t.freqs.getD (i / (16 / p)) []) b
    match d with
    | none => .error i
    | some x => match decodeSubs t p (i + 1) r with
      | .error e => .error e
      | .ok l => .ok (x :: l)

/-- The slot of a partition that matches a header (R228): the lowest-numbered one. -/
def matchSlot (s : Body) (pid : Nat) (b : BlkHdr) : Option (Nat × TableSlot) :=
  ((List.range 4).map (fun n => (n, AMap.get {} s.tables (pid * 4 + n)))).find? (fun e =>
    e.2.state == 2 && e.2.tableId == b.tableId && e.2.gen == b.gen && e.2.tag == b.tag && e.2.nctx == b.planes)

/-- Decodes a stored block with a table (R222 to R224): the raw bytes, or (status, SUB, cause, sub-stream) of the first failure in
the order of R233. -/
def decodeWith (t : Option TableSlot) (h pay : List Byte) : Except (Nat × Nat × Nat × Nat) (List Byte) :=
  let b := blkHdr h
  if !hdrOk h then .error (0x42, 3, 1, 31)
  else if !lensOk h then .error (0x42, 2, 2, 31)
  else if isEmptyBlk h then .ok (List.replicate 65536 0)
  else if b.kind = 1 then
    let raw := slice pay 0 65536
    if crc32c raw = b.crc then .ok raw else .error (0x42, 3, 4, 31)
  else match t with
    | none => .error (0x52, 0, 5, 31)
    | some t => match decodeSubs t b.planes 0 (cutLens b.lens pay) with
      | .error i => .error (0x42, 3, 3, i)
      | .ok ss =>
        let raw := interleave b.planes ss
        if crc32c raw = b.crc then .ok raw else .error (0x42, 3, 4, 31)

/-- Decodes a stored block with the table that its header matches now (R228). -/
def decodeBlock (s : Body) (pid : Nat) (h pay : List Byte) : Except (Nat × Nat × Nat × Nat) (List Byte) :=
  decodeWith ((matchSlot s pid (blkHdr h)).map (·.2)) h pay

/-- The header of a RAW block. -/
def rawHdr (raw : List Byte) : List Byte :=
  [1, 1] ++ List.replicate 10 0 ++ leBytes 4 (crc32c raw) ++ List.replicate 32 0 ++ leBytes 4 65536 ++ List.replicate 12 0

/-- Codes 64 KiB with a table (R225, R231): header, payload, literal sub-streams, and whether it fell back to RAW. -/
def encodeBlock (t : TableSlot) (raw : List Byte) : List Byte × List Byte × Nat × Bool :=
  let p := t.nctx
  let ss := (List.range 16).map (fun i =>
    let b := subStream p raw i
    match ransEncode (t.freqs.getD (i / (16 / p)) []) b with
    | some o => o
    | none => b)
  let lens := ss.map List.length
  let total := lens.foldl (· + ·) 0
  let lits := (lens.filter (fun x => x == 4096)).length
  if 61440 ≤ total then (rawHdr raw, raw, lits, true)
  else
    let h := [1, BitVec.ofNat 8 (log2 p * 4), BitVec.ofNat 8 t.gen, 0] ++ leBytes 4 t.tableId ++ leBytes 4 t.tag ++
      leBytes 4 (crc32c raw) ++ lens.flatMap (leBytes 2) ++ leBytes 4 total ++ List.replicate 12 0
    (h, ss.flatten, lits, false)

/-- The bytes carried for a block with stored payload length `n` (R232). -/
def carried (n : Nat) : Nat := max (64 + n) 4160

/-- A table image that passes the checks of R230, as a READY slot. -/
def tableImage (l : List Byte) : Option TableSlot :=
  let nctx := le l 1 1
  let fs := (List.range nctx).map (fun k => (List.range 256).map (fun i => le l (64 + 512 * k + 2 * i) 2))
  let ok := le l 0 1 == 1 && (nctx == 1 || nctx == 2 || nctx == 4) && le l 4 4 != 0 && le l 3 1 == 0 && le l 8 8 == 0 &&
    fs.all (fun f => f.foldl (· + ·) 0 == 4096) &&
    sha384 (slice l 0 16 ++ slice l 64 (512 * nctx)) == slice l 16 48
  if ok then some { state := 2, tableId := le l 4 4, tag := le l 16 4, gen := le l 2 1, nctx := nctx, freqs := fs } else none

end Sys2Proof.Machine
end

