-- ==== Sys2Proof/Machine/Msg.lean ====
section
/-!
DEFINITION. The messages of the link protocol (spec/04): opcodes, header words, CHECK, the requests that the controller sends
itself, and the record of a message that is discarded or refused.
-/

namespace Sys2Proof.Machine

/-- The opcodes of R518. -/
def opLOAD : Nat := 0x01
def opLOADSHARED : Nat := 0x02
def opLOADOWN : Nat := 0x03
def opLOADNA : Nat := 0x04
def opSTORE : Nat := 0x08
def opSTOREMASKED : Nat := 0x09
def opWRITEBACK : Nat := 0x0A
def opEVICTCLEAN : Nat := 0x0B
def opCODEDLOAD : Nat := 0x10
def opCODEDSTORE : Nat := 0x11
def opADDEXACT : Nat := 0x20
def opFADDVEC : Nat := 0x21
def opCAS : Nat := 0x22
def opSWAP : Nat := 0x23
def opMIN : Nat := 0x24
def opMAX : Nat := 0x25
def opAND : Nat := 0x26
def opOR : Nat := 0x27
def opXOR : Nat := 0x28
def opSNOOPINV : Nat := 0x30
def opSNOOPSHARE : Nat := 0x31
def opSNOOPRESP : Nat := 0x32
def opPUBLISH : Nat := 0x40
def opDOORBELL : Nat := 0x41
def opSEIZEPREPARE : Nat := 0x48
def opSEIZECOMMIT : Nat := 0x49
def opSEIZEABORT : Nat := 0x4A
def opSPLICED : Nat := 0x50
def opHEARTBEAT : Nat := 0x60
def opKNOTSYNC : Nat := 0x61

/-- The bytes that a length code stands for; the largest for a burst (R73). -/
def lenBytes (len : Nat) : Nat :=
  if len = 0 then 0 else if len ≤ 10 then 2 ^ (len + 2) else if len = 11 then 144
  else if len < 16 then 0 else (len - 14) * 4096

/-- Header words 0 to 2 of a request, as 24 bytes (R68, R69, R70). -/
def reqHdr (op : Nat) (m : ReqMsg) : List Byte :=
  leBytes 8 (b2n m.enc * 2 ^ 62 + m.tag * 2 ^ 46 + m.pid * 2 ^ 36 + m.hid * 2 ^ 27 + m.cid * 2 ^ 14 + m.len * 2 ^ 9 +
    b2n m.cls * 2 ^ 8 + op) ++
  leBytes 8 (m.rsvd * 2 ^ 61 + b2n m.space * 2 ^ 60 + m.addr) ++
  leBytes 8 (m.mapgen * 2 ^ 48 + m.issue * 2 ^ 24 + m.arg)

/-- Header words 0 to 2 of a response (R68, R70, R74), from its fields. -/
def respHdr (op : Nat) (enc : Bool) (tag pid hid cid len : Nat) (cls : Bool) (serve hint rsvd sub status mapgen issue
    arg : Nat) : List Byte :=
  leBytes 8 (2 ^ 63 + b2n enc * 2 ^ 62 + tag * 2 ^ 46 + pid * 2 ^ 36 + hid * 2 ^ 27 + cid * 2 ^ 14 + len * 2 ^ 9 +
    b2n cls * 2 ^ 8 + op) ++
  leBytes 8 (serve * 2 ^ 40 + hint * 2 ^ 24 + rsvd * 2 ^ 16 + sub * 2 ^ 8 + status) ++
  leBytes 8 (mapgen * 2 ^ 48 + issue * 2 ^ 24 + arg)

/-- The full issue knot: the largest knot no greater than `k` with the stamped low 24 bits (R31). -/
def fullIssue (k low : Nat) : Nat :=
  let d := (k % 2 ^ 24 + 2 ^ 24 - low % 2 ^ 24) % 2 ^ 24
  k - d

/-- The GCM nonce of a message (R72). -/
def nonce (issueK cid : Nat) (fromHome rsp : Bool) (tag : Nat) : Nat :=
  issueK * 2 ^ 32 + cid * 2 ^ 19 + b2n fromHome * 2 ^ 18 + b2n rsp * 2 ^ 17 + tag * 2

/-- What CHECK yields (R71, R374): the plaintext and whether the previous key verified it; none where it fails. -/
def verify (s : Body) (hdr : List Byte) (enc : Bool) (pid nce : Nat) (check : BitVec 64) (pay : List Byte) :
    Option (List Byte × Bool) :=
  if !enc then (if crc64 (hdr ++ pay) = check.toNat then some (pay, false) else none)
  else
    let k := (AMap.get {} s.parts pid).keys
    let cur := match k.sess with
      | some key => if Config.gcmTag key nce hdr pay = check then some (Config.gcmCrypt key nce pay) else none
      | none => none
    match cur with
    | some p => some (p, false)
    | none =>
      match k.prev, k.rolled with
      | some key, some r =>
        if s.now < r + 256 ∧ Config.gcmTag key nce hdr pay = check then some (Config.gcmCrypt key nce pay, true) else none
      | _, _ => none

/-- Records a request that was discarded or refused (FAB_ERR_LOG). -/
def fabErr (s : Body) (status op link cid tag : Nat) (discard : Bool) : Body :=
  let s := s.set R.FAB_ERR_LOG.STATUS status
  let s := s.set R.FAB_ERR_LOG.OPCODE op
  let s := s.set R.FAB_ERR_LOG.LINK link
  let s := s.set R.FAB_ERR_LOG.CID cid
  let s := s.set R.FAB_ERR_LOG.DISCARD (b2n discard)
  let s := s.set R.FAB_ERR_LOG.TAG tag
  s.set R.FAB_ERR_KNOT.KNOT s.now

/-- Discards a request with a counter. -/
def fabDiscard (s : Body) (ctr : Fld) (op : Nat) (m : ReqMsg) : Body :=
  (fabErr s 0 op m.link m.cid m.tag true).count ctr

/-- CHECK of a message that is sent, over its header bytes 0 to 23 and its plaintext payload (R71). -/
def checkOf (enc : Bool) (key : List Byte) (nce : Nat) (hdr pay : List Byte) : BitVec 64 :=
  if enc then Config.gcmTag key nce hdr (Config.gcmCrypt key nce pay) else BitVec.ofNat 64 (crc64 (hdr ++ pay))

/-- The session key of a partition (R372). -/
def sessKey (s : Body) (pid : Nat) : List Byte := (AMap.get {} s.parts pid).keys.sess.getD []

/-- A partition's messages are encrypted (R82 check 6, R139, R372). -/
def sessOn (s : Body) (pid : Nat) : Bool :=
  match s.cfg.img with
  | some i => i.parts.any (fun p => p.pid == pid && p.sess)
  | none => false

/-- Sends a request of the controller: ISSUE is the knot it is launched in, and CHECK is put in (R70 to R72). `home` says that
it travels from the home. -/
def sendReq (s : Body) (op : Nat) (m : ReqMsg) (home : Bool) : Body :=
  let m := { m with issue := s.now % 2 ^ 24 }
  s.send (.req op { m with
    check := checkOf m.enc (sessKey s m.pid) (nonce s.now m.cid home false m.tag) (reqHdr op m) m.payload })

/-- Sends a link message (R79). HID and CID, which no rule fixes, are free values (log entry 114). -/
def linkSend (s : Body) (op link len arg : Nat) (pay : List Byte) : Body :=
  let (hid, s) := s.free 9
  let (cid, s) := s.free 13
  sendReq s op {
    link := link, enc := false, tag := 0, pid := 0, hid := hid, cid := cid, len := len, cls := false, rsvd := 0,
    space := false, addr := 0, mapgen := 0, issue := 0, arg := arg, check := 0, payload := pay } true

/-- The payload of a KNOT_SYNC (R34). -/
def syncPayload (knot sendPs corrPs masterHid seq kind : Nat) : List Byte :=
  leBytes 8 knot ++ leBytes 4 sendPs ++ leBytes 4 corrPs ++ leBytes 2 masterHid ++ leBytes 2 seq ++ leBytes 1 kind ++
    leBytes 11 0

/-- A KNOT_SYNC taken in `atPs` after the boundary, taken apart (R34). -/
def syncOf (m : ReqMsg) (atPs : Nat) : SyncMsg := {
  link := m.link, knot := le m.payload 0 8, sendPs := le m.payload 8 4, corrPs := le m.payload 12 4,
  masterHid := le m.payload 16 2 % 512, seq := le m.payload 18 2, kind := le m.payload 20 1, atPs := atPs }

/-- Takes in a link message of LEN `len`: one whose CHECK fails is discarded (R71), and one of another length has no effect
(log entry 114). -/
def linkTake (s : Body) (op len : Nat) (m : ReqMsg) (f : Body → Body) : Body :=
  if m.enc = true ∨ crc64 (reqHdr op m ++ m.payload) ≠ m.check.toNat then fabDiscard s R.FAB_AUTH_FAIL.COUNT op m
  else if m.len ≠ len ∨ m.payload.length ≠ lenBytes len then s
  else f s

end Sys2Proof.Machine
end

