-- ==== Sys2Proof/Machine/Mem.lean ====
section
/-!
DEFINITION. The store of the home slice: the image in effect, the interleave map (R120, R121, R123), the tiers (R344,
R348, R350) and the one place where bytes of the store are read and written.
-/

namespace Sys2Proof.Machine

/-- The image of a controller on which none has taken effect. -/
def emptyImage : Image :=
  { hid := 0, sp2 := false, length := 0, partCode := 0, stepping := 0, ver := 0, buildId := 0, parts := [], hitches := [],
    regions := [], sched := [], chans := [], cores := [], links := [], portmap := [], prots := [], obsSlots := 0,
    traceFrames := 0, sampleFrames := 0, rings := [], peers := [], groups := [], sems := [], plan := 0, keyId := 0 }

/-- The image in effect. -/
def Body.img (s : Body) : Image := s.cfg.img.getD emptyImage

/-- The PART entry of a partition. -/
def partDef (s : Body) (pid : Nat) : Option PartDef := s.img.parts.find? (fun p => p.pid == pid)

/-- The composition of a partition. -/
def Body.part (s : Body) (pid : Nat) : PartSt := AMap.get {} s.parts pid

def Body.setPart (s : Body) (pid : Nat) (p : PartSt) : Body := { s with parts := AMap.put {} s.parts pid p }

/-- The home list of a region under map G, or under map G − 1 (R123, R384). -/
def homeList (s : Body) (grace : Bool) (r : Region) : List Nat :=
  match r.pids with
  | [p] =>
    let c := if grace then (s.part p).prev else (s.part p).cur
    match c.lists.find? (fun e => e.1 == r.id) with
    | some (_, l) => l
    | none => r.list
  | _ => r.list

/-- The region that holds an SGA. -/
def regionOfSga (s : Body) (a : Nat) : Option Region :=
  s.img.regions.find? (fun r => decide (r.base ≤ a) && decide (a < r.base + r.size))

/-- The PROT entry of a region. -/
def protOf (s : Body) (rid : Nat) : Option ProtDef := s.img.prots.find? (fun p => p.region == rid)

/-- The region is an EC8 companion (R345, R365). -/
def isCompanion (s : Body) (r : Region) : Bool :=
  match protOf s r.id with
  | some p => p.scheme == 4 || p.scheme == 5
  | none => false

/-- The home and the local offset of an SGA in region `r` (R121). In a companion, offsets m × LS + o for m = 0 to 7 name
the same local bytes (R365). -/
def homeLocal (s : Body) (grace : Bool) (r : Region) (a : Nat) : Nat × Nat :=
  let l := homeList s grace r
  let o := if isCompanion s r then (a - r.base) % (r.size / 8) else a - r.base
  let i := (o >>> r.gLog) % 2 ^ r.lLog
  let home := l.getD i 0
  let k := (l.filter (· == home)).length
  let j := ((l.take i).filter (· == home)).length
  (home, r.localBase + ((o >>> (r.gLog + r.lLog)) * k + j) * 2 ^ r.gLog + o % 2 ^ r.gLog)

/-- The bytes of region `r` that this controller holds. -/
def localSize (s : Body) (r : Region) : Nat :=
  (if isCompanion s r then r.size / 8 else r.size) / 2 ^ (r.gLog + r.lLog) *
    ((homeList s false r).filter (· == s.hid)).length * 2 ^ r.gLog

/-- The region that holds a local offset. -/
def regionOfLoc (s : Body) (loc : Nat) : Option Region :=
  s.img.regions.find? (fun r => decide (r.localBase ≤ loc) && decide (loc < r.localBase + localSize s r))

/-- The tier policy of a local offset (R344): 0 PIN, 1 WT, 2 WB, 3 NEAR. -/
def tierOf (s : Body) (loc : Nat) : Nat :=
  match regionOfLoc s loc with
  | some r => match protOf s r.id with | some p => p.tier | none => 3
  | none => 3

/-- The 64 KiB unit of a local offset (R124). -/
def unitOf (loc : Nat) : Nat := loc / 65536

/-- The unit has a frame of its own in a WT or WB region. -/
def framed (s : Body) (loc : Nat) : Bool := s.sto.resident.any (fun r => r.unit == unitOf loc)

/-- The unit of a local offset is resident in the near tier (R344). -/
def isResident (s : Body) (loc : Nat) : Bool :=
  let t := tierOf s loc
  t == 0 || t == 3 || framed s loc

/-- A write to the local offset reaches the far store (R357). -/
def writesFar (s : Body) (loc : Nat) : Bool :=
  let t := tierOf s loc
  t == 0 || t == 1 || (t == 2 && !framed s loc)

/-- One byte of the home slice, as the tiers hold it. -/
def Body.rdB (s : Body) (loc : Nat) : Byte :=
  if isResident s loc then AMap.get 0 s.near loc else AMap.get 0 s.far loc

/-- `n` bytes of the home slice from local offset `loc`. -/
def Body.rd (s : Body) (loc n : Nat) : List Byte :=
  let m := if isResident s loc then s.near else s.far
  (List.range n).map (fun i => AMap.get 0 m (loc + i))

/-- Puts bytes into a byte map. -/
def putBytes (m : AMap Byte) (loc : Nat) : List Byte → AMap Byte
  | [] => m
  | b :: t => putBytes (AMap.put 0 m loc b) (loc + 1) t

/-- Local line numbers of the `n` bytes from `loc` (R133). -/
def linesOf (loc n : Nat) : List Nat :=
  if n = 0 then [] else (List.range ((loc + n - 1) / 128 + 1 - loc / 128)).map (fun i => loc / 128 + i)

/-- Lines `a` to `b` − 1 of a unit are written back: the far copy takes on the frame's bytes (R351). -/
def backLines (s : Body) (u a b : Nat) : Body :=
  let lo := u * 65536 + a * 128
  let hi := u * 65536 + b * 128
  let bytes := s.near.filter (fun (e : Nat × Byte) => decide (lo ≤ e.1) && decide (e.1 < hi))
  { s with far := bytes.foldl (fun (m : AMap Byte) (e : Nat × Byte) => AMap.put 0 m e.1 e.2) (AMap.clear s.far lo hi) }

/-- How many of a unit's lines a write-back has written when it is cut short or overtaken: at least `done`, at most 512.
The spec gives no rate, so the number is free (log entry 4). -/
def backSome (s : Body) (u done : Nat) : Nat × Body :=
  let (v, s) := s.free 16
  let n := done + v % (513 - min 512 done)
  (n, backLines s u done n)

/-- The migration is the write-back of unit `u`. -/
def Migration.backs (u : Nat) : Migration → Bool
  | .writeback v _ _ _ => v == u
  | .promote _ _ => false

/-- A write to a resident WB unit is about to act (R351): the unit becomes dirty; a write-back that was to demote it is
cancelled, and one of a flush goes on with the lines still ahead. -/
def dirtyUnit (s : Body) (loc : Nat) : Body :=
  let u := unitOf loc
  if tierOf s loc = 2 ∧ framed s loc = true then
    let res := s.sto.resident.map (fun (r : Resident) => if r.unit = u then { r with dirty := true } else r)
    let s := { s with sto := { s.sto with resident := res } }
    match s.sto.migrations.find? (fun (m : Migration) => m.backs u) with
    | some (.writeback _ demote done _) =>
      let (n, s) := backSome s u done
      let rest := s.sto.migrations.filter (fun (m : Migration) => !m.backs u)
      if demote then
        let s := s.count R.STO_DEMOTE_CANCEL.COUNT
        { s with sto := { s.sto with migrations := rest } }
      else { s with sto := { s.sto with migrations := rest ++ [Migration.writeback u false n true] } }
    | _ => s
  else s

/-- Writes bytes that lie in one unit: to the frame where one is resident, to the far copy where the policy says so
(R344, R350); a write of a whole line takes it off the bad-line list (R352). -/
def Body.wr (s : Body) (loc : Nat) (b : List Byte) : Body :=
  let s := dirtyUnit s loc
  let s := if isResident s loc then { s with near := putBytes s.near loc b } else s
  let s := if writesFar s loc then { s with far := putBytes s.far loc b } else s
  if s.sto.bad.isEmpty then s
  else { s with sto := { s.sto with
      bad := s.sto.bad.filter (fun l => !(decide (loc ≤ l * 128) && decide (l * 128 + 128 ≤ loc + b.length))) } }

/-- The local offset of an SGA held by this controller under the current map, with its region. -/
def sgaLoc (s : Body) (a : Nat) : Option (Region × Nat) :=
  match regionOfSga s a with
  | none => none
  | some r => let (h, l) := homeLocal s false r a; if h = s.hid then some (r, l) else none

/-- The SGA of a local offset of region `r` (R121). -/
def locSga (s : Body) (r : Region) (loc : Nat) : Nat :=
  let l := homeList s false r
  let mine := (List.range l.length).filter (fun i => l.getD i 0 == s.hid)
  let o := loc - r.localBase
  let k := max 1 mine.length
  let b := o / 2 ^ r.gLog
  r.base + ((b / k) * 2 ^ r.lLog + mine.getD (b % k) 0) * 2 ^ r.gLog + o % 2 ^ r.gLog

/-- The partition whose at-rest key encrypts a region (R347, R372). -/
def Region.keyPid (r : Region) : Nat := if r.shared then r.keyOwner else r.pids.headD 0

/-- The at-rest key of a region, if its key owner holds one (R372, R457). -/
def restKey (s : Body) (r : Region) : Option (List Byte) := (s.part r.keyPid).keys.rest

/-- An access at an SGA of this home is refused for want of the region's at-rest key (R457). -/
def keyless (s : Body) (sga : Nat) : Bool :=
  match sgaLoc s sga with | some (r, _) => (restKey s r).isNone | none => false

/-- The region lies in the near tier for good: PIN or NEAR, "resident" in R109 and R219. -/
def regionPinned (s : Body) (r : Region) : Bool :=
  match protOf s r.id with
  | some p => p.tier == 0 || p.tier == 3
  | none => false

/-- A position cannot serve row `r`: it is SUSPECT, FAILED or ABSENT, or in REBUILD with the row not yet rebuilt (R359,
R360, R362). -/
def posDown (s : Body) (r q : Nat) : Bool :=
  let st := s.get R.STO_SLED.STATE q
  st != 1 && !(st == 4 && decide (r < s.get R.STO_REBUILD.NEXT))

/-- Positions of the chunks of row `r` in a region with scheme `sch` (R353): data chunk `d` first, then parity. -/
def chunkPos (sp2 : Bool) (sch r d : Nat) : List Nat :=
  if sch = 1 ∨ 3 ≤ sch then [(r + 2 + d) % 16, r % 16, (r + 1) % 16]
  else if sch = 2 then [2 * d, 2 * d + 1]
  else if sp2 then [d % 14] else [d]

/-- The position that the image gives a store port: in SP-2 mode by PORTMAP, 0xFE for a spare (R364, R414). -/
def portPlace (s : Body) (port : Nat) : Nat := if s.img.sp2 then s.img.portmap.getD port 0xFF else port

/-- The SP bits of the ports at which position `q` stands or was placed are set (R442, R443). -/
def spReady (s : Body) (q : Nat) : Bool :=
  (List.range 16).all (fun p => bitAt (s.get R.MGT_READY.SP) p ||
    !(portPlace s p == q || (s.get R.STO_SLED.PORT q == p && s.get R.STO_SLED.STATE q != 0)))

/-- Data bytes per row (R345). -/
def dataPerRow (sp2 : Bool) (sch : Nat) : Nat :=
  if sch = 1 ∨ 3 ≤ sch then 14 * 65536
  else if sch = 2 then (if sp2 then 7 else 8) * 65536
  else (if sp2 then 14 else 16) * 65536

/-- Row, data chunk and scheme of a local offset (R353). -/
def rowOf (s : Body) (loc : Nat) : Option (Nat × Nat × Nat × Nat) :=
  match regionOfLoc s loc with
  | none => none
  | some r => match protOf s r.id with
    | none => none
    | some p =>
      if p.tier = 3 then none
      else
        let o := loc - r.localBase
        let dr := dataPerRow s.img.sp2 p.scheme
        some (r.id, p.rowBase + o / dr, (o % dr) / 65536, p.scheme)

/-- The number of positions of a row that are down. -/
def rowDown (s : Body) (sch r : Nat) : Nat :=
  if sch = 1 ∨ 3 ≤ sch then ((List.range 16).filter (posDown s r)).length else 0

/-- The far copy of a local offset can be read, from its chunk or by reconstruction (R345, R359). -/
def farReadable (s : Body) (loc : Nat) : Bool :=
  match rowOf s loc with
  | none => true
  | some (_, r, d, sch) =>
    match chunkPos s.img.sp2 sch r d with
    | [] => true
    | q :: _ =>
      if !posDown s r q then true
      else if sch = 0 then false
      else if sch = 2 then !posDown s r (2 * d + 1)
      else decide (rowDown s sch r ≤ 2)

/-- Reading the local offset's far copy needs reconstruction (R359). -/
def needsRecon (s : Body) (loc : Nat) : Bool :=
  match rowOf s loc with
  | none => false
  | some (_, r, d, sch) => match chunkPos s.img.sp2 sch r d with
    | [] => false
    | q :: _ => posDown s r q

/-- A far access at a local offset waits for SP bits (R443): of the positions that it writes, of the one that it reads, and, where
that one is down, of its row. -/
def farHeld (s : Body) (write : Bool) (loc : Nat) : Bool :=
  (if write then writesFar s loc else !isResident s loc) &&
  match rowOf s loc with
  | none => false
  | some (_, r, d, sch) =>
    let ps := chunkPos s.img.sp2 sch r d
    let q := ps.headD 0
    let row := if sch = 1 ∨ 3 ≤ sch then List.range 16 else if sch = 2 then [q, q ^^^ 1] else [q]
    let more := if !isResident s loc && posDown s r q then row else []
    ((if write then ps else [q]) ++ more).any (fun x => !spReady s x)

/-- The line cannot be read: on the bad-line list (R352), in a LOST region (R361), or not reconstructible (R359). -/
def unreadable (s : Body) (line : Nat) : Bool :=
  s.sto.bad.contains line ||
  (match regionOfLoc s (line * 128) with | some r => s.sto.lost.contains r.id | none => false) ||
  (!isResident s (line * 128) && !farReadable s (line * 128))

end Sys2Proof.Machine
end

