-- ==== Sys2Proof/Machine/Xlt.lean ====
section
/-!
DEFINITION. Address translation (spec/05): address words and partition pointers, page walks, the translation cache,
the checks of R115, invalidation, access counters and hot rings.
-/

namespace Sys2Proof.Machine

/-- The status codes of R102. -/
def stOK : Nat := 0x00
def stOKSPLICED : Nat := 0x01
def stRAWFALLBACK : Nat := 0x02
def stRETRY : Nat := 0x10
def stSTALEMAP : Nat := 0x11
def stREVOKED : Nat := 0x12
def stJOBTORN : Nat := 0x13
def stLOSTLINE : Nat := 0x14
def stFENCED : Nat := 0x15
def stSEIZEABORT : Nat := 0x20
def stSEIZECONFLICT : Nat := 0x21
def stPOOLFAIL : Nat := 0x22
def stPUBLISHCONFLICT : Nat := 0x23
def stUNCORRECTABLE : Nat := 0x24
def stORPHANTAIL : Nat := 0x30
def stBURSTTIMEOUT : Nat := 0x31
def stXLTFAULT : Nat := 0x40
def stPERMISSION : Nat := 0x41
def stBADOPCODE : Nat := 0x42
def stALIGN : Nat := 0x43
def stBUDGETMISS : Nat := 0x50
def stRESETABORT : Nat := 0x51
def stTABLEMISSING : Nat := 0x52
def stSHADOWMISMATCH : Nat := 0x60
def stINTERNAL : Nat := 0x7F

def xFault (cause : Nat) (level : Nat := 7) : XErr := { status := stXLTFAULT, sub := 0, cause := cause, level := level }

def xPerm : XErr := { status := stPERMISSION, sub := 4, cause := 7 }

/-- log2 of a page size: 64 KiB, 2 MiB, 1 GiB. -/
def pageLog (size : Nat) : Nat := if size = 0 then 16 else if size = 1 then 21 else 30

/-- The lowest CVA bit that a level indexes, and log2 of its number of entries (R107). -/
def levelShift (l : Nat) : Nat := if l = 0 then 16 else 12 + 9 * l
def levelBits (l : Nat) : Nat := if l = 0 then 5 else 9

/-- Alignment of a child table of level `l`: 4 KiB, or 256 B for level 0 (R107). -/
def childAlign (l : Nat) : Nat := if l = 1 then 256 else 4096

/-- The local offset of a table address that is in a PIN or NEAR region of this home (R109). -/
def tableLoc (s : Body) (a : Nat) : Option Nat :=
  match sgaLoc s a with
  | some (r, l) => if regionPinned s r then some l else none
  | none => none

/-- The owner of a line in X, if any. -/
def lineOwned (s : Body) (line : Nat) : Bool :=
  match AMap.get none s.dir.entries line with
  | some e => e.st == .x
  | none => false

/-- The line is in L. -/
def lineLost (s : Body) (line : Nat) : Bool :=
  match AMap.get none s.dir.entries line with
  | some e => e.st == .l
  | none => false

/-- A page walk from the table `tbl` of level `l` (R107, R108, R109). `keep` holds lines that owners have returned; `own` false
takes the home copy where a client owns a line. -/
def walkFrom (s : Body) (own : Bool) (keep : List (Nat × List Byte)) (cva : Nat) : Nat → Nat → Nat → WalkRes
  | l, tbl, reads =>
    let idx := (cva >>> levelShift l) % 2 ^ levelBits l
    match tableLoc s tbl with
    | none => .err (xFault 3 l) reads
    | some base =>
      let loc := base + 8 * idx
      let line := loc / 128
      match (keep.find? (fun k => k.1 == line)) with
      | none =>
        if own && lineOwned s line then .need line
        else if lineLost s line || unreadable s line then
          .err { status := stUNCORRECTABLE, sub := 0, cause := 8, level := l } (reads + 1)
        else go l (leNat (s.rd loc 8)) (reads + 1)
      | some (_, d) => go l (le d (loc % 128) 8) (reads + 1)
where
  /-- Judges an entry, and goes on to the next level. -/
  go : Nat → Nat → Nat → WalkRes
  | l, w, reads =>
    let addr := bits w 59 8 * 256
    if !bitAt w 0 then .err (xFault 2 l) reads
    else if bits w 63 60 ≠ 0 || bitAt w 6 then .err (xFault 3 l) reads
    else if bitAt w 5 then
      if 2 < l then .err (xFault 3 l) reads
      else if addr % 2 ^ pageLog l ≠ 0 then .err (xFault 3 l) reads
      else .leaf { sga := addr, perm := bits w 4 1, size := l, cleat := bitAt w 7 } reads
    else
      match l with
      | 0 => .err (xFault 3 0) reads
      | l' + 1 =>
        if bitAt w 7 || bits w 4 1 ≠ 0 || addr % childAlign l ≠ 0 then .err (xFault 3 l) reads
        else
          let idx := (cva >>> levelShift l') % 2 ^ levelBits l'
          match tableLoc s addr with
          | none => .err (xFault 3 l') reads
          | some base =>
            let loc := base + 8 * idx
            let line := loc / 128
            match (keep.find? (fun k => k.1 == line)) with
            | none =>
              if own && lineOwned s line then .need line
              else if lineLost s line || unreadable s line then
                .err { status := stUNCORRECTABLE, sub := 0, cause := 8, level := l' } (reads + 1)
              else go l' (leNat (s.rd loc 8)) (reads + 1)
            | some (_, d) => go l' (le d (loc % 128) 8) (reads + 1)

/-- The page walk of a partition (R107 to R110, steps 3 to 6 of R115). -/
def walkPage (s : Body) (own : Bool) (keep : List (Nat × List Byte)) (pid cva : Nat) : WalkRes :=
  if !s.on R.XLT_PART_ROOT.V 0 pid then .err (xFault 4) 0
  else walkFrom s own keep cva 4 (s.get R.XLT_PART_ROOT.ROOT 0 pid * 4096) 0

/-- The lines that a walk reads from the table `tbl` of level `l` on, as the tables stand now (R110). -/
def pathFrom (s : Body) (keep : List (Nat × List Byte)) (cva : Nat) : Nat → Nat → List Nat
  | l, tbl =>
    match tableLoc s tbl with
    | none => []
    | some base =>
      let loc := base + 8 * ((cva >>> levelShift l) % 2 ^ levelBits l)
      let w := match keep.find? (fun k => k.1 == loc / 128) with
        | some (_, d) => le d (loc % 128) 8
        | none => leNat (s.rd loc 8)
      loc / 128 :: (if !bitAt w 0 || bitAt w 5 then [] else match l with
        | 0 => []
        | l' + 1 => pathFrom s keep cva l' (bits w 59 8 * 256))

/-- The lines that the walk of a page reads. -/
def walkPath (s : Body) (keep : List (Nat × List Byte)) (pid cva : Nat) : List Nat :=
  if !s.on R.XLT_PART_ROOT.V 0 pid then [] else pathFrom s keep cva 4 (s.get R.XLT_PART_ROOT.ROOT 0 pid * 4096)

/-- A cached translation of the CVA (R111). -/
def tlbFind (s : Body) (pid cva : Nat) : Option TlbEntry :=
  s.xlt.tlb.find? (fun e => e.pid == pid && e.page == cva >>> pageLog e.size)

/-- Marks an entry used now, for least recently used. -/
def tlbTouch (s : Body) (e : TlbEntry) : Body :=
  { s with xlt := { s.xlt with
      clock := s.xlt.clock + 1,
      tlb := s.xlt.tlb.map (fun t => if t = e then { e with used := s.xlt.clock } else t) } }

/-- The entry with the least `used`. -/
def lruTlb : List TlbEntry → Option TlbEntry
  | [] => none
  | e :: t => match lruTlb t with
    | none => some e
    | some f => if f.used < e.used then some f else some e

/-- Loads a leaf into its partition's share of the cache, least recently used first out; a CLEAT pins it while fewer
than half the share are pinned, and a pinned entry of the same page stays as it is (R111, R112). -/
def tlbInsert (s : Body) (pid cva : Nat) (l : Leaf) : Body :=
  let share := match partDef s pid with | some p => p.xltShare * 64 | none => 0
  let own := s.xlt.tlb.filter (fun e => e.pid == pid)
  let pin := l.cleat && decide ((own.filter (·.pinned)).length * 2 < share)
  let e : TlbEntry := {
    pid := pid, page := cva >>> pageLog l.size, size := l.size, sga := l.sga, perm := l.perm,
    pinned := pin, used := s.xlt.clock }
  let rest := s.xlt.tlb.filter (fun t => !(t.pid == pid && t.size == e.size && t.page == e.page))
  let held := (rest.filter (fun t => t.pid == pid)).length
  if share = 0 ∨ own.any (fun t => t.size == e.size && t.page == e.page && t.pinned) then s
  else if held < share then
    { s with xlt := { s.xlt with tlb := rest ++ [e], clock := s.xlt.clock + 1 } }
  else match lruTlb (rest.filter (fun t => t.pid == pid && !t.pinned)) with
    | none => s
    | some v => { s with xlt := { s.xlt with
      tlb := rest.filter (fun t => t != v) ++ [e],
      clock := s.xlt.clock + 1 } }

/-- Records a fault (R115): SRC 0 client request (ID the CID), 1 engine step (ID the core). -/
def xltFault (s : Body) (e : XErr) (src pid id addr : Nat) : Body :=
  let s := s.set R.XLT_FAULT_LOG.STATUS e.status
  let s := s.set R.XLT_FAULT_LOG.CAUSE e.cause
  let s := s.set R.XLT_FAULT_LOG.SRC src
  let s := s.set R.XLT_FAULT_LOG.LEVEL e.level
  let s := s.set R.XLT_FAULT_LOG.PID pid
  let s := s.set R.XLT_FAULT_LOG.ID id
  let s := s.set R.XLT_FAULT_ADDR.ADDR addr
  (s.set R.XLT_FAULT_KNOT.KNOT s.now).count R.XLT_FAULTS.COUNT

/-- The leaf bits that an access needs (R520): R 1, W 2, A 4, E 8. -/
def leafNeed (op : Nat) : Nat :=
  if op = 0x01 ∨ op = 0x02 ∨ op = 0x04 then 1
  else if op = 0x03 then 3
  else if op = 0x08 ∨ op = 0x09 ∨ op = 0x0A then 2
  else if op = 0x0B then 0
  else if op = 0x10 ∨ op = 0x11 then 4
  else if 0x20 ≤ op ∧ op ≤ 0x28 then 4
  else if op = 0x40 then 3
  else 0

/-- The extent of a composition that holds a CVA. -/
def extentOf (c : Compo) (cva : Nat) : Option Extent :=
  c.exts.find? (fun e => decide (e.base ≤ cva) && decide (cva < e.base + e.len))

/-- The hitch of a pair, unless FREE (R376). -/
def hitchOf (s : Body) (cid pid : Nat) : Option Hitch :=
  s.prt.hitches.find? (fun h => h.cid == cid && h.pid == pid)

def grantOf (s : Body) (cid pid ext : Nat) : Option Grant :=
  s.prt.grants.find? (fun g => g.cid == cid && g.pid == pid && g.ext == ext)

/-- The CID is a peer Helak's, by the image's PEER table (R80). -/
def peerOfCid (s : Body) (cid : Nat) : Option PeerDef := s.img.peers.find? (fun p => p.cid == cid)

/-- Step 9 of R115 for a client request (R381, R387). -/
def extentCheck (s : Body) (grace space : Bool) (cid pid cva need : Nat) : Option XErr :=
  let revoking := match hitchOf s cid pid with | some h => h.state == 2 | none => false
  if revoking then some { status := stREVOKED, sub := 0, cause := 0xB }
  else if space then none
  else
    let c := if grace then (s.part pid).prev else (s.part pid).cur
    match extentOf c cva with
    | none => some { status := stPERMISSION, sub := 4, cause := 0xB }
    | some e =>
      let fenced := e.fenced || (extentOf (s.part pid).cur cva).any (·.fenced)
      match grantOf s cid pid e.idx with
      | some g =>
        if fenced || g.fenced then some { status := stREVOKED, sub := 0, cause := 0xB }
        else if need &&& g.rights &&& e.rights = need then none
        else some { status := stPERMISSION, sub := 4, cause := 0xB }
      | none =>
        if fenced then some { status := stREVOKED, sub := 0, cause := 0xB }
        else if (peerOfCid s cid).isSome && need &&& e.rights == need then none
        else some { status := stPERMISSION, sub := 4, cause := 0xB }

/-- Region rules of step 8: companions (R365), coded regions (R220) and SWAP regions (R346) for a client opcode of
length `n`. -/
def regionRule (s : Body) (r : Region) (op cid addr n : Nat) (space : Bool) : Bool :=
  if isCompanion s r then
    -- a companion takes peer STOREs of group members and peer LOADs only (R365)
    match peerOfCid s cid with
    | some p => op == 0x01 || (op == 0x08 && space && addr % 128 == 0 && s.img.groups.any (fun g => g.members.contains p.hid))
    | none => false
  else if r.coded then op == 0x10 || op == 0x11
  else if op = 0x10 ∨ op = 0x11 then false
  else match protOf s r.id with
    | some p => if p.swap then (op == 0x01 || op == 0x08) && n == 65536 && addr % 65536 == 0 else true
    | none => true

/-- Steps 7 and 8 of R115 for one page of a request, at its SGA; `perm` is none for an SGA request. -/
def pageCheck (s : Body) (op cid addr n need : Nat) (space : Bool) (perm : Option Nat) (sga : Nat) : Option XErr :=
  match regionOfSga s sga with
  | none => some (xFault 5)
  | some r =>
    let ok := match perm with | some p => need &&& p == need | none => true
    if !ok || !regionRule s r op cid addr n space then some xPerm else none

/-- Cuts `n` bytes from address `a` at multiples of 64 KiB, at most 17 pieces: (address, length). -/
def cutPages (a n : Nat) : Nat → List (Nat × Nat)
  | 0 => []
  | k + 1 =>
    if n = 0 then []
    else
      let m := min n (65536 - a % 65536)
      (a, m) :: cutPages (a + m) (n - m) k

/-- What a translation attempt answers. -/
inductive XRes where
  | ok (segs : List (Nat × Nat × Nat)) (s : Body)
  | miss (cva : Nat) (s : Body)
  | err (e : XErr) (addr : Nat) (s : Body)

/-- Check 10 over a piece that may cross granules: every 4 KiB of it lies in this home. -/
def sameHome (s : Body) (grace : Bool) (r : Region) (sga n : Nat) : Bool :=
  (List.range ((n + 4095) / 4096)).all (fun i => (homeLocal s grace r (sga + i * 4096)).1 == s.hid)

/-- Check 10 of R82 on a translated piece: its local offset where it lies in this home slice under the map in force (R121,
R123). -/
def homeOf (s : Body) (grace : Bool) (sga n : Nat) : Option Nat :=
  match regionOfSga s sga with
  | none => none
  | some r => if sameHome s grace r sga n then some (homeLocal s grace r sga).2 else none

/-- Check 9 of a client request: page by page, in ascending order, the steps of R115; the first page that fails decides
(R116). A page that was walked for the request is no translation served from the cache. The pieces: address, SGA, length. -/
def xltPages (s : Body) (grace space : Bool) (op cid pid addr n need : Nat) (walked : List Nat) : List (Nat × Nat) → XRes
  | [] => .ok [] s
  | (a, m) :: t =>
    let word := if space then a + 2 ^ 62 else a
    let rest := fun (sga : Nat) (s : Body) (perm : Option Nat) =>
      match pageCheck s op cid addr n need space perm sga with
      | some e => .err e word s
      | none =>
        match extentCheck s grace space cid pid a need with
        | some e => .err e word s
        | none => match xltPages s grace space op cid pid addr n need walked t with
          | .ok l s => .ok ((word, sga, m) :: l) s
          | r => r
    if !space && a / 2 ^ 57 != 0 then .err (xFault 1) word s
    else if space then rest a s none
    else match tlbFind s pid a with
      | some e =>
        let s := tlbTouch s e
        let s := if walked.contains (a >>> 16) then s else s.count R.XLT_HIT.COUNT
        rest (e.sga + a % 2 ^ pageLog e.size) s (some e.perm)
      | none => if !s.on R.XLT_PART_ROOT.V 0 pid then .err (xFault 4) word s else .miss a s

/-- The refusal of an access to a region whose key owner holds no at-rest key (R457); it is no translation fault. -/
def xKeyless : XErr := { status := stPERMISSION, sub := 2, cause := 0 }

/-- Checks 9 and 10 of a client request: once every page is translated, every piece must lie in this home slice (R82, R116), in
a region whose key is held (R457). The pieces: local offset, SGA, length. -/
def xltRequest (s : Body) (grace space : Bool) (op cid pid addr n need : Nat) (walked : List Nat)
    (pages : List (Nat × Nat)) : XRes :=
  match xltPages s grace space op cid pid addr n need walked pages with
  | .ok l s =>
    match l.find? (fun g => (homeOf s grace g.2.1 g.2.2).isNone) with
    | some (word, _, _) => .err { status := stSTALEMAP, sub := 2, cause := 0 } word s
    | none => match l.find? (fun g => (regionOfSga s g.2.1).any (fun r => (restKey s r).isNone)) with
      | some (word, _, _) => .err xKeyless word s
      | none => .ok (l.map (fun g => ((homeOf s grace g.2.1 g.2.2).getD 0, g.2.1, g.2.2))) s
  | r => r

/-- A fault on a page that was walked for the request tells the level at which the walk stopped: that of the leaf. -/
def afterWalk (s : Body) (walked : List Nat) (pid word : Nat) (e : XErr) : XErr :=
  if e.level = 7 ∧ word < 2 ^ 57 ∧ walked.contains (word >>> 16) then
    match tlbFind s pid word with
    | some t => { e with level := t.size }
    | none => e
  else e

/-- Starts or joins the walk of a page (R113): misses of one partition on one page share a walk. `knot`, `issue` and `cid` are
the key of R84 of the request or step that missed. -/
def walkWant (s : Body) (pid cva knot issue cid : Nat) : Body :=
  let page := cva >>> 16
  if s.xlt.walks.any (fun w => w.pid == pid && w.page == page) then s
  else
    let w : Walk := {
      pid := pid, page := page, running := false, started := 0, knot := knot, issue := issue, cid := cid }
    { s with xlt := { s.xlt with walks := s.xlt.walks ++ [w] } }.count R.XLT_MISS.COUNT

/-- The next partition in ascending PID after `p`, cyclically, among `ps`. -/
def nextPid (ps : List Nat) (p : Nat) : Option Nat :=
  match ps.filter (fun q => decide (p < q)) with
  | q :: t => some (t.foldl min q)
  | [] => match ps with
    | q :: t => some (t.foldl min q)
    | [] => none

/-- The oldest waiting walk of a partition: the first in the order of R84 of what missed (R113). -/
def oldestWalk (ws : List Walk) : Option Walk :=
  ws.foldl (fun a w => match a with
    | none => some w
    | some v => if w.knot < v.knot ∨ (w.knot = v.knot ∧ (w.issue < v.issue ∨ (w.issue = v.issue ∧ w.cid < v.cid)))
        then some w else some v) none

/-- Gives out free walkers, one at a time, to partitions in turn (R113). -/
def giveWalkers (s : Body) (turn : Nat) (first : Option Nat) : Nat → Body
  | 0 => { s with xlt := { s.xlt with turn := first.getD s.xlt.turn } }
  | k + 1 =>
    let held := fun p => (s.xlt.walks.filter (fun w => w.running && w.pid == p)).length
    let maxOf := fun p => match partDef s p with | some d => d.walkMax | none => 1
    let ps := ((s.xlt.walks.filter (fun w => !w.running)).map (·.pid)).filter (fun p => decide (held p < maxOf p))
    if 32 ≤ (s.xlt.walks.filter (·.running)).length then
      { s with xlt := { s.xlt with turn := first.getD s.xlt.turn } }
    else match nextPid ps turn with
      | none => { s with xlt := { s.xlt with turn := first.getD s.xlt.turn } }
      | some p =>
        match oldestWalk (s.xlt.walks.filter (fun w => !w.running && w.pid == p)) with
        | none => s
        | some w =>
          let s := { s with xlt := { s.xlt with
            walks := s.xlt.walks.map (fun v => if v = w then { w with running := true, started := s.now } else v) } }
          giveWalkers s p (some (first.getD p)) k

/-- WALK_START (R113), and the knots that misses wait for a walker. -/
def walkBoundary (s : Body) : Body :=
  let s := giveWalkers s s.xlt.turn none 32
  let n := (s.xlt.walks.filter (fun w => !w.running)).length
  if n = 0 then s else s.count R.XLT_WALK_WAIT.COUNT n

/-! ### Invalidation (R117 to R119) -/

/-- Whether a cached page or a walked page of a partition lies in the scope of an invalidation. -/
def InvScope.covers (i : InvScope) (pid lo hi : Nat) : Bool :=
  if i.scope = 3 then true
  else if i.pid ≠ pid then false
  else if i.scope = 2 then true
  else
    let n := if i.scope = 0 then 1 else i.count
    let a := i.cva / 2 ^ pageLog i.size * 2 ^ pageLog i.size
    decide (lo < a + n * 2 ^ pageLog i.size) && decide (a < hi)

/-- INVALIDATION_EFFECT (R118): removes every cached translation in scope, pinned or not, and restarts its walks. -/
def invEffect (s : Body) (i : InvScope) : Body :=
  { s with xlt := { s.xlt with
      tlb := s.xlt.tlb.filter (fun e =>
        !i.covers e.pid (e.page * 2 ^ pageLog e.size) ((e.page + 1) * 2 ^ pageLog e.size)),
      walks := s.xlt.walks.map (fun w =>
        if i.covers w.pid (w.page * 65536) ((w.page + 1) * 65536) then { w with started := s.now, keep := [], res := none } else w) } }

/-- A malformed invalidation (R117): SIZE 0b11 for a page or run, or a run of no pages. -/
def InvScope.malformed (i : InvScope) : Bool :=
  (i.scope == 0 && i.size == 3) || (i.scope == 1 && (i.size == 3 || i.count == 0))

/-- A write of XLT_INV_CMD in knot K: the invalidation takes effect at K + 1 (R117, R118). -/
def invStart (s : Body) (i : InvScope) : Body :=
  if s.on R.XLT_INV_STATUS.BUSY then s.set R.XLT_INV_STATUS.OVERRUN 1
  else if i.malformed then s.set R.XLT_INV_STATUS.BADCMD 1
  else { s with xlt := { s.xlt with inv := some (i, s.now + 1) } }.set R.XLT_INV_STATUS.BUSY 1

/-- At a boundary: the pending management invalidation takes effect (R118). -/
def invBoundary (s : Body) : Body :=
  match s.xlt.inv with
  | some (i, b) => if b = s.now then invEffect s i else s
  | none => s

/-- Whether an opcode is an atomic (R75). -/
def isAtomic (op : Nat) : Bool := decide (0x20 ≤ op) && decide (op ≤ 0x28)

/-- Size in bytes of an atomic's element (R76). A TYPE of 16 or more stands for the element format TYPE − 16 of an
embedding table's tier (R281); the encodings of R76 have no such TYPE. -/
def atomSize (ty : Nat) : Nat :=
  if 16 ≤ ty then (if ty = 30 then 64 else elemBits (ty - 16) / 8) else if ty = 1 ∨ ty = 3 then 8 else if ty = 5 then 2 else 4

/-- TYPE of an atomic (R76). -/
def atomTy (m : ReqMsg) : Nat := m.arg % 16

/-- Bytes of the store that a request names. -/
def reqLen (op : Nat) (m : ReqMsg) : Nat :=
  if op = opLOAD ∨ op = opSTORE then lenBytes m.len
  else if op = opCODEDLOAD ∨ op = opCODEDSTORE then 65536
  else if op = opFADDVEC then lenBytes m.len
  else if isAtomic op then atomSize (atomTy m)
  else 128

/-- The address words and lengths of `n` actions of a SEIZE_PREPARE, the first at offset `o` of its payload (R327). -/
def prepRanges (pay : List Byte) : Nat → Nat → List (Nat × Nat)
  | 0, _ => []
  | n + 1, o => let size := le pay (o + 9) 1; (le pay o 8, size) :: prepRanges pay n (o + 16 + size)

/-- The address words and lengths that a request touches (R75, R326). -/
def reqRanges (r : Req) : List (Nat × Nat) :=
  if r.op = opDOORBELL ∨ opSEIZEPREPARE < r.op then []
  else if r.op = opSEIZEPREPARE then
    (if le r.m.payload 0 1 = 0 then prepRanges r.m.payload (le r.m.payload 4 2) 64 else [])
  else if r.m.space then [] else [(r.m.addr, reqLen r.op r.m)]

/-- An access of a partition lies in the scope of an invalidation. -/
def InvScope.touches (i : InvScope) (pid : Nat) (g : Nat × Nat) : Bool :=
  decide (g.1 < 2 ^ 57) && i.covers pid g.1 (g.1 + g.2)

/-- A request or a prepare in the scope of an invalidation, admitted before B and not yet answered (R118). -/
def invHolds (s : Body) (i : InvScope) (b : Nat) : Bool :=
  s.olp.reqs.any (fun r => r.stage != .waiting && decide (r.admitted < b) && (reqRanges r).any (i.touches r.m.pid)) ||
  s.txn.recs.any (fun t => (t.preparing || t.writing) && decide (t.preparedAt < b) &&
    t.actions.any (fun a => i.touches t.pid (a.addr, a.data.length)))

/-- INVALIDATION_COMPLETE (R118): the first boundary by which every request in scope admitted before B has been served. -/
def invComplete (s : Body) : Body :=
  match s.xlt.inv with
  | some (i, b) =>
    if b ≤ s.now ∧ invHolds s i b = false then
      let s := { s with xlt := { s.xlt with inv := none } }
      ((s.set R.XLT_INV_STATUS.BUSY 0).set R.XLT_INV_STATUS.DONE_KNOT s.now).count R.XLT_INV.COUNT
    else s
  | none => s

/-- The invalidations of ROOT writes that have completed are counted (R118, R119). -/
def rootsComplete (s : Body) : Body :=
  let held := fun (p : Nat × Nat) => invHolds s { scope := 2, pid := p.1, size := 0, count := 0, cva := 0 } p.2
  let done := s.xlt.roots.filter (fun p => decide (p.2 ≤ s.now) && !held p)
  if done.isEmpty then s
  else { s with xlt := { s.xlt with roots := s.xlt.roots.filter (fun p => !done.contains p) } }.count R.XLT_INV.COUNT done.length

/-- A write of ROOT takes effect (R109, R119): ignored outside a PIN or NEAR region of this home; otherwise it sets V and
acts as a partition-scope invalidation. -/
def rootEffect (s : Body) (pid root : Nat) : Body :=
  match tableLoc s (root * 4096) with
  | none => s
  | some _ =>
    let s := (s.set R.XLT_PART_ROOT.ROOT root 0 pid).set R.XLT_PART_ROOT.V 1 0 pid
    let s := { s with xlt := { s.xlt with roots := s.xlt.roots ++ [(pid, s.now)] } }
    invEffect s { scope := 2, pid := pid, size := 0, count := 0, cva := 0 }

/-- A window of a partition as conversions use it (R106). -/
def winOf (s : Body) (pid w : Nat) : Win := AMap.get {} s.xlt.wins (pid * 64 + w)

/-- XLT_WIN_BASE is written (R106): the base, and the size that is staged now, are in force from the next boundary. -/
def rebaseArm (pid win : Nat) (v wr : Bool) (base : Nat) (s : Body) : Body :=
  let s := s.set R.XLT_WIN_BASE.V (b2n v) win pid
  let s := s.set R.XLT_WIN_BASE.WR (b2n wr) win pid
  let s := s.set R.XLT_WIN_BASE.BASE base win pid
  s.arm (.rebase pid win { v := v, wr := wr, base := base, size := s.get R.XLT_WIN_SIZE.SIZE win pid })

/-- A rebase takes effect (R106) and increments GEN. -/
def rebaseEffect (s : Body) (pid w : Nat) (win : Win) : Body :=
  { s with xlt := { s.xlt with wins := AMap.put {} s.xlt.wins (pid * 64 + w) win } }.set R.XLT_WIN_BASE.GEN
    (s.get R.XLT_WIN_BASE.GEN w pid + 1) w pid

/-- The size in effect of a window, in bytes (R106). -/
def winSize (s : Body) (pid w : Nat) : Nat := (winOf s pid w).size * 65536

/-- What an address word names (R103, R105), `off` bytes on: a CVA or an SGA. The null word is a fault (R103): operands that
allow it are looked at first. In an SGA word the zero bits of step 1 are tested before R104's refusal (DESIGN CHOICE, log entry
111). -/
def wordAddr (s : Body) (pid word off : Nat) (writes : Bool) : Except XErr (Bool × Nat) :=
  if bitAt word 63 then
    let w := bits word 62 57
    let f := bits word 56 0 + off
    let win := winOf s pid w
    if !win.v || decide (winSize s pid w ≤ f) then .error (xFault 6)
    else if writes && !win.wr then .error xPerm
    else .ok (false, win.base * 65536 + f)
  else if bitAt word 62 then
    if bits word 61 60 ≠ 0 then .error (xFault 1)
    else if !s.on R.XLT_PART_ROOT.SGA_OK 0 pid then .error { status := stPERMISSION, sub := 3, cause := 0xA }
    else .ok (true, bits word 59 0 + off)
  else if bits word 61 57 ≠ 0 then .error (xFault 1)
  else if word = 0 then .error (xFault 9)
  else .ok (false, bits word 56 0 + off)

/-! ### Access counters and hot rings (R124 to R127) -/

/-- An extent of the partition holds the whole SGA range: a plain region of the extent's REGION at this home (R127, R181, R220). -/
def ringPlaced (s : Body) (pid base n : Nat) : Bool :=
  match sgaLoc s base, sgaLoc s (base + n - 1) with
  | some (r, _), some (r', _) =>
    r.id == r'.id && !r.coded && (List.range ((n + 4095) / 4096)).all (fun i => (sgaLoc s (base + i * 4096)).isSome) &&
      (s.part pid).cur.exts.any (fun e => e.region == r.id)
  | _, _ => false

/-- Queues a unit for promotion (R349), ahead of the queue for a halyard (R382). -/
def promoteWant (s : Body) (unit : Nat) (ahead : Bool) : Body :=
  let busy := s.sto.queue.contains unit || s.sto.ahead.contains unit || s.sto.resident.any (fun r => r.unit == unit) ||
    s.sto.migrations.any (fun m => match m with | .promote u _ => u == unit | .writeback .. => false)
  if busy || !s.on R.STO_CTRL.MIG_EN then s
  else if ahead then { s with sto := { s.sto with ahead := s.sto.ahead ++ [unit] } }
  else { s with sto := { s.sto with queue := s.sto.queue ++ [unit] } }

/-- The knots of a decay interval (R125). -/
def decayKnots (s : Body) : Nat := 2 ^ min 28 (max 12 (s.get R.XLT_CTRL.DECAY_LOG))

/-- ACCESS_DECAY (R125): the units that the sweep visits at this knot's boundary are halved, once, before the increments of
the requests that the boundary admits. -/
def accessDecay (s : Body) : Body :=
  if s.xlt.decayed = s.now + 1 then s else
  let n := decayKnots s
  let th := s.get R.XLT_CTRL.HOT_THRESH
  let f := fun (e : Nat × Nat) =>
    if e.1 % n = s.now % n then
      let c := e.2 % 128 / 2
      (e.1, c + (if c < th / 2 then 0 else e.2 / 128 * 128))
    else e
  { s with xlt := { s.xlt with
      acc := (s.xlt.acc.map f).filter (fun e => e.2 != 0), decayed := s.now + 1 } }

/-- A write of XLT_PART_HOT (R127): EN stays 0 where the ring lies outside the partition's extents at this home. -/
def hotRingWrite (s : Body) (pid : Nat) (en : Bool) (ring sizeLog : Nat) : Body :=
  let s := (s.set R.XLT_PART_HOT.RING ring 0 pid).set R.XLT_PART_HOT.SIZE_LOG sizeLog 0 pid
  let ok := decide (12 ≤ sizeLog) && decide (sizeLog ≤ 24) && ringPlaced s pid (ring * 4096) (2 ^ sizeLog)
  s.set R.XLT_PART_HOT.EN (b2n (en && ok)) 0 pid

end Sys2Proof.Machine
end

