-- ==== Sys2Proof/Machine/Dir.lean ====
section
/-!
DEFINITION. The coherence directory (spec/06): entries and their ways, snoop rounds, what a round's end does to its
line, lost lines, sweeps.
-/

namespace Sys2Proof.Machine

/-- The entry of a line (R133, R135); none in state I. -/
def entryOf (s : Body) (line : Nat) : Option DirEntry := AMap.get none s.dir.entries line

/-- Sets or removes the entry of a line. -/
def setEntry (s : Body) (line : Nat) (e : Option DirEntry) : Body :=
  { s with dir := { s.dir with entries := AMap.put none s.dir.entries line e } }

/-- The set of a line (R133). -/
def setOf (line : Nat) : Nat := ((line % 2 ^ 22) ^^^ ((line / 2 ^ 22 % 2 ^ 16) <<< 6)) % 2 ^ 22

/-- The valid entries of a set. -/
def waysOf (s : Body) (set : Nat) : List DirEntry :=
  s.dir.entries.filterMap (fun e => if setOf e.1 = set then e.2 else none)

/-- The round in progress for a line: BUSY (R138). -/
def roundOn (s : Body) (line : Nat) : Option Round := s.dir.rounds.find? (fun r => r.line == line)

/-- The look-up of a line's set in the SRAM cache of 131,072 sets, least recently used first out (R133). -/
def dirTouch (s : Body) (line : Nat) : Body :=
  let set := setOf line
  let hit := s.dir.cached.contains set
  let s := { s with dir := { s.dir with cached := (set :: s.dir.cached.filter (fun x => x != set)).take 131072 } }
  s.count (if hit then R.DIR_CACHE_HIT.COUNT else R.DIR_CACHE_MISS.COUNT)

/-- The CID is fenced (R398, R399). -/
def cidFenced (s : Body) (cid : Nat) : Bool :=
  s.fences.any (fun f => (!f.isHid && f.id == cid) || (f.isHid && f.peerCid == cid))

/-- The boundary of the verdict on a CID. -/
def fenceKnot (s : Body) (cid : Nat) : Nat :=
  match s.fences.find? (fun f => (!f.isHid && f.id == cid) || (f.isHid && f.peerCid == cid)) with
  | some f => f.knot
  | none => s.now

/-- A line enters L (R142, R151): cause 1 VERDICT, 2 RESEND. -/
def loseLine (s : Body) (e : DirEntry) (cid knot cause : Nat) : Body :=
  let s := setEntry s e.line (some { e with st := .l, ptrs := [], lcid := cid, lknot := knot, reissue := none, ports := [] })
  let s := s.set R.DIR_LOST_LOG.CAUSE cause
  let s := s.set R.DIR_LOST_LOG.PID e.pid
  let s := s.set R.DIR_LOST_LOG.LCID cid
  let s := s.set R.DIR_LOST_LOG.LINE e.line
  (s.set R.DIR_LOST_KNOT.KNOT knot).count R.DIR_LOST.COUNT

/-- A line leaves L. -/
def clearLost (s : Body) (line : Nat) : Body := (setEntry s line none).count R.DIR_LOST_CLR.COUNT

/-- LOST_LINE_MARK (R151): an entry that names fenced clients is reclaimed before it is used. -/
def reclaim (s : Body) (line : Nat) : Body :=
  match entryOf s line with
  | none => s
  | some e =>
    match e.st with
    | .x =>
      match e.ptrs with
      | (c, _) :: _ => if cidFenced s c then loseLine s e c (fenceKnot s c) 1 else s
      | [] => s
    | .s =>
      let p := e.ptrs.filter (fun q => !cidFenced s q.1)
      if p = e.ptrs then s else setEntry s line (if p.isEmpty then none else some { e with ptrs := p })
    | _ => s

/-- The sharing set (R137): the CIDs hitched to the partition, less every fenced one. -/
def sharingSet (s : Body) (pid : Nat) : List Nat :=
  ((s.prt.hitches.filter (fun h => h.pid == pid)).map (·.cid)).filter (fun c => !cidFenced s c)

/-- The port on which a CID is reached: that of its latest request; failing that, its own port, or the lowest
switch-facing port (R140; log entry 9). -/
def portOf (s : Body) (cid : Nat) : Nat :=
  match AMap.get 0 s.olp.cidLink cid with
  | p + 1 => p
  | 0 =>
    match (List.range 32).find? (fun n => s.get R.LNK_STATUS.ROLE n == 1 && s.get R.LNK_PEER.PEER_ID n == cid) with
    | some n => n
    | none => ((List.range 32).find? (fun n => s.get R.LNK_STATUS.ROLE n == 2)).getD 0

/-- The snoop of a round: SNOOP_SHARE, and KEEP (R143). -/
def RoundFor.snoop : RoundFor → Bool × Bool
  | .request _ sh k => (sh, k)
  | .walk .. => (true, true)
  | .look => (true, true)
  | .engine _ _ k => (k, k)
  | .seize _ _ sh => (sh, false)
  | .reissue r => (r.share, r.keep)
  | .invalidate => (false, false)
  | .backinv => (false, false)
  | .drop _ => (false, false)

/-- The tags of the snoops outstanding on a port (R87). -/
def snoopTags (s : Body) (link : Nat) : List Nat :=
  s.dir.rounds.flatMap (fun r => (r.waiting.filter (fun o => o.link == link)).flatMap (fun o => o.tags.map (·.1)))

/-- The first tag from `t` on that is not in use (R87). -/
def freeTag (used : List Nat) : Nat → Nat → Nat
  | 0, t => t
  | k + 1, t => if used.contains t then freeTag used k ((t + 1) % 65536) else t

/-- Sends one snoop of a round and notes it (R139): a free tag of the port's space. With 4,096 snoops outstanding on the port
it is kept until one is answered (R87). -/
def snoopSend (s : Body) (r : Round) (e : DirEntry) (cid link : Nat) (resend : Bool) : SnoopOut × Body :=
  let used := snoopTags s link
  if 4096 ≤ used.length then ({ cid := cid, link := link, tags := [], sentAt := s.tick }, s)
  else
    let tag := freeTag used (used.length + 1) (AMap.get 0 s.olp.snoopTag link)
    let s := { s with olp := { s.olp with snoopTag := AMap.put 0 s.olp.snoopTag link ((tag + 1) % 65536) } }
    let (share, keep) := r.purpose.snoop
    let s := sendReq s (if share then opSNOOPSHARE else opSNOOPINV) {
      link := link, enc := sessOn s e.pid, tag := tag, pid := e.pid, hid := s.hid, cid := cid, len := 0, cls := r.cls, rsvd := 0,
      space := e.space, addr := e.raddr, mapgen := (s.part e.pid).gen, issue := 0, arg := b2n keep + 2 * b2n resend,
      check := 0, payload := [] } true
    ({ cid := cid, link := link, tags := [(tag, s.now % 2 ^ 24)], sentAt := s.tick }, s.count R.DIR_SNOOPS.COUNT)

/-- Sends the snoops of a round to its targets. -/
def snoopAll (s : Body) (r : Round) (e : DirEntry) (resend : Bool) : List (Nat × Nat) → List SnoopOut × Body
  | [] => ([], s)
  | (c, l) :: t =>
    let (o, s) := snoopSend s r e c l resend
    let (os, s) := snoopAll s r e resend t
    ({ o with tries := b2n resend } :: os, s)

/-- The port on which an entry's grant to a client went out (R140), where the entry still tells. -/
def grantPort (e : DirEntry) (c : Nat) : Option Nat :=
  ((e.ptrs ++ e.ports).find? (fun (p : Nat × Nat) => p.1 == c)).map (fun (p : Nat × Nat) => p.2)

/-- The targets of a round on an entry, `not` left out: the pointers, or the sharing set for SB, each on the port of its
grant (R137, R140, R143). -/
def roundTargets (s : Body) (e : DirEntry) (without : Option Nat) : List (Nat × Nat) :=
  let all := match e.st with
    | .sb => (sharingSet s e.pid).map (fun c => (c, (grantPort e c).getD (portOf s c)))
    | .l => []
    | _ => e.ptrs
  all.filter (fun p => some p.1 != without && !cidFenced s p.1)

/-- SNOOP_ROUND_LAUNCH (R138, R522): starts a round; its number, and the state. An entry marked REISSUE first has its old round
sent again, with RESEND = 1 (R154): what wanted the new one waits for that and asks again. -/
def startRound (s : Body) (e : DirEntry) (purpose : RoundFor) (without : Option Nat) (cls resend : Bool) : Nat × Body :=
  let id := s.dir.nextRound
  let (purpose, without, resend, only) := match e.reissue with
    | some r => (RoundFor.reissue r, r.without, true, r.only)
    | none => (purpose, without, resend, none)
  let s := if e.reissue.isSome then setEntry s e.line (some { e with reissue := none }) else s
  let r0 : Round := {
    id := id, line := e.line, purpose := purpose, waiting := [], cls := cls, without := without, started := s.now }
  let targets := (roundTargets s e without).filter (fun p => match only with | some c => p.1 == c | none => true)
  let (os, s) := snoopAll s r0 e resend targets
  let s := { s with dir := { s.dir with
    nextRound := id + 1, rounds := s.dir.rounds ++ [{ r0 with waiting := os }] } }
  let s := s.count R.DIR_ROUNDS.COUNT
  (id, if e.st = .sb then s.count R.DIR_BCAST.COUNT else s)

/-- STAGES of the hitch of a client to a partition (R376). -/
def stagesTo (s : Body) (cid pid : Nat) : Nat :=
  match s.prt.hitches.find? (fun h => h.cid == cid && h.pid == pid) with
  | some h => h.stages
  | none => 0

/-- The knots of R30 for a round: 2, and 2 for each switch stage of its farthest target (R141). -/
def roundKnots (s : Body) (rid : Nat) : Nat :=
  match s.dir.rounds.find? (fun r => r.id == rid) with
  | none => 2
  | some r =>
    let pid := match entryOf s r.line with | some e => e.pid | none => 0
    2 + 2 * (r.waiting.map (fun o => stagesTo s o.cid pid)).foldl max 0

/-- The entry of least recent use. -/
def lruEntry : List DirEntry → Option DirEntry
  | [] => none
  | e :: t => match lruEntry t with
    | none => some e
    | some f => if f.used < e.used then some f else some e

/-- Directory entries that a partition holds. -/
def dirHeld (s : Body) (pid : Nat) : Nat :=
  (s.dir.entries.filter (fun e => match e.2 with | some d => d.pid == pid | none => false)).length

/-- A partition's directory share, in entries (R149). -/
def dirShare (s : Body) (pid : Nat) : Nat := (match partDef s pid with | some p => p.dirShare | none => 0) * 65536

/-- The way that a new entry of a line takes (R149): true with no victim where a way is free. -/
def wayFor (s : Body) (line pid : Nat) : Bool × Option DirEntry :=
  let ws := waysOf s (setOf line)
  if ws.length < 16 then (true, none)
  else
    let can := ws.filter (fun e => e.st != .l && (roundOn s e.line).isNone)
    let own := can.filter (fun e => e.pid == pid)
    let above := can.filter (fun e => decide (dirShare s e.pid < dirHeld s e.pid))
    let first := if dirShare s pid ≤ dirHeld s pid then lruEntry own else none
    match first with
    | some e => (true, some e)
    | none => match lruEntry above with
      | some e => (true, some e)
      | none => match lruEntry own with
        | some e => (true, some e)
        | none => match lruEntry can with
          | some e => (true, some e)
          | none => (false, none)

/-- BACK_INVALIDATION (R150): takes the way of an entry, with CLASS 0 snoops (R139); no round where the way is free at once. -/
def backInvalidate (s : Body) (e : DirEntry) (by_ : Option Nat) : Option Nat × Body :=
  let s := s.count R.DIR_BACKINV.COUNT
  let s := match by_ with
    | some p => if p = e.pid then s else
        (if dirShare s e.pid < dirHeld s e.pid then s else s.count R.DIR_BACKINV_XP.COUNT)
    | none => s
  if (roundTargets s e none).isEmpty then (none, setEntry s e.line none)
  else let (id, s) := startRound s e .backinv none false false; (some id, s)

/-- Clears one client's pointer of a shared entry. -/
def dropPtr (s : Body) (e : DirEntry) (c : Nat) : Body :=
  let p := e.ptrs.filter (fun q => q.1 != c)
  setEntry s e.line (if p.isEmpty then none else some { e with ptrs := p })

/-- What a SNOOP_INV round leaves of an entry, the holder `w` left out (R143). -/
def leftHolder (s : Body) (e : DirEntry) (w : Option Nat) : Body :=
  match w with
  | none => setEntry s e.line none
  | some c =>
    let port := (grantPort e c).getD (portOf s c)
    setEntry s e.line (if e.st = .x then none else some { e with st := .s, ptrs := [(c, port)], ports := [] })

/-- What a round's end does to its entry (R143, R146, R151): the state that the entry is left in. -/
def roundEntry (s : Body) (r : Round) (e : DirEntry) : Body :=
  match r.lostDead with
  | some c => loseLine s e c (fenceKnot s c) 1
  | none =>
    if r.lostResend then loseLine s e (match e.ptrs with | (c, _) :: _ => c | [] => 0) s.now 2
    else
      let share := if e.st = .x then
          (if r.ownerKept then setEntry s e.line (some { e with st := .s }) else setEntry s e.line none)
        else s
      let kept := if e.st = .x ∧ !r.ownerKept then setEntry s e.line none else s
      match r.purpose with
      | .request _ true true => kept
      | .request _ true false => share
      | .walk .. => kept
      | .look => kept
      | .engine _ _ true => kept
      | .seize _ _ true => share
      | .drop c => if e.st = .x then setEntry s e.line none else dropPtr s e c
      | .reissue d =>
        if d.share then (if d.keep then kept else share)
        else match d.only with
          | some c => if e.st = .x then setEntry s e.line none else dropPtr s e c
          | none => leftHolder s e d.without
      | _ => setEntry s e.line none

/-- The data that a round brought goes home, unless the owner was asked to keep it (R143). A crossing WRITEBACK's data
always goes home (R146): it is written when it crosses. -/
def roundData (s : Body) (r : Round) : Body :=
  match r.data with
  | none => s
  | some d =>
    match r.purpose with
    | .request id true true =>
      { s with olp := { s.olp with
        reqs := s.olp.reqs.map (fun q => if q.id = id then { q with keep := q.keep ++ [(r.line, d)] } else q) } }
    | .walk pid page =>
      { s with xlt := { s.xlt with
        walks := s.xlt.walks.map (fun w =>
          if w.pid = pid ∧ w.page = page then { w with keep := w.keep ++ [(r.line, d)] } else w) } }
    | .engine c x true =>
      let core := AMap.get {} s.cores c
      let ctx := AMap.get {} core.ctxs x
      { s with cores := AMap.put {} s.cores c { core with
        ctxs := AMap.put {} core.ctxs x { ctx with remote := ctx.remote ++ [(r.line + 2 ^ 60, d)] } } }
    | .look => { s with xlt := { s.xlt with hotSeen := s.xlt.hotSeen.filter (fun e => e.1 != r.line) ++ [(r.line, d)] } }
    | .reissue q => if q.keep then s else s.wr (r.line * 128) d
    | _ => s.wr (r.line * 128) d

/-- A request, walk, context or seizing whose KEEP round met no dirty data need not ask again: the home copy is current
for it. -/
def roundClean (s : Body) (r : Round) : Body :=
  match r.data with
  | some _ => s
  | none => roundData s { r with data := some (s.rd (r.line * 128) 128) }

/-- A round whose last answer has come in (R138): its data, its entry, and those that waited for it. -/
def roundDone (s : Body) (r : Round) : Body :=
  let keeps := match r.purpose with
    | .request _ true true => true
    | .walk .. => true
    | .look => true
    | .engine _ _ true => true
    | _ => false
  let s := if keeps then (if r.ownerKept then roundClean (roundData s r) r else s) else roundData s r
  let s := match entryOf s r.line with
    | some e => roundEntry s r e
    | none => s
  { s with
    dir := { s.dir with rounds := s.dir.rounds.filter (fun q => q.id != r.id) },
    olp := { s.olp with reqs := s.olp.reqs.map (fun q =>
      if q.rounds.contains r.id then
        { q with rounds := q.rounds.filter (fun x => x != r.id),
                 stage := if q.stage = .snoop then .ready else q.stage }
      else q) },
    xlt := { s.xlt with walks := s.xlt.walks.map (fun w => { w with rounds := w.rounds.filter (fun x => x != r.id) }) },
    cores := s.cores.map (fun c => (c.1, { c.2 with
      ctxs := c.2.ctxs.map (fun x => (x.1, { x.2 with rounds := x.2.rounds.filter (fun y => y != r.id) })) })) }

/-- Replaces a round. -/
def putRound (s : Body) (r : Round) : Body :=
  { s with dir := { s.dir with rounds := s.dir.rounds.map (fun q => if q.id = r.id then r else q) } }

/-- Completes every round that has no answer outstanding (SNOOP_ROUND_COMPLETE). -/
def finishRounds (s : Body) : Body :=
  (s.dir.rounds.filter (fun r => r.waiting.isEmpty)).foldl roundDone s

/-- The target is the owner of the round's entry. -/
def isOwner (s : Body) (r : Round) (cid : Nat) : Bool :=
  match entryOf s r.line with
  | some e => e.st == .x && (match e.ptrs with | (c, _) :: _ => c == cid | [] => false)
  | none => false

/-- Takes a snoop as answered by its target (R142, R143): result 0 NOT_PRESENT, 1 CLEAN, 2 DIRTY. -/
def snoopAnswer (s : Body) (r : Round) (o : SnoopOut) (result : Nat) (data : Option (List Byte)) : Body :=
  let owner := isOwner s r o.cid
  let lost := owner && result == 0 && decide (0 < o.tries) && !r.purpose.snoop.2
  putRound s { r with
    waiting := r.waiting.filter (fun q => q != o),
    data := if result = 2 then data else r.data,
    ownerKept := r.ownerKept || (owner && result != 0),
    lostResend := r.lostResend || lost }

/-- From a verdict on, every snoop outstanding to the client counts as answered NOT_PRESENT, and an owner's line is lost
(R146, R151). -/
def snoopDead (s : Body) (cid : Nat) : Body :=
  let s := { s with dir := { s.dir with rounds := s.dir.rounds.map (fun r =>
    if r.waiting.any (fun o => o.cid == cid) then
      { r with waiting := r.waiting.filter (fun o => o.cid != cid),
               lostDead := if isOwner s r cid then some cid else r.lostDead }
    else r) } }
  s

/-- SNOOP_RESEND (R142): a target that has not answered for RESEND × 64 knots is sent the snoop again, with RESEND = 1;
resends that reach SNOOP_SUSP raise a suspicion (R395). -/
def snoopResend (s : Body) (rid cid : Nat) : Body :=
  match s.dir.rounds.find? (fun r => r.id == rid) with
  | none => s
  | some r =>
    match r.waiting.find? (fun o => o.cid == cid), entryOf s r.line with
    | some o, some e =>
      if s.tick < o.sentAt + max 1 (s.get R.DIR_CTRL.RESEND) * 64 ∨ o.tags.isEmpty = true then s
      else
        let (o', s) := snoopSend s r e cid o.link true
        let n : SnoopOut := { o with
          tags := o.tags ++ o'.tags, sentAt := s.tick, tries := o.tries + 1 }
        let s := putRound s { r with waiting := r.waiting.map (fun q => if q = o then n else q) }
        let s := s.count R.DIR_RESEND.COUNT
        let s := s.set R.DIR_SNOOP_LOG.TRIES (min 255 n.tries)
        let s := s.set R.DIR_SNOOP_LOG.LINK o.link
        let s := s.set R.DIR_SNOOP_LOG.PID e.pid
        let s := s.set R.DIR_SNOOP_LOG.CID cid
        if n.tries = s.get R.FLT_CTRL.SNOOP_SUSP then suspicion s 2 0x3F false cid false else s
    | _, _ => s

/-- The snoops that waited for a free tag go out as others have been answered (R87). -/
def snoopPump (s : Body) : Body :=
  (s.dir.rounds.filter (fun r => r.waiting.any (fun o => o.tags.isEmpty))).foldl (fun s r =>
    match entryOf s r.line with
    | none => s
    | some e =>
      let step := fun (a : List SnoopOut × Body) (o : SnoopOut) =>
        if o.tags.isEmpty then
          let (n, t) := snoopSend a.2 r e o.cid o.link (decide (0 < o.tries))
          (a.1 ++ [{ n with tries := o.tries }], t)
        else (a.1 ++ [o], a.2)
      let (w, s) := r.waiting.foldl step ([], s)
      putRound s { r with waiting := w }) s

/-- An engine or controller write of a line (R147): the entry is gone; where holders remain, a round in CLASS 0 is sent
first. -/
def invalidateLine (s : Body) (line : Nat) : Body :=
  let s := reclaim s line
  match entryOf s line with
  | none => s
  | some e =>
    if e.st = .l ∨ (roundOn s line).isSome then s
    else if (roundTargets s e none).isEmpty then setEntry s line none
    else (startRound s { e with reissue := none } .invalidate none false e.reissue.isSome).2

/-- A snoop round for one holder (R391): REVOKE_GRANT and UNHITCH. -/
def dropHolder (s : Body) (line cid : Nat) : Body :=
  match entryOf s line with
  | none => s
  | some e =>
    match e.ptrs.find? (fun p => p.1 == cid) with
    | none => s
    | some (_, l) =>
      if (roundOn s line).isSome ∨ e.st = .l then s
      else
        let id := s.dir.nextRound
        let r0 : Round := {
          id := id, line := line, purpose := .drop cid, waiting := [], cls := false, started := s.now }
        let (o, s) := snoopSend s r0 e cid l e.reissue.isSome
        { s with dir := { s.dir with nextRound := id + 1, rounds := s.dir.rounds ++ [{ r0 with waiting := [o] }] } }.count
          R.DIR_ROUNDS.COUNT

/-! ### Sweeps (R151, R153, R391, R401) -/

/-- Lines of a range of sets. -/
def linesInSets (s : Body) (lo hi : Nat) : List Nat :=
  (s.dir.entries.filter (fun e => decide (lo ≤ setOf e.1) && decide (setOf e.1 < hi))).map (·.1)

/-- Starts a reclaim sweep for what waits, if none is running (R151). -/
def sweepStart (s : Body) : Body :=
  if s.dir.sweep.isSome || (s.dir.nextCids.isEmpty && s.dir.nextAccept.isEmpty) then s
  else { s with dir := { s.dir with
      sweep := some { next := 0, cids := s.dir.nextCids, accept := s.dir.nextAccept, started := s.now },
      nextCids := [], nextAccept := [] } }

/-- The reclaim of one line by a sweep: entries of the fenced CIDs, and accepted L entries (R151, R153). -/
def sweepLine (w : Sweep) (s : Body) (line : Nat) : Body :=
  match entryOf s line with
  | none => s
  | some e =>
    if e.st = .l then (if w.accept.contains e.pid then clearLost s line else s)
    else if e.ptrs.any (fun p => w.cids.contains p.1) ∧ (e.st = .s ∨ (roundOn s line).isNone) then reclaim s line
    else s

/-- 64 sets of the reclaim sweep, in every knot (R151). -/
def sweepBoundary (s : Body) : Body :=
  match s.dir.sweep with
  | none => s
  | some w =>
    if 2 ^ 22 ≤ w.next ∨ !s.on R.MGT_READY.DIR then s
    else
      let s := (linesInSets s w.next (w.next + 64)).foldl (sweepLine w) s
      { s with dir := { s.dir with sweep := some { w with next := w.next + 64 } } }

/-- RECLAIM_SWEEP_END (R151): the sweep has visited every set; the next one starts at the same boundary. -/
def sweepEnd (s : Body) : Body :=
  match s.dir.sweep with
  | none => s
  | some w =>
    if w.next < 2 ^ 22 then s
    else
      let s := { s with
        dir := { s.dir with sweep := none },
        fences := s.fences.map (fun f => if f.knot ≤ w.started then { f with swept := true } else f) }
      sweepStart s

/-- BACKGROUND_EVICT (R150): keeps FREE_WAYS ways of a set free, least recently used entries first. -/
def bgEvict (s : Body) (set : Nat) : Body :=
  let s := ((waysOf s set).map (fun e => e.line)).foldl reclaim s
  let ws := (waysOf s set).filter (fun e => match roundOn s e.line with | some r => r.purpose != .backinv | none => true)
  if s.on R.DIR_CTRL.BG_EVICT && decide (16 < ws.length + s.get R.DIR_CTRL.FREE_WAYS) then
    match lruEntry (ws.filter (fun e => e.st != .l && (roundOn s e.line).isNone)) with
    | some e => (backInvalidate s e none).2
    | none => s
  else s

/-- ACCEPT_LINE takes effect (R153): a line not in L is left unchanged. -/
def acceptLineNow (s : Body) (line : Nat) : Body := if lineLost s line then clearLost s line else s

/-- ACCEPT_PID takes effect (R153). -/
def acceptPidNow (s : Body) (pid : Nat) : Body :=
  sweepStart { s with dir := { s.dir with nextAccept := s.dir.nextAccept ++ [pid] } }

/-- The words of an entry as DIR_LOOK shows them (R134). -/
def entryWords (s : Body) (e : DirEntry) : Nat × Nat × Nat × Nat :=
  let st := match e.st with | .s => 1 | .sb => 2 | .x => 3 | .l => 4
  let w0 := st * 2 ^ 60 + b2n e.space * 2 ^ 59 + b2n (roundOn s e.line).isSome * 2 ^ 58 + b2n e.reissue.isSome * 2 ^ 57 + e.raddr / 128
  let w1 := e.lcid * 2 ^ 51 + e.pid * 2 ^ 38 + e.line
  let ps := if e.st = .sb ∨ e.st = .l then [] else e.ptrs.map (fun p => 2 ^ 15 + p.1)
  let w2 := ps.getD 0 0 + ps.getD 1 0 * 2 ^ 16 + ps.getD 2 0 * 2 ^ 32 + ps.getD 3 0 * 2 ^ 48
  (w0, w1, w2, e.lknot % 2 ^ 48)

/-- DIR_LOOKUP (R134): the look-up that a write of DIR_LOOK_LINE asked for. -/
def dirLookNow (s : Body) (line : Nat) : Body :=
  let (hit, w) := match entryOf s line with
    | some e => (true, entryWords s e)
    | none => (false, (0, 0, 0, 0))
  let s := (s.set R.DIR_LOOK_LINE.DONE 1).set R.DIR_LOOK_LINE.HIT (b2n hit)
  let s := (s.set R.DIR_LOOK_W0.WORD w.1).set R.DIR_LOOK_W1.WORD w.2.1
  (s.set R.DIR_LOOK_W2.WORD w.2.2.1).set R.DIR_LOOK_W3.WORD w.2.2.2

end Sys2Proof.Machine
end

