-- ==== Sys2Proof/Machine/Knot.lean ====
section
/-!
DEFINITION. The knot timebase (spec/02): the log line, the discipline and its exchanges (R34 to R42, R519), the calendar
(R47) and timestamps (R43, R46).
-/

namespace Sys2Proof.Machine

/-- The codes of the discipline states (R36). -/
def discINIT : Nat := 0
def discMASTER : Nat := 1
def discACQUIRE : Nat := 2
def discLOCKED : Nat := 3
def discHOLDOVER : Nat := 4
def discUNLOCKED : Nat := 5

/-- The discipline state. -/
def disc (s : Body) : Nat := s.get R.KNT_STATUS.STATE

/-- MASTER, or LOCKED with PROV = 0: the condition of R42 and of the LOCKED bit of a HEARTBEAT (R79). -/
def discGood (s : Body) : Bool :=
  disc s == discMASTER || (disc s == discLOCKED && !s.on R.KNT_STATUS.PROV)

/-- The unlocked condition (R39): ACQUIRE after the first lock, or UNLOCKED. A former master that was never LOCKED has had
no first lock (DESIGN CHOICE, log entry 104). -/
def unlockedCond (s : Body) : Bool :=
  disc s == discUNLOCKED || (disc s == discACQUIRE && s.knot.lockedOnce)

/-- The regions that run again get this knot as their restart knot (R46). -/
def gapsRestart (s : Body) (ok : Nat → Bool) : Body :=
  { s with knot := { s.knot with gaps := s.knot.gaps.map (fun (g : Nat × Nat × Nat) =>
    if g.2.2 = 0 ∧ ok g.1 then (g.1, g.2.1, s.now) else g) } }

/-- MGT_READY.KNOT is set when the state is MASTER or LOCKED with PROV = 0; only reset clears it (R42). The knot at which
it is set is the restart knot of what the reset stopped (R473). -/
def readyKnot (s : Body) : Body :=
  if discGood s && !s.on R.MGT_READY.KNOT then
    gapsRestart (s.set R.MGT_READY.KNOT 1) (fun r => s.get R.KNT_RGN.STATE r != 2)
  else s

/-- KNT_EPOCH and CAL_TIME as one number of 1/65,536 s (R41, R47). -/
def epochUnits (s : Body) : Nat := s.get R.KNT_EPOCH.SEC * 65536 + s.get R.KNT_EPOCH.FRAC
def calUnits (s : Body) : Nat := s.get R.CAL_TIME.SEC * 65536 + s.get R.CAL_TIME.FRAC

/-- Sets the calendar to a number of 1/65,536 s. -/
def setCal (s : Body) (u : Nat) : Body := (s.set R.CAL_TIME.SEC (u / 65536)).set R.CAL_TIME.FRAC (u % 65536)

/-- The calendar time that the log line stands for, in 1/65,536 s: KNT_EPOCH + log line × 250 ns (R47). -/
def calOfLine (s : Body) : Nat := epochUnits s + s.now * 16384 / 1000000

/-- The provisional log line of R41, computed at a POWER or CHIP reset; PROV := 1. For a calendar earlier than KNT_EPOCH, where
the rule's quotient is negative, it is 0 (DESIGN CHOICE, log entry 103). -/
def provisional (s : Body) : Body :=
  let prov := if s.on R.CAL_STATUS.VALID then (calUnits s - epochUnits s) * 1000000 / 16384 else 0
  (s.set R.KNT_COUNT.COUNT prov).set R.KNT_STATUS.PROV 1

/-- A context's boundaries, where the log line has been set from `a` to `b`. -/
def Ctx.moved (v : Ctx) (a b : Nat) : Ctx :=
  { v with
    usable := v.usable + b - a, release := v.release + b - a, since := v.since + b - a, waitFrom := v.waitFrom + b - a,
    holdTo := v.holdTo + b - a, inv := v.inv.map (fun i => (i.1, i.2 + b - a)) }

/-- Sets the log line to `k` (R40, R41). The boundaries to which what is under way refers keep their distance (R10). -/
def setLine (s : Body) (k : Nat) : Body :=
  let a := s.now
  let s := s.set R.KNT_COUNT.COUNT k
  let m := fun (n : Nat) => n + s.now - a
  { s with
    xlt := { s.xlt with
      inv := s.xlt.inv.map (fun i => (i.1, m i.2)), roots := s.xlt.roots.map (fun p => (p.1, m p.2)),
      walks := s.xlt.walks.map (fun w => { w with started := m w.started, knot := m w.knot }) },
    obs := { s.obs with armed := s.obs.armed.map (fun w => (w.1, m w.2.1, w.2.2)) }
    cores := s.cores.map (fun c => (c.1, { c.2 with ctxs := c.2.ctxs.map (fun x => (x.1, x.2.moved a s.now)) })) }

/-- The log line takes the source's value at the first lock (R40); the follower's own times of the exchange, t2, t3 and
those of the requests not yet answered, move with it (R519). -/
def stepLine (s : Body) : Body :=
  let k := s.knot
  let s := (setLine s ((s.now : Int) - k.ahead).toNat).set R.KNT_STATUS.PROV 0
  let d := k.ahead * 250000
  { s with knot := { k with
      t2 := k.t2 - d, t3 := k.t3 - d, ahead := 0, asked := k.asked.map (fun (a : Nat × Int) => (a.1, a.2 - d)) } }

/-- Enters discipline state `st` with what the entry does (R36, R39, R40, R41, R42). The first lock after a reset
replaces a provisional log line by the source's value (R40). -/
def enterDisc (s : Body) (st : Nat) : Body :=
  let s := s.set R.KNT_STATUS.STATE st
  if st = discMASTER then
    let s := if s.on R.KNT_STATUS.PROV then
        (setLine s (max s.now (s.get R.KNT_SEED.SEED))).set R.KNT_STATUS.PROV 0
      else s
    readyKnot s
  else if st = discACQUIRE then
    { s with knot := { s.knot with run := 0, answered := false, asked := [] } }
  else if st = discLOCKED then
    let s := if s.on R.KNT_STATUS.PROV then stepLine s else s
    let s := { s with knot := { s.knot with lockedOnce := true } }
    readyKnot (s.set R.KNT_HOLD.HOLD_KNOTS 0)
  else if st = discHOLDOVER then
    (s.set R.KNT_HOLD.HOLD_KNOTS 0).set R.KNT_STATUS.HOLD_EV 1
  else if st = discUNLOCKED then s.set R.KNT_STATUS.UNLOCK_EV 1
  else s

/-- What ENABLE and ROLE do at a boundary (R36, R37): start, stop, become master, become follower. -/
def discBoundary (s : Body) : Body :=
  let en := s.on R.KNT_DISC.ENABLE
  let role := s.on R.KNT_DISC.ROLE
  if en && !s.knot.running then
    enterDisc { s with knot := { s.knot with running := true } } (if role then discMASTER else discACQUIRE)
  else if !en && s.knot.running then
    let s := { s with knot := { s.knot with running := false } }
    if disc s = discMASTER || disc s = discLOCKED then enterDisc s discHOLDOVER
    else if disc s = discACQUIRE then enterDisc s discUNLOCKED
    else s
  else if en && role && disc s != discMASTER then enterDisc s discMASTER
  else if en && !role && disc s == discMASTER then enterDisc s discACQUIRE
  else s

/-- 250 ns of the calendar on its own crystal (R47). A calendar that has stopped since it was set (VALID = 0) stands still
until it is set or steered (DESIGN CHOICE, log entry 105). -/
def calTick (s : Body) : Body :=
  if s.on R.CAL_STATUS.VALID then
    let r := s.knot.calRem + 16384
    setCal { s with knot := { s.knot with calRem := r % 1000000 } } (calUnits s + r / 1000000)
  else s

/-- One knot passes: the log line and the count of boundaries, HOLD_KNOTS in HOLDOVER (saturating) and the calendar (R20, R36, R47). -/
def tickKnot (s : Body) : Body :=
  let s := { s.set R.KNT_COUNT.COUNT (s.now + 1) with tick := s.tick + 1 }
  let s := if disc s = discHOLDOVER then s.sat R.KNT_HOLD.HOLD_KNOTS 1 else s
  if disc s = discMASTER || disc s = discLOCKED then
    (setCal s (calOfLine s)).set R.CAL_STATUS.STEERED 1
  else calTick (s.set R.CAL_STATUS.STEERED 0)

/-- The 12 bytes of a timestamp block (R43). While MGT_READY.KNOT is clear the controller writes no timestamp (R42): where an
answer or an entry has a place for one, that place then holds a free value (log entry 113). -/
def stampBlk (s : Body) (region : Nat) (gap : Bool) : List Byte × Body :=
  let (off, s) := s.free 8
  if s.on R.MGT_READY.KNOT then
    let stretch := s.get R.KNT_RGN.STATE region == 1
    let flags := b2n gap + 2 * b2n (unlockedCond s) + 4 * b2n (disc s == discHOLDOVER) + 8 * b2n stretch
    (leBytes 8 s.now ++ leBytes 1 off ++ leBytes 1 flags ++ leBytes 1 region ++ leBytes 1 0, s)
  else
    let (line, s) := s.free 64
    let (rest, s) := s.free 32
    (leBytes 8 line ++ leBytes 4 rest, s)

/-- A timestamp block for a record of region `region`, with the gap extension of R46 where it is the region's first record
after a stop. The gap stays until a record with it has been written (`gapWritten`). -/
def stamp (s : Body) (region : Nat) : List Byte × Body :=
  let gap := if s.on R.MGT_READY.KNOT then s.knot.gaps.find? (fun g => g.1 == region) else none
  let (blk, s) := stampBlk s region gap.isSome
  match gap with
  | none => (blk, s)
  | some (_, a, b) => (blk ++ leBytes 8 a ++ leBytes 8 b, s)

/-- A record with the timestamp `time` of `stamp` has been written: its region's gap is told (R46). -/
def gapWritten (s : Body) (time : List Byte) : Body :=
  if bitAt (le time 9 1) 0 then
    { s with knot := { s.knot with gaps := s.knot.gaps.filter (fun g => g.1 != le time 10 1) } }
  else s

/-- Discards a KNOT_SYNC (R35). -/
def syncReject (s : Body) : Body := s.set R.KNT_STATUS.SYNC_REJ 1

/-- A follower's acceptance test for KIND 0x00 and 0x02 (R35): the port and the master, while discipline runs (R37). -/
def syncAccepts (s : Body) (m : SyncMsg) : Bool :=
  s.knot.running && disc s != discMASTER && disc s != discINIT &&
  (m.link == s.get R.KNT_DISC.SRC_PORT || m.link == s.get R.KNT_DISC.ALT_PORT) &&
  m.masterHid == s.get R.KNT_DISC.MASTER_HID

/-- The time, in ps on the own log line, at which a message was taken in (R519). -/
def takenPs (s : Body) (m : SyncMsg) : Int := (s.now : Int) * 250000 + m.atPs

/-- Phase error in ps, and whole knots ahead: while the log line is provisional the whole knots by which it differs from
the source are no phase (R36, R40). -/
def splitPhase (prov : Bool) (e : Int) : Int × Int :=
  if prov then
    let k := (e + 125000) / 250000
    (e - k * 250000, k)
  else (e, 0)

/-- An exchange (R519): path delay d, phase error e, KNT_PHASE, the run of 256 (R36), the refusal of R40 and the lock. Half a
picosecond of d is rounded towards minus infinity (DESIGN CHOICE, log entry 102). -/
def exchange (s : Body) : Body :=
  let k := s.knot
  let d := ((k.t2 - k.t1 - k.c1) + (k.t4 - k.t3 - k.c3)) / 2
  let (e, ahead) := splitPhase (s.on R.KNT_STATUS.PROV) (k.t2 - k.t1 - k.c1 - d)
  let (fo, s) := s.free 32
  let s := (s.set R.KNT_PHASE.PHASE_ERR (ofSigned 32 e)).set R.KNT_PHASE.FREQ_OFS fo
  let run := if e.natAbs ≤ 2000 then k.run + 1 else 0
  let s := { s with knot := { k with run := run, ahead := ahead } }
  if !s.on R.KNT_STATUS.PROV && decide (4096 < e.natAbs) then
    (s.set R.KNT_STATUS.STEP_REFUSED 1).arm (.disc discACQUIRE)
  else if disc s = discACQUIRE ∧ 256 ≤ run then s.arm (.disc discLOCKED)
  else s

/-- No KNOT_SYNC has been accepted for 1,024 knots (R36). -/
def syncLost (s : Body) : Bool := decide (s.knot.lastSync + 1024 ≤ s.tick)

/-- An armed transition takes effect at the boundary (R36): LOCKED from ACQUIRE, HOLDOVER and UNLOCKED where their cause still
holds, ACQUIRE from any state of a follower. -/
def discNow (s : Body) (st : Nat) : Body :=
  if st = discLOCKED then (if disc s = discACQUIRE then enterDisc s discLOCKED else s)
  else if st = discHOLDOVER then (if disc s = discLOCKED ∧ syncLost s then enterDisc s discHOLDOVER else s)
  else if st = discUNLOCKED then
    (if disc s = discHOLDOVER ∧ 2 ^ 23 ≤ s.get R.KNT_HOLD.HOLD_KNOTS then enterDisc s discUNLOCKED else s)
  else if disc s = discMASTER ∨ disc s = discINIT then s
  else enterDisc s st

/-- An accepted KNOT_SYNC ends HOLDOVER and UNLOCKED at the next boundary (R36). -/
def syncHeard (s : Body) : Body :=
  let s := { s with knot := { s.knot with lastSync := s.tick } }
  if disc s = discHOLDOVER ∨ disc s = discUNLOCKED then s.arm (.disc discACQUIRE) else s

/-- SYNC (R35, R36, R519): a KNOT_SYNC of KIND 0x00 or of a reserved KIND. -/
def takeSync (s : Body) (m : SyncMsg) : Body :=
  if m.kind ≠ 0 ∨ syncAccepts s m = false then syncReject s
  else
    let s := { s with knot := { s.knot with
        t1 := (m.knot : Int) * 250000 + m.sendPs, c1 := toSigned 32 m.corrPs, t2 := takenPs s m, lastPort := m.link } }
    let s := syncHeard s
    if disc s = discHOLDOVER ∨ disc s = discUNLOCKED then s else if s.knot.answered then exchange s else s

/-- Link `n` is client-facing (R59). -/
def clientFacing (s : Body) (n : Nat) : Bool := s.get R.LNK_STATUS.ROLE n == 1

/-- DELAY_REQUEST (R519): answered by a master or a locked controller, in the knot after; otherwise discarded. -/
def takeDelayRequest (s : Body) (m : SyncMsg) : Body :=
  let master := disc s == discMASTER && s.hid == m.masterHid
  let locked := disc s == discLOCKED && !s.on R.KNT_STATUS.PROV && clientFacing s m.link &&
    m.masterHid == s.get R.KNT_DISC.MASTER_HID
  if s.knot.running && (master || locked) then
    { s with knot := { s.knot with
        answers := s.knot.answers ++ [(m.link, s.now, m.atPs, m.corrPs, m.masterHid, m.seq)] } }
  else syncReject s

/-- DELAY_ANSWER (R35, R36, R519): an accepted KNOT_SYNC that supplies t4 and c3 of the latest answered delay request; what
was sent before that request is no longer awaited. -/
def takeDelayAnswer (s : Body) (m : SyncMsg) : Body :=
  if syncAccepts s m then
    let s := syncHeard s
    match s.knot.asked.find? (fun a => a.1 == m.seq) with
    | none => s
    | some (_, t3) =>
      { s with knot := { s.knot with
          t3 := t3, t4 := (m.knot : Int) * 250000 + m.sendPs, c3 := toSigned 32 m.corrPs, answered := true,
          asked := s.knot.asked.filter (fun a => decide (t3 < a.2)) } }
  else syncReject s

/-- Sends a KNOT_SYNC (R34, R79). -/
def syncSend (s : Body) (link kind knot sendPs corrPs masterHid seq : Nat) : Body :=
  linkSend s opKNOTSYNC link 3 0 (syncPayload knot sendPs corrPs masterHid seq kind)

/-- The answers due are launched in the knot after their request (R519), unless discipline has been stopped (R37). -/
def sendDelayAnswers (s : Body) : Body :=
  let due := if s.knot.running then s.knot.answers else []
  let s' := due.foldl (fun s a => syncSend s a.1 2 a.2.1 a.2.2.1 a.2.2.2.1 a.2.2.2.2.1 a.2.2.2.2.2) s
  { s' with knot := { s'.knot with answers := [] } }

/-- A master or a locked Helak sends a sync on each port that carries traffic: a master on every fabric port, a locked
Helak on its client-facing ports (R34). -/
def syncPorts (s : Body) : List Nat :=
  (List.range 32).filter (fun n =>
    (s.get R.LNK_STATUS.STATE n == 6 || s.get R.LNK_STATUS.STATE n == 7) &&
    (disc s == discMASTER || clientFacing s n))

/-- SYNC_INTERVAL knots have passed since a message was sent; `last` is its tick plus 1 (R34, R35). -/
def syncDue (s : Body) (last : Nat) : Bool := last == 0 || decide (last + max 1 (s.get R.KNT_DISC.SYNC_INTERVAL) ≤ s.tick + 1)

/-- One sync on port `n`; SEQ counts messages (R34). -/
def sendSyncOn (sendPs mh : Nat) (s : Body) (n : Nat) : Body :=
  let s' := syncSend s n 0 s.now sendPs 0 mh s.knot.seq
  { s' with knot := { s'.knot with seq := (s.knot.seq + 1) % 65536 } }

/-- KNOT_SYNC_SEND (R34): by a master or a Helak that is LOCKED with PROV = 0, while discipline runs (R37). -/
def sendSync (s : Body) (sendPs : Nat) : Body :=
  if s.knot.running && discGood s && syncDue s s.knot.syncAt then
    let mh := if disc s = discMASTER then s.hid else s.get R.KNT_DISC.MASTER_HID
    let s' := (syncPorts s).foldl (sendSyncOn sendPs mh) s
    { s' with knot := { s'.knot with syncAt := s.tick + 1 } }
  else s

/-- DELAY_REQUEST_SEND (R35): a follower, on the port of its last accepted sync; before any, on link 0 (DESIGN CHOICE, log
entry 101). A SEQ that comes round again names the new request. -/
def sendDelayRequest (s : Body) (sendPs : Nat) : Body :=
  if s.knot.running && disc s != discMASTER && disc s != discINIT && syncDue s s.knot.askAt then
    let q := s.knot.seq
    let s := syncSend s s.knot.lastPort 1 s.now sendPs 0 (s.get R.KNT_DISC.MASTER_HID) q
    { s with knot := { s.knot with
        seq := (q + 1) % 65536, askAt := s.tick + 1,
        asked := s.knot.asked.filter (fun a => a.1 != q) ++ [(q, (s.now : Int) * 250000 + sendPs)] } }
  else s

/-- A KNOT_SYNC taken in `atPs` after the boundary, of whatever KIND (R34, R35, R71, R519). -/
def knotSync (m : ReqMsg) (atPs : Nat) (s : Body) : Body :=
  linkTake s opKNOTSYNC 3 m (fun s =>
    let x := syncOf m atPs
    if x.kind = 1 then takeDelayRequest s x
    else if x.kind = 2 then takeDelayAnswer s x
    else takeSync s x)

/-- SYNC_LOSS_TIMEOUT (R36): LOCKED with no accepted KNOT_SYNC for 1,024 knots: to HOLDOVER at the next boundary. -/
def syncLoss (s : Body) : Body := if disc s = discLOCKED ∧ syncLost s then s.arm (.disc discHOLDOVER) else s

/-- HOLDOVER_EXHAUSTED (R36, R37): HOLD_KNOTS reaches 2^23 at the next boundary. -/
def holdoverEnd (s : Body) : Body :=
  if disc s = discHOLDOVER ∧ 2 ^ 23 ≤ s.get R.KNT_HOLD.HOLD_KNOTS + 1 then s.arm (.disc discUNLOCKED) else s

/-- CAL_TIME_WRITE (R47): sets the calendar and VALID; ignored in MASTER and LOCKED. -/
def calWrite (s : Body) (sec frac : Nat) : Body :=
  if disc s = discMASTER ∨ disc s = discLOCKED then s
  else
    let s := (s.set R.CAL_TIME.SEC sec).set R.CAL_TIME.FRAC frac
    ({ s with knot := { s.knot with calRem := 0 } }.set R.CAL_STATUS.VALID 1).set R.MGT_READY.CAL 1

end Sys2Proof.Machine
end

