-- ==== Sys2Proof/Machine/Link.lean ====
section
/-!
DEFINITION. The optical ports (spec/03): training, lanes and degraded modes, the retry buffer and the heartbeat.
-/

namespace Sys2Proof.Machine

/-- The codes of the port states (R57). -/
def lsOFF : Nat := 0
def lsDARK : Nat := 1
def lsEQUALISE : Nat := 2
def lsALIGN : Nat := 3
def lsMEASURE : Nat := 4
def lsIDENTIFY : Nat := 5
def lsUP : Nat := 6
def lsDEGRADED : Nat := 7
def lsRETRAIN : Nat := 8
def lsFAULT : Nat := 9

/-- The number of data ports: 32 fabric, 16 store (R14). -/
def nLinks : Nat := 48

/-- The state of link `n` (R57). -/
def lstate (s : Body) (n : Nat) : Nat := s.get R.LNK_STATUS.STATE n

/-- The port carries traffic. -/
def linkUp (s : Body) (n : Nat) : Bool := lstate s n == lsUP || lstate s n == lsDEGRADED

/-- The segment limit L of R60 in ps: fabric 100 ns, store 50 ns. -/
def segLimit (n : Nat) : Nat := if n < 32 then 100000 else 50000

/-- ADD_KNOTS: the knots of R60 for the measured delay plus those of R55 for 4 or 5 wavelengths. -/
def addKnots (s : Body) (n : Nat) : Nat :=
  let e := s.get R.LNK_PEER.DELAY_PS n - segLimit n
  ceilDiv (2 * e) 250000 + (let l := s.get R.LNK_STATUS.LANES n; if l == 4 || l == 5 then 1 else 0)

/-- Sets LANE_MAP, LANES and ADD_KNOTS of a port; 4 or 5 wavelengths set DEGRADE_BUDGET (R55). -/
def setLanes (s : Body) (n map : Nat) : Body :=
  let l := popcount map 8
  let s := (s.set R.LNK_STATUS.LANE_MAP map n).set R.LNK_STATUS.LANES l n
  let s := s.set R.LNK_STATUS.ADD_KNOTS (addKnots s n) n
  if l == 4 || l == 5 then s.set R.LNK_EVENT.DEGRADE_BUDGET 1 n else s

/-- The position that store port `p` holds, if the position is not ABSENT (R360). -/
def posOfPort (s : Body) (p : Nat) : Option Nat :=
  (List.range 16).find? (fun q => s.get R.STO_SLED.PORT q == p && s.get R.STO_SLED.STATE q != 0)

/-- A position in service turns SUSPECT when its port is suspected or retrains (R360). -/
def sledSuspect (s : Body) (n : Nat) : Body :=
  if n < 32 then s
  else match posOfPort s (n - 32) with
    | some q =>
      if s.get R.STO_SLED.STATE q = 1 then
        { (s.set R.STO_SLED.STATE 2 q).set R.STO_EVENT.SLED_SUSPECT 1 with
          suspectAt := AMap.put 0 s.suspectAt q s.tick }
      else s
    | none => s

/-- A port that enters OFF or FAULT discards its retry buffer and counts the codewords in DROPPED; only RETRAIN keeps the
sequence numbers (R61). -/
def dropRetry (s : Body) (n : Nat) : Body :=
  let l := s.link n
  (s.sat R.LNK_REPLAY.DROPPED l.unacked.length n).setLink n
    { l with unacked := [], held := 0, resent := 0, txSeq := 0, rxSeq := 0, nak := false, drops := [] }

/-- Enters RETRAIN (R57): keeps the retry state; the position on a store port turns SUSPECT (R360). -/
def enterRetrain (s : Body) (n : Nat) : Body :=
  let s := ((s.set R.LNK_STATUS.STATE lsRETRAIN n).set R.LNK_EVENT.RETRAIN_EV 1 n)
  let l := s.link n
  sledSuspect (s.setLink n { l with phase := 0, drops := [], fewLight := if popcount l.light 8 < 4 then some s.tick else none }) n

/-- Enters FAULT with a cause (R58): lasers dark, the retry buffer discarded (R61). A store port's position fails with
cause PORT at the next boundary (R360). -/
def enterFault (s : Body) (n cause : Nat) : Body :=
  let s := dropRetry s n
  let s := ((s.set R.LNK_STATUS.STATE lsFAULT n).set R.LNK_STATUS.CAUSE cause n).set R.LNK_EVENT.FAULT_EV 1 n
  let s := setLanes s n 0
  let s := s.setLink n { s.link n with faultAt := s.tick, leftDark := none, light := 0, noAdmit := false }
  if n < 32 then s else s.arm (.portFailed (n - 32))

/-- Enters DARK: trains from the beginning (R57, R58). CAUSE keeps the last cause (DESIGN CHOICE, log entry 106). -/
def enterDark (s : Body) (n : Nat) : Body :=
  let s := s.set R.LNK_STATUS.STATE lsDARK n
  s.setLink n { s.link n with light := 0, leftDark := none, drops := [], fewLight := none, noAdmit := false }

/-- Enters OFF; the retry buffer is discarded (R61). -/
def enterOff (s : Body) (n : Nat) : Body :=
  setLanes ((dropRetry s n).set R.LNK_STATUS.STATE lsOFF n) n 0

/-- An image gives a port another role (R57, R58, R61): a port that carries traffic, or retrains, admits nothing more and
retrains under it; one in FAULT ROLE_MISMATCH leaves for DARK. -/
def roleChange (s : Body) (n role : Nat) : Body :=
  let s := s.set R.LNK_STATUS.ROLE role n
  if role = 0 then s
  else if linkUp s n then
    let s := enterRetrain s n
    s.setLink n { s.link n with noAdmit := true }
  else if lstate s n = lsRETRAIN then s.setLink n { s.link n with noAdmit := true }
  else if lstate s n = lsFAULT ∧ s.get R.LNK_STATUS.CAUSE n = 1 then enterDark s n
  else s

/-- A write of LNK_CTRL.RETRAIN, or a breach that calls for retraining, takes effect (R57, R58): UP or DEGRADED retrains, FAULT with a cause that allows it
leaves for DARK. -/
def retrainNow (s : Body) (n : Nat) : Body :=
  if linkUp s n then enterRetrain s n
  else if lstate s n = lsFAULT ∧ (s.get R.LNK_STATUS.CAUSE n = 1 ∨ s.get R.LNK_STATUS.CAUSE n = 2 ∨
      s.get R.LNK_STATUS.CAUSE n = 5) then enterDark s n
  else s

/-- Starts a drop of the wavelengths `mask` (R54): the exchange, or a retrain where fewer than 4 would remain. -/
def startDrop (s : Body) (n mask : Nat) : Body :=
  let map := s.get R.LNK_STATUS.LANE_MAP n
  let m := map &&& mask
  if linkUp s n && decide (m ≠ 0) then
    if popcount (map - m) 8 < 4 then s.arm (.linkRetrain n)
    else
      let l := s.link n
      s.setLink n { l with drops := l.drops ++ [{ k := s.tick, mask := m, mine := true, answered := false }] }
  else s

/-- LASER_SPARE_SWAP (R53): the wavelength moves to its spare at the next boundary (`spareNow`); one whose primary and
spare have both failed is dropped (R54). -/
def laserSwap (s : Body) (n lane : Nat) : Body :=
  if bitAt (s.get R.LNK_STATUS.SPARE_USED n) lane then
    startDrop (s.setLink n { s.link n with dead := setBit (s.link n).dead lane }) n (2 ^ lane)
  else s.arm (.laserSpare n lane)

/-- The move to the spare laser (R53). -/
def spareNow (s : Body) (n lane : Nat) : Body := (s.setB R.LNK_STATUS.SPARE_USED lane n).set R.LNK_EVENT.SPARE_SWAP 1 n

/-- LANE_SYMBOL_LIMIT (R54): more corrected symbol errors on a wavelength in the window than LANE_SYM_LIMIT; the drop
starts at the next boundary. -/
def laneLimit (s : Body) (n lane : Nat) : Body :=
  if s.get R.LNK_THRESH.LANE_SYM_LIMIT n < AMap.get 0 (s.link n).winSym lane then s.arm (.laneDrop n (2 ^ lane)) else s

/-- LOSS_OF_LIGHT (R54, R57): no light on wavelengths `mask` for a whole knot. Fewer than 4 with light: RETRAIN at the next
boundary, with no exchange. -/
def lossOfLight (s : Body) (n mask : Nat) : Body :=
  let l := s.link n
  let light := l.light - (l.light &&& mask)
  let few := if popcount light 8 < 4 then (match l.fewLight with | some k => some k | none => some s.tick) else none
  let s := s.setLink n { l with light := light, fewLight := few }
  if linkUp s n then (if popcount light 8 < 4 then s.arm (.linkRetrain n) else startDrop s n mask) else s

/-- LANE_CHG_RECEIVED (R54): the partner's LANE_CHG for the wavelengths `mask`, in a codeword taken in `atPs` after the
boundary and so launched D before (R60). It answers this side's own drops; a wavelength this side did not propose is a drop
of the partner, which this side answers. -/
def laneChg (s : Body) (n mask atPs : Nat) : Body :=
  if linkUp s n then
    let l := s.link n
    let k := (s.tick * 250000 + atPs - s.get R.LNK_PEER.DELAY_PS n) / 250000
    let own := l.drops.map (fun d => if d.mine then { d with answered := true } else d)
    let mineMask := (l.drops.filter (fun d => d.mine)).foldl (fun a d => a ||| d.mask) 0
    let m := (s.get R.LNK_STATUS.LANE_MAP n &&& mask) - (s.get R.LNK_STATUS.LANE_MAP n &&& mask &&& mineMask)
    if m = 0 then s.setLink n { l with drops := own }
    else s.setLink n { l with drops := own ++ [{ k := k, mask := m, mine := false, answered := true }] }
  else s

/-- The LANE_CHG bit of the codewords that a port launches now, with the wavelengths it stands for (R54): in knots K and K + 1
of its own drop, and until K + 4 of the partner's. -/
def laneBit (s : Body) (l : LinkSt) : Option Nat :=
  let ds := l.drops.filter (fun d => if d.mine then decide (s.tick ≤ d.k + 1) else decide (s.tick < d.k + 4))
  if ds.isEmpty then none else some (ds.foldl (fun a d => a ||| d.mask) 0)

/-- LANE_CHANGE_EFFECT (R54, R55): at K + 4 the wavelength set changes, or the port retrains where no answer came or
fewer than 4 wavelengths would remain. -/
def laneEffect (s : Body) (n : Nat) : Body :=
  let l := s.link n
  let due := l.drops.filter (fun d => decide (d.k + 4 ≤ s.tick))
  if due.isEmpty || !linkUp s n then s
  else if due.any (fun d => d.mine && !d.answered) then enterRetrain s n
  else
    let mask := due.foldl (fun a d => a ||| d.mask) 0
    let map := s.get R.LNK_STATUS.LANE_MAP n
    let map' := map - (map &&& mask)
    if popcount map' 8 < 4 then enterRetrain s n
    else
      let s := s.setLink n { l with drops := l.drops.filter (fun d => decide (s.tick < d.k + 4)) }
      (setLanes ((s.set R.LNK_EVENT.LANE_DROP 1 n).set R.LNK_STATUS.STATE lsDEGRADED n) n map')

/-- ERROR_WINDOW_END (R54): after 2^20 received codewords every per-window count starts again. -/
def windowEnd (s : Body) (n : Nat) : Body :=
  let l := s.link n
  if 2 ^ 20 ≤ l.winCw then s.setLink n { l with winCw := 0, winSym := [], winUncorr := 0 } else s

/-- UNCORR_LIMIT (R54, R57): more uncorrectable codewords in the window than the limit; the port retrains at the next
boundary. -/
def uncorrLimit (s : Body) (n : Nat) : Body :=
  if linkUp s n && decide (s.get R.LNK_THRESH.UNCORR_LIMIT n < (s.link n).winUncorr) then s.arm (.linkRetrain n) else s

/-- The codewords that an ACK of `ack` releases: everything up to it, in the order sent (R52). -/
def ackTo (ack : Nat) (u : List Nat) : List Nat :=
  if u.contains ack then (u.dropWhile (fun q => q != ack)).drop 1 else u

/-- The active wavelengths, in rising order. -/
def lanesOn (s : Body) (n : Nat) : List Nat := (List.range 8).filter (fun l => bitAt (s.get R.LNK_STATUS.LANE_MAP n) l)

/-- The wrong symbols of a codeword on each active wavelength: symbol i travels on the i mod n-th of them (R51). -/
def laneErrs (s : Body) (n : Nat) (errs : List Nat) : List (Nat × Nat) :=
  let ls := lanesOn s n
  ((List.range ls.length).zip ls).filterMap (fun p =>
    let k := (errs.filter (fun i => i % ls.length == p.1)).length
    if k = 0 then none else some (p.2, k))

/-- CODEWORD_RECEIVE (R50 to R52, R54): a codeword with more than 15 wrong symbols is uncorrectable and discarded whole; any
other counts its corrections, takes the acknowledgement in, resends from ACK + 1 on a NAK, and is passed on in sequence order
and once. A gap in the sequence, like an uncorrectable codeword, is acknowledged by NAK. -/
def codeword (s : Body) (n : Nat) (c : Codeword) : Body :=
  if !linkUp s n then s
  else
    let l := s.link n
    let s := s.count R.LNK_CW.COUNT 1 n
    if 15 < c.errs.length then
      ((s.count R.LNK_UNCORR.COUNT 1 n).set R.LNK_EVENT.UNCORR 1 n).setLink n
        { l with winCw := l.winCw + 1, winUncorr := l.winUncorr + 1, nak := true }
    else
      let errs := laneErrs s n c.errs
      let s := if errs.isEmpty then s else s.count R.LNK_CORR.COUNT 1 n
      let s := errs.foldl (fun s e => s.count R.LNK_LANE_ERR.COUNT e.2 (128 * n + e.1)) s
      let win := errs.foldl (fun w e => AMap.upd 0 w e.1 (fun v => v + e.2)) l.winSym
      let un := ackTo c.ack l.unacked
      let again := c.nak && !un.isEmpty
      let l := { l with
        winCw := l.winCw + 1, winSym := win, unacked := un, resent := if again then l.resent + un.length else l.resent }
      let s := if again then (s.count R.LNK_REPLAY.COUNT un.length n).send (.resend n un) else s
      if c.seq = l.rxSeq then
        (s.setLink n { l with rxSeq := (l.rxSeq + 1) % 512, nak := false }).send (.deliver n c.seq)
      else if (c.seq + 512 - l.rxSeq) % 512 < 256 then s.setLink n { l with nak := true }
      else s.setLink n l

/-- The bytes of a message with a payload of `n` bytes on a port: its header, the payload and a header for each segment
of a burst, up to the next 32-byte boundary of the flit data, where another message may begin (R67, R89). -/
def msgBytes (n : Nat) : Nat := 32 * ceilDiv (32 + n + 16 * (ceilDiv n 4096 - 1)) 32

/-- The data port that a message leaves by, and its bytes there (log entry 99). -/
def msgOn : Out → Option (Nat × Nat)
  | .resp r => some (r.link, msgBytes r.payload.length)
  | .req _ m => some (m.link, msgBytes m.payload.length)
  | _ => none

/-- The bytes of flit data that a port carries in a knot in one direction (R51, R55). -/
def flitBytes (s : Body) (n : Nat) : Nat := 6250 * s.get R.LNK_STATUS.LANES n

/-- A port takes `bytes` of messages (R51, R52): they go out in codewords of 640 bytes, each with the next sequence number and
the link control field of the moment, and stay in the retry buffer until they are acknowledged. What the knot cannot carry
beside the codewords sent again, what finds 256 codewords outstanding, and in RETRAIN everything, is held back; in a state
without traffic it is lost (R61). -/
def portSend (s : Body) (n bytes : Nat) : Body :=
  let l := s.link n
  let c := l.held + ceilDiv bytes 640
  if linkUp s n then
    let room := flitBytes s n / 640
    let k := min c (min (256 - l.unacked.length) (room - l.resent))
    let seqs := (List.range k).map (fun i => (l.txSeq + i) % 512)
    let bit := laneBit s l
    let s := s.setLink n { l with
      unacked := l.unacked ++ seqs, txSeq := (l.txSeq + k) % 512, held := c - k, resent := l.resent - room }
    if k = 0 ∧ l.nak = false ∧ bit = none then s
    else s.send (.codewords n seqs ((l.rxSeq + 511) % 512) l.nak bit)
  else if lstate s n = lsRETRAIN then s.setLink n { l with held := c }
  else s

/-- The bytes handed to a port since the last boundary. -/
def newBytes (s : Body) (n : Nat) : Nat :=
  ((s.out.take (s.out.length - s.launched)).filterMap msgOn).foldl (fun a e => if e.1 = n then a + e.2 else a) 0

/-- Knots by which what the port has still to carry delays a message handed to it now (R52, R55, log entry 115): in RETRAIN the
256 of MEASURE at the least. -/
def portDelay (s : Body) (n : Nat) : Nat :=
  if lstate s n = lsRETRAIN then 256
  else (640 * ((s.link n).held + (s.link n).resent) + newBytes s n) / max 1 (flitBytes s n)

/-- The ports take the messages that have been handed to them since the last boundary (log entry 99). -/
def portsSend (s : Body) : Body :=
  let new := (s.out.take (s.out.length - s.launched)).filterMap msgOn
  let s := (List.range nLinks).foldl (fun s n =>
    portSend s n ((new.filter (fun e => e.1 == n)).foldl (fun a e => a + e.2) 0)) s
  { s with launched := s.out.length }

/-- LIGHT_FOUND (R57): light on the wavelengths `mask`. -/
def lightFound (s : Body) (n mask : Nat) : Body :=
  let l := s.link n
  let light := (l.light ||| mask) % 256
  let s := s.setLink n { l with light := light, fewLight := if popcount light 8 < 4 then l.fewLight else none }
  if lstate s n = lsDARK ∧ 4 ≤ popcount light 8 then s.arm (.train n .light) else s

/-- The port is in MEASURE, in first training or in RETRAIN. -/
def measuring (s : Body) (n : Nat) : Bool :=
  lstate s n == lsMEASURE || (lstate s n == lsRETRAIN && (s.link n).phase == 2)

/-- EQUALISE_DONE (R57), in first training and in RETRAIN. -/
def equaliseDone (s : Body) (n : Nat) : Body :=
  if lstate s n = lsEQUALISE ∨ (lstate s n = lsRETRAIN ∧ (s.link n).phase = 0) then s.arm (.train n .equalised) else s

/-- ALIGN_DONE (R57). -/
def alignDone (s : Body) (n : Nat) : Body :=
  if lstate s n = lsALIGN ∨ (lstate s n = lsRETRAIN ∧ (s.link n).phase = 1) then s.arm (.train n .aligned) else s

/-- MEASURE_DONE (R57, R60): once the 256 exchanges, one in each knot, are made. -/
def measureDone (s : Body) (n dPs : Nat) : Body :=
  if measuring s n = true ∧ (s.link n).measureAt + 256 ≤ s.tick + 1 then s.arm (.train n (.measured dPs)) else s

/-- The partner kind that a role accepts (R59): client 0x3, FX-64 0x2, Helak 0x1, MS-16 0x4. -/
def roleKind (role : Nat) : Nat :=
  if role = 1 then 3 else if role = 2 then 2 else if role = 3 then 1 else if role = 4 then 4 else 0

/-- Another UP port already presents this HID or CID (R58). A conflict is possible between Helaks and between clients, and a
DEGRADED port counts as UP (DESIGN CHOICE, log entry 107). -/
def idConflict (s : Body) (n kind id : Nat) : Bool :=
  (kind == 1 || kind == 3) &&
  (List.range nLinks).any (fun m => m != n && linkUp s m && s.get R.LNK_PEER.KIND m == kind &&
    s.get R.LNK_PEER.PEER_ID m == id)

/-- Enters UP or DEGRADED from training (R57, R61): the wavelengths with light that are neither disabled nor dead, a new
error window, and every unacknowledged codeword sent again. With fewer than 4 of them the port faults with cause LANES (R58). -/
def enterUp (s : Body) (n : Nat) : Body :=
  let l := s.link n
  let off := s.get R.LNK_CTRL.LANE_DISABLE n ||| l.dead
  let map := l.light - (l.light &&& off)
  if popcount map 8 < 4 then enterFault s n 3
  else
    let s := setLanes s n map
    let s := s.set R.LNK_STATUS.STATE (if popcount map 8 = 8 then lsUP else lsDEGRADED) n
    let s := s.set R.LNK_EVENT.UP_EV 1 n
    let s := s.setLink n { l with winCw := 0, winSym := [], winUncorr := 0, everUp := true, leftDark := none, fewLight := none,
                                  drops := [], noAdmit := false, resent := l.unacked.length }
    if l.unacked.isEmpty then s
    else (s.count R.LNK_REPLAY.COUNT l.unacked.length n).send (.resend n l.unacked)

/-- IDENTIFY_EXCHANGE (R57 to R59): the partner's block comes in; it takes effect at the boundary. -/
def identify (s : Body) (n kind id port : Nat) : Body :=
  if lstate s n = lsIDENTIFY then s.arm (.train n (.identified kind id port)) else s

/-- Enters IDENTIFY: the own block goes out (R59). The controller's kind is Helak, 0x1. -/
def enterIdentify (s : Body) (n : Nat) : Body := (s.set R.LNK_STATUS.STATE lsIDENTIFY n).send (.ident n 1 s.hid n)

/-- The partner is checked (R57 to R59, R61). -/
def identifyNow (s : Body) (n kind id port : Nat) : Body :=
  let role := s.get R.LNK_STATUS.ROLE n
  if role = 0 ∨ roleKind role ≠ kind then enterFault s n 1
  else if idConflict s n kind id then enterFault s n 5
  else enterUp (((s.set R.LNK_PEER.KIND kind n).set R.LNK_PEER.PEER_ID id n).set R.LNK_PEER.PEER_PORT port n) n

/-- The port left DARK 8,192 knots before `t` and has not come to UP or DEGRADED (R57). -/
def trainLate (s : Body) (n t : Nat) : Bool :=
  match (s.link n).leftDark with
  | some k => decide (k + 8192 ≤ t) && decide (lsEQUALISE ≤ lstate s n) && decide (lstate s n ≤ lsIDENTIFY)
  | none => false

/-- The port retrains, and has had light on fewer than 4 wavelengths for 4,000 knots before `t` (R57). -/
def lanesLate (s : Body) (n t : Nat) : Bool :=
  match (s.link n).fewLight with
  | some k => decide (k + 4000 ≤ t) && lstate s n == lsRETRAIN
  | none => false

/-- A FAULT of cause LANES or TRAIN_TIMEOUT has lasted 4,000,000 knots before `t` (R58). -/
def faultOver (s : Body) (n t : Nat) : Bool :=
  let c := s.get R.LNK_STATUS.CAUSE n
  lstate s n == lsFAULT && (c == 3 || c == 4) && decide ((s.link n).faultAt + 4000000 ≤ t)

/-- TRAIN_TIMEOUT (R57): at the next boundary. -/
def trainTimeout (s : Body) (n : Nat) : Body := if trainLate s n (s.tick + 1) then s.arm (.train n .tooLong) else s

/-- LANES_TIMEOUT (R57): at the next boundary. -/
def lanesTimeout (s : Body) (n : Nat) : Body := if lanesLate s n (s.tick + 1) then s.arm (.train n .fewLanes) else s

/-- FAULT_RECOVERY_TIMEOUT (R58): at the next boundary. -/
def faultRecovery (s : Body) (n : Nat) : Body := if faultOver s n (s.tick + 1) then s.arm (.train n .recovered) else s

/-- A port's training goes on at a boundary (R57, R58, R60), where what ended its phase still holds. A delay of more than 60 m
(300 ns) faults with cause TOO_LONG. -/
def trainNow (s : Body) (n : Nat) : TrainEv → Body
  | .light =>
    if lstate s n = lsDARK ∧ 4 ≤ popcount (s.link n).light 8 then
      (s.set R.LNK_STATUS.STATE lsEQUALISE n).setLink n { s.link n with leftDark := some s.tick }
    else s
  | .equalised =>
    if lstate s n = lsEQUALISE then s.set R.LNK_STATUS.STATE lsALIGN n
    else if lstate s n = lsRETRAIN ∧ (s.link n).phase = 0 then s.setLink n { s.link n with phase := 1 }
    else s
  | .aligned =>
    if lstate s n = lsALIGN then
      (s.set R.LNK_STATUS.STATE lsMEASURE n).setLink n { s.link n with measureAt := s.tick }
    else if lstate s n = lsRETRAIN ∧ (s.link n).phase = 1 then
      s.setLink n { s.link n with phase := 2, measureAt := s.tick }
    else s
  | .measured dPs =>
    if measuring s n = true ∧ (s.link n).measureAt + 256 ≤ s.tick then
      let s := s.set R.LNK_PEER.DELAY_PS dPs n
      let s := s.set R.LNK_STATUS.ADD_KNOTS (addKnots s n) n
      if 300000 < dPs then enterFault s n 2 else enterIdentify s n
    else s
  | .identified kind id port => if lstate s n = lsIDENTIFY then identifyNow s n kind id port else s
  | .tooLong => if trainLate s n s.tick then enterFault s n 4 else s
  | .fewLanes => if lanesLate s n s.tick then enterFault s n 3 else s
  | .recovered => if faultOver s n s.tick then enterDark s n else s

/-- What the role and LNK_CTRL.ENABLE of a port do at a boundary (R57): OFF to DARK, and any state to OFF; and a change of its
wavelengths that is due (R54). -/
def linkBoundary (s : Body) (n : Nat) : Body :=
  let role := s.get R.LNK_STATUS.ROLE n
  if role ≠ 0 ∧ s.on R.LNK_CTRL.ENABLE n then
    if lstate s n = lsOFF then enterDark s n else laneEffect s n
  else if lstate s n = lsOFF then s
  else
    let s := enterOff s n
    if 32 ≤ n ∧ s.on R.LNK_CTRL.ENABLE n then s.arm (.portFailed (n - 32)) else s

/-- The ports of photonic die `d`: its eight fabric ports, or its four store ports (R49, R62). -/
def groupPorts (store : Bool) (d : Nat) : List Nat :=
  if store then (List.range 4).map (fun i => 32 + 4 * d + i) else (List.range 8).map (fun i => 8 * d + i)

/-- Every port of the group that has a role has settled (R62). -/
def groupSettled (s : Body) (store : Bool) (d : Nat) : Bool :=
  (groupPorts store d).all (fun n => s.get R.LNK_STATUS.ROLE n == 0 || linkUp s n || lstate s n == lsFAULT)

/-- PHOTONIC_DIE_READY (R62): the die's bit of MGT_READY. -/
def dieReady (s : Body) (d : Nat) : Body := if d < 4 ∧ s.pwr.pin = none then s.setB R.MGT_READY.PHO d else s

/-- The start boundary of a port group: the first boundary at which the die's bit and HOME are both set (R62). -/
def groupStart (s : Body) : Body :=
  let started := (List.range 4).foldl (fun m d =>
    if bitAt (s.get R.MGT_READY.PHO) d && s.on R.MGT_READY.HOME && AMap.get 0 m d == 0 then AMap.put 0 m d (s.tick + 1)
    else m) s.groupStart
  { s with groupStart := started }

/-- PORT_GROUP_READY (R62): the group has settled, or 16,384 knots have passed since its start boundary. -/
def groupReady (s : Body) (store : Bool) (d : Nat) : Body :=
  let t := AMap.get 0 s.groupStart d
  if d < 4 ∧ t ≠ 0 ∧ (groupSettled s store d ∨ t - 1 + 16384 ≤ s.tick) then
    s.setB (if store then R.MGT_READY.SG else R.MGT_READY.FG) d
  else s

/-- HEARTBEAT (R64, R71, R79): counts for this knot and sets MISS to 0, which clears a suspicion; a locked partner whose knot
differs by more than 1 (modulo 2^24) counts in SKEW. -/
def heartbeat (m : ReqMsg) (s : Body) : Body :=
  let n := m.link
  if linkUp s n then
    linkTake s opHEARTBEAT 0 m (fun s =>
      let s := s.setLink n { s.link n with hbSeen := true }
      let d := (m.issue + 2 ^ 24 - s.now % 2 ^ 24) % 2 ^ 24
      let s := if bitAt m.arg 4 && decide (1 < d ∧ d < 2 ^ 24 - 1) then s.sat R.LNK_HB.SKEW 1 n else s
      let s := s.set R.LNK_HB.MISS 0 n
      if s.on R.LNK_HB.SUSPECT n then
        suspicion (s.set R.LNK_HB.SUSPECT 0 n) 1 n (s.get R.LNK_PEER.KIND n == 1) (s.get R.LNK_PEER.PEER_ID n) true
      else s)
  else s

/-- HEARTBEAT_SUSPECT (R64, R360, R395): MISS has reached 64. -/
def heartbeatSuspect (s : Body) (n : Nat) : Body :=
  if 64 ≤ s.get R.LNK_HB.MISS n ∧ s.get R.LNK_HB.SUSPECT n = 0 then
    let s := (s.set R.LNK_HB.SUSPECT 1 n).set R.LNK_EVENT.SUSPECT_EV 1 n
    sledSuspect (suspicion s 1 n (s.get R.LNK_PEER.KIND n == 1) (s.get R.LNK_PEER.PEER_ID n) false) n
  else s

/-- The end of a knot on one port (R64): a knot with no heartbeat adds 1 to MISS in UP, DEGRADED and RETRAIN. -/
def missBoundary (s : Body) (n : Nat) : Body :=
  let l := s.link n
  let s := s.setLink n { l with hbSeen := false }
  if l.everUp && !l.hbSeen && (linkUp s n || lstate s n == lsRETRAIN) then
    let s := s.sat R.LNK_HB.MISS 1 n
    s.set R.LNK_HB.MISS_MAX (max (s.get R.LNK_HB.MISS_MAX n) (s.get R.LNK_HB.MISS n)) n
  else s

/-- The heartbeat that every port in UP or DEGRADED sends (R63, R79). -/
def heartbeatSend (s : Body) (n : Nat) : Body :=
  if linkUp s n then linkSend s opHEARTBEAT n 0 (lstate s n + 16 * b2n (discGood s)) [] else s

/-- The heartbeats of a knot stand before every other message that has been sent since its boundary, when `n0` messages had
been sent (R63). -/
def heartbeats (n0 : Nat) (s : Body) : Body :=
  let k := s.out.length - n0
  let t := (List.range nLinks).foldl heartbeatSend { s with out := s.out.drop k }
  { t with out := s.out.take k ++ t.out }

/-- Cuts a message into the payloads of its MCTP packets: with the four bytes of the packet header, none is longer than 1,024 B
(R65). -/
def mctpCut (l : List Byte) : Nat → List (List Byte)
  | 0 => []
  | k + 1 => if l.length ≤ 1020 then [l] else l.take 1020 :: mctpCut (l.drop 1020) k

/-- The message that an answer is (R491): the MCTP type, of MCTP control and PLDM the header that echoes the request's and the
completion code, and the data; `n` answers were sent before it (log entry 129). -/
def mgmtMessage (n proto cc : Nat) (data : List Byte) : List Byte :=
  let echo := leBytes 4 (Config.mgmtEcho n).toNat
  leBytes 1 proto ++ (if proto = 5 then [] else (if proto = 0 then slice echo 1 2 else slice echo 1 3) ++ leBytes 1 cc) ++ data

/-- The frames in which the management port sends an answer, from `src` to `eid` (R65): each is one MCTP packet of at most
1,024 B, followed by its CRC-32. -/
def mgmtFrames (src n eid proto cc : Nat) (data : List Byte) : List (List Byte) :=
  let m := mgmtMessage n proto cc data
  let ps := mctpCut m (m.length + 1)
  ps.zipIdx.map (fun e =>
    let flags := 128 * b2n (e.2 == 0) + 64 * b2n (e.2 + 1 == ps.length) + 16 * (e.2 % 4) + (Config.mgmtEcho n).toNat % 8
    let p := leBytes 1 1 ++ leBytes 1 eid ++ leBytes 1 src ++ leBytes 1 flags ++ e.1
    p ++ leBytes 4 (crc32 p))

/-- A frame that arrives is a packet where its length and its CRC-32 are right (R65). -/
def mgmtPacket (f : List Byte) : Option (List Byte) :=
  let p := f.take (f.length - 4)
  if 4 ≤ f.length ∧ p.length ≤ 1024 ∧ le f p.length 4 = crc32 p then some p else none

/-- MGMT_PORT_UP (R65): after P0's bit of MGT_READY is set the port trains by itself. -/
def mgmtUp (s : Body) : Body :=
  if bitAt (s.get R.MGT_READY.PHO) 0 then (s.set R.LNK_MGMT.FEC_LOCK 1).set R.LNK_MGMT.UP 1 else s

/-- MGMT_PORT_DOWN (R65): codeword lock is lost. -/
def mgmtDown (s : Body) : Body := (s.set R.LNK_MGMT.FEC_LOCK 0).set R.LNK_MGMT.UP 0

end Sys2Proof.Machine
end

