-- ==== Sys2Proof/Machine/Olp.lean ====
section
/-!
DEFINITION. The transaction layer's intake (spec/04): the header check of R82, answers, bursts and splices.
-/

namespace Sys2Proof.Machine

/-- A status that is not recorded as an error (FAB_ERR_LOG). -/
def goodStatus (st : Nat) : Bool := st == stOK || st == stOKSPLICED || st == stRAWFALLBACK || st == stBUDGETMISS

/-- The counters that an answer's status moves. -/
def statusCount (s : Body) (st : Nat) : Body :=
  if st = stRETRY then s.count R.FAB_RETRY.COUNT
  else if st = stSTALEMAP then s.count R.FAB_STALE.COUNT
  else if st = stBUDGETMISS then s.count R.FAB_BUDGET_MISS.COUNT
  else if st = stFENCED then s.count R.FLT_FENCED.COUNT
  else if st = stJOBTORN then s.count R.FLT_TORN.COUNT
  else if st = stREVOKED then s.count R.PRT_REVOKED.COUNT
  else if st = stLOSTLINE then s.count R.DIR_LOST_READ.COUNT
  else s

/-- Answers a request (R70, R71, R74): `len` is the payload's length code; `prevKey` says which key verified it. HINT
of ST_RETRY is not stated: a free value (log entry 4). -/
def answer (s : Body) (op : Nat) (m : ReqMsg) (issueK : Nat) (prevKey : Bool) (status sub len arg : Nat)
    (pay : List Byte) : Body :=
  let s := statusCount s status
  let s := if goodStatus status then s else fabErr s status op m.link m.cid m.tag false
  let (hint, s) := if status = stRETRY then s.free 16 else (0, s)
  let s := if status = stBUDGETMISS then s.count R.OBS_PART_CTR.COUNT 1 6 m.pid
    else if status = stRETRY ∨ status = stSTALEMAP then s.count R.OBS_PART_CTR.COUNT 1 7 m.pid else s
  let gen := (s.part m.pid).gen
  let hdr := respHdr op m.enc m.tag m.pid s.hid m.cid len m.cls (s.now % 2 ^ 24) hint 0 sub status gen m.issue arg
  let k := (s.part m.pid).keys
  let key := (if prevKey then k.prev else k.sess).getD []
  let check := checkOf m.enc key (nonce issueK m.cid true true m.tag) hdr pay
  s.send (.resp {
    link := m.link, op := op, enc := m.enc, tag := m.tag, pid := m.pid, hid := s.hid, cid := m.cid, len := len,
    cls := m.cls, mapgen := gen, issue := m.issue, arg := arg, serve := s.now % 2 ^ 24, hint := hint, sub := sub,
    status := status, payload := pay, check := check })

/-- The role of a port (R59): 1 client-facing, 2 switch-facing, 3 peer-Helak. -/
def roleOf (s : Body) (link : Nat) : Nat := s.get R.LNK_STATUS.ROLE link

/-- Check 2 of R82: the source of a message on a client-facing or peer-Helak port. -/
def sourceOk (s : Body) (link cid : Nat) : Bool :=
  if roleOf s link = 1 then s.get R.LNK_PEER.PEER_ID link == cid
  else if roleOf s link = 3 then
    s.img.peers.any (fun p => p.hid == s.get R.LNK_PEER.PEER_ID link && p.cid == cid)
  else true

/-- The opcodes that a client or a Helak may send (R75, R518). -/
def clientOps : List Nat :=
  [0x01, 0x02, 0x03, 0x04, 0x08, 0x09, 0x0A, 0x0B, 0x10, 0x11, 0x20, 0x21, 0x22, 0x23, 0x24, 0x25, 0x26, 0x27, 0x28, 0x40,
   0x41, 0x48, 0x49, 0x4A]

/-- Check 3 of R82. -/
def roleAllows (s : Body) (link op : Nat) : Bool :=
  let r := roleOf s link
  if op = opSPLICED then r == 2 else (r == 1 || r == 2 || r == 3) && clientOps.contains op

/-- The tags outstanding of a CID on a port (R87): waiting and admitted requests, held bursts and seizing messages not
yet answered. -/
def tagsOut (s : Body) (link cid : Nat) : List Nat :=
  ((s.olp.reqs.filter (fun r => r.m.link == link && r.m.cid == cid)).map (fun r => r.m.tag)) ++
  ((s.olp.bursts.filter (fun b => b.m.link == link && b.m.cid == cid)).map (fun b => b.m.tag)) ++
  ((s.txn.recs.filterMap (fun t => t.reply)).filter (fun r => r.m.link == link && r.m.cid == cid)).map (fun r => r.m.tag) ++
  ((s.txn.recs.filterMap (fun t => t.commitReply)).filter (fun r => r.m.link == link && r.m.cid == cid)).map
    (fun r => r.m.tag)

/-- Check 5 of R82 (R398, R399, R401, R405, R406): the refusal, if any. -/
def check5 (s : Body) (op cid pid : Nat) : Option (Nat × Nat) :=
  let isPeer := (peerOfCid s cid).isSome
  let shadowed := s.fences.any (fun f => f.isHid && f.peerCid == cid && f.shadow) && (op == opLOAD || op == opLOADNA)
  if cidFenced s cid && !shadowed then some (stFENCED, 0)
  else if s.on R.STO_SHADOW.STATE then (if isPeer then none else some (stSTALEMAP, 2))
  else if s.on R.FLT_SELF.ISOLATED then some (stFENCED, 0)
  else if (s.part pid).flt ≠ 0 then some (stJOBTORN, 0)
  else none

/-- Check 6 of R82 (R80, R373, R376). -/
def check6 (s : Body) (m : ReqMsg) : Option (Nat × Nat) :=
  match partDef s m.pid with
  | none => some (stPERMISSION, 1)
  | some p =>
    let isPeer := (peerOfCid s m.cid).isSome
    match hitchOf s m.cid m.pid with
    | none =>
      if !isPeer then some (stPERMISSION, 1)
      else if p.sess && !m.enc then some (stPERMISSION, 2) else none
    | some h =>
      if p.sess && !m.enc then some (stPERMISSION, 2)
      else if m.space && !h.sgaOk && !isPeer then some (stPERMISSION, 3)
      else none

/-- The outcome of the map generation at a knot (R100): some true for grace. -/
def mapgenOk (s : Body) (pid gen knot : Nat) : Option Bool :=
  let p := s.part pid
  if gen = p.gen then some false
  else if p.hasPrev && gen == (p.gen + 65535) % 65536 && decide (knot < p.genKnot + 256) then some true
  else none

/-- Check 7 of R82. A request under the generation of a pending COMMIT passes: R100 decides it at its admission boundary. -/
def check7 (s : Body) (m : ReqMsg) : Option (Nat × Nat) :=
  let soon := match (s.part m.pid).commit with | some (g, _) => g == m.mapgen | none => false
  if (mapgenOk s m.pid m.mapgen s.now).isNone && !soon then some (stSTALEMAP, 1)
  else if m.hid ≠ s.hid then some (stSTALEMAP, 2) else none

/-- The length codes that each opcode takes (R75, R326). -/
def lenOk (op len : Nat) : Bool :=
  let one := decide (1 ≤ len) && decide (len ≤ 10)
  let burst := decide (16 ≤ len) && decide (len ≤ 31)
  if op = opLOAD ∨ op = opSTORE then one || burst
  else if op = opLOADSHARED ∨ op = opLOADOWN ∨ op = opLOADNA ∨ op = opWRITEBACK then len == 5
  else if op = opSTOREMASKED then len == 11
  else if op = opEVICTCLEAN ∨ op = opCODEDLOAD then len == 0
  else if op = opCODEDSTORE then burst
  else if op = opFADDVEC then decide (1 ≤ len) && decide (len ≤ 5)
  else if op = opCAS then len == 2
  else if isAtomic op then len == 1
  else if op = opPUBLISH then len == 4
  else if op = opDOORBELL then len == 1
  else decide (len ≤ 10)

/-- The payload that a request of this opcode and length code carries. -/
def payOk (op len n : Nat) : Bool :=
  if op = opLOAD ∨ op = opLOADSHARED ∨ op = opLOADOWN ∨ op = opLOADNA ∨ op = opCODEDLOAD then n == 0
  else if 16 ≤ len then decide (lenBytes len - 4096 < n) && decide (n ≤ lenBytes len)
  else n == lenBytes len

/-- The bytes of an atomic payload above its operands, reserved (R76). -/
def atomPad (op ty : Nat) (pay : List Byte) : Bool :=
  let e := atomSize ty
  if op = opFADDVEC then true
  else (List.range (if op = opCAS then 2 else 1)).all (fun i => le pay (8 * i + e) (8 - e) == 0)

/-- Check 8 of R82 (R75, R76, R83, R184): LEN, then ARG, then reserved fields, then alignment. A non-zero ARG where the opcode
defines none (R70) counts as a reserved field: SUB 0x04 (DESIGN CHOICE, log entry 110). -/
def check8 (op : Nat) (m : ReqMsg) (pay : List Byte) : Option (Nat × Nat) :=
  let ty := m.arg % 16
  let rnd := m.arg / 32 % 4
  let tyOk := if op = opFADDVEC then ty == 4 || ty == 5
    else if op = opAND ∨ op = opOR ∨ op = opXOR then decide (ty < 4) else decide (ty < 5)
  if !lenOk op m.len || !payOk op m.len pay.length then some (stBADOPCODE, 2)
  else if isAtomic op && (!tyOk || (decide (ty < 4) && rnd != 0)) then some (stBADOPCODE, 3)
  else if op == opDOORBELL && (m.space || m.addr != 0) then some (stBADOPCODE, 3)
  else if m.rsvd ≠ 0 then some (stBADOPCODE, 4)
  else if isAtomic op && (m.arg / 128 != 0 || !atomPad op ty pay) then some (stBADOPCODE, 4)
  else if op == opDOORBELL && (m.arg / 64 != 0 || le pay 4 4 != 0) then some (stBADOPCODE, 4)
  else if !isAtomic op && op != opDOORBELL && decide (op < 0x48) && m.arg != 0 then some (stBADOPCODE, 4)
  else if op == opPUBLISH && le pay 8 8 != 0 then some (stBADOPCODE, 4)
  else
    let al := if isAtomic op then atomSize ty
      else if op = opLOAD ∨ op = opSTORE then (if 16 ≤ m.len then 4096 else lenBytes m.len)
      else if op = opCODEDLOAD ∨ op = opCODEDSTORE then 65536
      else if op < 0x40 ∨ op = opPUBLISH then 128 else 1
    if m.addr % al ≠ 0 || (op == opFADDVEC && decide (128 < m.addr % 128 + lenBytes m.len)) then some (stALIGN, 0)
    else none

/-- What the header check decides (R82). -/
inductive HChk where
  | discard (ctr : Fld)
  | refuse (status sub : Nat)
  | pass
  deriving DecidableEq, Repr

/-- Checks 4 to 8 of R82, `pre` a refusal that stands before check 8. -/
def checks4to8 (s : Body) (op : Nat) (m : ReqMsg) (pay : List Byte) (pre : Option (Nat × Nat)) : HChk :=
  let tags := tagsOut s m.link m.cid
  if tags.contains m.tag then .discard R.FAB_TAG_DUP.COUNT
  else if 4096 ≤ tags.length then .refuse stRETRY 1
  else match check5 s op m.cid m.pid with
    | some (a, b) => .refuse a b
    | none => match check6 s m with
      | some (a, b) => .refuse a b
      | none => match check7 s m with
        | some (a, b) => .refuse a b
        | none => match pre with
          | some (a, b) => .refuse a b
          | none => match check8 op m pay with
            | some (a, b) => .refuse a b
            | none => .pass

/-- Checks 2 to 8 of R82. -/
def headerCheck (s : Body) (op : Nat) (m : ReqMsg) (pay : List Byte) : HChk :=
  if !sourceOk s m.link m.cid then .discard R.FAB_SRC_FAIL.COUNT
  else if !roleAllows s m.link op then .refuse stBADOPCODE 1
  else checks4to8 s op m pay none

/-- A request that has passed its header check waits for admission. -/
def enqueue (s : Body) (op : Nat) (m : ReqMsg) (pay : List Byte) (prevKey : Bool) (splice : Nat)
    (combined : Option (List Byte)) : Body :=
  let n := s.olp.arrivals + 1
  let r : Req := {
    id := n, op := op, m := { m with payload := pay }, issueK := fullIssue (s.now + 1) m.issue, checked := s.tick,
    order := n, prevKey := prevKey, splice := splice, spliced := decide (splice ≠ 0), combined := combined }
  { s with olp := { s.olp with
      reqs := s.olp.reqs ++ [r], arrivals := n, cidLink := AMap.put 0 s.olp.cidLink m.cid (m.link + 1) } }

/-- A WRITEBACK or EVICT_CLEAN that crosses a snoop of its line answers it at once (R146): a WRITEBACK as DIRTY, its data
written home. The sender is no longer a holder. -/
def crossSnoop (s : Body) (op : Nat) (m : ReqMsg) (pay : List Byte) : Body :=
  if op ≠ opWRITEBACK ∧ op ≠ opEVICTCLEAN then s
  else
    match s.dir.rounds.find? (fun r => r.waiting.any (fun o => o.cid == m.cid) && (match entryOf s r.line with
      | some e => e.space == m.space && e.raddr == m.addr && e.pid == m.pid
      | none => false)) with
    | none => s
    | some r =>
      let s := if op = opWRITEBACK then s.wr (r.line * 128) (slice pay 0 128) else s
      let s := putRound s { r with waiting := r.waiting.filter (fun o => o.cid != m.cid) }
      let mark := fun (q : Req) => if q.id = s.olp.arrivals then { q with crossed := true } else q
      let s := { s with olp := { s.olp with reqs := s.olp.reqs.map mark } }
      s.count R.DIR_CROSS.COUNT

/-- Notes a message verified by the previous key (R374). -/
def oldKey (s : Body) (prev : Bool) : Body := if prev then s.count R.PRT_KEY_OLD.COUNT else s

/-- HEADER_CHECK (R82) of a whole request: discarded, refused with an answer, or left waiting. `rsvd` holds the reserved bits
outside its header, which check 8 sees and CHECK does not cover (R83, R89). -/
def headerRun (s : Body) (op : Nat) (m : ReqMsg) (rsvd : Nat := 0) : Body :=
  let ik := fullIssue (s.now + 1) m.issue
  match verify s (reqHdr op m) m.enc m.pid (nonce ik m.cid false false m.tag) m.check m.payload with
  | none => fabDiscard s R.FAB_AUTH_FAIL.COUNT op m
  | some (pay, prev) =>
    match headerCheck s op { m with rsvd := m.rsvd + rsvd } pay with
    | .discard c => fabDiscard s c op m
    | .refuse st sub => answer (oldKey s prev) op m ik prev st sub 0 0 []
    | .pass => crossSnoop (enqueue (oldKey s prev) op m pay prev 0 none) op m pay

/-- The port takes in messages: UP or DEGRADED, with HOME set (R82). -/
def portTakes (s : Body) (link : Nat) : Bool := decide (link < 32) && linkUp s link && s.on R.MGT_READY.HOME

/-- A burst head (R89 to R91): held until its last segment. -/
def burstHead (s : Body) (op : Nat) (m : ReqMsg) : Body :=
  if s.olp.bursts.any (fun b => b.m.link == m.link && b.m.cid == m.cid && b.m.tag == m.tag && b.m.issue == m.issue) then
    fabDiscard s R.FAB_TAG_DUP.COUNT op m
  else if 32 ≤ (s.olp.bursts.filter (fun b => b.m.link == m.link)).length then
    let s := { s with olp := { s.olp with refused := s.olp.refused ++ [(m.link, m.cid, m.tag, m.issue, s.tick)] } }
    answer s op m (fullIssue (s.now + 1) m.issue) false stRETRY 2 0 0 []
  else { s with olp := { s.olp with bursts := s.olp.bursts ++ [{ op := op, m := m, h := s.tick, index := 0 }] } }

/-- Takes in a request of opcode `op` (R67, R82, R89): a burst head is held, any other message is checked. -/
def receive (op : Nat) (m : ReqMsg) (s : Body) : Body :=
  if !portTakes s m.link then s
  else if (op = opSTORE ∨ op = opCODEDSTORE) ∧ 16 ≤ m.len then burstHead s op m
  else headerRun s op m

/-- ORPHAN_TAIL (R93): a segment that belongs to no held burst; discarded unanswered after a refusal of R91, answered
once for each triple otherwise. A segment header gives no OPCODE, PID or ENC: the answer says STORE, PID 0, ENC 0 (DESIGN
CHOICE, log entry 108). -/
def orphanSeg (s : Body) (g : SegMsg) : Body :=
  let same := fun (e : Nat × Nat × Nat × Nat × Nat) =>
    e.1 == g.link && e.2.1 == g.cid && e.2.2.1 == g.tag && e.2.2.2.1 == g.issue && decide (s.tick < e.2.2.2.2 + 64)
  if s.olp.refused.any same then s
  else
    let s := s.count R.FAB_ORPHAN.COUNT
    if s.olp.orphans.any same then s
    else
      let s := { s with olp := { s.olp with orphans := s.olp.orphans ++ [(g.link, g.cid, g.tag, g.issue, s.tick)] } }
      let m : ReqMsg := {
        link := g.link, enc := false, tag := g.tag, pid := 0, hid := s.hid, cid := g.cid, len := 0, cls := false,
        rsvd := 0, space := false, addr := 0, mapgen := 0, issue := g.issue, arg := 0, check := 0, payload := [] }
      answer s opSTORE m (fullIssue s.now g.issue) false stORPHANTAIL 0 0 0 []

/-- BURST_SEGMENT (R89, R90): the segment joins its burst, makes it malformed, or is an orphan tail. -/
def burstSeg (s : Body) (g : SegMsg) : Body :=
  if !portTakes s g.link then s
  else
    let here := fun (b : Burst) =>
      b.m.link == g.link && b.m.cid == g.cid && b.m.tag == g.tag && b.m.issue == g.issue && !b.bad
    match s.olp.bursts.find? here with
    | none => orphanSeg s g
    | some b =>
      let n := b.m.len - 14
      if b.h + 64 ≤ s.tick then orphanSeg s g
      else if g.index ≠ b.index + 1 ∨ n - 1 < g.index ∨ (!g.last ∧ g.seglen ≠ 4096) then
        { s with olp := { s.olp with bursts := s.olp.bursts.map (fun c => if here c then { c with bad := true } else c) } }
      else
        let m := { b.m with payload := b.m.payload ++ slice g.bytes 0 g.seglen }
        if g.last then
          headerRun { s with olp := { s.olp with bursts := s.olp.bursts.filter (fun c => !here c) } } b.op m (b.rsvd + g.rsvd)
        else
          { s with olp := { s.olp with
              bursts := s.olp.bursts.map (fun c => if here c then { c with m := m, index := g.index, rsvd := c.rsvd + g.rsvd } else c) } }

/-- Discards the malformed bursts at the boundary after their bad segment, with an answer (R90). -/
def burstBoundary (s : Body) : Body :=
  let bad := s.olp.bursts.filter (·.bad)
  let s := { s with olp := { s.olp with
    bursts := s.olp.bursts.filter (fun b => !b.bad),
    refused := s.olp.refused.filter (fun e => decide (s.tick < e.2.2.2.2 + 64)),
    orphans := s.olp.orphans.filter (fun e => decide (s.tick < e.2.2.2.2 + 64)) } }
  bad.foldl (fun s b => answer s b.op b.m (fullIssue s.now b.m.issue) false stBADOPCODE 2 0 0 []) s

/-- BURST_TIMEOUT (R93): bursts whose head was taken in 64 knots ago. -/
def burstTimeout (s : Body) : Body :=
  let old := s.olp.bursts.filter (fun b => decide (b.h + 64 ≤ s.tick))
  let s := { s with olp := { s.olp with bursts := s.olp.bursts.filter (fun b => !decide (b.h + 64 ≤ s.tick)) } }
  old.foldl (fun s b =>
    (answer s b.op b.m (fullIssue s.now b.m.issue) false stBURSTTIMEOUT 0 0 0 []).count R.FAB_BURST_TO.COUNT) s

/-! ### Splices (R94 to R98) -/

/-- The opcodes that may be spliced (R94). -/
def spliceOps : List Nat := [opLOAD, opLOADNA, opLOADSHARED, opCODEDLOAD, opADDEXACT, opFADDVEC]

/-- The body of a SPLICED request as it travels (R95). `rsvdBlk` holds bytes 5 to 7 of the block below bits [7:1] of byte 1, and
a member's `rsvd` its bits [15:13] below its bits [63:56]. -/
def spliceBody (x : SpliceMsg) : List Byte :=
  leBytes 1 x.op ++ leBytes 1 (b2n x.combined + 2 * (x.rsvdBlk / 2 ^ 24)) ++ leBytes 2 x.members.length ++ leBytes 1 x.mlen ++
  leBytes 3 x.rsvdBlk ++
  x.members.flatMap (fun e =>
    leBytes 8 (e.cid + e.rsvd % 8 * 2 ^ 13 + e.tag * 2 ^ 16 + e.issue * 2 ^ 32 + e.rsvd / 8 * 2 ^ 56) ++ leBytes 8 e.check.toNat) ++
  x.hdr.payload

/-- The opcode adds (R97). -/
def isAddOp (op : Nat) : Bool := op == opADDEXACT || op == opFADDVEC

/-- The message of member `i`, rebuilt from the common fields and its entry (R96, R97). -/
def memberMsg (x : SpliceMsg) (i : Nat) (e : SpliceMember) : ReqMsg :=
  let n := lenBytes x.hdr.len
  { x.hdr with
    cid := e.cid, tag := e.tag, issue := e.issue, check := e.check,
    len := if x.combined then x.mlen else x.hdr.len,
    payload := if isAddOp x.op && !x.combined then slice x.hdr.payload (i * n) n else [] }

/-- The elements of a combined add: how many (R97). -/
def combinedElems (x : SpliceMsg) : Nat :=
  if x.op = opADDEXACT then 1 else lenBytes x.mlen / atomSize (x.hdr.arg % 16)

/-- The LEN of a combined payload (R97). -/
def combinedLen (x : SpliceMsg) : Nat :=
  if x.hdr.arg % 16 < 4 then x.mlen
  else ((List.range 11).find? (fun l => decide (1 ≤ l) && decide (40 * combinedElems x ≤ lenBytes l))).getD 10

/-- What the home answers to every member, whatever its own checks would say (R97, R98). -/
def spliceBar (s : Body) (x : SpliceMsg) : Option (Nat × Nat) :=
  if !s.on R.FAB_CTRL.SPLICE_IN then some (stBADOPCODE, 5)
  else if x.combined && (!isAddOp x.op || x.hdr.enc) then some (stBADOPCODE, 3)
  else none

/-- What stands against each member before check 8 (R94, R95, R97). A splice of an opcode that may not be spliced gets SUB 0x01
(log entry 109), and one whose form breaks R95 gets SUB 0x02 (log entry 116): both DESIGN CHOICE. -/
def spliceFault (x : SpliceMsg) : Option (Nat × Nat) :=
  let plain := if isAddOp x.op then x.members.length * lenBytes x.hdr.len else 0
  let size := if x.combined then lenBytes (combinedLen x) else plain
  if !spliceOps.contains x.op then some (stBADOPCODE, 1)
  else if 256 < x.members.length ∨ 8192 < (spliceBody x).length ∨ x.hdr.tag ≠ 0 ∨ x.hdr.cid ≠ 0 then some (stBADOPCODE, 2)
  else if (x.combined = true ∧ x.hdr.len ≠ combinedLen x) ∨ x.hdr.payload.length ≠ size then some (stBADOPCODE, 2)
  else none

/-- The reserved bits of a splice that check 8 sees (R83, R95, R97), as a count: of its block, of a member's entry, an MLEN that
should be zero, and the bytes of a combined payload beyond its sums. -/
def spliceRsvd (x : SpliceMsg) (e : SpliceMember) : Nat :=
  let n := combinedElems x
  let bad := x.combined && (if x.hdr.arg % 16 < 4 then !atomPad x.op (x.hdr.arg % 16) x.hdr.payload
    else (List.range n).any (fun i => (LAcc.ofImage (slice x.hdr.payload (40 * i) 40)).isNone) ||
      !allZero (x.hdr.payload.drop (40 * n)))
  x.rsvdBlk + e.rsvd + b2n (!x.combined && x.mlen != 0) + b2n bad

/-- One member of a splice (R96): checks 1 to 8 on its own. The payload that a combined splice's CHECK covers does not travel, so
that check 1 is that of the splice (log entry 34); its first member that passes carries the combined payload. -/
def spliceMember (x : SpliceMsg) (sid : Nat) (s : Body) (ie : Nat × SpliceMember) : Body :=
  let m := memberMsg x ie.1 ie.2
  let ik := fullIssue (s.now + 1) m.issue
  match spliceBar s x with
  | some (a, b) => answer s x.op m ik false a b 0 0 []
  | none =>
    let chk := if x.combined then some ([], false)
      else verify s (reqHdr x.op m) m.enc m.pid (nonce ik m.cid false false m.tag) m.check m.payload
    match chk with
    | none => fabDiscard s R.FAB_AUTH_FAIL.COUNT x.op m
    | some (pay, prev) =>
      let pay := if x.combined then List.replicate (lenBytes x.mlen) 0 else pay
      if !sourceOk s m.link m.cid then fabDiscard s R.FAB_SRC_FAIL.COUNT x.op m
      else if !roleAllows s m.link x.op then answer (oldKey s prev) x.op m ik prev stBADOPCODE 1 0 0 []
      else
        match checks4to8 s x.op { m with rsvd := m.rsvd + spliceRsvd x ie.2 } pay (spliceFault x) with
        | .discard c => fabDiscard s c x.op m
        | .refuse st sub => answer (oldKey s prev) x.op m ik prev st sub 0 0 []
        | .pass =>
          let first := !s.olp.reqs.any (fun r => r.splice == sid)
          enqueue (oldKey s prev) x.op m pay prev sid
            (if x.combined then some (if first then x.hdr.payload else []) else none)

/-- SPLICED (R95, R96): its CHECK, the port, duplicate entries, and each member. -/
def receiveSplice (x : SpliceMsg) (s : Body) : Body :=
  let m := x.hdr
  if !portTakes s m.link then s
  else if crc64 (reqHdr opSPLICED m ++ spliceBody x) ≠ m.check.toNat then
    fabDiscard s R.FAB_AUTH_FAIL.COUNT opSPLICED m
  else if !sourceOk s m.link m.cid then fabDiscard s R.FAB_SRC_FAIL.COUNT opSPLICED m
  else if !roleAllows s m.link opSPLICED then
    answer s opSPLICED m (fullIssue (s.now + 1) m.issue) false stBADOPCODE 1 0 0 []
  else
    let s := s.count R.FAB_SPLICE_MEM.COUNT x.members.length
    let sid := s.olp.arrivals + 1
    let ms := (List.range x.members.length).zip x.members
    ms.foldl (fun s ie =>
      if (x.members.take ie.1).any (fun e => e.cid == ie.2.cid && e.tag == ie.2.tag) then
        s.count R.FAB_TAG_DUP.COUNT
      else spliceMember x sid s ie) s

end Sys2Proof.Machine
end

