-- ==== Sys2Proof/Machine/Peer.lean ====
section
/-!
DEFINITION. Requests of this controller to other Helaks (R80) and to the sleds (R81).
-/

namespace Sys2Proof.Machine

/-- The PEER entry of a HID (R414). -/
def peerOf (s : Body) (hid : Nat) : Option PeerDef := s.img.peers.find? (fun p => p.hid == hid)

/-- The controller may send peer requests (R80). -/
def peerReady (s : Body) : Bool := s.on R.FAB_PEER_CID.VALID

/-- The length code of a request of the controller whose payload, or the data it asks for, has `n` bytes (R73, R75). -/
def lenCode (op n : Nat) : Nat :=
  if op = opCODEDLOAD ∨ n = 0 then 0
  else if op = opSTOREMASKED then 11
  else if 4096 < n then ceilDiv n 4096 + 14
  else ((List.range 10).find? (fun k => decide (n ≤ 2 ^ (k + 3)))).getD 0 + 1

/-- A payload filled up with zeros to its length code. -/
def padTo (len : Nat) (p : List Byte) : List Byte := if 11 < len then p else p ++ List.replicate (lenBytes len - p.length) 0

/-- The controller does not send this peer request (R80, R399, R405): it has no peer CID, the target is fenced, or it is
isolated, shadowing's reads apart. -/
def peerSilent (s : Body) (p : PeerOut) : Bool :=
  !peerReady s || s.fences.any (fun f => f.isHid && f.id == p.hid) ||
    (s.on R.FLT_SELF.ISOLATED && (match p.purpose with | .shadow _ _ => false | _ => true))

/-- Takes a peer request up (R80, R87): with a free tag of its port it is sent, unless its port is not UP or DEGRADED: then it
counts as lost later (R88). Its CLASS, which no rule gives, is free (log entry 117). -/
def peerLaunch (s : Body) (p : PeerOut) : Body :=
  let used := (s.peers.filter (fun q => q.link == p.link && !q.waits)).map (·.tag)
  if 4096 ≤ used.length then { s with peers := s.peers ++ [{ p with waits := true }] }
  else
    let tag := freeTag used (used.length + 1) (AMap.get 0 s.olp.peerTag p.link)
    let s := { s with
      olp := { s.olp with peerTag := AMap.put 0 s.olp.peerTag p.link ((tag + 1) % 65536) },
      peers := s.peers ++ [{ p with tag := tag, knot := s.now, waits := false }] }
    if p.link < 32 && linkUp s p.link && !peerSilent s p then
      let (cls, s) := s.free 1
      let len := lenCode p.op (max p.want p.payload.length)
      sendReq s p.op {
        link := p.link, enc := sessOn s p.pid, tag := tag, pid := p.pid, hid := p.hid, cid := s.get R.FAB_PEER_CID.CID,
        len := len, cls := cls == 1, rsvd := 0, space := decide (p.op < opSEIZEPREPARE), addr := p.addr,
        mapgen := (s.part p.pid).gen, issue := 0, arg := p.arg, check := 0,
        payload := if p.payload.isEmpty then [] else padTo len p.payload } false
    else s

/-- Sends a request to another Helak (R80). -/
def peerSend (s : Body) (hid op addr arg pid : Nat) (payload : List Byte) (purpose : PeerFor) (want : Nat := 0) : Body :=
  peerLaunch s {
    link := match peerOf s hid with | some p => p.link | none => 48, tag := 0, hid := hid, op := op, addr := addr, arg := arg,
    pid := pid, payload := payload, want := want, knot := s.now, purpose := purpose }

/-- The peer requests that wait for a place are taken up again (R87). -/
def peerPump (s : Body) : Body :=
  (s.peers.filter (·.waits)).foldl (fun s p => peerLaunch { s with peers := s.peers.filter (fun q => q != p) } p) s

/-- The peer request that a response answers: by tag and issue knot (R86). -/
def peerMatch (s : Body) (r : RespMsg) : Option PeerOut :=
  s.peers.find? (fun p => !p.waits && p.link == r.link && p.tag == r.tag && p.op == r.op && p.knot % 2 ^ 24 == r.issue)

/-- Forgets a peer request. -/
def peerDone (s : Body) (p : PeerOut) : Body := { s with peers := s.peers.filter (fun q => q != p) }

/-! ### Store-profile requests (R81) -/

/-- Cuts `n` bytes from address `a` into messages: each the largest power of two of 8 to 4,096 bytes that is aligned and fits
(DESIGN CHOICE, log entry 118). -/
def cutMsgs (a n : Nat) : Nat → List (Nat × Nat)
  | 0 => []
  | k + 1 =>
    if n = 0 then []
    else
      let m := (((List.range 10).map (fun i => 2 ^ (12 - i))).find? (fun m => decide (m ≤ n) && a % m == 0)).getD 8
      (a, m) :: cutMsgs (a + m) (n - m) k

/-- Sends a store-profile request that may go now: its position is not SUSPECT, and a tag of its port is free (R87, R359). -/
def sledLaunch (s : Body) (o : SledOut) : Body :=
  let used := (s.sto.asked.filter (fun q => q.port == o.port && q.sent)).map (·.m.tag)
  let put := fun (s : Body) (o : SledOut) => { s with sto := { s.sto with asked := s.sto.asked ++ [o] } }
  if 4096 ≤ used.length ∨ s.get R.STO_SLED.STATE o.pos = 2 then put s o
  else
    let tag := freeTag used (used.length + 1) (AMap.get 0 s.sto.tags o.port)
    let s := { s with sto := { s.sto with tags := AMap.put 0 s.sto.tags o.port ((tag + 1) % 65536) } }
    let m := { o.m with tag := tag, issue := s.now % 2 ^ 24 }
    sendReq (put s { o with m := m, sent := true }) o.op m false

/-- One store-profile request (R81): its number. -/
def sledAsk (s : Body) (pos op addr len : Nat) (cls : Bool) (pay : List Byte) : Nat × Body :=
  let id := s.sto.posted
  let port := s.get R.STO_SLED.PORT pos
  (id, sledLaunch { s with sto := { s.sto with posted := id + 1 } } {
    id := id, pos := pos, port := port, op := op, sent := false,
    m := { link := 32 + port, enc := false, tag := 0, pid := 0, hid := s.hid, cid := 0, len := len, cls := cls, rsvd := 0,
           space := true, addr := addr, mapgen := 0, issue := 0, arg := 0, check := 0, payload := pay } })

/-- Reads or writes `n` bytes at `addr` of a position: the numbers of the requests. A read has no data. -/
def sledSend (s : Body) (pos addr n : Nat) (cls : Bool) (data : Option (List Byte)) : List Nat × Body :=
  (cutMsgs addr n (n / 8 + 1)).foldl (fun (a : List Nat × Body) c =>
    let (i, s) := match data with
      | none => sledAsk a.2 pos opLOAD c.1 (lenCode opLOAD c.2) cls []
      | some d => sledAsk a.2 pos opSTORE c.1 (lenCode opSTORE c.2) cls (slice d (c.1 - addr) c.2)
    (a.1 ++ [i], s)) ([], s)

/-- The requests kept back are taken up again, in order: those to a FAILED position are dropped (R359). -/
def sledPump (s : Body) : Body :=
  (s.sto.asked.filter (fun o => !o.sent)).foldl (fun s o =>
    let s := { s with sto := { s.sto with asked := s.sto.asked.filter (fun q => q.id != o.id) } }
    if s.get R.STO_SLED.STATE o.pos = 3 then s else sledLaunch s o) s

/-- `n` bytes whose values no rule gives: free values. -/
def Body.freeBytes (s : Body) (n : Nat) : List Byte × Body :=
  ((List.range n).map (fun i => BitVec.ofNat 8 (Config.freeWord (s.drawn + i)).toNat), { s with drawn := s.drawn + n })

/-- The positions in state IN, lowest first: the first two are the journal positions (R355). -/
def positionsIn (s : Body) : List Nat := (List.range 16).filter (fun q => s.get R.STO_SLED.STATE q == 1)

/-- META of a sled, from its rows (R355). -/
def sledMeta (s : Body) (pos : Nat) : Nat := s.get R.STO_SLED.ROWS_MAX pos * 65536

/-- The rebuild journal record (R363). -/
def RebuildRec.bytes (m : RebuildRec) : List Byte :=
  leBytes 8 m.knot ++ leBytes 4 m.next ++ leBytes 4 m.last ++ leBytes 1 m.pos ++ leBytes 1 m.port ++ leBytes 1 (b2n m.spare) ++
    leBytes 1 0 ++ leBytes 8 m.serial ++ List.replicate 36 0

/-- The merge journal record (R312). -/
def MergeRec.bytes (m : MergeRec) : List Byte :=
  leBytes 8 m.hdr ++ leBytes 8 m.erel ++ leBytes 4 m.t0 ++ leBytes 4 m.next ++ leBytes 1 m.phase ++ leBytes 1 m.core ++
    leBytes 2 m.pid ++ leBytes 4 m.main0 ++ leBytes 8 m.knot ++ leBytes 8 m.build ++ leBytes 1 (b2n m.compact) ++
    List.replicate 15 0

/-- The label (R355): its 64 bytes, and zeros to 4 KiB. -/
def labelBytes (l : SledLabel) : List Byte :=
  leBytes 2 l.ver ++ leBytes 2 l.hid ++ leBytes 1 l.pos ++ leBytes 1 (b2n l.spare) ++ leBytes 2 0 ++ leBytes 8 l.serial ++
    leBytes 8 l.knot ++ leBytes 16 l.plan ++ List.replicate 4056 0

/-- Writes a record at an offset of the metadata area of some positions. -/
def metaPut (s : Body) (qs : List Nat) (off : Nat) (b : List Byte) : Body :=
  qs.foldl (fun s q => (sledSend s q (sledMeta s q + off) b.length false (some b)).2) s

/-- The journal positions: the two lowest-numbered positions in state IN (R355). -/
def journalPos (s : Body) : List Nat := (positionsIn s).take 2

/-- The place of a merge record's slot, and of a rebuild record's (R355). -/
def mergeSlot (m : MergeRec) (a : Nat) : Nat := 0x1000 + 128 * m.core + 64 * a
def rebuildSlot (a : Nat) : Nat := 0x2000 + 64 * a

/-- The record of a core's merge goes to the journal positions, in its two slots alternately (R312, R355). -/
def mergeJournal (s : Body) (core x : Nat) : Body :=
  match s.merges.find? (fun m => m.core == core && m.ctx == some x) with
  | none => s
  | some m0 =>
    let m := { m0 with knot := s.now, slot := 1 - m0.slot }
    let s := { s with merges := s.merges.map (fun (q : MergeRec) => if q.core = core ∧ q.ctx = some x then m else q) }
    metaPut s (journalPos s) (mergeSlot m m0.slot) m.bytes

/-- The record of the rebuild goes to the journal positions, in its two slots alternately (R355, R363). -/
def rebuildJournal (s : Body) : Body :=
  match s.sto.rebuild with
  | none => s
  | some m0 =>
    let m := { m0 with knot := s.now, slot := 1 - m0.slot }
    metaPut { s with sto := { s.sto with rebuild := some m } } (journalPos s) (rebuildSlot m0.slot) m.bytes

/-- At the boundary after a journal position has left IN, the current records are copied to the next position in IN (R355). -/
def journalCopy (s : Body) : Body :=
  let here := journalPos s
  let new := here.filter (fun q => !s.sto.journals.contains q)
  let left := s.sto.journals.any (fun q => s.get R.STO_SLED.STATE q != 1)
  let s := { s with sto := { s.sto with journals := here } }
  if !left then s
  else
    let s := s.merges.foldl (fun s m => metaPut s new (mergeSlot m (1 - m.slot)) m.bytes) s
    match s.sto.rebuild with
    | some m => metaPut s new (rebuildSlot (1 - m.slot)) m.bytes
    | none => s

end Sys2Proof.Machine
end

