-- ==== Sys2Proof/Machine/Far.lean ====
section
/-!
DEFINITION. Accesses of the far store (R353, R354, R357 to R359, R366): which positions an access touches, its rounds, the
sleds' answers, reconstruction, and the deltas of EC8 writes.
-/

namespace Sys2Proof.Machine

/-- Product in GF(2^8) with the reducing polynomial 0x11D (R354). -/
def gfMul : Nat → Nat → Nat → Nat
  | 0, _, _ => 0
  | k + 1, a, b =>
    let a2 := if 128 ≤ a then (2 * a) ^^^ 0x11D else 2 * a
    (if b % 2 = 1 then a else 0) ^^^ gfMul k a2 (b / 2)

/-- g^m for g = 0x02 (R354). -/
def gfPow : Nat → Nat
  | 0 => 1
  | m + 1 => gfMul 8 (gfPow m) 2

/-- Bytewise XOR of two byte strings. -/
def xorBytes (a b : List Byte) : List Byte := (a.zip b).map (fun p => p.1 ^^^ p.2)

/-- Bytewise product by a constant. -/
def gfScale (c : Nat) (l : List Byte) : List Byte := l.map (fun b => BitVec.ofNat 8 (gfMul 8 b.toNat c))

/-- P and Q of data chunks, given in the order of d (R354). -/
def parityP (ds : List (List Byte)) (n : Nat) : List Byte := ds.foldl xorBytes (List.replicate n 0)
def parityQ (ds : List (List Byte)) (n : Nat) : List Byte :=
  (((List.range ds.length).zip ds).map (fun p => gfScale (gfPow p.1) p.2)).foldl xorBytes (List.replicate n 0)

/-- Records an unrecoverable read or loss (STO_ERR_LOG): cause 1 NEAR_LINE, 2 FAR_CHUNK, 3 REGION_LOST, 4 ROW_UNREPAIRABLE. -/
def stoErr (s : Body) (status cause pos region row addr : Nat) : Body :=
  let s := s.set R.STO_ERR_LOG.STATUS status
  let s := s.set R.STO_ERR_LOG.CAUSE cause
  let s := s.set R.STO_ERR_LOG.POS pos
  let s := s.set R.STO_ERR_LOG.REGION region
  let s := s.set R.STO_ERR_LOG.ROW row
  let s := s.set R.STO_ERR_ADDR.ADDR addr
  s.set R.STO_ERR_KNOT.KNOT s.now

/-- The other positions of a row that can be read (R359). -/
def rowOthers (s : Body) (sch r q : Nat) : List Nat :=
  if sch = 1 ∨ 3 ≤ sch then (List.range 16).filter (fun p => p != q && !posDown s r p)
  else if sch = 2 then (if posDown s r (q ^^^ 1) then [] else [q ^^^ 1])
  else []

/-- The row of an access can still be reconstructed where the chunks of some positions are bad (R345). -/
def rowHolds (s : Body) (sch r q : Nat) (bad : List Nat) : Bool :=
  if sch = 1 ∨ 3 ≤ sch then decide (((List.range 16).filter (fun p => posDown s r p || bad.contains p)).length ≤ 2)
  else if sch = 2 then !posDown s r (q ^^^ 1) && !bad.contains (q ^^^ 1)
  else false

/-- A position is written while it is IN or in REBUILD (R359, R362). -/
def posWritten (s : Body) (q : Nat) : Bool := let st := s.get R.STO_SLED.STATE q; st == 1 || st == 4

/-- The ciphertext of a line (R347): the at-rest key of the region's key owner, the line's SGA as tweak. -/
def lineCipher (s : Body) (r : Region) (sga : Nat) (plain : List Byte) : List Byte :=
  Config.xtsEncrypt ((restKey s r).getD []) (sga / 128) plain

/-- `n` bytes of the far copy from local offset `loc` of region `r`, as ciphertext (R347); the lines of `new` have those bytes. -/
def farCipher (s : Body) (new : List (Nat × List Byte)) (r : Region) (loc n : Nat) : List Byte :=
  (linesOf loc n).flatMap (fun l =>
    let plain := match new.find? (fun e => e.1 == l) with
      | some e => e.2
      | none => (List.range 128).map (fun i => AMap.get 0 s.far (l * 128 + i))
    lineCipher s r (locSga s r (l * 128)) plain)

/-- What position `q` holds of row `r` of a region from chunk offset `off` on: data, P or Q (R353, R354). -/
def posBytes (s : Body) (new : List (Nat × List Byte)) (rid r q off n : Nat) : List Byte :=
  match s.img.regions.find? (fun g => g.id == rid), protOf s rid with
  | some g, some p =>
    let piece := fun (d : Nat) =>
      farCipher s new g (g.localBase + (r - p.rowBase) * dataPerRow s.img.sp2 p.scheme + d * 65536 + off) n
    if p.scheme = 1 ∨ 3 ≤ p.scheme then
      let j := (q + 16 - r % 16) % 16
      if 2 ≤ j then piece (j - 2)
      else if j = 0 then parityP ((List.range 14).map piece) n else parityQ ((List.range 14).map piece) n
    else piece (if p.scheme = 2 then q / 2 else q)
  | _, _ => []

/-- Reads of a far operation: position, sled address, lines. What is asked, and the lines. -/
def farReads (s : Body) (cls : Bool) (l : List (Nat × Nat × Nat)) : List (Nat × Nat × Bool) × Nat × Body :=
  l.foldl (fun (a : List (Nat × Nat × Bool) × Nat × Body) p =>
    let (ids, s) := sledSend a.2.2 p.1 p.2.1 (128 * p.2.2) cls none
    (a.1 ++ ids.map (fun i => (i, p.1, false)), a.2.1 + p.2.2, s.count R.STO_FAR_RD.COUNT p.2.2)) ([], 0, s)

/-- Writes of a far operation. Those to a position that is IN or in REBUILD are waited for; one to a SUSPECT position stays in its
port's send queue, and one to a FAILED or ABSENT position is not sent (R359, R362). -/
def farWrites (s : Body) (o : FarOp) (l : List (Nat × Nat × Nat)) : List (Nat × Nat × Bool) × Nat × Body :=
  l.foldl (fun (a : List (Nat × Nat × Bool) × Nat × Body) p =>
    let st := s.get R.STO_SLED.STATE p.1
    if st = 1 ∨ st = 2 ∨ st = 4 then
      let data := posBytes a.2.2 o.new o.region o.row p.1 (p.2.1 - 65536 * o.row) (128 * p.2.2)
      let (ids, s) := sledSend a.2.2 p.1 p.2.1 (128 * p.2.2) o.cls (some data)
      ((if st = 2 then a.1 else a.1 ++ ids.map (fun i => (i, p.1, true))), a.2.1 + p.2.2, s.count R.STO_FAR_WR.COUNT p.2.2)
    else a) ([], 0, s)

/-- Replaces a far operation. -/
def putOp (s : Body) (o : FarOp) : Body :=
  { s with sto := { s.sto with ops := s.sto.ops.map (fun p => if p.id = o.id then o else p) } }

/-- What a far operation has started: its number, the lines that it reads and writes at the sleds, and the state. -/
structure FarRun where
  id : Option Nat := none
  rd : Nat := 0
  wr : Nat := 0
  s : Body

/-- Starts a far operation: its first messages go out. -/
def farOpen (s : Body) (o : FarOp) (reads writes : List (Nat × Nat × Nat)) : FarRun :=
  let id := s.sto.nextOp
  let (a, n, s) := farReads s o.cls reads
  let (b, m, s) := farWrites s o writes
  { id := some id, rd := n, wr := m + ((o.writes.map (fun p => if posWritten s p.1 then p.2.2 else 0)).foldl (· + ·) 0),
    s := { s with sto := { s.sto with nextOp := id + 1, ops := s.sto.ops ++ [{ o with id := id, out := a ++ b }] } } }

/-- Pieces of a translated access that lie in one unit: local offset, SGA, length. -/
def farPieces (segs : List (Nat × Nat × Nat)) : List (Nat × Nat × Nat) :=
  segs.flatMap (fun g => (cutPages g.1 g.2.2 18).map (fun p => (p.1, g.2.1 + (p.1 - g.1), p.2)))

/-- Lines of a piece. -/
def pieceLines (loc n : Nat) : Nat := (linesOf loc n).length

/-- What waits for a far access: a request, or a context, with its admission boundary and CLASS (R81: 1 for what a client
drives). -/
structure FarFor where
  req : Option Nat := none
  ctx : Option (Nat × Nat) := none
  knot : Nat
  cls : Bool

/-- A far operation on one piece, before anything is sent. -/
def FarFor.op (w : FarFor) (s : Body) (loc n rid r sch : Nat) : FarOp := {
  id := 0, reqs := w.req.toList, ctxs := w.ctx.toList, region := rid, row := r, scheme := sch, knot := w.knot, started := s.now, span := [(loc, n)],
  areas := [(65536 * r + loc % 65536 / 128 * 128, pieceLines loc n)], cls := w.cls }

/-- A read of the same lines that has been started in this knot for a splice of reads serves another member (R98, R517). -/
def farShared (s : Body) (mates : List Nat) (o : FarOp) : Option FarOp :=
  s.sto.ops.find? (fun p => !p.parity && p.writes.isEmpty && p.row == o.row && p.region == o.region && p.areas == o.areas &&
    p.reqs.any (fun i => mates.contains i))

/-- Starts the read of one piece: nothing where the near tier serves it. `mates` are the other members of a splice. -/
def farRead (s : Body) (w : FarFor) (mates : List Nat) (p : Nat × Nat × Nat) : FarRun :=
  let (loc, _, n) := p
  let lines := pieceLines loc n
  if isResident s loc then { s := s.count R.STO_NEAR_RD.COUNT lines }
  else match rowOf s loc with
    | none => { s := s }
    | some (rid, r, d, sch) =>
      let q := (chunkPos s.img.sp2 sch r d).headD 0
      let o := w.op s loc n rid r sch
      let at_ := fun (x : Nat) => (x, o.areas.headD (0, 0))
      match farShared s mates o with
      | some j => { id := some j.id, s := putOp s { j with reqs := j.reqs ++ o.reqs } }
      | none =>
        if posDown s r q then
          let a := farOpen s { o with recon := true } ((rowOthers s sch r q).map at_) []
          { a with s := a.s.count R.STO_RECON.COUNT }
        else farOpen s o [at_ q] []

/-- A parity round of the same row and boundary that has just been started takes another write in (R358). -/
def farJoin (s : Body) (rid r knot : Nat) : Option FarOp :=
  s.sto.ops.find? (fun o => o.parity && o.phase == 1 && o.region == rid && o.row == r && o.knot == knot && o.started == s.now)

/-- The intent log is full (R358): 65,536 parity rounds are under way. -/
def intentFull (s : Body) : Bool := decide (65536 ≤ (s.sto.ops.filter (·.parity)).length)

/-- Starts the write of one piece that reaches the far store (R357 to R359); `new` holds what its lines become. P and Q of lines
that the round already covers are read and written once. -/
def farWrite (s : Body) (w : FarFor) (new : List (Nat × List Byte)) (p : Nat × Nat × Nat) : FarRun :=
  let (loc, _, n) := p
  if !writesFar s loc then { s := s }
  else match rowOf s loc with
    | none => { s := s }
    | some (rid, r, d, sch) =>
      let ps := chunkPos s.img.sp2 sch r d
      let o := { w.op s loc n rid r sch with new := new }
      let area := o.areas.headD (0, 0)
      let at_ := fun (x : Nat) => (x, area)
      if sch = 1 ∨ 3 ≤ sch then
        let q := ps.headD 0
        let data := if isResident s loc then [] else if posDown s r q then rowOthers s sch r q else [q]
        let pq := (ps.drop 1).filter (fun x => !posDown s r x)
        match farJoin s rid r w.knot with
        | some j =>
          let covered := j.areas.contains area
          let reads := data ++ (if covered then [] else pq.filter (fun x => !data.contains x))
          let writes := (q :: (if covered then [] else ps.drop 1)).map at_
          let (m, k, s) := farReads s o.cls (reads.map at_)
          { id := some j.id, rd := k, wr := (writes.map (fun p => if posWritten s p.1 then p.2.2 else 0)).foldl (· + ·) 0,
            s := putOp s { j with
              reqs := j.reqs ++ o.reqs, ctxs := j.ctxs ++ o.ctxs, areas := (j.areas ++ [area]).eraseDups, span := j.span ++ o.span,
              new := j.new.filter (fun e => !new.any (fun f => f.1 == e.1)) ++ new, out := j.out ++ m,
              writes := j.writes ++ writes } }
        | none =>
          let a := farOpen s { o with parity := true, writes := ps.map at_ } ((data ++ pq).eraseDups.map at_) []
          { a with s := a.s.count R.STO_PARITY.COUNT }
      else farOpen s o [] (ps.map at_)

/-- Knots that an access adds to a budget (R357). -/
def farKnots (s : Body) (write : Bool) (p : Nat × Nat × Nat) : Nat :=
  let (loc, _, _) := p
  match rowOf s loc with
  | none => 0
  | some (_, r, d, sch) =>
    if write then
      if !writesFar s loc then 0
      else if sch = 3 then
        let far := ((s.img.groups.filter (fun g => g.members.contains s.hid)).flatMap (fun g => g.members.drop 8)).map (fun h =>
          match peerOf s h with
          | some e => if e.stages = 0 then 3 else 4 + 2 * (e.stages - 1)
          | none => 3)
        3 + (far.foldl max 3 + 3)
      else if sch = 1 ∨ 4 ≤ sch then 3 else 1
    else if isResident s loc then 0
    else if posDown s r ((chunkPos s.img.sp2 sch r d).headD 0) then 2 else 1

/-- The EC8 group of an EC8 data region (R365): its PROT entry and members. -/
def ecGroup (s : Body) (rid : Nat) : Option (ProtDef × List Nat) :=
  match protOf s rid with
  | none => none
  | some p => if p.scheme = 3 then (s.img.groups.find? (fun g => g.num == p.group)).map (fun g => (p, g.members)) else none

/-- The SGA at which member `m`'s delta for relative offset `o` goes in the companion of a group (R365): scheme 4 P, 5 Q. -/
def companionSga (s : Body) (group scheme m o : Nat) : Option Nat :=
  match s.img.prots.find? (fun p => p.group == group && p.scheme == scheme) with
  | none => none
  | some p => (s.img.regions.find? (fun r => r.id == p.region)).map (fun r => r.base + m * (r.size / 8) + o)

/-- Sends the deltas of an EC8 write (R366): `lines` gives local line, SGA, old and new plaintext. -/
def ecDeltas (s : Body) (w : FarFor) (lines : List (Nat × Nat × List Byte × List Byte)) : Option Nat × Body :=
  match lines with
  | [] => (none, s)
  | (l0, _, _, _) :: _ =>
    match regionOfLoc s (l0 * 128) with
    | none => (none, s)
    | some r => match ecGroup s r.id with
      | none => (none, s)
      | some (p, members) =>
        let id := s.sto.nextOp
        let ds := lines.flatMap (fun x =>
          let (l, sga, old, new) := x
          let d := xorBytes (lineCipher s r sga old) (lineCipher s r sga new)
          [(8, 4), (9, 5)].filterMap (fun ms => match companionSga s p.group ms.2 p.member (l * 128 - r.localBase) with
            | some a => some (members.getD ms.1 0, a, d)
            | none => none))
        let o : FarOp := {
          id := id, reqs := w.req.toList, ctxs := w.ctx.toList, region := r.id, row := 0, scheme := 3, knot := w.knot,
          started := s.now, areas := [], cls := w.cls, members := ds.map (fun d => d.1) }
        let s := { s with sto := { s.sto with nextOp := id + 1, ops := s.sto.ops ++ [o] } }
        let s := s.count R.STO_EC_DELTA.COUNT ds.length
        let s := ds.foldl (fun s d =>
          if s.fences.any (fun f => f.isHid && f.id == d.1) then
            { s.count R.FLT_EC_SKIP.COUNT with sto := { s.sto with
              ops := s.sto.ops.map (fun x => if x.id = id then { x with members := x.members.erase d.1 } else x) } }
          else peerSend s d.1 opSTORE d.2.1 0 (r.pids.headD 0) d.2.2 (.delta id d.1)) s
        (some id, s)

/-- A far operation is done: a reconstructed line is written back (R359), and those that waited for it go on; a context has the
lines that it has read. -/
def farDone (s : Body) (o : FarOp) : Body :=
  let s := match o.fix with
    | some q => o.areas.foldl (fun (s : Body) (a : Nat × Nat) =>
        let data := posBytes s o.new o.region o.row q (a.1 - 65536 * o.row) (128 * a.2)
        let (_, s) := sledSend s q a.1 (128 * a.2) false (some data)
        (s.count R.STO_FAR_FIX.COUNT a.2).count R.STO_FAR_WR.COUNT a.2) s
    | none => s
  { s with
    sto := { s.sto with ops := s.sto.ops.filter (fun x => x.id != o.id) },
    olp := { s.olp with reqs := s.olp.reqs.map (fun r =>
      if r.farOps.contains o.id then
        let l := r.farOps.filter (fun x => x != o.id)
        { r with farOps := l, stage := if l.isEmpty ∧ r.stage = .sled then .ready else r.stage }
      else r) },
    cores := s.cores.map (fun c => (c.1, { c.2 with
      ctxs := c.2.ctxs.map (fun x => (x.1, if !x.2.farOps.contains o.id then x.2 else { x.2 with
        farOps := x.2.farOps.filter (fun y => y != o.id)
        got := if o.new.isEmpty then x.2.got ++ o.span.flatMap (fun p => linesOf p.1 p.2) else x.2.got })) })) }

/-- A far operation goes on when its answers are in: the second round of a parity write, or its end (R357). -/
def farNext (s : Body) (id : Nat) : Body :=
  match s.sto.ops.find? (fun o => o.id == id) with
  | none => s
  | some o =>
    if !o.out.isEmpty ∨ !o.members.isEmpty then s
    else if o.parity ∧ o.phase = 1 then
      let (m, _, s) := farWrites s o o.writes
      let s := putOp s { o with phase := 2, out := m }
      if m.isEmpty then farDone s { o with phase := 2 } else s
    else farDone s o

/-- Those that wait for a far operation cannot be served: ST_UNCORRECTABLE (R359); a step that reads one of its lines fails (R267). -/
def farFail (s : Body) (o : FarOp) (q : Nat) : Body :=
  let s := stoErr s stUNCORRECTABLE 2 q o.region o.row (match s.img.regions.find? (fun r => r.id == o.region) with
    | some r => r.localBase | none => 0)
  let s := { s with
    olp := { s.olp with reqs := s.olp.reqs.map (fun r =>
      if o.reqs.contains r.id then { r with verdict := stUNCORRECTABLE } else r) },
    cores := s.cores.map (fun c => (c.1, { c.2 with
      ctxs := c.2.ctxs.map (fun x => (x.1, if !o.ctxs.contains (c.1, x.1) then x.2
        else if o.new.isEmpty then { x.2 with badLines := x.2.badLines ++ o.span.flatMap (fun p => linesOf p.1 p.2) }
        else { x.2 with farBad := true })) })) }
  farDone s { o with fix := none }

/-- The chunk of a far operation on position `q` cannot be read (R359): reconstruction from the other chunks, where that is
possible; `fix` where it is to be written back. -/
def farBad (s : Body) (o : FarOp) (q : Nat) (fix : Bool) : Body :=
  let bad := (o.bad ++ [q]).eraseDups
  if rowHolds s o.scheme o.row q bad then
    if o.recon then farNext (putOp s { o with bad := bad }) o.id
    else
      let others := (rowOthers s o.scheme o.row q).filter (fun x => !o.out.any (fun e => e.2.1 == x))
      let (m, _, s) := farReads s o.cls (others.flatMap (fun x => o.areas.map (fun (a : Nat × Nat) => (x, a))))
      let s := s.count R.STO_RECON.COUNT
      let s := { s with olp := { s.olp with reqs := s.olp.reqs.map (fun r =>
        if o.reqs.contains r.id ∧ !o.parity then { r with extra := max r.extra 2 } else r) } }
      farNext (putOp s { o with recon := true, bad := bad, out := o.out ++ m, fix := if fix then some q else none }) o.id
  else farFail s o q

/-- A sled's answer to a far operation's request number `id` (R359). -/
def farAnswer (s : Body) (id status : Nat) : Body :=
  match s.sto.ops.find? (fun o => o.out.any (fun e => e.1 == id)) with
  | none => s
  | some o =>
    match o.out.find? (fun e => e.1 == id) with
    | none => s
    | some (_, q, write) =>
      let o := { o with out := o.out.filter (fun e => e.1 != id) }
      let s := putOp s o
      if status = stOK ∨ write = true then farNext s o.id
      else farBad s o q (status == stUNCORRECTABLE && s.get R.STO_SLED.STATE q == 1)

/-- SLED_RESPONSE (R71, R81, R86, R359, R360): a sled's answer to an outstanding request, by its port, tag and issue knot; any
other is discarded, and so is one whose CHECK fails or whose status no sled gives. ST_INTERNAL, ST_ALIGN and ST_BAD_OPCODE
declare the position failed. -/
def sledAnswer (s : Body) (m : RespMsg) : Body :=
  let hdr := respHdr m.op m.enc m.tag m.pid m.hid m.cid m.len m.cls m.serve m.hint m.rsvd m.sub m.status m.mapgen m.issue m.arg
  match s.sto.asked.find? (fun o => o.sent && o.m.link == m.link && o.m.tag == m.tag && o.m.issue == m.issue && o.op == m.op) with
  | none => s
  | some o =>
    if m.enc = true ∨ crc64 (hdr ++ m.payload) ≠ m.check.toNat then
      (fabErr s 0 m.op m.link m.cid m.tag true).count R.FAB_AUTH_FAIL.COUNT
    else
      let faulty := m.status = stINTERNAL ∨ m.status = stALIGN ∨ m.status = stBADOPCODE
      if ¬(m.status = stOK ∨ m.status = stUNCORRECTABLE ∨ faulty) then s
      else
        let s := { s with sto := { s.sto with asked := s.sto.asked.filter (fun q => q.id != o.id) } }
        farAnswer (if faulty then s.arm (.posFail o.pos 3) else s) o.id m.status

/-- A position stops serving: what was asked of it counts as bad for reads and as answered for writes (R359). A write to a
SUSPECT position waits again in its port's send queue; one to a FAILED position is dropped. -/
def farPosLost (s : Body) (q : Nat) : Body :=
  let failed := s.get R.STO_SLED.STATE q = 3
  let keep := fun (o : SledOut) => if o.pos ≠ q then some o
    else if failed ∨ o.op = opLOAD then none else some { o with sent := false }
  let s := { s with sto := { s.sto with asked := s.sto.asked.filterMap keep } }
  s.sto.ops.foldl (fun s o0 =>
    match s.sto.ops.find? (fun o => o.id == o0.id) with
    | none => s
    | some o =>
      if o.out.any (fun e => e.2.1 == q) then
        let reads := o.out.any (fun e => e.2.1 == q && !e.2.2)
        let o := { o with out := o.out.filter (fun e => e.2.1 != q) }
        let s := putOp s o
        if reads then farBad s o q false else farNext s o.id
      else s) s

/-- A parity member has acknowledged a delta, or been declared dead (R366, R399). -/
def deltaDone (s : Body) (id hid : Nat) : Body :=
  match s.sto.ops.find? (fun o => o.id == id) with
  | none => s
  | some o => farNext (putOp s { o with members := o.members.erase hid }) id

/-- What a companion's bytes become under a peer STORE of delta `d` at SGA `a` (R365). -/
def companionNew (s : Body) (r : Region) (a : Nat) (old d : List Byte) : List Byte :=
  let m := (a - r.base) / (r.size / 8)
  match protOf s r.id with
  | some p => if p.scheme = 5 then xorBytes old (gfScale (gfPow m) d) else xorBytes old d
  | none => old

end Sys2Proof.Machine
end

