-- ==== Sys2Proof/Machine/Atomic.lean ====
section
/-!
DEFINITION. What the atomics compute (R75, R76, R77, R217): operand fields, exact adds over groups, and the results of
the other atomics.
-/

namespace Sys2Proof.Machine

/-- The element format of an atomic's TYPE; none for integers. A TYPE of 16 or more is a tier's format (R281). -/
def atomFmt (ty : Nat) : Option FFmt :=
  if ty = 4 then some fFP32 else if ty = 5 then some fBF16 else if 16 ≤ ty then fmtOfCode (ty - 16) else none

/-- The TYPE under which an engine adds to elements of a format (R281): the atomics' own, where one matches. -/
def addTy (fmt : Nat) : Nat := if fmt = 0 then 4 else if fmt = 2 then 5 else 16 + fmt

/-- RET and RND of an atomic (R76). -/
def atomRet (m : ReqMsg) : Bool := bitAt m.arg 4
def atomRnd (m : ReqMsg) : Nat := bits m.arg 6 5

/-- One thing added to an element: a value, or the exact image of a combined add (R97). -/
inductive Addend where
  | val (v : Nat)
  | img (a : LAcc)
  deriving DecidableEq, Repr

/-- The exact sum of addends, joined to a sum so far: an accumulator image, or an integer of 8 bytes (R77). -/
def addSum (ty : Nat) (sum : List Byte) (as : List Addend) : List Byte :=
  match atomFmt ty with
  | none => leBytes 8 (as.foldl (fun t a => match a with | .val v => t + v | .img _ => t) (leNat sum))
  | some f => ((as.foldl (fun t a => match a with | .val v => t.term (f.dec v) | .img b => t.comb b)
      ((LAcc.ofImage sum).getD {})).image)

/-- The sum that a group starts from: nothing. -/
def addBase (ty : Nat) : List Byte :=
  match atomFmt ty with
  | none => leBytes 8 0
  | some _ => ({} : LAcc).image

/-- What a group leaves: m and the sum, rounded once; integers wrap (R76, R212, R215). -/
def addLeft (ty rnd m : Nat) (sum : List Byte) : Nat :=
  match atomFmt ty with
  | none => (m + leNat sum) % 2 ^ (8 * atomSize ty)
  | some f => (((LAcc.ofImage sum).getD {}).term (f.dec m)).round f rnd

/-- round(m + Σ a), exactly, with one rounding; integers wrap (R76, R77, R212). -/
def addRound (ty rnd m : Nat) (as : List Addend) : Nat := addLeft ty rnd m (addSum ty (addBase ty) as)

/-- Elements of an add request: their number. -/
def addCount (r : Req) : Nat :=
  if r.op = opADDEXACT then 1 else lenBytes r.m.len / atomSize (atomTy r.m)

/-- An add request (R77). -/
def isAdd (op : Nat) : Bool := op == opADDEXACT || op == opFADDVEC

/-- The local offset of a translated request's first byte. -/
def reqLoc (r : Req) : Nat := match r.segs with | some ((l, _, _) :: _) => l | _ => 0

/-- What an add request adds, by local offset (R76, R97). -/
def reqAdds (r : Req) : List (Nat × Addend) :=
  let ty := atomTy r.m
  let sz := atomSize ty
  let at_ := fun i => reqLoc r + sz * i
  match r.combined with
  | some p =>
    if p.isEmpty then []
    else (List.range (addCount r)).map (fun i =>
      if 4 ≤ ty then (at_ i, .img ((LAcc.ofImage (slice p (40 * i) 40)).getD {})) else (at_ i, .val (le p (sz * i) sz)))
  | none => (List.range (addCount r)).map (fun i => (at_ i, .val (le r.m.payload (sz * i) sz)))

/-- The adds of one group (R77): those admitted at boundary `a` with the same location, TYPE and RND. -/
def groupAdds (s : Body) (a loc ty rnd : Nat) : List Addend :=
  (s.olp.reqs.filter (fun q => isAdd q.op && q.stage != .waiting && q.admitted == a && q.segs.isSome &&
    atomTy q.m == ty && atomRnd q.m == rnd)).flatMap
    (fun q => ((reqAdds q).filter (fun e => e.1 == loc)).map (·.2))

/-- An add admitted at boundary `a` is not yet translated, so the groups of that boundary are not yet known. -/
def groupsOpen (s : Body) (a : Nat) : Bool :=
  s.olp.reqs.any (fun q => isAdd q.op && q.stage != .waiting && q.admitted == a && q.segs.isNone)

/-- The group has this boundary, location, TYPE and RND. -/
def AddGroup.isOf (g : AddGroup) (a loc ty rnd : Nat) : Bool := g.knot == a && g.loc == loc && g.ty == ty && g.rnd == rnd

/-- The group of a location, if it has acted (R77): the value before it. -/
def groupDone (s : Body) (a loc ty rnd : Nat) : Option Nat := (s.olp.groups.find? (fun g => g.isOf a loc ty rnd)).map (·.m)

/-- A new group of these addends acts: the value before it. -/
def groupNew (s : Body) (a loc ty rnd : Nat) (as : List Addend) : Nat × Body :=
  let sz := atomSize ty
  let m := leNat (s.rd loc sz)
  let sum := addSum ty (addBase ty) as
  let s := s.wr loc (leBytes sz (addLeft ty rnd m sum))
  (m, { s with olp := { s.olp with groups :=
    s.olp.groups ++ [{ knot := a, loc := loc, ty := ty, rnd := rnd, m := m, sum := sum : AddGroup }] } })

/-- One group acts, with `extra` addends of a seizing applied at the same boundary (R77, R332): the value before it. -/
def groupAct (s : Body) (a loc ty rnd : Nat) (extra : List Addend) : Nat × Body :=
  groupNew s a loc ty rnd (extra ++ groupAdds s a loc ty rnd)

/-- What a group that is to take a later place acts on (R281): `later` are the groups that have acted on the location since. They
take their places before it, and are given with what they then act on; where something else has been written since, that
stands. -/
def groupBase (g : AddGroup) (later : List AddGroup) (v : Nat) : Nat × List AddGroup :=
  let (now, base, whole, moved) := later.foldl (fun (a : Nat × Nat × Bool × List AddGroup) (h : AddGroup) =>
    (addLeft h.ty h.rnd h.m h.sum, addLeft h.ty h.rnd a.2.1 h.sum, a.2.2.1 && h.m == a.1, a.2.2.2 ++ [{ h with m := a.2.1 }]))
    (addLeft g.ty g.rnd g.m g.sum, g.m, true, [])
  if whole ∧ now = v then (base, moved) else (v, later)

/-- An engine's adds of boundary `a` to one element (R281, R287): they join the group of that boundary, which takes its place after
the requests that are not in it, so that m and every addend are rounded once. What its members have been answered stands (log
entry 122). -/
def groupJoin (s : Body) (a loc ty rnd : Nat) (as : List Addend) : Body :=
  let sz := atomSize ty
  match s.olp.groups.find? (fun g => g.isOf a loc ty rnd) with
  | none => (groupNew s a loc ty rnd as).2
  | some g =>
    let after := ((s.olp.groups.dropWhile (fun h => h != g)).drop 1).filter (fun h => h.knot == a && h.loc == loc)
    let (m, moved) := groupBase g after (leNat (s.rd loc sz))
    let sum := addSum ty g.sum as
    let s := s.wr loc (leBytes sz (addLeft ty rnd m sum))
    let rest := s.olp.groups.filter (fun h => h != g && !after.contains h)
    { s with olp := { s.olp with groups := rest ++ moved ++ [{ g with m := m, sum := sum }] } }

/-- The value an atomic other than an add leaves, from the old value and its operands (R75, R76, R217). -/
def atomResult (op ty old x y : Nat) : Nat :=
  let w := 8 * atomSize ty
  if op = opCAS then (if old = x then y else old)
  else if op = opSWAP then x
  else if op = opMIN then
    (match atomFmt ty with
      | some f => numMin f old x
      | none => if ty < 2 then (if toSigned w x < toSigned w old then x else old) else min old x)
  else if op = opMAX then
    (match atomFmt ty with
      | some f => numMax f old x
      | none => if ty < 2 then (if toSigned w old < toSigned w x then x else old) else max old x)
  else if op = opAND then old &&& x
  else if op = opOR then old ||| x
  else old ^^^ x

end Sys2Proof.Machine
end

