-- ==== Sys2Proof/Machine/Obs.lean ====
section
/-!
DEFINITION. Records that the controller writes by itself: hot records (R124, R126, R127), and observation (spec/21):
counter sets, sampling, tracing, watchpoints, buffers and rings.
-/

namespace Sys2Proof.Machine

/-- The controller may write these lines (R147): the entries go; where a client still holds one, a round is sent first
and the answer is no. -/
def clearForWrite (s : Body) : List Nat → Bool × Body
  | [] => (true, s)
  | l :: t =>
    let s := reclaim s l
    let (ok, s) := match entryOf s l with
      | none => (true, s)
      | some e =>
        if e.st = .l then (true, s)
        else if (roundOn s l).isSome then (false, s)
        else if (roundTargets s e none).isEmpty then (true, setEntry s l none)
        else (false, (startRound s e .invalidate none false false).2)
    let (r, s) := clearForWrite s t
    (ok && r, s)

/-! ### Hot rings (R127) -/

/-- The controller reads a line through the directory (R18, R127): the home copy, or that of a client that owns it, which keeps
it; none while it must wait for the owner. -/
def lookLine (s : Body) (line : Nat) : Option (List Byte) × Body :=
  let s := reclaim s line
  match entryOf s line with
  | none => (some (s.rd (line * 128) 128), s)
  | some e =>
    if e.st ≠ .x ∧ e.reissue = none then (some (s.rd (line * 128) 128), s)
    else if (roundOn s line).isSome then (none, s)
    else if (roundTargets s e none).isEmpty then (some (s.rd (line * 128) 128), setEntry s line none)
    else match s.xlt.hotSeen.find? (fun x => x.1 == line), e.reissue with
      | some (_, d), none => (some d, { s with xlt := { s.xlt with hotSeen := s.xlt.hotSeen.filter (fun x => x.1 != line) } })
      | _, _ => (none, (startRound s e .look none false false).2)

/-- Tries to append a hot record: true where it is done with, written or dropped. A full ring is only read. -/
def hotTry (s : Body) (pid : Nat) (record : List Byte) : Bool × Body :=
  let base := s.get R.XLT_PART_HOT.RING 0 pid * 4096
  let cap := (2 ^ min 24 (max 12 (s.get R.XLT_PART_HOT.SIZE_LOG 0 pid)) - 64) / 16
  let full := fun (h : List Byte) => (le h 0 8 + 2 ^ 64 - le h 8 8) % 2 ^ 64 == cap
  if !s.on R.XLT_PART_HOT.EN 0 pid then (true, s)
  else match sgaLoc s base with
  | none => (true, s)
  | some (_, loc) =>
    match lookLine s (loc / 128) with
    | (none, s) => (false, s)
    | (some h, s) =>
      let o := loc % 128
      if full (h.drop o) then (true, s.count R.XLT_HOT_DROP.COUNT)
      else
        let (ok, s) := clearForWrite s [loc / 128]
        if !ok then (false, s)
        else
          let h := s.rd loc 16
          let prod := le h 0 8
          if full h then (true, s.count R.XLT_HOT_DROP.COUNT)
          else match sgaLoc s (base + 64 + 16 * (prod % cap)) with
            | none => (true, s)
            | some (_, l) =>
              let (ok, s) := clearForWrite s [l / 128]
              if !ok then (false, s)
              else (true, ((s.wr l record).wr loc (leBytes 8 (prod + 1))).count R.XLT_HOT_REC.COUNT)

/-- The hot records that wait, oldest first; one that must wait holds up the later ones of its partition. -/
def hotDrain (s : Body) : Body :=
  let w := s.xlt.hotWait
  w.foldl (fun s e =>
    if s.xlt.hotWait.any (fun f => f.1 == e.1) then { s with xlt := { s.xlt with hotWait := s.xlt.hotWait ++ [e] } }
    else
      let (ok, s) := hotTry s e.1 e.2
      if ok then s else { s with xlt := { s.xlt with hotWait := s.xlt.hotWait ++ [e] } })
    { s with xlt := { s.xlt with hotWait := [] } }

/-- Forms a hot record (R127): `far` and `engine` are its FLAGS. -/
def hotRecord (s : Body) (pid addr count : Nat) (far engine : Bool) : Body :=
  let record := leBytes 8 (addr / 65536 * 65536) ++ leBytes 4 s.now ++ leBytes 1 count ++
    leBytes 1 (b2n far + 2 * b2n engine) ++ leBytes 2 0
  if s.xlt.hotWait.isEmpty then
    let (ok, s) := hotTry s pid record
    if ok then s else { s with xlt := { s.xlt with hotWait := [(pid, record)] } }
  else { s with xlt := { s.xlt with hotWait := s.xlt.hotWait ++ [(pid, record)] } }

/-- Units that wait for their promotion or are being promoted. -/
def promotePending (s : Body) (unit : Nat) : Bool :=
  s.sto.queue.contains unit || s.sto.ahead.contains unit ||
    s.sto.migrations.any (fun m => match m with | .promote u _ => u == unit | .writeback .. => false)

/-- An access of the partition touches a unit: cursors of its halyards that have it in their lead move past it (R382,
R383). -/
def halTouch (s : Body) (pid unit : Nat) : Body :=
  (List.range 4).foldl (fun s h =>
    let j := pid * 4 + h
    if !s.on R.PRT_HAL_CTRL.EN 0 j then s
    else
      let cur := s.get R.PRT_HAL_CUR.CUR 0 j
      let lead := max 1 (s.get R.PRT_HAL_CTRL.LEAD 0 j)
      let ks := (List.range lead).filter (fun k => (s.part pid).halUnits.contains (h, cur + k, unit))
      match ks with
      | [] => s
      | k :: _ =>
        let s := if promotePending s unit then s.count R.PRT_HAL_LATE.COUNT else s
        let s := s.set R.PRT_HAL_CUR.CUR (cur + k + 1) 0 j
        if s.get R.PRT_HAL_CTRL.LEN 0 j ≤ cur + k + 1 then s.set R.PRT_HAL_CTRL.EN 0 0 j else s) s

/-- ACCESS_COUNT (R124, R126): one access of a unit, with the record and the promotion that setting HOT brings. -/
def accessUnit (s : Body) (pid word unit : Nat) (engine : Bool) : Body :=
  let s := halTouch s pid unit
  if !s.on R.XLT_CTRL.ACC_EN then s
  else
    let v := AMap.get 0 s.xlt.acc unit
    let c := min 127 (v % 128 + 1)
    let th := s.get R.XLT_CTRL.HOT_THRESH
    let sets := v < 128 && th != 0 && decide (th ≤ c)
    let s := { s with xlt := { s.xlt with acc := AMap.put 0 s.xlt.acc unit (c + (if sets then 128 else v / 128 * 128)) } }
    if sets then
      let loc := unit * 65536
      let far := !isResident s loc
      let t := tierOf s loc
      let s := if far && (t == 1 || t == 2) then promoteWant s unit false else s
      let shared := match regionOfLoc s loc with | some r => r.shared | none => true
      if !shared && s.on R.XLT_PART_HOT.EN 0 pid then hotRecord s pid word c far engine else s
    else s

/-! ### Records and staging (R470, R487) -/

/-- The timestamp of an event at a boundary: OFFSET 0 (R472); otherwise that of the moment. -/
def timeOf (s : Body) (region : Nat) (boundary : Bool) : List Byte × Body :=
  let (b, t) := stamp s region
  if boundary then (b.take 8 ++ [0] ++ b.drop 9, { t with drawn := s.drawn }) else (b, t)

/-- A record of TYPE `ty` (R470). -/
def obsBytes (ty rflags : Nat) (time body : List Byte) : List Byte :=
  leBytes 2 (4 + time.length + body.length) ++ leBytes 1 ty ++ leBytes 1 rflags ++ time ++ body

/-- Bytes that wait in staging. -/
def obsStagedBytes (s : Body) : Nat := (s.obs.staged.map (fun r => r.bytes.length)).foldl (· + ·) 0

/-- A record is dropped (R487). -/
def obsDrop (s : Body) (r : ObsRec) : Body :=
  let old := s.obs.lost.find? (fun e => e.1 == r.dest)
  let e := match old with
    | some (d, c, b, k) => (d, c + 1, b + r.bytes.length, k)
    | none => (r.dest, 1, r.bytes.length, r.knot)
  let s := { s with obs := { s.obs with lost := s.obs.lost.filter (fun (x : Nat × Nat × Nat × Nat) => x.1 != r.dest) ++ [e] } }
  let s := s.count R.OBS_LOST.COUNT
  if 2 ≤ r.dest then s.set R.OBS_EVENT.RING_DROP 1 else s.set R.OBS_EVENT.LOST 1

/-- The timestamp carries a gap extension (R46), and the same timestamp without it. -/
def hasGap (time : List Byte) : Bool := bitAt (le time 9 1) 0

def ungap (time : List Byte) : List Byte := time.take 9 ++ leBytes 1 (clrBit (le time 9 1) 0) ++ slice time 10 2

/-- Puts a record into staging, after the LOST record of its destination if one is due (R471, R487). Nothing is recorded
before MGT_READY.KNOT (R473). -/
def obsPut (s : Body) (dest ty rflags : Nat) (time body : List Byte) : Body :=
  if !s.on R.MGT_READY.KNOT then s
  else
    let r : ObsRec := { dest := dest, knot := s.now, ty := ty, bytes := obsBytes ty rflags time body }
    if 262144 < obsStagedBytes s + r.bytes.length then obsDrop s r
    else
      match s.obs.lost.find? (fun e => e.1 == dest) with
      | none => gapWritten { s with obs := { s.obs with staged := s.obs.staged ++ [r] } } time
      | some (_, c, b, k) =>
        let (t, s) := timeOf s 0 true
        let l : ObsRec := { dest := dest, knot := s.now, ty := 1,
                            bytes := obsBytes 1 0 t (leBytes 4 c ++ leBytes 4 b ++ leBytes 8 k) }
        let time := if hasGap t && le time 10 1 == 0 then ungap time else time
        let r := { r with bytes := obsBytes ty rflags time body }
        gapWritten (gapWritten { s with obs := { s.obs with
          lost := s.obs.lost.filter (fun e => e.1 != dest), staged := s.obs.staged ++ [l, r] } } t) time

/-- Tracing takes records of a type bit of TYPES: 0 REGION, 1 SYNC, 2 PC, 3 WATCH, 4 MARK. -/
def traceOn (s : Body) (bit : Nat) : Bool :=
  s.obs.tracing && bitAt (s.get R.OBS_TRACE_CTL.TYPES) bit

/-- To the trace buffer, unless capture is frozen (R482). -/
def tracePut (s : Body) (ty : Nat) (time body : List Byte) : Body :=
  if s.on R.OBS_TRACE_CTL.FROZEN then s else obsPut s 0 ty 0 time body

/-- The ring of a partition is enabled, with one of its selections. -/
def ringOn (s : Body) (pid : Nat) (sel : Fld) : Bool := s.on R.OBS_RING.EN 0 pid && s.on sel 0 pid

/-- A sync record (R478, R479) takes its place among those of its boundary: `ext` is the extension of WAIT_END. -/
def syncRec (s : Body) (ty core ctx queue op pid sem seq operand value : Nat) (ext : List Byte) : Body :=
  if traceOn s 1 && bitAt (s.get R.OBS_TRACE_CTL.CORES) core &&
      (s.on R.OBS_TRACE_CTL.ALLPID || s.get R.OBS_TRACE_CTL.PID == pid) then
    { s with obs := { s.obs with syncs := s.obs.syncs ++ [{
      ty := ty, core := core, ctx := ctx, queue := queue, op := op, pid := pid, sem := sem, seq := seq, operand := operand,
      value := value, ext := ext }] } }
  else s

/-- The place of a sync record among those of its boundary (R472): by kind, core and context. -/
def SyncEv.place (e : SyncEv) : Nat :=
  (if e.ty = 0x10 then 3 else if e.ty = 0x11 then 2 else if e.ty = 0x13 then 1 else 0) * 65536 + e.core * 256 + e.ctx

/-- Writes one sync record (R479): VALUE is the semaphore's after the boundary's update, except in ROUND and KICK. -/
def syncPut (s : Body) (e : SyncEv) : Body :=
  let (t, s) := timeOf s 0 true
  let v := if e.ty = 0x13 ∨ e.ty = 0x15 then e.value else s.get R.SEM.VALUE (e.core * 4096 + e.sem)
  let body := leBytes 1 e.core ++ leBytes 1 e.ctx ++ leBytes 1 e.queue ++ leBytes 1 e.op ++ leBytes 2 e.pid ++ leBytes 2 e.sem ++
    leBytes 4 e.seq ++ leBytes 4 e.operand ++ leBytes 4 v ++ leBytes 4 0 ++ e.ext
  let s := tracePut s e.ty t body
  if ringOn s e.pid R.OBS_RING.SYNC then obsPut s (2 + e.pid) e.ty 0 t body else s

/-- The sync records of a boundary are written, in the order of R472. -/
def syncFlush (s : Body) : Body :=
  (sortBy (fun e f => decide (e.place < f.place)) s.obs.syncs).foldl syncPut { s with obs := { s.obs with syncs := [] } }

/-- A REGION record (R471): the region's state and stretch cycles, at each change of its stretch level and each restart. -/
def regionRec (s : Body) (region state cycles : Nat) : Body :=
  if traceOn s 0 ∧ s.on R.MGT_READY.KNOT then
    let (t, s) := timeOf s region true
    tracePut s 3 t (leBytes 1 state ++ leBytes 1 0 ++ leBytes 2 cycles ++ leBytes 4 0)
  else s

/-- MARK (R471): the value written to OBS_MARK. -/
def markRec (s : Body) (v : Nat) : Body :=
  if traceOn s 4 then
    let (t, s) := timeOf s 0 true
    tracePut s 2 t (leBytes 8 v)
  else s

/-! ### Counter sets and sampling (R468, R474 to R477) -/

/-- The counter tables of the blocks: block code, offset of the first counter, how many (R468). -/
def blockCounters : List (Nat × Nat × Nat) :=
  [(0x01, 0x10100, 3), (0x05, 0x50100, 11), (0x06, 0x60100, 8), (0x07, 0x70100, 16), (0x09, 0x90100, 10),
   (0x0A, 0xA0100, 10), (0x0B, 0xB0100, 11), (0x0C, 0xC0100, 13), (0x0D, 0xD0100, 16), (0x0E, 0xE0100, 6),
   (0x0F, 0xF0100, 11), (0x18, 0x180400, 15), (0x19, 0x190100, 7), (0x1A, 0x1A0100, 6), (0x1C, 0x1C0100, 4),
   (0x1E, 0x1E0500, 10)]

/-- The counters of a set (R468): offset of the first, how many, and the item of its view; none where undefined. -/
def ctrSet (set sel : Nat) : Option (Nat × Nat × Nat) :=
  if set = 1 then (blockCounters.find? (fun b => b.1 == sel)).map (fun b => (b.2.1, b.2.2, 0))
  else if set = 2 then (if sel < 48 then some (0x40030 + 0x400 * sel, 12, 0) else none)
  else if set = 3 then (if sel < 16 then some (0x80100 + 0x1000 * sel, 9, 0) else none)
  else if set = 4 then some (0x1E0408, 8, sel)
  else none

/-- A counter of the map of R66 at an offset: OVF and COUNT. -/
def ctrRead (s : Body) (off item : Nat) : Nat × Nat :=
  (AMap.get 0 s.regs ((off + windowSize * item) * 64 + 63), AMap.get 0 s.regs ((off + windowSize * item) * 64))

/-- The run counters of a context. -/
def runOf (s : Body) (core ctx : Nat) : RunCtr := AMap.get {} s.obs.run (core * 16 + ctx)

def setRun (s : Body) (core ctx : Nat) (r : RunCtr) : Body :=
  { s with obs := { s.obs with run := AMap.put {} s.obs.run (core * 16 + ctx) r } }

/-- A descriptor of the context became usable at this boundary, and its counters have not been reset yet (R477). -/
def newCommand (s : Body) (core ctx : Nat) : Bool := s.obs.runNew.any (fun e => e.1 == core && e.2.1 == ctx)

/-- The run counters of the commands that became usable at this boundary start (R477). -/
def runsStart (s : Body) : Body :=
  s.obs.runNew.foldl (fun s e => setRun s e.1 e.2.1 { seq := e.2.2.1, pq := e.2.2.2, valid := true })
    { s with obs := { s.obs with runNew := [] } }

/-- The body of a RUN sample's entry (R477). -/
def runEntry (s : Body) (core ctx : Nat) : List Byte :=
  let r := runOf s core ctx
  let b := newCommand s core ctx && r.valid
  leBytes 4 r.seq ++ leBytes 4 r.steps ++ leBytes 4 r.wait ++ leBytes 4 r.stall ++ leBytes 4 r.bytes ++ leBytes 2 r.pq ++
    leBytes 1 (b2n r.valid + 2 * b2n b) ++ [0]

/-- A counter of a sample (R475, R476): its entry, and its new previous value and wraps. -/
def smpEntry (prev : Option (Nat × Nat)) (ovf v : Nat) : List Byte × (Nat × Nat) :=
  let w := match prev with
    | none => 0
    | some (p, w) => if v < p then (w + 1) % 2 ^ 15 else w
  (leBytes 8 (ovf * 2 ^ 63 + w * 2 ^ 48 + v), (v, w))

/-- A sample of program `n` waits to be written. -/
def latch (s : Body) (n dest rflags : Nat) (t body : List Byte) : Body :=
  { s with obs := { s.obs with latched := s.obs.latched ++ [(n, dest, rflags, t, body)] } }

/-- The counters of program `n` are latched (R474 to R477). -/
def sampleOne (s : Body) (n : Nat) : Body :=
  let set := s.get R.OBS_SMP_CTL.SET n
  let sel := s.get R.OBS_SMP_CTL.SEL n
  let dest := if s.on R.OBS_SMP_CTL.DEST n then 2 + sel else 1
  let (t, s) := timeOf s 0 true
  let hdr := fun c => leBytes 1 n ++ leBytes 1 set ++ leBytes 1 c ++ leBytes 1 0 ++ leBytes 4 sel
  if set = 5 then
    let b := (List.range 16).any (fun x => newCommand s sel x && (runOf s sel x).valid)
    latch s n dest (b2n b) t (hdr 16 ++ (List.range 16).flatMap (fun x => runEntry s sel x))
  else match ctrSet set sel with
    | none => s
    | some (off, k, item) =>
      let old := AMap.get [] s.obs.prev n
      let es := (List.range k).map (fun i =>
        let (o, v) := ctrRead s (off + 8 * i) item
        smpEntry old[i]? o v)
      -- a partition that a PARTIAL added or removed restarts its programs: BOUNDARY (R469)
      let fresh := s.obs.fresh.contains n
      let s := latch s n dest (b2n fresh) t (hdr k ++ es.flatMap (·.1))
      { s with obs := { s.obs with
        prev := AMap.put [] s.obs.prev n (es.map (·.2)), fresh := s.obs.fresh.filter (fun e => e != n) } }

/-- SAMPLE_TAKE (R474): the SAMPLE record of program `n`, from what was latched at the boundary. -/
def sampleTake (n : Nat) (s : Body) : Body :=
  let mine := s.obs.latched.filter (fun e => e.1 == n)
  let s := { s with obs := { s.obs with latched := s.obs.latched.filter (fun e => e.1 != n) } }
  mine.foldl (fun s (e : Nat × Nat × Nat × List Byte × List Byte) =>
    let told := !s.knot.gaps.any (fun g => g.1 == 0)
    let time := if told && hasGap e.2.2.2.1 then ungap e.2.2.2.1 else e.2.2.2.1
    obsPut s e.2.1 0x40 e.2.2.1 time e.2.2.2.2) s

/-- The latching of R474: every enabled program due at this boundary, in program order. A sample of an earlier boundary
that still waits is written first. -/
def sampleAll (s : Body) : Body :=
  let s := (List.range 16).foldl (fun s n => sampleTake n s) s
  (List.range 16).foldl (fun s n =>
    if s.on R.OBS_SMP_CTL.EN n && s.now % (s.get R.OBS_SMP_CTL.IVL n + 1) == 0 then sampleOne s n else s) s

/-- A program may run (R474). -/
def smpValid (s : Body) (n : Nat) : Bool :=
  let set := s.get R.OBS_SMP_CTL.SET n
  let sel := s.get R.OBS_SMP_CTL.SEL n
  let known := if set = 5 then decide (sel < 16) else (ctrSet set sel).isSome
  known && (!s.on R.OBS_SMP_CTL.DEST n || (set == 4 && s.on R.OBS_RING.EN 0 sel))

/-- SAMPLE_ENABLE takes effect (R474, R476). -/
def smpStart (s : Body) (n : Nat) : Body :=
  if smpValid s n then
    ({ s with obs := { s.obs with prev := AMap.put [] s.obs.prev n [] } }).set R.OBS_SMP_CTL.EN 1 n
  else s.set R.OBS_SMP_CTL.EN 0 n

/-- The programs of set PART on a partition that a PARTIAL adds or removes restart (R469). -/
def smpRestart (s : Body) (pid : Nat) : Body :=
  (List.range 16).foldl (fun s n =>
    if s.get R.OBS_SMP_CTL.SET n = 4 ∧ s.get R.OBS_SMP_CTL.SEL n = pid then
      { s with obs := { s.obs with
        prev := AMap.put [] s.obs.prev n [], fresh := s.obs.fresh ++ [n] } }
    else s) s

/-! ### PC records (R480) -/

/-- The body of a PC record; `only` blanks the entries of other partitions (R485). The PC value is not stated: a free
value for each busy context (log entry 4). -/
def pcBody (s : Body) (core : Nat) (word : Nat → Nat × Nat) (only : Option Nat) : List Byte :=
  leBytes 1 core ++ leBytes 7 0 ++ (List.range 16).flatMap (fun x =>
    let (pid, w) := word x
    if only = none ∨ only = some pid then
      leBytes 4 (Config.freeWord (s.drawn + x)).toNat ++ leBytes 4 w
    else leBytes 8 0)

/-- PC_RECORD (R480) of core `c`, once at each boundary of its interval: `word ctx` gives the context's PID and bits
[63:32] of its entry. -/
def pcOne (s : Body) (c : Nat) (word : Nat → Nat × Nat) : Body :=
  if s.on R.MGT_READY.KNOT && traceOn s 2 && s.now % 2 ^ min 20 (s.get R.OBS_TRACE_CTL.PC_LOG) == 0 &&
      decide (c < 16) && bitAt (s.get R.OBS_TRACE_CTL.CORES) c && AMap.get 0 s.obs.pcAt c != s.now + 1 then
    let (t, s) := timeOf s 0 true
    let s := tracePut s 0x20 t (pcBody s c word none)
    let pids := (s.img.parts.map (·.pid)).filter (fun p => ringOn s p R.OBS_RING.PC)
    let s := pids.foldl (fun s p => obsPut s (2 + p) 0x20 0 t (pcBody s c word (some p))) s
    { s with drawn := s.drawn + 16, obs := { s.obs with pcAt := AMap.put 0 s.obs.pcAt c (s.now + 1) } }
  else s

/-! ### Watchpoints (R481, R482) -/

/-- An access as a watchpoint sees it: the space of the address (true: SGA), its first byte and its length. -/
structure Access where
  space : Bool
  addr : Nat
  len : Nat

/-- One matching access of a watchpoint (R482). -/
def watchHit (s : Body) (w kind src opcode pid id addr lines tagseq : Nat) : Body :=
  let s := s.count R.OBS_WP_HITS.COUNT 1 w
  let act := s.get R.OBS_WP_CTL.ACTIONS w
  let (t, s) := timeOf s 0 false
  let body := leBytes 1 w ++ leBytes 1 kind ++ leBytes 1 src ++ leBytes 1 opcode ++ leBytes 2 pid ++ leBytes 2 id ++
    leBytes 8 addr ++ leBytes 4 lines ++ leBytes 4 tagseq
  let s := if bitAt act 3 then tracePut s 0x30 t body else s
  let s := if bitAt act 2 && !s.on R.OBS_WP_CTL.ALLPID w && s.on R.OBS_RING.EN 0 pid then
      obsPut s (2 + pid) 0x30 0 t body else s
  let s := if bitAt act 1 then s.set R.OBS_EVENT.WP_ALERT 1 else s
  let s := if bitAt act 0 then { s with obs := { s.obs with freeze := true } } else s
  let max := s.get R.OBS_WP_CTL.MAX w
  let (k, n) := AMap.get (0, 0) s.obs.armed w
  let s := { s with obs := { s.obs with armed := AMap.put (0, 0) s.obs.armed w (k, n + 1) } }
  if max ≠ 0 ∧ max ≤ n + 1 then { s with obs := { s.obs with spent := s.obs.spent ++ [w] } } else s

/-- WATCH_HIT (R481): the accesses of one request, step or seizing, admitted, issued or committed at knot `k`, against every
watchpoint that was enabled before. -/
def watch (s : Body) (k kind src opcode pid id tagseq : Nat) (as : List Access) : Body :=
  (List.range 16).foldl (fun s w =>
    if s.on R.OBS_WP_CTL.EN w && decide ((AMap.get (0, 0) s.obs.armed w).1 ≤ k) && bitAt (s.get R.OBS_WP_CTL.KINDS w) kind &&
        (s.on R.OBS_WP_CTL.ALLPID w || s.get R.OBS_WP_CTL.PID w == pid) then
      let sp := s.on R.OBS_WP_CTL.SPACE w
      let lo := s.get R.OBS_WP_BASE.LINE w
      let hi := s.get R.OBS_WP_LIMIT.LINE w
      let hits := ((as.filter (fun a => a.space == sp)).flatMap (fun a => linesOf a.addr a.len)).filter
        (fun l => decide (lo ≤ l) && decide (l ≤ hi))
      match hits with
      | [] => s
      | l :: t =>
        watchHit s w kind src opcode pid id ((t.foldl min l) * 128 + (if sp then 2 ^ 62 else 0)) hits.eraseDups.length tagseq
    else s) s

/-- A write of OBS_WP_CTL.EN (R481): ALLPID needs SPACE = 1. An enable takes effect at the next boundary, and what is admitted,
issued or committed after that boundary is matched (R482). -/
def watchEnable (s : Body) (w : Nat) (en : Bool) : Body :=
  let en := en && (!s.on R.OBS_WP_CTL.ALLPID w || s.on R.OBS_WP_CTL.SPACE w)
  let s := if en && !s.on R.OBS_WP_CTL.EN w then { s with obs := { s.obs with armed := AMap.put (0, 0) s.obs.armed w (s.now + 2, 0) } }
    else s
  s.set R.OBS_WP_CTL.EN (b2n en) w

/-! ### Buffers, rings and the lines of a knot (R483, R484, R486) -/

/-- L of R486. -/
def obsLines (s : Body) : Nat := s.img.obsSlots * 5000000 / 1024 / 128

/-- Bytes of a destination's buffer. -/
def bufSize (s : Body) (dest : Nat) : Nat :=
  if dest = 0 then s.img.traceFrames * 65536
  else if dest = 1 then s.img.sampleFrames * 65536
  else 2 ^ s.get R.OBS_RING.SIZE_LOG 0 (dest - 2) - 64

/-- Bytes written so far to a destination. -/
def bufProd (s : Body) (dest : Nat) : Nat :=
  if dest = 0 then s.get R.OBS_TRACE_PTR.PROD
  else if dest = 1 then s.get R.OBS_SMP_PTR.PROD
  else AMap.get 0 s.obs.ringProd (dest - 2)

/-- The local offset of a ring's header. -/
def ringLoc (s : Body) (pid : Nat) : Option Nat := (sgaLoc s (s.get R.OBS_RING.RING 0 pid * 4096)).map (·.2)

/-- Writes bytes at position `p` of a destination. -/
def bufWrite (s : Body) (dest p : Nat) (b : List Byte) : Body :=
  let o := p % bufSize s dest
  if dest = 0 then { s with obs := { s.obs with trace := putBytes s.obs.trace o b } }
  else if dest = 1 then { s with obs := { s.obs with smp := putBytes s.obs.smp o b } }
  else match sgaLoc s (s.get R.OBS_RING.RING 0 (dest - 2) * 4096 + 64 + o) with
    | some (_, l) => s.wr l b
    | none => s

/-- PROD of a destination advances to `p`. -/
def bufAdvance (s : Body) (dest p : Nat) : Body :=
  if dest = 0 then (s.set R.OBS_TRACE_PTR.PROD p).count R.OBS_TRACE_REC.COUNT
  else if dest = 1 then (s.set R.OBS_SMP_PTR.PROD p).count R.OBS_SMP_REC.COUNT
  else
    let s := { s with obs := { s.obs with ringProd := AMap.put 0 s.obs.ringProd (dest - 2) p } }
    let s := match ringLoc s (dest - 2) with | some l => s.wr l (leBytes 8 p) | none => s
    s.count R.OBS_RING_REC.COUNT

/-- The PAD that a record of `n` bytes needs before it at position `p` (R483). Where fewer than 16 bytes are left, the
PAD is the first bytes of its header (log entry 20). -/
def padFor (size p n : Nat) : List Byte :=
  let left := size - p % size
  if left < n ∧ size ≠ 0 then (obsBytes 0 0 (List.replicate 12 0) (List.replicate (left - 16) 0)).take left else []

/-- Lines of a destination touched by [p, q). -/
def spanLines (p q : Nat) : Nat := if q ≤ p then 0 else (q - 1) / 128 + 1 - p / 128

/-- What the writing of one knot has done so far: lines left, and the last line written of each destination. -/
structure ObsPass where
  left : Nat
  last : List (Nat × Nat) := []
  /-- rings whose CONS line has been read in this knot, and those that must wait -/
  rings : List Nat := []
  stuck : List Nat := []

/-- A record of a destination must wait for a fuller line (R486): its last line is not full, and no flush was asked for,
so it stays until PARTIAL_LINE_FLUSH. -/
def obsHolds (s : Body) (flush : Bool) (r : ObsRec) : Bool :=
  let mine := s.obs.staged.filter (fun x => x.dest == r.dest)
  let total := bufProd s r.dest + (mine.map (fun x => x.bytes.length)).foldl (· + ·) 0
  let q := bufProd s r.dest + r.bytes.length
  !flush && decide (total / 128 * 128 < q)

/-- Writes one staged record, if the knot's lines allow. -/
def obsWriteOne (flush : Bool) (a : Body × ObsPass) (r : ObsRec) : Body × ObsPass :=
  let (s, p) := a
  let d := r.dest
  let size := bufSize s d
  let gone := fun (s : Body) => { s with obs := { s.obs with staged := s.obs.staged.erase r } }
  if p.stuck.contains d then (s, p)
  else if size < r.bytes.length then (obsDrop (gone s) r, p)
  else if d = 0 ∧ s.on R.OBS_TRACE_CTL.STOP_FULL ∧ size ≤ bufProd s 0 then (obsDrop (gone s) r, p)
  else if obsHolds s flush r then (s, p)
  else
    let pos := bufProd s d
    let pad := padFor size pos r.bytes.length
    let q := pos + pad.length + r.bytes.length
    let firstDone := match p.last.find? (fun e => e.1 == d) with | some (_, l) => l == pos / 128 | none => false
    let cons := if d < 2 ∨ p.rings.contains d then 0 else 2
    let need := spanLines pos q - b2n firstDone + cons
    if p.left < need then (s, { p with stuck := d :: p.stuck })
    else if d < 2 then
      let s := bufAdvance (bufWrite (bufWrite s d pos pad) d (pos + pad.length) r.bytes) d q
      let s := s.count R.OBS_WR_LINES.COUNT need
      (gone s, { p with left := p.left - need, last := (d, (q - 1) / 128) :: p.last.filter (fun e => e.1 != d) })
    else
      match ringLoc s (d - 2) with
      | none => (gone s, p)
      | some l =>
        if !s.on R.OBS_RING.EN 0 (d - 2) then (gone s, p)
        else
          let full := fun (h : List Byte) =>
            decide (size < (pos + 2 ^ 64 - le h (l % 128 + 8) 8) % 2 ^ 64 + pad.length + r.bytes.length)
          match lookLine s (l / 128) with
          | (none, s) => (s, { p with stuck := d :: p.stuck })
          | (some h, s) =>
          if full h then (obsDrop (gone s) r, p)
          else
            let base := s.get R.OBS_RING.RING 0 (d - 2) * 4096 + 64
            let lines := (sgaLoc s (base + pos % size)).toList.flatMap (fun x => linesOf x.2 (r.bytes.length + pad.length)) ++
              (sgaLoc s base).toList.flatMap (fun x => if pad.isEmpty then [] else linesOf x.2 r.bytes.length)
            let (ok, s) := clearForWrite s (l / 128 :: lines)
            if !ok then (s, { p with stuck := d :: p.stuck })
            else if full (s.rd (l / 128 * 128) 128) then (obsDrop (gone s) r, p)
            else
              let s := bufAdvance (bufWrite (bufWrite s d pos pad) d (pos + pad.length) r.bytes) d q
              let s := s.count R.OBS_WR_LINES.COUNT (need - b2n (cons == 2))
              (gone s, { p with left := p.left - need, rings := d :: p.rings,
                                last := (d, (q - 1) / 128) :: p.last.filter (fun e => e.1 != d) })

/-- Units of the local slice that the decay sweep visits in this knot (R125). -/
def sweepUnits (s : Body) : Nat :=
  let n := decayKnots s
  let k := s.now % n
  let below := fun (x : Nat) => (x + n - 1 - k) / n
  (s.img.regions.map (fun r =>
    below (r.localBase / 65536 + localSize s r / 65536) - below (r.localBase / 65536))).foldl (· + ·) 0

/-- Lines of the decay sweep in one knot (R125, R486): its counters lie in lines of their own, each read and written. -/
def sweepLines (s : Body) : Nat := 2 * sweepUnits s

/-- Writes staged records that `ok` picks with the lines that the knot has left. -/
def obsWriteAll (s : Body) (flush : Bool) (ok : ObsRec → Bool) : Body :=
  let (s, p) := (s.obs.staged.filter ok).foldl (obsWriteOne flush) (s, { left := s.obs.left })
  { s with obs := { s.obs with left := p.left } }

/-- PARTIAL_LINE_FLUSH (R486): destination `d` has a partial line whose first record was formed 64 knots ago. -/
def partialFlush (d : Nat) (s : Body) : Body :=
  let mine := s.obs.staged.filter (fun r => r.dest == d)
  if mine.any (fun r => decide (r.knot + 64 ≤ s.now)) then obsWriteAll s true (fun r => r.dest == d) else s

/-- The record lines of a knot (R486). -/
def obsBoundary (s : Body) (flush : Bool) : Body :=
  let sweep := sweepLines s
  let s := if sweep = 0 then s else s.count R.OBS_SWEEP_LINES.COUNT sweep
  obsWriteAll { s with obs := { s.obs with left := obsLines s - sweep } } flush (fun _ => true)

/-- Capture stops, and spent watchpoints clear (R482). -/
def watchBoundary (s : Body) : Body :=
  let s := if s.obs.freeze then (s.set R.OBS_TRACE_CTL.FROZEN 1).set R.OBS_EVENT.FROZE 1 else s
  let s := s.obs.spent.foldl (fun s w => s.set R.OBS_WP_CTL.EN 0 w) s
  { s with obs := { s.obs with freeze := false, spent := [] } }

/-- A write of OBS_RING (R484): EN stays 0 where the ring lies outside the partition's extents at this home. -/
def ringWrite (s : Body) (pid : Nat) (en sync pc : Bool) (ring sizeLog : Nat) : Body :=
  let max := (match s.img.rings.find? (fun r => r.1 == pid) with | some (_, f) => f | none => 0) * 65536
  let pinned := match sgaLoc s (ring * 4096) with | some (r, _) => regionPinned s r | none => false
  let ok := decide (12 ≤ sizeLog) && decide (2 ^ sizeLog ≤ max) && pinned && ringPlaced s pid (ring * 4096) (2 ^ sizeLog)
  let s := (s.set R.OBS_RING.SYNC (b2n sync) 0 pid).set R.OBS_RING.PC (b2n pc) 0 pid
  let s := (s.set R.OBS_RING.RING ring 0 pid).set R.OBS_RING.SIZE_LOG sizeLog 0 pid
  let s := { s with obs := { s.obs with
    ringProd := AMap.put 0 s.obs.ringProd pid (match sgaLoc s (ring * 4096) with | some (_, l) => leNat (s.rd l 8) | none => 0) } }
  s.set R.OBS_RING.EN (b2n (en && ok)) 0 pid

/-- TRACE_ENABLE: a write of OBS_TRACE_CTL.EN, which takes effect at the next boundary (R23). -/
def traceEnable (s : Body) (en : Bool) : Body := (s.set R.OBS_TRACE_CTL.EN (b2n en)).arm (.traceEn (b2n en))

/-- Tracing starts or stops (R23): a start sets PROD to 0 (R483). -/
def traceEnNow (s : Body) (v : Nat) : Body :=
  let s := if v ≠ 0 ∧ s.obs.tracing = false then
      ({ s with obs := { s.obs with trace := [], staged := s.obs.staged.filter (fun r => r.dest != 0) } }).set
        R.OBS_TRACE_PTR.PROD 0
    else s
  { s with obs := { s.obs with tracing := decide (v ≠ 0) } }

end Sys2Proof.Machine
end

