-- ==== Sys2Proof/Machine/Txn.lean ====
section
/-!
DEFINITION. Fabric seizings (R324 to R340) and publication records (R341, R342).
-/

namespace Sys2Proof.Machine

/-! ### Publication -/

/-- What a PUBLISH of version `v` with digest `d` would do to a record (R342): status and SUB, and whether it changes. -/
def publishCase (s : Body) (loc v : Nat) (d : List Byte) : Nat × Nat × Bool :=
  let cur := leNat (s.rd loc 8)
  if v = 0 then (stBADOPCODE, 3, false)
  else if cur < v then (stOK, 0, true)
  else if d = s.rd (loc + 16) 48 then (stOK, 0, false)
  else (stPUBLISHCONFLICT, 0, false)

/-- Applies a PUBLISH (R341, R342): payload `p`, publisher `cid`. -/
def publishNow (s : Body) (loc cid : Nat) (p : List Byte) : Nat × Nat × Body :=
  let v := le p 0 8
  let d := slice p 16 48
  let (st, sub, change) := publishCase s loc v d
  if change then
    (st, sub, (s.wr loc (leBytes 8 v ++ leBytes 8 s.now ++ d ++ leBytes 2 cid)).count R.TXN_PUB_OK.COUNT)
  else if st = stOK then (st, sub, s.count R.TXN_PUB_NOOP.COUNT)
  else if st = stPUBLISHCONFLICT then (st, sub, s.count R.TXN_PUB_CONFLICT.COUNT)
  else (st, sub, s)

/-! ### Control blocks and actions (R326, R327) -/

/-- A control block taken apart. -/
structure CtlBlk where
  msg : Nat
  npart : Nat
  index : Nat
  flags : Nat
  nact : Nat
  size : Nat
  effect : Nat
  status : Nat
  sub : Nat
  ocid : Nat
  rsvd : Nat
  parts : List Nat
  deriving DecidableEq, Repr

/-- Reads the 64 bytes of a control block. -/
def ctlBlk (l : List Byte) : CtlBlk :=
  let n := le l 1 1
  { msg := le l 0 1, npart := n, index := le l 2 1, flags := le l 3 1, nact := le l 4 2, size := le l 6 2,
    effect := le l 8 8, status := le l 16 1, sub := le l 17 1, ocid := le l 18 2 % 2 ^ 13,
    rsvd := le l 18 2 / 2 ^ 13 + le l 20 12 + le l 3 1 / 2, parts := (List.range (min n 16)).map (fun i => le l (32 + 2 * i) 2) }

/-- The bytes of a control block that this controller sends. -/
def ctlBytes (msg index effect status sub ocid : Nat) (parts : List Nat) : List Byte :=
  leBytes 1 msg ++ leBytes 1 parts.length ++ leBytes 1 index ++ leBytes 1 0 ++ leBytes 2 0 ++ leBytes 2 64 ++
  leBytes 8 effect ++ leBytes 1 status ++ leBytes 1 sub ++ leBytes 2 ocid ++ leBytes 12 0 ++
  parts.flatMap (leBytes 2) ++ List.replicate (2 * (16 - parts.length)) 0xFF

/-- Element size of an ADD action. -/
def actionSize (ty : Nat) : Nat := atomSize ty

/-- Parses `n` actions (R327); the SUB of the first fault. -/
def parseActions : Nat → List Byte → Except Nat (List SAction)
  | 0, l => if l.isEmpty then .ok [] else .error 3
  | n + 1, l =>
    if l.length < 16 then .error 3
    else
      let addr := le l 0 8
      let w1 := le l 8 8
      let kind := w1 % 256
      let size := bits w1 15 8
      let ty := bits w1 19 16
      let rnd := bits w1 21 20
      let al := if kind = 3 then atomSize ty else if kind = 4 then 128 else 8
      if w1 / 2 ^ 22 ≠ 0 then .error 4
      else if kind = 0 ∨ 4 < kind ∨ size < 8 ∨ 128 < size ∨ size % 8 ≠ 0 ∨ l.length < 16 + size then .error 3
      else if kind ≠ 3 ∧ (ty ≠ 0 ∨ rnd ≠ 0) then .error 4
      else if kind = 3 ∧ (5 < ty ∨ (ty < 4 ∧ rnd ≠ 0)) then .error 3
      else if kind = 4 ∧ size ≠ 64 then .error 3
      else if bitAt addr 63 ∨ addr % 8 ≠ 0 ∨ addr % al ≠ 0 ∨ 128 < addr % 128 + size then .error 3
      else if kind = 4 ∧ le l 24 8 ≠ 0 then .error 4
      else match parseActions n (l.drop (16 + size)) with
        | .error e => .error e
        | .ok t => .ok ({ kind := kind, addr := addr, rnd := rnd, ty := ty, data := (l.drop 16).take size } :: t)

/-- Step 1 of R329 for an ORIGIN payload: its actions, or the SUB of ST_BAD_OPCODE. -/
def parseOrigin (s : Body) (cid : Nat) (p : List Byte) : Except Nat (CtlBlk × List SAction) :=
  let b := ctlBlk p
  if b.rsvd ≠ 0 ∨ b.effect ≠ 0 ∨ b.status ≠ 0 ∨ b.sub ≠ 0 ∨ !allZero (p.drop b.size) then .error 4
  else if b.npart = 0 ∨ 16 < b.npart ∨ b.npart ≤ b.index ∨ 64 < b.nact ∨ b.size < 64 ∨ p.length < b.size ∨
      b.size % 8 ≠ 0 then .error 3
  else if (List.range 16).any (fun i => decide (b.npart ≤ i) && le p (32 + 2 * i) 2 != 0xFFFF) then .error 4
  else if b.parts.any (fun h => decide (511 < h)) then .error 4
  else match parseActions b.nact ((p.take b.size).drop 64) with
    | .error e => .error e
    | .ok as =>
      if 32 < (as.map (fun a => a.addr / 128)).eraseDups.length then .error 3
      else if b.parts.getD b.index 0 ≠ s.hid then .error 3
      else if bitAt b.flags 0 ∧ b.npart ≠ 1 then .error 3
      else if b.ocid ≠ cid then .error 3
      else .ok (b, as)

/-- The opcode whose leaf permission an action needs (R520). -/
def actionOp (kind : Nat) : Nat :=
  if kind = 1 then opSTORE else if kind = 2 then opLOAD else if kind = 3 then opADDEXACT else opPUBLISH

/-! ### Records, locks and votes -/

/-- A record of the key (OCID, ID). -/
def txnRec (s : Body) (ocid sid : Nat) : Option Seizing := s.txn.recs.find? (fun t => t.ocid == ocid && t.sid == sid)

/-- Replaces the record of a key. -/
def txnPut (s : Body) (t : Seizing) : Body :=
  { s with txn := { s.txn with recs := s.txn.recs.map (fun u => if u.ocid = t.ocid ∧ u.sid = t.sid then t else u) } }

/-- The record is open (R325, R328). -/
def Seizing.isOpen (t : Seizing) : Bool := t.closedAt.isNone

/-- This controller coordinates the seizing (R325). -/
def isCoord (s : Body) (t : Seizing) : Bool := t.parts.head? == some s.hid

/-- The lock on a line, if any: true for a write lock (R330). -/
def lockOf (s : Body) (line : Nat) : Option Bool :=
  let ls := (s.txn.recs.flatMap (·.locks)).filter (fun l => l.1 == line)
  if ls.isEmpty then none else some (ls.any (·.2))

/-- An access of a line must wait for a lock: `excl` for LOAD_OWN, writes, atomics and PUBLISH (R330). -/
def lockBlocks (s : Body) (line : Nat) (excl : Bool) : Bool :=
  match lockOf s line with
  | none => false
  | some w => w || excl

/-- Notes an aborted seizing (TXN_LOG). -/
def txnLog (s : Body) (t : Seizing) (st sub : Nat) : Body :=
  let s := s.set R.TXN_LOG.STATUS st
  let s := s.set R.TXN_LOG.SUB sub
  let s := s.set R.TXN_LOG.COORD (b2n (isCoord s t))
  let s := s.set R.TXN_LOG.PID t.pid
  let s := s.set R.TXN_LOG.OCID t.ocid
  let s := s.set R.TXN_LOG.ID t.sid
  let s := s.set R.TXN_LOG_KNOT.KNOT s.now
  let s := s.count R.TXN_ABORTED.COUNT
  if st = stPOOLFAIL then s.count R.TXN_POOL_FAIL.COUNT else if st = stSEIZECONFLICT then s.count R.TXN_CONFLICT.COUNT else s

/-- The status that a message of another Helak carries: a code that is not one of R102 stands for ST_INTERNAL (R8). -/
def statusIn (st : Nat) : Nat :=
  if [stOK, stOKSPLICED, stRAWFALLBACK, stRETRY, stSTALEMAP, stREVOKED, stJOBTORN, stLOSTLINE, stFENCED, stSEIZEABORT,
      stSEIZECONFLICT, stPOOLFAIL, stPUBLISHCONFLICT, stUNCORRECTABLE, stORPHANTAIL, stBURSTTIMEOUT, stXLTFAULT, stPERMISSION,
      stBADOPCODE, stALIGN, stBUDGETMISS, stRESETABORT, stTABLEMISSING, stSHADOWMISMATCH].contains st then st else stINTERNAL

/-- A vote reaches the coordinator (R331); kept where its own record is not yet there. -/
def txnVoteIn (s : Body) (ocid sid index st sub : Nat) : Body :=
  match (txnRec s ocid sid).filter (fun t => t.isOpen) with
  | none =>
    let k := match s.txn.early.find? (fun e => e.1 == ocid && e.2.1 == sid) with
      | some e => e.2.2.2.2.2
      | none => s.now
    { s with txn := { s.txn with early := s.txn.early ++ [(ocid, sid, index, st, sub, k)] } }
  | some t =>
    if t.outcome.isSome then s
    else if st = stOK then txnPut s { t with yes := t.yes ++ [index] }
    else txnPut s { t with cause := some (t.cause.getD (st, sub)) }

/-- Sends a participant's vote (R329, R331): internally where this controller coordinates. -/
def txnVote (s : Body) (ocid sid pid index : Nat) (parts : List Nat) (st sub : Nat) : Body :=
  if parts.head? = some s.hid then txnVoteIn s ocid sid index st sub
  else peerSend s (parts.headD 0) opSEIZEPREPARE 0 sid pid (ctlBytes 1 index 0 st sub ocid parts) .vote

/-- Answers a seizing message. -/
def txnReply (s : Body) (r : Option ReplyTo) (st sub : Nat) (pay : List Byte) : Body :=
  match r with
  | none => s
  | some r => answer s r.op r.m r.issueK r.prevKey st sub (if pay.isEmpty then 0 else 1) 0 pay

/-- A SEIZE command learns that a prepare has been answered (R339). -/
def originAnswer (s : Body) (core ctx st sub : Nat) : Body :=
  { s with txn := { s.txn with origins := s.txn.origins.map (fun o =>
      if o.core = core ∧ o.ctx = ctx then
        { o with waiting := o.waiting - 1, fail := if st = stOK then o.fail else some (o.fail.getD (st, sub)) }
      else o) } }

/-- A SEIZE command ends with the coordinator's answer, at the next boundary (R339); its signals commit only with ST_OK (R162). -/
def originEnd (s : Body) (core ctx st sub result : Nat) : Body :=
  let c := AMap.get {} s.cores core
  let x := AMap.get {} c.ctxs ctx
  { s with
    txn := { s.txn with origins := s.txn.origins.filter (fun o => !(o.core == core && o.ctx == ctx)) },
    cores := AMap.put {} s.cores core { c with
      ctxs := AMap.put {} c.ctxs ctx { x with
        done := true, status := st, sub := sub, result := result % 2 ^ 32, planned := some (x.steps + b2n x.issued),
        mute := x.mute || st != stOK, peerAt := s.now + 1 } } }

/-- Answers the PREPARE of a record, to a client or to the command that sent it. -/
def txnAnswerPrepare (s : Body) (t : Seizing) (st sub : Nat) : Body :=
  let s := txnReply s t.reply st sub []
  match t.cmd with
  | some (c, x) => originAnswer s c x st sub
  | none => s

/-- A prepare fails (R329): locks released, the originator answered, the vote sent. A coordinator keeps a record until it
has decided. -/
def txnFail (s : Body) (t : Seizing) (st sub : Nat) : Body :=
  let s := txnAnswerPrepare s t st sub
  if isCoord s t then
    txnVote (txnPut s { t with locks := [], preparing := false, writing := false, reply := none, vote := some (st, sub) })
      t.ocid t.sid t.pid t.index t.parts st sub
  else
    let s := { s with txn := { s.txn with recs := s.txn.recs.filter (fun u => !(u.ocid == t.ocid && u.sid == t.sid)) } }
    txnLog (txnVote s t.ocid t.sid t.pid t.index t.parts st sub) t st sub

/-- Opens the record of a prepare, with the votes that came before it (R331). A closed record of the key gives way. -/
def txnOpenRec (s : Body) (t : Seizing) : Body :=
  let mine := fun (e : Nat × Nat × Nat × Nat × Nat × Nat) => e.1 == t.ocid && e.2.1 == t.sid
  let early := s.txn.early.filter mine
  let s := { s with txn := { s.txn with
    recs := s.txn.recs.filter (fun u => !(u.ocid == t.ocid && u.sid == t.sid)) ++ [t],
    early := s.txn.early.filter (fun e => !mine e) } }
  early.foldl (fun s e => txnVoteIn s e.1 e.2.1 e.2.2.1 e.2.2.2.1 e.2.2.2.2.1) s

/-- Open records of a partition, and of all (R328). -/
def txnOpenCount (s : Body) (pid : Option Nat) : Nat :=
  (s.txn.recs.filter (fun t => t.isOpen && (pid == none || pid == some t.pid))).length

/-- LINE_LOCK (R330): the locks that the actions take. -/
def txnLocks (as : List SAction) : List (Nat × Bool) :=
  (as.map (fun a => a.loc / 128)).eraseDups.map (fun l => (l, as.any (fun a => a.loc / 128 == l && a.kind != 2)))

/-- A lock is refused (R329 step 5, R330). -/
def txnConflict (s : Body) (ls : List (Nat × Bool)) : Bool :=
  ls.any (fun l => match lockOf s l.1 with | none => false | some w => w || l.2)

/-- Snoops the holders of the lines that a seizing locks; true once every line is ready (R330). -/
def txnSnoop (s : Body) (t : Seizing) : List (Nat × Bool) → Bool × Body
  | [] => (true, s)
  | (l, w) :: r =>
    let s := reclaim s l
    let (ok, s) :=
      if (roundOn s l).isSome then (false, s)
      else match entryOf s l with
        | none => (true, s)
        | some e =>
          if e.st = .l then (true, s)
          else if w then
            if (roundTargets s e none).isEmpty then (true, setEntry s l none)
            else (false, (startRound s e (.seize t.ocid t.sid false) none true false).2)
          else if e.st = .x && !(roundTargets s e none).isEmpty then
            (false, (startRound s e (.seize t.ocid t.sid true) none true false).2)
          else (true, s)
    let (rest, s) := txnSnoop s t r
    (ok && rest, s)

/-- Writes a record of 8 KiB into a slot of a sled's metadata (R336, R355). No rule lays it out: its bytes are free values (log
entry 119). -/
def recordWrite (s : Body) (q slot : Nat) : Body :=
  let (d, s) := s.freeBytes 8192
  (sledSend s q (sledMeta s q + 0x100000 + slot % 4096 * 8192) 8192 false (some d)).2

/-- An ADD action at C (R327, R332): every ADD of the seizing to one element with one TYPE and RND is one exact sum,
grouped with the adds of clients admitted at the same boundary. -/
def txnAdd (s : Body) (as : List SAction) (a : SAction) : Body :=
  let sz := atomSize a.ty
  (List.range (a.data.length / sz)).foldl (fun s i =>
    let loc := a.loc + sz * i
    if (groupDone s s.now loc a.ty a.rnd).isSome then s
    else
      let mine := (as.filter (fun b => b.kind == 3 && b.ty == a.ty && b.rnd == a.rnd && decide (b.loc ≤ loc) &&
        decide (loc + sz ≤ b.loc + b.data.length))).map (fun b => Addend.val (le b.data (loc - b.loc) sz))
      (groupAct s s.now loc a.ty a.rnd mine).2) s

/-- One action applied at C, in list order. -/
def txnApplyAction (t : Seizing) (s : Body) (a : SAction) : Body :=
  if a.kind = 1 then s.wr a.loc a.data
  else if a.kind = 3 then txnAdd s t.actions a
  else if a.kind = 4 then (publishNow s a.loc t.ocid a.data).2.2
  else s

/-- Every PUBLISH of a seizing would succeed, each against the record as the actions before it leave it (R329, R342). -/
def publishesOk (t : Seizing) : Body → List SAction → Bool
  | _, [] => true
  | s, a :: r =>
    (a.kind != 4 || (publishCase s a.loc (le a.data 0 8) (slice a.data 16 48)).1 == stOK) && publishesOk t (txnApplyAction t s a) r

/-- Steps 6 to 9 of R329 for one record. -/
def txnStep (s : Body) (t : Seizing) : Body :=
  if !t.preparing || t.writing || t.outcome.isSome then s
  else
    let (ready, s) := txnSnoop s t t.locks
    if !ready then s
    else if t.locks.any (fun l => lineLost s l.1) then txnFail s t stLOSTLINE 0
    else if t.actions.any (fun a => farHeld s (a.kind != 2) a.loc || (a.kind != 1 && farHeld s false a.loc)) then s
    else if t.actions.any (fun a => a.kind != 1 && unreadable s (a.loc / 128)) then txnFail s t stUNCORRECTABLE 0
    else if t.actions.any (fun a => a.kind == 2 && s.rd a.loc a.data.length != a.data) then
      txnFail s t stSEIZECONFLICT 2
    else if !publishesOk t s t.actions then
      txnFail s t stPUBLISHCONFLICT 0
    else
      let ps := positionsIn s
      match ps with
      | [] => txnFail s t stPOOLFAIL 0
      | p0 :: _ =>
        let q := (ps.find? (fun q => decide (s.sto.holdNext ≤ q))).getD p0
        let slot := s.txn.recs.findIdx (fun u => u.ocid == t.ocid && u.sid == t.sid)
        let s := recordWrite s q slot
        let s := { s with sto := { s.sto with holdNext := (q + 1) % 16 } }
        txnPut s { t with writing := true, sled := q }

/-- Every record that is preparing goes on. -/
def txnProgress (s : Body) : Body := s.txn.recs.foldl (fun s t =>
  match txnRec s t.ocid t.sid with
  | some u => txnStep s u
  | none => s) s

/-- Steps 2 and 3 of R329: the failure that they end in, if any. A seizing across homes needs a peer CID (R80). -/
def txnRoom (s : Body) (t : Seizing) : Option Body :=
  let max := match partDef s t.pid with | some p => p.seizeMax | none => 0
  if 1 < t.parts.length && unlockedCond s then some (txnFail (txnOpenRec s { t with preparing := false }) t stRETRY 3)
  else if t.parts.any (· != s.hid) && !peerReady s then some (txnAnswerPrepare s t stRETRY 5)
  else if max ≤ txnOpenCount s (some t.pid) ∨ 4096 ≤ txnOpenCount s none then
    let s := txnAnswerPrepare s t stSEIZEABORT 5
    some (txnVote s t.ocid t.sid t.pid t.index t.parts stSEIZEABORT 5)
  else none

/-- Step 5 of R329, once every action is translated, and the start of step 6. -/
def txnBegin (s : Body) (t : Seizing) : Body :=
  let ls := txnLocks t.actions
  if txnConflict s ls then txnFail (txnOpenRec s { t with preparing := false }) t stSEIZECONFLICT 1
  else
    let t := { t with locks := ls }
    txnStep (txnOpenRec s t) ((txnRec (txnOpenRec s t) t.ocid t.sid).getD t)

/-- Step 1's refusal (R329): answered, and voted on unless the key is that of an open seizing. The vote names the CID of the
request header as the originator. -/
def txnRefuse (s : Body) (reply : ReplyTo) (pid : Nat) (p : List Byte) (sub : Nat) (vote : Bool) : Body :=
  let b := ctlBlk p
  let s := txnReply s (some reply) stBADOPCODE sub []
  if vote && decide (1 ≤ b.npart) && decide (b.npart ≤ 16) && decide (b.index < b.npart) then
    txnVote s reply.m.cid reply.m.arg pid b.index b.parts stBADOPCODE sub
  else s

/-- Translates the actions of a client's seizing, one after the other (step 4 of R329). -/
def txnXlt (s : Body) (grace : Bool) (cid pid : Nat) (sgaOk : Bool) (walked : List Nat) : List SAction → XRes
  | [] => .ok [] s
  | a :: t =>
    match wordAddr s pid a.addr 0 (a.kind != 2) with
    | .error e => .err e a.addr s
    | .ok (space, addr) =>
      if space && !sgaOk then .err { status := stPERMISSION, sub := 3, cause := 0xA } a.addr s
      else match xltRequest s grace space (actionOp a.kind) cid pid addr a.data.length (leafNeed (actionOp a.kind))
          walked [(addr, a.data.length)] with
        | .ok ((l, g, n) :: _) s => match txnXlt s grace cid pid sgaOk walked t with
          | .ok r s => .ok ((l, g, n) :: r) s
          | x => x
        | .ok [] s => .err (xFault 1) a.addr s
        | x => x

/-- The words whose SGA bit R105 reads apply to clients through the hitch (R329): an SGA action of a client. -/
def txnSgaOk (s : Body) (cid pid : Nat) : Bool :=
  (peerOfCid s cid).isSome || (match hitchOf s cid pid with | some h => h.sgaOk | none => false)

/-- The record of an ORIGIN prepare, from its control block and actions. -/
def txnNew (s : Body) (r : Req) (b : CtlBlk) (as : List SAction) : Seizing :=
  { ocid := b.ocid, sid := r.m.arg, pid := r.m.pid, index := b.index, oneshot := bitAt b.flags 0,
    parts := b.parts, actions := as, preparedAt := s.now,
    reply := some { op := r.op, m := { r.m with payload := [] }, issueK := r.issueK, prevKey := r.prevKey } }

/-- A page walk ends with fault `x`: the prepare whose actions need that page next fails with it (R115, R329). -/
def txnWalkFault (s : Body) (r : Req) (page : Nat) (x : XErr) : Option Body :=
  if r.op ≠ opSEIZEPREPARE then none
  else match parseOrigin s r.m.cid r.m.payload with
    | .error _ => none
    | .ok (b, as) =>
      match txnXlt (s.set R.XLT_PART_ROOT.SGA_OK 1 0 r.m.pid) r.grace r.m.cid r.m.pid (txnSgaOk s r.m.cid r.m.pid) r.walked as with
      | .miss cva _ =>
        if cva >>> 16 = page then
          let t := txnNew s r b as
          some (txnFail (txnOpenRec (xltFault s x 0 r.m.pid r.m.cid cva) { t with preparing := false }) t x.status x.sub)
        else none
      | _ => none

/-- SEIZE_PREPARE_ORIGIN at its admission (R329). The answer says whether it is done with; otherwise it waits for a
page walk. -/
def txnOrigin (s : Body) (r : Req) : Bool × Body :=
  let p := r.m.payload
  let reply : ReplyTo := { op := r.op, m := { r.m with payload := [] }, issueK := r.issueK, prevKey := r.prevKey }
  match parseOrigin s r.m.cid p with
  | .error sub => (true, txnRefuse s reply r.m.pid p sub true)
  | .ok (b, as) =>
    if ((txnRec s b.ocid r.m.arg).filter (fun t => t.isOpen)).isSome then (true, txnRefuse s reply r.m.pid p 3 false)
    else
      let t := txnNew s r b as
      match txnRoom s t with
      | some s => (true, s)
      | none =>
      let sgaFlag := s.get R.XLT_PART_ROOT.SGA_OK 0 r.m.pid
      let s1 := s.set R.XLT_PART_ROOT.SGA_OK 1 0 r.m.pid
      match txnXlt s1 r.grace r.m.cid r.m.pid (txnSgaOk s r.m.cid r.m.pid) r.walked as with
      | .miss cva _ =>
        let s := { s with olp := { s.olp with reqs := s.olp.reqs.map (fun q =>
          if q.id = r.id then { r with stage := .walk, walked := (cva >>> 16) :: r.walked } else q) } }
        (false, walkWant s r.m.pid cva r.admitted r.issueK r.m.cid)
      | .err e word s =>
        let s := s.set R.XLT_PART_ROOT.SGA_OK sgaFlag 0 r.m.pid
        let s := if e.cause = 0 then s else xltFault s (afterWalk s r.walked r.m.pid word e) 0 r.m.pid r.m.cid word
        (true, txnFail (txnOpenRec s { t with preparing := false }) t e.status e.sub)
      | .ok locs s =>
        let s := s.set R.XLT_PART_ROOT.SGA_OK sgaFlag 0 r.m.pid
        (true, txnBegin s { t with actions := (as.zip locs).map (fun x => { x.1 with loc := x.2.1 }) })

/-! ### Records written, decisions and effects -/

/-- PREPARED_RECORD_DONE (R329, R334, R336): the holding sled has answered the record's write. -/
def txnPrepared (s : Body) (ocid sid : Nat) (ok : Bool) : Body :=
  match txnRec s ocid sid with
  | none => s
  | some t =>
    if !t.writing ∨ t.outcome.isSome then s
    else if !ok then txnFail s t stPOOLFAIL 0
    else
      let s := s.count R.TXN_PREPARED.COUNT
      -- the units that its actions touch (R124)
      let s := (t.actions.map (fun a => (unitOf a.loc, a.addr))).foldl (fun (x : List Nat × Body) u =>
        if x.1.contains u.1 then x else (u.1 :: x.1, accessUnit x.2 t.pid u.2 u.1 t.cmd.isSome)) ([], s) |>.2
      let u := { t with writing := false, preparing := false, vote := some (stOK, 0),
                        reply := none, commitReply := if t.oneshot then t.reply else none, commitSeen := t.oneshot }
      let s := if t.oneshot then s else txnAnswerPrepare s t stOK 0
      txnVote (txnPut s u) ocid sid t.pid t.index t.parts stOK 0

/-- The coordinator decides (R331): writes its decision record. `st` 0 is COMMIT. -/
def txnDecideAs (s : Body) (t : Seizing) (st sub : Nat) : Body :=
  let lead := if t.parts.length = 1 then 1 else max 2 (s.get R.TXN_CTRL.LEAD)
  let s := if st ≠ 0 ∧ t.preparing then txnAnswerPrepare s t st sub else s
  let q := if s.get R.STO_SLED.STATE t.sled = 1 then t.sled else (positionsIn s).headD t.sled
  let s := recordWrite s q (s.txn.recs.findIdx (fun u => u.ocid == t.ocid && u.sid == t.sid))
  if st = 0 then txnPut s { t with outcome := some (0, 0), deciding := true, effect := s.now + lead }
  else
    let s := txnPut s { t with outcome := some (st, sub), deciding := true, locks := [], preparing := false, writing := false,
                               reply := none, closedAt := some s.now }
    txnLog s t st sub

/-- SEIZE_DECISION (R331) for one record, at a boundary. -/
def txnDecide (s : Body) (t : Seizing) : Body :=
  if !isCoord s t || t.outcome.isSome || !t.isOpen then s
  else match t.cause with
    | some (st, sub) => txnDecideAs s t st sub
    | none =>
      if t.commitSeen && (List.range t.parts.length).all (fun i => t.yes.contains i) then txnDecideAs s t 0 0 else s

/-- The other participants of a seizing: index and HID. -/
def txnOthers (s : Body) (t : Seizing) : List (Nat × Nat) :=
  ((List.range t.parts.length).zip t.parts).filter (fun p => p.2 != s.hid)

/-- Sends DECIDE to participants that have not acknowledged (R331, R335). -/
def txnSendDecide (s : Body) (t : Seizing) : Body :=
  let (st, sub) := t.outcome.getD (0, 0)
  let s := (txnOthers s t).foldl (fun s p =>
    if t.acked.contains p.1 then s
    else peerSend s p.2 (if st = 0 then opSEIZECOMMIT else opSEIZEABORT) 0 t.sid t.pid
      (ctlBytes 2 p.1 (if st = 0 then t.effect else 0) st sub t.ocid t.parts) (.decide t.ocid t.sid p.1)) s
  txnPut s { t with lastSend := s.now, deciding := false }

/-- DECISION_RECORD_DONE (R331, R333): DECIDE is sent, and an aborted COMMIT is answered. -/
def txnDecided (s : Body) (ocid sid : Nat) : Body :=
  match txnRec s ocid sid with
  | none => s
  | some t =>
    if !t.deciding then s
    else
      let (st, sub) := t.outcome.getD (0, 0)
      if st = 0 then txnSendDecide s t
      else
        let s := txnReply s t.commitReply st sub []
        let s := match t.cmd with | some (c, x) => originEnd s c x st sub 0 | none => s
        txnSendDecide s { t with commitReply := none }

/-- SEIZE_COMMIT and SEIZE_ABORT of the originator (R331, R333), at their admission. -/
def txnFinish (s : Body) (r : Req) (commit : Bool) : Body :=
  let reply : ReplyTo := { op := r.op, m := { r.m with payload := [] }, issueK := r.issueK, prevKey := r.prevKey }
  match txnRec s r.m.cid r.m.arg with
  | none => txnReply s (some reply) stSEIZEABORT 3 []
  | some t =>
    if !isCoord s t then txnReply s (some reply) stBADOPCODE 3 []
    else if commit then
      match t.outcome with
      | some (st, sub) =>
        if st = 0 then
          (if t.applied then txnReply s (some reply) stOK 0 (leBytes 8 t.effect) else txnPut s { t with commitReply := some reply })
        else if t.deciding then txnPut s { t with commitReply := some reply }
        else txnReply s (some reply) st sub []
      | none => txnPut s { t with commitSeen := true, commitReply := some reply }
    else
      let s := txnReply s (some reply) stOK 0 []
      if t.outcome.isSome then s else txnPut s { t with cause := some (t.cause.getD (stSEIZEABORT, 1)) }

/-- SEIZE_DECIDE (R332): acknowledged, and its outcome kept. -/
def txnTakeDecide (s : Body) (r : Req) : Body :=
  let b := ctlBlk r.m.payload
  let reply : ReplyTo := { op := r.op, m := { r.m with payload := [] }, issueK := r.issueK, prevKey := r.prevKey }
  let s := txnReply s (some reply) stOK 0 []
  match txnRec s b.ocid r.m.arg with
  | none => s
  | some t =>
    if t.outcome.isSome ∨ isCoord s t then s
    else if r.op = opSEIZECOMMIT then
      let late := decide (b.effect < s.now)
      let s := if late then s.set R.TXN_EVENT.LATE 1 else s
      txnPut s { t with outcome := some (0, 0), effect := b.effect, late := late, lastSend := s.now }
    else
      let st := if b.status = stOK then stINTERNAL else statusIn b.status
      let s := if t.preparing then txnAnswerPrepare s t st b.sub else s
      txnPut s { t with outcome := some (st, b.sub), preparing := false, writing := false, reply := none, lastSend := s.now }

/-- SEIZE_INQUIRE (R335): the coordinator sends DECIDE again, or DECIDE ABORT for a key it does not know. -/
def txnInquire (s : Body) (r : Req) : Body :=
  let b := ctlBlk r.m.payload
  let reply : ReplyTo := { op := r.op, m := { r.m with payload := [] }, issueK := r.issueK, prevKey := r.prevKey }
  let s := txnReply s (some reply) stOK 0 []
  match txnRec s b.ocid r.m.arg with
  | none =>
    peerSend s (b.parts.getD b.index 0) opSEIZEABORT 0 r.m.arg r.m.pid
      (ctlBytes 2 b.index 0 stSEIZEABORT 3 b.ocid b.parts) (.decide b.ocid r.m.arg b.index)
  | some t =>
    if t.outcome.isNone || t.deciding || !isCoord s t then s
    else txnSendDecide s { t with acked := t.acked.filter (fun i => i != b.index) }

/-- A seizing message at its admission (R326): true where it is done with. -/
def txnServe (s : Body) (r : Req) : Bool × Body :=
  if r.op = opSEIZEPREPARE then
    let b := ctlBlk r.m.payload
    let reply : ReplyTo := { op := r.op, m := { r.m with payload := [] }, issueK := r.issueK, prevKey := r.prevKey }
    if b.msg = 0 then txnOrigin s r
    else if r.m.len ≠ 4 ∨ b.nact ≠ 0 then (true, txnReply s (some reply) stBADOPCODE 3 [])
    else if b.msg = 1 then (true, txnVoteIn (txnReply s (some reply) stOK 0 []) b.ocid r.m.arg b.index (statusIn b.status) b.sub)
    else if b.msg = 3 then (true, txnInquire s r)
    else (true, txnReply s (some reply) stBADOPCODE 3 [])
  else if r.m.len ≠ 0 then
    let reply : ReplyTo := { op := r.op, m := { r.m with payload := [] }, issueK := r.issueK, prevKey := r.prevKey }
    if (ctlBlk r.m.payload).msg = 2 then (true, txnTakeDecide s r) else (true, txnReply s (some reply) stBADOPCODE 3 [])
  else (true, txnFinish s r (r.op == opSEIZECOMMIT))

/-- An action of a seizing as a watchpoint sees it (R481): by SGA, and by the CVA that its word converts to. -/
def actionWatch (s : Body) (pid : Nat) (a : SAction) : List Access :=
  let sga := match regionOfLoc s a.loc with
    | some r => [{ space := true, addr := locSga s r a.loc, len := a.data.length : Access }]
    | none => []
  sga ++ (match wordAddr s pid a.addr 0 true with
    | .ok (false, c) => [{ space := false, addr := c, len := a.data.length : Access }]
    | _ => [])

/-- SEIZE_APPLY (R332, R333): at C the actions apply and the locks are released; the coordinator answers SEIZE_COMMIT. -/
def txnApply (s : Body) (ocid sid : Nat) : Body :=
  match txnRec s ocid sid with
  | none => s
  | some t =>
    if t.outcome ≠ some (0, 0) ∨ t.applied ∨ !s.on R.MGT_READY.TXN ∨ (quiet s ∧ s.pwr.ended.isNone) ∨ s.now < t.effect ∨ (t.late ∧ s.now ≤ t.lastSend) then s
    else
      let s := { s with olp := { s.olp with groups := s.olp.groups.filter (fun g =>
        !(g.knot == s.now && t.locks.any (fun l => l.1 == g.loc / 128))) } }
      let s := t.actions.foldl (txnApplyAction t) s
      let s := t.actions.foldl (fun s a =>
        if a.kind = 2 then s
        else watch s s.now 1 2 0x48 t.pid t.ocid t.sid (actionWatch s t.pid a)) s
      let s := s.count R.TXN_COMMITTED.COUNT
      -- quiesced at C: applied at its end (R433)
      let quiesced := match s.pwr.ended with | some e => decide (t.effect < e) | none => false
      let s := if t.late || quiesced then s.count R.TXN_LATE.COUNT else s
      let s := txnReply s t.commitReply stOK 0 (leBytes 8 t.effect)
      let s := match t.cmd with
        | some (c, x) => if isCoord s t then originEnd s c x stOK 0 t.effect else s
        | none => s
      txnPut s { t with applied := true, locks := [], commitReply := none, closedAt := some s.now }

/-- SEIZE_HOLD_TIMEOUT (R335). -/
def txnHold (s : Body) (ocid sid : Nat) : Body :=
  match txnRec s ocid sid with
  | none => s
  | some t =>
    if isCoord s t && t.outcome.isNone && decide (t.preparedAt + max 1 (s.get R.TXN_CTRL.HOLD) ≤ s.now) then
      txnDecideAs s t stSEIZEABORT 2
    else s

/-- SEIZE_INQUIRE_TIMER (R335). -/
def txnInquireTimer (s : Body) (ocid sid : Nat) : Body :=
  match txnRec s ocid sid with
  | none => s
  | some t =>
    let due := t.preparedAt + max 1 (s.get R.TXN_CTRL.HOLD) + max 2 (s.get R.TXN_CTRL.LEAD)
    let again := t.lastSend = 0 ∨ t.lastSend + max 1 (s.get R.TXN_CTRL.RESEND) ≤ s.now
    if t.vote.isSome ∧ !isCoord s t ∧ t.outcome.isNone ∧ due ≤ s.now ∧ again then
      let s := peerSend s (t.parts.headD 0) opSEIZEPREPARE 0 t.sid t.pid (ctlBytes 3 t.index 0 0 0 t.ocid t.parts) .inquire
      txnPut s { t with lastSend := s.now }
    else s

/-- SEIZE_DECIDE_RESEND (R335). -/
def txnResend (s : Body) (ocid sid : Nat) : Body :=
  match txnRec s ocid sid with
  | none => s
  | some t =>
    let left := (txnOthers s t).any (fun p => !t.acked.contains p.1)
    if isCoord s t && t.outcome.isSome && !t.deciding && left &&
        decide (t.lastSend + max 1 (s.get R.TXN_CTRL.RESEND) ≤ s.now) then txnSendDecide s t
    else s

/-- SEIZE_VOTE_DISCARD (R331): votes kept for HOLD knots are discarded. -/
def txnDropVotes (s : Body) : Body :=
  { s with txn := { s.txn with early := s.txn.early.filter (fun e =>
      !decide (e.2.2.2.2.2 + max 1 (s.get R.TXN_CTRL.HOLD) ≤ s.now)) } }

/-- A participant that takes in DECIDE ABORT releases its locks at the boundary after (R332). -/
def txnRelease (s : Body) (t : Seizing) : Body :=
  match t.outcome with
  | some (st, sub) =>
    if st ≠ 0 ∧ !isCoord s t ∧ t.closedAt.isNone ∧ t.lastSend < s.now then
      txnLog (txnPut s { t with locks := [], closedAt := some s.now }) t st sub
    else s
  | none => s

/-- Closed records are kept for TXN_VIEW, a coordinator's until every participant has acknowledged, and for 4,096 knots
(log entry 21). -/
def txnForget (s : Body) : Body :=
  { s with txn := { s.txn with recs := s.txn.recs.filter (fun t =>
      match t.closedAt with
      | none => true
      | some k => decide (s.now < k + 4096) ||
          (isCoord s t && (txnOthers s t).any (fun p => !t.acked.contains p.1))) } }

/-- FORCE_COMMIT and FORCE_ABORT take effect (R338); a key not in PREPARED is left unchanged. -/
def txnForceNow (s : Body) (commit : Bool) (ocid sid : Nat) : Body :=
  match txnRec s ocid sid with
  | none => s
  | some t =>
    if t.vote ≠ some (stOK, 0) ∨ t.outcome.isSome ∨ !t.isOpen then s
    else
      -- each participant is forced on its own: nothing is left to send
      let t := { t with acked := List.range t.parts.length }
      if commit then txnApply (txnPut s { t with outcome := some (0, 0), effect := s.now }) ocid sid
      else txnLog (txnPut s { t with outcome := some (stSEIZEABORT, 6), locks := [], closedAt := some s.now }) t stSEIZEABORT 6

/-- TXN_LOOKUP takes effect (R338): TXN_VIEW shows the key. -/
def txnLookNow (s : Body) (ocid sid : Nat) : Body :=
  let put := fun (s : Body) (f st c n q p a b k : Nat) =>
    let s := s.set R.TXN_VIEW.FOUND f
    let s := s.set R.TXN_VIEW.STATE st
    let s := s.set R.TXN_VIEW.COORD c
    let s := s.set R.TXN_VIEW.NPART n
    let s := s.set R.TXN_VIEW.SLED q
    let s := s.set R.TXN_VIEW.PID p
    let s := s.set R.TXN_VIEW.STATUS a
    let s := s.set R.TXN_VIEW.SUB b
    s.set R.TXN_VIEW_KNOT.KNOT k
  match txnRec s ocid sid with
  | none => put s 0 0 0 0 0 0 0 0 0
  | some t =>
    let st := if t.applied then 3 else match t.outcome with
      | some (0, _) => 2
      | some _ => 4
      | none => if t.vote = some (stOK, 0) then 1 else 0
    let (a, b) := (t.outcome.orElse (fun _ => t.vote)).getD (0, 0)
    put s 1 st (b2n (isCoord s t)) t.parts.length (s.get R.STO_SLED.PORT t.sled) t.pid a b
      (if t.outcome.isSome then t.effect else 0)

/-- HOLDING_SLED_LOSS (R336): a prepared, undecided seizing whose record lay on position `q` votes ST_POOL_FAIL. -/
def txnSledLost (s : Body) (q : Nat) : Body :=
  s.txn.recs.foldl (fun s t =>
    if t.isOpen && t.sled == q && t.outcome.isNone && (t.writing || t.vote == some (stOK, 0)) then
      let s := s.set R.TXN_EVENT.POOL_FAIL 1
      if t.writing then txnFail s t stPOOLFAIL 0
      else txnVote (txnPut s { t with vote := some (stPOOLFAIL, 0) }) t.ocid t.sid t.pid t.index t.parts stPOOLFAIL 0
    else s) s

/-- A verdict on a HID (R338): undecided seizings that it takes part in abort; a voter whose coordinator is fenced keeps
its locks and sets ORPHAN. -/
def txnHidFenced (s : Body) (hid : Nat) : Body :=
  s.txn.recs.foldl (fun s t =>
    if !t.isOpen || t.outcome.isSome || !t.parts.contains hid then s
    else if isCoord s t then txnPut s { t with cause := some (t.cause.getD (stSEIZEABORT, 4)) }
    else if t.parts.head? = some hid ∧ t.vote = some (stOK, 0) then s.set R.TXN_EVENT.ORPHAN 1
    else s) s

/-- A PARTITION reset, or the end of a partition (R337, R401): the seizings of a partition. -/
def txnPartReset (s : Body) (pid prepareStatus st sub : Nat) : Body :=
  s.txn.recs.foldl (fun s t =>
    if t.pid ≠ pid ∨ !t.isOpen ∨ t.outcome.isSome then s
    else
      let s := if t.preparing then txnAnswerPrepare s t prepareStatus 0 else s
      let t := if t.preparing then { t with preparing := false, writing := false, locks := [], reply := none } else t
      if isCoord s t then txnDecideAs (txnPut s t) t st sub
      else txnVote (txnPut s { t with vote := some (st, sub) }) t.ocid t.sid t.pid t.index t.parts st sub) s

/-- What the seizings do at a boundary before it admits: locks of aborted ones go, and prepares go on. -/
def txnBoundary (s : Body) : Body :=
  if !s.on R.MGT_READY.TXN then s
  else txnProgress (s.txn.recs.foldl (fun s t => match txnRec s t.ocid t.sid with | some u => txnRelease s u | none => s) s)

/-- The decisions of a boundary (R331), from the messages admitted at or before it. -/
def txnDecisions (s : Body) : Body :=
  if !s.on R.MGT_READY.TXN then s
  else txnForget (s.txn.recs.foldl (fun s t => match txnRec s t.ocid t.sid with | some u => txnDecide s u | none => s) s)

end Sys2Proof.Machine
end

