-- ==== Sys2Proof/Machine/Serve.lean ====
section
/-!
DEFINITION. The service of admitted requests: translation (checks 9 and 10 of R82), the order of R84, locks (R330), the
directory step (R136, R143 to R145), the far store (R357), the effects of R75, and the answers with their budgets (R30, R32).
-/

namespace Sys2Proof.Machine

/-! ### What a request touches -/

/-- The opcode reads and changes no store line. -/
def isRead (op : Nat) : Bool := op == opLOAD || op == opLOADSHARED || op == opLOADOWN || op == opLOADNA || op == opCODEDLOAD

/-- The opcode writes store lines as a STORE, an atomic, a CODED_STORE or a PUBLISH does (R143). -/
def isWrite (op : Nat) : Bool :=
  op == opSTORE || op == opSTOREMASKED || op == opCODEDSTORE || op == opPUBLISH || isAtomic op

/-- The pieces of a translated request. -/
def segsOf (r : Req) : List (Nat × Nat × Nat) := r.segs.getD []

/-- The local lines of a translated request. -/
def reqLines (r : Req) : List Nat := ((segsOf r).flatMap (fun g => linesOf g.1 g.2.2)).eraseDups

/-- The key of R84. -/
def reqBefore (a b : Req) : Bool :=
  if a.admitted ≠ b.admitted then decide (a.admitted < b.admitted)
  else if a.issueK ≠ b.issueK then decide (a.issueK < b.issueK)
  else if a.m.cid ≠ b.m.cid then decide (a.m.cid < b.m.cid)
  else if a.m.link ≠ b.m.link then decide (a.m.link < b.m.link)
  else decide (a.order ≤ b.order)

/-- Puts a request into a list kept in the order of R84. -/
def insertReq (r : Req) : List Req → List Req
  | [] => [r]
  | q :: t => if reqBefore r q then r :: q :: t else q :: insertReq r t

/-- The admitted requests, in the order of R84. -/
def inOrder (s : Body) : List Req := (s.olp.reqs.filter (fun r => r.stage != .waiting)).foldl (fun l r => insertReq r l) []

/-- Replaces a request. -/
def putReq (s : Body) (r : Req) : Body :=
  { s with olp := { s.olp with reqs := s.olp.reqs.map (fun q => if q.id = r.id then r else q) } }

/-- The request as it stands. -/
def reqNow (s : Body) (id : Nat) : Option Req := s.olp.reqs.find? (fun r => r.id == id)

/-! ### Budgets and answers -/

/-- The budget of R30, R92, R101, R141 and R357, in knots from the issue knot; `n` is the larger payload. It takes in the knots
that R55 and R60 add on every port crossed: the receiving port, those of its snoops, and those of the sleds. -/
def budget (s : Body) (r : Req) (n : Nat) : Nat :=
  (if r.stages = 0 then 3 else 4 + 2 * (r.stages - 1)) + r.extra + r.snoopKnots +
    ((r.m.link :: r.ports).eraseDups.map (addKnots s)).foldl (· + ·) 0 +
    (if 512 < n then ceilDiv (n - 512) 16384 else 0)

/-- The deadline of R32 is missed by a response launched in this knot: 170 ns of service, the port's transmit and receive, its
measured delay and 175 ns for each switch stage (R33), behind what the port has still to carry (log entry 11). -/
def missed (s : Body) (r : Req) (n : Nat) : Bool :=
  decide (r.issueK + budget s r n ≤ s.now + portDelay s r.m.link +
    (215000 + s.get R.LNK_PEER.DELAY_PS r.m.link + 175000 * r.stages) / 250000)

/-- A combined payload goes to another member of its splice when its carrier is refused (R96, R97). -/
def passCombined (s : Body) (r : Req) : Body :=
  match r.combined with
  | some (b :: p) =>
    match s.olp.reqs.find? (fun q => q.splice == r.splice && q.id != r.id) with
    | some q => putReq s { q with combined := some (b :: p) }
    | none => s
  | _ => s

/-- A table reference of a CODED_STORE is released (R229). -/
def dropRef (s : Body) (r : Req) : Body :=
  match r.slotRef with
  | some n =>
    let t := AMap.get {} s.tables (r.m.pid * 4 + n)
    { s with tables := AMap.put {} s.tables (r.m.pid * 4 + n) { t with refs := t.refs - 1 } }
  | none => s

/-- Answers a request and forgets it. -/
def finish (s : Body) (r : Req) (status sub len arg : Nat) (pay : List Byte) : Body :=
  let s := dropRef s r
  let s := { s with olp := { s.olp with reqs := s.olp.reqs.filter (fun q => q.id != r.id) } }
  answer s r.op r.m r.issueK r.prevKey status sub len arg pay

/-- Ends a request that has no effect (a refusal, R82, R88). -/
def refuse (s : Body) (r : Req) (status sub : Nat) : Body := finish (passCombined s r) r status sub 0 0 []

/-- Answers a served request (R32, R96): ST_OK becomes ST_OK_SPLICED for a spliced one, and ST_BUDGET_MISS past the
deadline of a request that holds a budget. -/
def served (s : Body) (r : Req) (status len : Nat) (pay : List Byte) : Body :=
  let n := max pay.length r.m.payload.length
  let good := status == stOK || status == stRAWFALLBACK
  let st := if good && r.own && missed s r n then stBUDGETMISS
    else if status = stOK ∧ r.spliced = true then stOKSPLICED else status
  finish s r st 0 len 0 pay

/-! ### Translation (checks 9 and 10 of R82) -/

/-- The watchpoint kinds of a request (R481), matched when it passes check 10. -/
def watchReq (s : Body) (r : Req) : Body :=
  if !isRead r.op && !isWrite r.op && r.op != opWRITEBACK then s
  else
    let as := (segsOf r).map (fun g => { space := true, addr := g.2.1, len := g.2.2 : Access })
    let as := if r.m.space then as else { space := false, addr := r.m.addr, len := reqLen r.op r.m : Access } :: as
    watch s r.admitted (if isRead r.op then 0 else 1) 0 r.op r.m.pid r.m.cid r.m.tag as

/-- Counts the access of a request that is served (R124), once for each unit touched. -/
def countAccess (s : Body) (r : Req) : Body :=
  let units := ((segsOf r).map (fun g => unitOf g.1)).eraseDups
  units.foldl (fun s u => accessUnit s r.m.pid (r.m.addr + (if r.m.space then 2 ^ 62 else 0)) u false) s

/-- Translates one admitted request (R115, R116). -/
def xltReq (s : Body) (r : Req) : Body :=
  if r.segs.isSome ∨ r.stage ≠ .ready ∨ r.op = opDOORBELL ∨ opSEIZEPREPARE ≤ r.op then s
  else
    let n := reqLen r.op r.m
    match xltRequest s r.grace r.m.space r.op r.m.cid r.m.pid r.m.addr n (leafNeed r.op) r.walked
      (cutPages r.m.addr n 18) with
    | .miss cva _ => walkWant (putReq s { r with stage := .walk, walked := (cva >>> 16) :: r.walked }) r.m.pid cva r.admitted r.issueK r.m.cid
    | .err e word s =>
      let s := if e.cause = 0 then s else xltFault s (afterWalk s r.walked r.m.pid word e) 0 r.m.pid r.m.cid word
      refuse s r e.status e.sub
    | .ok segs s =>
      let r := { r with segs := some segs }
      watchReq (putReq s r) r

/-! ### The directory step -/

/-- The round that a request needs for a line in its present state (R136, R143): its purpose, the holder left out, and whether
the entry is an alias. An entry marked REISSUE needs one in any case (R154). -/
def roundWant (s : Body) (r : Req) (line : Nat) : Option (RoundFor × Option Nat × Bool) :=
  match entryOf s line with
  | none => none
  | some e =>
    let owner := match e.ptrs with | (c, _) :: _ => c | [] => 0
    let caching := r.op == opLOADSHARED || r.op == opLOADOWN
    let alias_ := caching && (e.pid != r.m.pid || e.space != r.m.space || e.raddr != r.m.addr)
    if e.st = .l then none
    else if e.reissue.isSome then some (.request r.id false false, none, false)
    else if alias_ then some (.request r.id false false, none, true)
    else if r.op = opLOAD ∨ r.op = opCODEDLOAD then
      (if e.st = .x then some (.request r.id true false, none, false) else none)
    else if r.op = opLOADNA then
      (if e.st = .x ∧ !r.keep.any (fun k => k.1 == line) then some (.request r.id true true, none, false) else none)
    else if r.op = opLOADSHARED then
      (if e.st = .x ∧ owner ≠ r.m.cid then some (.request r.id true false, none, false) else none)
    else if r.op = opLOADOWN then
      (match e.st with
        | .x => if owner = r.m.cid then none else some (.request r.id false false, none, false)
        | .sb => some (.request r.id false false, some r.m.cid, false)
        | _ => if e.ptrs.all (fun p => p.1 == r.m.cid) then none
               else some (.request r.id false false, some r.m.cid, false))
    else if isWrite r.op then some (.request r.id false false, none, false)
    else none

/-- A request needs a snoop for a line now. -/
def wantsSnoop (s : Body) (r : Req) (line : Nat) : Bool :=
  match roundWant s r line, entryOf s line with
  | some (_, w, _), some e => !(roundTargets s e w).isEmpty
  | _, _ => false

/-- Starts the rounds that a request needs; those with no target act at once. The rounds started, and the knots they add
(R141). -/
def roundsFor (s : Body) (r : Req) : List Nat → List Nat × Nat × Body
  | [] => ([], 0, s)
  | l :: t =>
    let (ids, k, s) := match roundWant s r l, entryOf s l with
      | some (p, w, alias_), some e =>
        let s := if alias_ then s.count R.DIR_ALIAS.COUNT else s
        if (roundTargets s e w).isEmpty then
          let p := match e.reissue with | some d => RoundFor.reissue d | none => p
          ([], 0, roundEntry s { id := 0, line := l, purpose := p, waiting := [], cls := false, without := w, started := 0 }
            { e with reissue := none })
        else
          let (id, s) := startRound s e p w r.m.cls false
          ([id], roundKnots s id, s)
      | _, _ => ([], 0, s)
    let (ids', k', s) := roundsFor s r t
    (ids ++ ids', k + k', s)

/-- The ports on which the snoops of some rounds go out. -/
def roundPorts (s : Body) (ids : List Nat) : List Nat :=
  (s.dir.rounds.filter (fun q => ids.contains q.id)).flatMap (fun q => q.waiting.map (·.link))

/-- A new entry for a line (R135, R149). -/
def newEntry (s : Body) (r : Req) (line : Nat) (st : DState) : Body :=
  let s := setEntry s line (some {
    line := line, st := st, space := r.m.space, raddr := r.m.addr, pid := r.m.pid, ptrs := [(r.m.cid, r.m.link)],
    used := s.dir.clock })
  { s with dir := { s.dir with clock := s.dir.clock + 1 } }

/-- The entry of a line that a caching request leaves (R143), with the port of its grant (R140). -/
def grant (s : Body) (r : Req) (line : Nat) : Body :=
  if r.op = opLOADOWN then newEntry s r line .x
  else match entryOf s line with
    | none => newEntry s r line .s
    | some e =>
      let s := { s with dir := { s.dir with clock := s.dir.clock + 1 } }
      let e := { e with used := s.dir.clock }
      let with_ := fun (l : List (Nat × Nat)) => l.filter (fun p => p.1 != r.m.cid) ++ [(r.m.cid, r.m.link)]
      match e.st with
      | .x => newEntry s r line .s
      | .s =>
        if e.ptrs.any (fun p => p.1 == r.m.cid) then
          setEntry s line (some { e with ptrs := e.ptrs.map (fun p => if p.1 = r.m.cid then (p.1, r.m.link) else p) })
        else if 4 ≤ e.ptrs.length then setEntry s line (some { e with st := .sb, ptrs := [], ports := with_ e.ptrs })
        else setEntry s line (some { e with ptrs := e.ptrs ++ [(r.m.cid, r.m.link)] })
      | .sb => setEntry s line (some { e with ports := with_ e.ports })
      | .l => setEntry s line (some e)

/-! ### Effects (R75) -/

/-- Cuts data for a piece into single lines: local offset and bytes. -/
def cutLines (loc : Nat) : Nat → List Byte → List (Nat × List Byte)
  | 0, _ => []
  | k + 1, b =>
    if b.isEmpty then []
    else
      let n := 128 - loc % 128
      (loc, b.take n) :: cutLines (loc + n) k (b.drop n)

/-- Writes data over the pieces of a request; a lost line takes only a write of the whole line (R145). The answer says
whether every byte was written. -/
def storeOver (s : Body) (segs : List (Nat × Nat × Nat)) (data : List Byte) : Bool × Body :=
  match segs with
  | [] => (true, s)
  | (loc, _, n) :: t =>
    let d := data.take n
    let (ok, s) :=
      if (linesOf loc n).any (fun l => lineLost s l) then
        (cutLines loc (n / 128 + 2) d).foldl (fun (a : Bool × Body) c =>
          if lineLost a.2 (c.1 / 128) then
            (if c.2.length = 128 then (a.1, (clearLost a.2 (c.1 / 128)).wr c.1 c.2) else (false, a.2))
          else (a.1, a.2.wr c.1 c.2)) (true, s)
      else (true, (cutPages loc d.length 18).foldl (fun s p => s.wr p.1 (slice d (p.1 - loc) p.2)) s)
    let (r, s) := storeOver s t (data.drop n)
    (ok && r, s)

/-- The bytes that the enabled bits of a STORE_MASKED write: offset within the line and byte. -/
def maskedBytes (p : List Byte) : List (Nat × Byte) :=
  (List.range 128).filterMap (fun i => if bitAt (le p (128 + i / 8) 1) (i % 8) then some (i, p.getD i 0) else none)

/-- What a read returns: the home's bytes, or those of an owner that kept its line (R143). -/
def readBytes (s : Body) (r : Req) : List Byte :=
  (segsOf r).flatMap (fun g =>
    match r.keep.find? (fun k => k.1 == g.1 / 128) with
    | some (_, d) => slice d (g.1 % 128) g.2.2
    | none => s.rd g.1 g.2.2)

/-- The local offset of the header of a block slot (R219). -/
def hdrLoc (s : Body) (loc : Nat) : Nat :=
  match regionOfLoc s loc with
  | some r => r.hdrBase + 64 * ((loc - r.localBase) / 65536)
  | none => 0

/-- Records a codec failure (CDC_ERR_LOG): SRC 0 fabric store, 1 codec command, 2 weight stream. -/
def cdcErr (s : Body) (status cause src pid id ss addr : Nat) : Body :=
  let s := s.set R.CDC_ERR_LOG.STATUS status
  let s := s.set R.CDC_ERR_LOG.CAUSE cause
  let s := s.set R.CDC_ERR_LOG.SRC src
  let s := s.set R.CDC_ERR_LOG.PID pid
  let s := s.set R.CDC_ERR_LOG.ID id
  let s := s.set R.CDC_ERR_LOG.SS ss
  let s := s.set R.CDC_ERR_ADDR.ADDR addr
  let s := s.set R.CDC_ERR_KNOT.KNOT s.now
  if status = stTABLEMISSING then s.count R.CDC_TBL_MISS.COUNT else s

/-- Coded sub-streams of a block's header: those that take lane time (R234, R237). -/
def codedSubs (h : List Byte) : Nat :=
  let b := blkHdr h
  if isEmptyBlk h ∨ b.kind ≠ 0 then 0 else (b.lens.filter (fun x => x != 4096)).length

/-- The checks of R233 on a CODED_STORE: status and SUB of a refusal with its cause and sub-stream, or the slot that
matched. -/
def codedCheck (s : Body) (r : Req) : Except (Nat × Nat × Nat × Nat) (Option Nat) :=
  let h := slice r.m.payload 0 64
  let b := blkHdr h
  let t := carried b.payload
  if !hdrOk h then .error (stBADOPCODE, 3, 1, 31)
  else if !lensOk h ∨ r.m.payload.length ≠ t ∨ !allZero (r.m.payload.drop (64 + b.payload)) then .error (stBADOPCODE, 2, 2, 31)
  else match decodeBlock s r.m.pid h (slice r.m.payload 64 b.payload) with
    | .error e => .error e
    | .ok _ => .ok (if isEmptyBlk h ∨ b.kind ≠ 0 then none else (matchSlot s r.m.pid b).map (·.1))

/-- Applies a verified CODED_STORE (R221, R231, R233): its status. -/
def codedStore (s : Body) (r : Req) : Nat × Body :=
  let h := slice r.m.payload 0 64
  let b := blkHdr h
  let loc := reqLoc r
  let pay := slice r.m.payload 64 b.payload
  let coded := !isEmptyBlk h && b.kind == 0
  let raw := if coded && decide (61440 ≤ b.payload) then
      (match decodeWith (r.slotRef.map (fun k => AMap.get {} s.tables (r.m.pid * 4 + k))) h pay with
        | .ok x => some x
        | .error _ => none) else none
  let (h, pay, st) := match raw with
    | some x => (rawHdr x, x, stRAWFALLBACK)
    | none => (h, pay, stOK)
  let lits := if coded && raw.isNone then (b.lens.filter (fun x => x == 4096)).length else 0
  let s := (linesOf loc 65536).foldl (fun s l => if lineLost s l then clearLost s l else s) s
  let s := (s.wr (hdrLoc s loc) h).wr loc pay
  let s := if coded then s.count R.CDC_DEC_BLK.COUNT else s.count R.CDC_RAW_BLK.COUNT
  let s := s.count R.CDC_LIT_SS.COUNT lits
  (st, if st = stRAWFALLBACK then s.count R.CDC_FALLBACK.COUNT else s)

/-- WRITEBACK and EVICT_CLEAN (R144, R145, R146). -/
def giveUp (s : Body) (r : Req) (line : Nat) : Body :=
  if r.crossed then s
  else match entryOf s line with
    | none => s.count R.DIR_WB_NOOP.COUNT
    | some e =>
      let mine := e.ptrs.any (fun p => p.1 == r.m.cid)
      match e.st with
      | .x =>
        if !mine then s.count R.DIR_WB_NOOP.COUNT
        else
          let s := if r.op = opWRITEBACK then s.wr (line * 128) (slice r.m.payload 0 128) else s
          setEntry s line none
      | .s =>
        if !mine then s.count R.DIR_WB_NOOP.COUNT
        else if r.op = opWRITEBACK then s
        else
          let p := e.ptrs.filter (fun q => q.1 != r.m.cid)
          setEntry s line (if p.isEmpty then none else some { e with ptrs := p })
      | .sb => s.count R.DIR_WB_NOOP.COUNT
      | .l => s.count R.DIR_WB_NOOP.COUNT

/-- An add (R77): every element's group acts at its first member; the old values. -/
def addEffect (s : Body) (r : Req) : List Byte × Body :=
  let ty := atomTy r.m
  let sz := atomSize ty
  (List.range (addCount r)).foldl (fun (a : List Byte × Body) i =>
    let loc := reqLoc r + sz * i
    match groupDone a.2 r.admitted loc ty (atomRnd r.m) with
    | some m => (a.1 ++ leBytes sz m, a.2)
    | none =>
      let (m, s) := groupAct a.2 r.admitted loc ty (atomRnd r.m) []
      (a.1 ++ leBytes sz m, s)) ([], s)

/-- An element as a payload word carries it (R76): in the low bytes of eight. -/
def oldWord (b : List Byte) : List Byte := slice b 0 8

/-- Applies a request's effect: status, SUB, response length code, payload (R75, R145, R341 to R343). -/
def effect (s : Body) (r : Req) : Nat × Nat × Nat × List Byte × Body :=
  let loc := reqLoc r
  let lost := (reqLines r).any (fun l => lineLost s l)
  if isRead r.op then
    if lost then (stLOSTLINE, 0, 0, [], s)
    else if r.op = opCODEDLOAD then
      let h := s.rd (hdrLoc s loc) 64
      let n := (blkHdr h).payload
      (stOK, 0, ceilDiv (carried n) 4096 + 14, slice (h ++ s.rd loc n) 0 (carried n), s)
    else
      let p := readBytes s r
      (stOK, 0, r.m.len, p, if r.op = opLOADSHARED ∨ r.op = opLOADOWN then grant s r (loc / 128) else s)
  else if r.op = opWRITEBACK ∨ r.op = opEVICTCLEAN then (stOK, 0, 0, [], giveUp s r (loc / 128))
  else if r.op = opSTORE then
    match regionOfLoc s loc with
    | some g =>
      if isCompanion s g then
        let sga := match segsOf r with | (_, a, _) :: _ => a | [] => 0
        let new := companionNew s g sga (s.rd loc r.m.payload.length) r.m.payload
        (stOK, 0, 0, [], (s.wr loc new).count R.STO_EC_APPLY.COUNT)
      else
        let (ok, s) := storeOver s (segsOf r) r.m.payload
        (if ok then stOK else stLOSTLINE, 0, 0, [], s)
    | none => (stOK, 0, 0, [], s)
  else if r.op = opSTOREMASKED then
    let bs := maskedBytes r.m.payload
    if lost ∧ bs.length ≠ 128 then (stLOSTLINE, 0, 0, [], s)
    else
      let s := if lost then clearLost s (loc / 128) else s
      if bs.length = 128 then (stOK, 0, 0, [], s.wr loc (slice r.m.payload 0 128))
      else (stOK, 0, 0, [], bs.foldl (fun s b => s.wr (loc + b.1) [b.2]) s)
  else if r.op = opCODEDSTORE then
    let (st, s) := codedStore s r
    (st, 0, 0, [], s)
  else if lost then (stLOSTLINE, 0, 0, [], s)
  else if r.op = opPUBLISH then
    let (st, sub, s) := publishNow s loc r.m.cid r.m.payload
    (st, sub, 0, [], s)
  else if isAdd r.op then
    let (old, s) := addEffect s r
    if !atomRet r.m then (stOK, 0, 0, [], s)
    else if r.op = opADDEXACT then (stOK, 0, 1, oldWord old, s) else (stOK, 0, r.m.len, old, s)
  else
    let ty := atomTy r.m
    let sz := atomSize ty
    let old := leNat (s.rd loc sz)
    let v := atomResult r.op ty old (le r.m.payload 0 sz) (le r.m.payload 8 sz)
    let s := if r.op = opCAS ∧ v = old then s else s.wr loc (leBytes sz v)
    if r.op = opCAS ∨ r.op = opSWAP ∨ atomRet r.m = true then (stOK, 0, 1, oldWord (leBytes sz old), s) else (stOK, 0, 0, [], s)

/-! ### The far store's part -/

/-- The key under which a request, or a context of a partition, draws bytes (R517): its partition where it holds the partition's
slots, 1024 for the common capacity. -/
def drawPid (own : Bool) (pid : Nat) : Nat := if own then pid else 1024

/-- A partition's share of a capacity (R25). -/
def slotShare (s : Body) (pid whole : Nat) : Nat :=
  match partDef s pid with | some p => whole * p.resSlots / 1024 | none => 0

/-- Far-store bytes drawn in this knot in one direction: 0 reads, 1 writes. -/
def farTotal (s : Body) (dir : Nat) : Nat :=
  ((s.olp.farUsed.filter (fun (e : Nat × Nat) => e.1 % 2 == dir)).map (fun (e : Nat × Nat) => e.2)).foldl (· + ·) 0

/-- `n` more far-store bytes in a direction fit into this knot (R25, R517): into the partition's share, or into the whole for the
common capacity. The first access that a share takes in a knot is always issued, so that one larger than it goes out at all
(DESIGN CHOICE, log entry 112). -/
def farFits (s : Body) (pid dir n : Nat) : Bool :=
  let used := AMap.get 0 s.olp.farUsed (pid * 2 + dir)
  n = 0 || used = 0 && pid != 1024 || (if pid = 1024 then farTotal s dir == 0 || decide (farTotal s dir + n ≤ 800000)
    else decide (used + n ≤ slotShare s pid 800000))

/-- Draws far-store bytes (R517). -/
def farDraw (s : Body) (pid dir n : Nat) : Body :=
  if n = 0 then s
  else { s with olp := { s.olp with
    farUsed := AMap.put 0 s.olp.farUsed (pid * 2 + dir) (AMap.get 0 s.olp.farUsed (pid * 2 + dir) + n) } }

/-- The request writes to an EC8 data region (R366): cross-Helak erasure traffic, for which R80 asks a peer CID. -/
def ecWrite (s : Body) (r : Req) : Bool :=
  r.segs.isSome && (match regionOfLoc s (reqLoc r) with | some g => (ecGroup s g.id).isSome | none => false)

/-- Identical reads (R94). -/
def sameRead (a b : Req) : Bool :=
  isRead a.op && a.op != opLOADOWN && a.op == b.op && a.m.cls == b.m.cls && a.m.len == b.m.len && a.m.pid == b.m.pid &&
  a.m.enc == b.m.enc && a.m.space == b.m.space && a.m.addr == b.m.addr && a.m.mapgen == b.m.mapgen && a.m.arg == b.m.arg

/-- The other members of a request's splice, of a switch or of the home (R96, R98). -/
def mates (s : Body) (r : Req) : List Nat :=
  if !r.spliced then []
  else (s.olp.reqs.filter (fun q => q.id != r.id && q.spliced && q.admitted == r.admitted && sameRead r q)).map (·.id)

/-- A request writes at the sleds when it is served. -/
def writesStore (r : Req) : Bool := isWrite r.op || (r.op == opWRITEBACK && !r.crossed)

/-- What of the store a request reads or writes: of a coded block, the stored payload alone (R232). -/
def storedSegs (s : Body) (r : Req) : List (Nat × Nat × Nat) :=
  if r.op = opCODEDLOAD ∨ r.op = opCODEDSTORE then
    (segsOf r).map (fun g =>
      let n := if r.op = opCODEDLOAD then (blkHdr (s.rd (hdrLoc s g.1) 64)).payload else (blkHdr (slice r.m.payload 0 64)).payload
      (g.1, g.2.1, if r.op = opCODEDSTORE ∧ 61440 ≤ n then 65536 else min n 65536))
  else segsOf r

/-- Starts a request's far accesses (R357, R358, R366): the operations it must wait for, the lines they read and write, and the
state. What a write leaves is known as its lines are its own until it has been served. -/
def farStart (s : Body) (r : Req) : List Nat × Nat × Nat × Body :=
  let w : FarFor := { req := some r.id, knot := r.admitted, cls := true }
  let after := if writesStore r then (effect s r).2.2.2.2 else s
  let lines := fun (m : AMap Byte) (l : Nat) => (List.range 128).map (fun i => AMap.get 0 m (l * 128 + i))
  let go := fun (a : List Nat × Nat × Nat × Body) (p : Nat × Nat × Nat) =>
    let f := if writesStore r then farWrite a.2.2.2 w ((linesOf p.1 p.2.2).map (fun l => (l, lines after.far l))) p
      else if r.rides ∧ isResident s p.1 = true then { s := a.2.2.2 }
      else farRead a.2.2.2 w (mates s r) p
    (a.1 ++ f.id.toList, a.2.1 + f.rd, a.2.2.1 + f.wr, f.s)
  let (ids, rd, wr, s1) := (farPieces (storedSegs s r)).foldl go ([], 0, 0, s)
  -- the deltas of an EC8 data region: lines that the effect changes
  if writesStore r && ecWrite s r then
    let ls := (segsOf r).flatMap (fun g => (linesOf g.1 g.2.2).map (fun l =>
      (l, g.2.1 + l * 128 - g.1, s.rd (l * 128) 128, after.rd (l * 128) 128)))
    let (i, s2) := ecDeltas s1 w (ls.filter (fun x => x.2.2.1 != x.2.2.2))
    (ids ++ i.toList, rd, wr, s2)
  else (ids, rd, wr, s1)

/-- The knots that the tiers add to a request's budget (R357). -/
def farExtra (s : Body) (r : Req) : Nat := ((farPieces (storedSegs s r)).map (farKnots s (writesStore r))).foldl max 0

/-- The store ports that far operations use, as links. -/
def farPorts (s : Body) (ids : List Nat) : List Nat :=
  (s.sto.ops.filter (fun o => ids.contains o.id)).flatMap (fun o =>
    (o.out.map (fun e => e.2.1) ++ o.writes.map (fun p => p.1)).map (fun q => 32 + s.get R.STO_SLED.PORT q))

/-! ### Doorbells (R184) -/

/-- DOORBELL at its place (R184): decided against the PI that earlier doorbells have left. -/
def doorbell (s : Body) (r : Req) : Body :=
  let q := r.m.arg % 64
  let key := r.m.pid * 64 + q
  let nq := match partDef s r.m.pid with | some p => p.nq | none => 0
  let pi := match s.que.newPI.find? (fun e => e.1 == key) with
    | some (_, v) => v
    | none => s.get R.QUE_IDX.PI 0 key
  let v := le r.m.payload 0 4
  let d := (v + 2 ^ 32 - pi) % 2 ^ 32
  let ahead := (v + 2 ^ 32 - s.get R.QUE_IDX.FI 0 key) % 2 ^ 32
  if nq ≤ q ∨ s.get R.QUE_STATUS.STATE 0 key = 0 then refuse s r stBADOPCODE 3
  else if d = 0 ∨ 2 ^ 31 ≤ d then served (s.count R.QUE_DB_STALE.COUNT) r stOK 0 []
  else if 2 ^ s.get R.QUE_DRING.LOG2N 0 key < ahead then refuse (s.count R.QUE_DB_OVR.COUNT) r stBADOPCODE 3
  else
    let s := { s with que := { s.que with
      newPI := s.que.newPI.filter (fun (e : Nat × Nat) => e.1 != key) ++ [(key, v)], rung := (s.que.rung ++ [key]).eraseDups } }
    served (s.count R.QUE_DB.COUNT) r stOK 0 []

/-! ### Serving -/

/-- A release waits for earlier writes of its CID on its port (R85). -/
def releaseWaits (s : Body) (r : Req) : Bool :=
  (r.op == opDOORBELL || r.op == opPUBLISH || r.op == opSEIZECOMMIT) &&
  s.olp.reqs.any (fun q => q.m.cid == r.m.cid && q.m.link == r.m.link && decide (q.order < r.order) &&
    (q.op == opSTORE || q.op == opSTOREMASKED || q.op == opWRITEBACK || q.op == opCODEDSTORE || isAtomic q.op))

/-- Verification lanes (R234): a CODED_STORE waits where the 96 sub-streams of the knot are used up, or a reserved one is
ready before it. -/
def lanesWait (s : Body) (r : Req) : Bool :=
  let n := codedSubs (slice r.m.payload 0 64)
  let used := s.olp.lanes
  n != 0 && ((used != 0 && decide (96 < used + n)) ||
    (!r.m.cls && s.olp.reqs.any (fun q => q.op == opCODEDSTORE && q.m.cls && q.stage == .ready && !q.verified && q.segs.isSome)))

/-- The checks of R233 for a CODED_STORE that has its lanes: refused, or verified with its reference (R229). -/
def verifyCoded (s : Body) (r : Req) : Option Req × Body :=
  let n := codedSubs (slice r.m.payload 0 64)
  let s := { s with olp := { s.olp with lanes := s.olp.lanes + n } }
  match codedCheck s r with
  | .error (st, sub, cause, ss) =>
    (none, refuse (cdcErr s st cause 0 r.m.pid r.m.cid ss (r.m.addr + (if r.m.space then 2 ^ 62 else 0))) r st sub)
  | .ok slot =>
    let s := match slot with
      | some k =>
        let t := AMap.get {} s.tables (r.m.pid * 4 + k)
        { s with tables := AMap.put {} s.tables (r.m.pid * 4 + k) { t with refs := t.refs + 1 } }
      | none => s
    let r := { r with verified := true, slotRef := slot }
    (some r, putReq s r)

/-- A caching request that needs a new entry takes its way (R149, R150), once entries of dead clients in the set are reclaimed
(R151): true where it may go on. -/
def takeWay (s : Body) (r : Req) (line : Nat) : Bool × Body :=
  if (r.op ≠ opLOADSHARED ∧ r.op ≠ opLOADOWN) ∨ (entryOf s line).isSome then (true, s)
  else
    let s := (waysOf s (setOf line)).foldl (fun s e => reclaim s e.line) s
    match wayFor s line r.m.pid with
    | (false, _) => (false, putReq s { r with waitsFor := 1 })
    | (true, none) => (true, s)
    | (true, some v) =>
      match backInvalidate s v (some r.m.pid) with
      | (none, s) => (true, s)
      | (some id, s) =>
        (false, putReq s { r with
          stage := .snoop, rounds := r.rounds ++ [id], snoopKnots := r.snoopKnots + roundKnots s id,
          ports := r.ports ++ roundPorts s [id], behind := true })

/-- A read that cannot be served (R352, R359, R361), or any access of a LOST region. -/
def cannotServe (s : Body) (r : Req) : Bool :=
  let lostRegion := (segsOf r).any (fun g => match regionOfLoc s g.1 with | some x => s.sto.lost.contains x.id | none => false)
  let reads := isRead r.op || isAtomic r.op || r.op == opPUBLISH
  let ls := (storedSegs s r).flatMap (fun g =>
    linesOf g.1 g.2.2 ++ if r.op = opCODEDLOAD then [hdrLoc s g.1 / 128] else [])
  lostRegion || (reads && ls.any (fun l => unreadable s l && !r.keep.any (fun k => k.1 == l)))

/-- A far access of the request waits for SP bits (R443); one that ends as a lost line makes none. -/
def spWaits (s : Body) (r : Req) : Bool :=
  !(isRead r.op && (reqLines r).any (fun l => lineLost s l)) &&
  (farPieces (storedSegs s r)).any (fun p => farHeld s (writesStore r) p.1)

/-- A request that has been served, or that its lines refuse (R145, R342): the directory's set is read (R133), an access that
took place is counted (R124), and the answer goes out. -/
def serveEnd (s : Body) (r : Req) : Body :=
  let s := (reqLines r).foldl dirTouch s
  let (st, sub, len, pay, s) := effect s r
  if st = stOK ∨ st = stRAWFALLBACK then served (countAccess s r) r st len pay else finish s r st sub len 0 pay

/-- Every group of an add request has acted with an earlier member (R77). -/
def groupsDone (s : Body) (r : Req) : Bool :=
  isAdd r.op && (List.range (addCount r)).all (fun i =>
    (groupDone s r.admitted (reqLoc r + atomSize (atomTy r.m) * i) (atomTy r.m) (atomRnd r.m)).isSome)

/-- The far accesses of a request that is to be served now: where none is needed it ends; it waits where they have begun, or
where this knot has no far-store bytes left for them (R517) or no place in the intent log (R358). -/
def serveFar (s : Body) (r : Req) : Body :=
  let (ids, rd, wr, t) := farStart s r
  let pid := drawPid r.own r.m.pid
  if !farFits s pid 0 (128 * rd) || !farFits s pid 1 (128 * wr) || (writesStore r && wr != 0 && intentFull s) then s
  else
    let t := if r.own then t.count R.OBS_PART_CTR.COUNT (128 * (rd + wr)) 4 r.m.pid else t
    let t := farDraw (farDraw t pid 0 (128 * rd)) pid 1 (128 * wr)
    let r := { r with
      farStarted := true, farOps := ids, extra := max r.extra (farExtra s r), ports := r.ports ++ farPorts t ids }
    if ids.isEmpty then serveEnd (putReq t r) r else putReq t { r with stage := .sled }

/-- Serves a request that nothing holds up: its directory step, its far accesses, its effect and its answer. A round of its own
starts at a boundary only, where it has waited behind another (R522). -/
def serveNow (s : Body) (r : Req) : Body :=
  let ls := reqLines r
  if groupsDone s r then serveEnd s r
  else if r.farStarted then serveEnd s r
  else if r.behind && ls.any (wantsSnoop s r) then s
  else
    let (ids, k, s) := roundsFor s r ls
    if !ids.isEmpty then
      putReq s { r with
        stage := .snoop, rounds := ids, snoopKnots := r.snoopKnots + k, ports := r.ports ++ roundPorts s ids, behind := true }
    else if spWaits s r then s
    else if cannotServe s r then refuse (ls.foldl dirTouch s) r stUNCORRECTABLE 0
    else
      let (ok, s) := takeWay s r (reqLoc r / 128)
      if !ok then s
      else if isRead r.op && ls.any (fun l => lineLost s l) then serveEnd s r
      else serveFar s r

/-! ### What waits for its place (R84) -/

/-- The lines that a request which waits for a walk will use, as the tables stand now. -/
def guessLines (s : Body) (r : Req) : List Nat :=
  if opSEIZEPREPARE ≤ r.op ∨ r.m.space = true then []
  else (cutPages r.m.addr (reqLen r.op r.m) 18).flatMap (fun p =>
    let sga := match tlbFind s r.m.pid p.1 with
      | some e => some (e.sga + p.1 % 2 ^ pageLog e.size)
      | none => match walkPage s false [] r.m.pid p.1 with
        | .leaf l _ => some (l.sga + p.1 % 2 ^ pageLog l.size)
        | _ => none
    match sga with
    | some a => (match homeOf s r.grace a p.2 with | some l => linesOf l p.2 | none => [])
    | none => [])

/-- A request stays, and what follows it waits for its lines. -/
def holds (s : Body) (busy : List Nat) (r : Req) (ls : List Nat) (why : Nat) : Body × List Nat :=
  (putReq s { r with waitsFor := why }, busy ++ ls)

/-- Tries to serve one admitted request; `busy` holds the lines that earlier ones still use (R84, R138). -/
def serveOne (a : Body × List Nat) (r0 : Req) : Body × List Nat :=
  let (s, busy) := a
  match reqNow s r0.id with
  | none => (s, busy)
  | some r =>
    let ls := reqLines r
    if r.stage = .walk then (s, busy ++ guessLines s r)
    else if r.stage ≠ .ready then (s, busy ++ ls)
    else if s.sto.stackDead then (refuse s r stINTERNAL 0, busy)
    else if r.verdict ≠ 0 then (refuse s r r.verdict 0, busy)
    else if isWrite r.op && !peerReady s && ecWrite s r then (refuse s r stRETRY 5, busy)
    else if releaseWaits s r then (s, busy ++ ls)
    else if r.op = opDOORBELL then (doorbell s r, busy)
    else if opSEIZEPREPARE ≤ r.op then
      let (done, s) := txnServe s r
      if done then ({ s with olp := { s.olp with reqs := s.olp.reqs.filter (fun q => q.id != r.id) } }, busy)
      else (s, busy)
    else if r.segs.isNone then (s, busy)
    else if ls.any (fun l => (roundOn s l).isSome) then holds s busy { r with behind := true } ls 4
    else if ls.any (fun l => busy.contains l) then holds s busy r ls 0
    else if ls.any (fun l => lockBlocks s l (r.op == opLOADOWN || isWrite r.op)) then holds s busy r ls 2
    else if isAdd r.op && groupsOpen s r.admitted then holds s busy r ls 0
    else if r.op = opCODEDSTORE ∧ !r.verified ∧ lanesWait s r then holds s busy r ls 3
    else
      let s := ls.foldl reclaim s
      let r := { r with waitsFor := 0 }
      let (r, s) := if r.op = opCODEDSTORE ∧ !r.verified then verifyCoded s r else (some r, s)
      match r with
      | none => (s, busy)
      | some r =>
        let s := serveNow (putReq s r) r
        (s, if (reqNow s r.id).isSome then busy ++ ls else busy)

/-- Lines of a walk: where a client owns one, a round reads it first (R110). -/
def walkRound (s : Body) (w : Walk) (line : Nat) : Body :=
  let s := reclaim s line
  match entryOf s line with
  | none => s
  | some e =>
    if (roundOn s line).isSome ∨ e.st ≠ .x then s
    else if (roundTargets s e none).isEmpty then setEntry s line none
    else
      let (id, s) := startRound s e (.walk w.pid w.page) none true false
      { s with xlt := { s.xlt with walks := s.xlt.walks.map (fun v =>
        if v.pid = w.pid ∧ v.page = w.page then { v with rounds := v.rounds ++ [id] } else v) } }

/-- The reads of a walk at its place (R84, R110): not before what stands before it on the lines of its path. -/
def walkReads (a : Body × List Nat) (w0 : Walk) : Body × List Nat :=
  let (s, busy) := a
  match s.xlt.walks.find? (fun w => w.pid == w0.pid && w.page == w0.page) with
  | none => a
  | some w =>
    if !w.running || w.res.isSome then a
    else
      let ls := walkPath s w.keep w.pid (w.page * 65536)
      if !w.rounds.isEmpty || ls.any (fun l => busy.contains l || (roundOn s l).isSome) then (s, busy ++ ls)
      else match walkPage s true w.keep w.pid (w.page * 65536) with
        | .need line => (walkRound s w line, busy ++ ls)
        | x => ({ s with xlt := { s.xlt with walks := s.xlt.walks.map (fun v => if v = w then { v with res := some x } else v) } },
                busy)

/-- The place of a walk comes before a request's (R84, R110): its knot, and the key of what caused it. -/
def walkBefore (w : Walk) (r : Req) : Bool :=
  if w.started ≠ r.admitted then decide (w.started < r.admitted)
  else if w.issue ≠ r.issueK then decide (w.issue < r.issueK)
  else decide (w.cid ≤ r.m.cid)

/-- Serves what can be served (R84): translates every admitted request, then goes through them and the walks in order. -/
def serveAll (s : Body) : Body :=
  let s := (inOrder s).foldl (fun s r => match reqNow s r.id with | some q => xltReq s q | none => s) s
  let ws := s.xlt.walks.filter (·.running)
  let one := fun (a : Body × List Nat) (r : Req) => serveOne ((ws.filter (fun w => walkBefore w r)).foldl walkReads a) r
  (ws.foldl walkReads ((inOrder s).foldl one (s, []))).1

/-- Everything that an answer, a walk or a commit may let go on: rounds that are complete, seizings, requests. -/
def settle (s : Body) : Body := serveAll (txnProgress (finishRounds s))

/-- Requests that have waited in the knot that ends for a free way, a lock, or verification lanes (R149, R234, R330). -/
def waitCounts (s : Body) : Body :=
  s.olp.reqs.foldl (fun s r =>
    if r.waitsFor = 1 then s.count R.DIR_SET_WAIT.COUNT
    else if r.waitsFor = 2 then s.count R.TXN_LOCK_WAIT.COUNT
    else if r.waitsFor = 3 then s.count R.CDC_VERIFY_WAIT.COUNT
    else s) s

/-! ### Walks (R110, R113) -/

/-- The requests that wait for the walk of a page try again. -/
def walkWake (s : Body) : Body :=
  { s with olp := { s.olp with reqs := s.olp.reqs.map (fun r => if r.stage = .walk then { r with stage := .ready } else r) } }

/-- A faulting walk answers the requests that need its page (R115, R116): those whose first missing page it is. -/
def walkFault (s : Body) (w : Walk) (e : XErr) : Body :=
  (s.olp.reqs.filter (fun r => r.stage == .walk && r.m.pid == w.pid)).foldl (fun s r =>
    if opSEIZEPREPARE ≤ r.op then
      match txnWalkFault s r w.page e with
      | some s => { s with olp := { s.olp with reqs := s.olp.reqs.filter (fun q => q.id != r.id) } }
      | none => s
    else if r.m.space then s
    else match (cutPages r.m.addr (reqLen r.op r.m) 18).find? (fun p => (tlbFind s r.m.pid p.1).isNone) with
      | some (a, _) => if a >>> 16 = w.page then refuse (xltFault s e 0 w.pid r.m.cid a) r e.status e.sub else s
      | none => s) s

/-- WALK_COMPLETE (R113): the walk of a page whose reads have been made ends, with a translation or a fault. -/
def walkComplete (s : Body) (pid page : Nat) : Body :=
  match s.xlt.walks.find? (fun w => w.pid == pid && w.page == page) with
  | none => s
  | some w =>
    let s := { s with xlt := { s.xlt with walks := if w.res.isSome then s.xlt.walks.filter (fun v => v != w) else s.xlt.walks } }
    match w.res with
    | some (.leaf l reads) => settle (walkWake ((tlbInsert s pid (page * 65536) l).count R.XLT_WALK_READS.COUNT reads))
    | some (.err e reads) => settle (walkWake (walkFault (s.count R.XLT_WALK_READS.COUNT reads) w e))
    | _ => s

/-! ### Answers of clients, and bounds -/

/-- The fields of a SNOOP_RESP's header that must be zero, and its payload (R78). -/
def snoopRespOk (m : RespMsg) : Bool :=
  let res := m.arg % 4
  res != 3 && m.arg / 4 == 0 && m.rsvd == 0 && m.status == stOK &&
  (if res = 2 then m.len == 5 && m.payload.length == 128 else m.len == 0 && m.payload.isEmpty)

/-- SNOOP_RESP (R78, R131, R139, R152): taken as the answer of its target, or discarded. -/
def snoopResp (s : Body) (m : RespMsg) : Body :=
  let hdr := respHdr opSNOOPRESP m.enc m.tag m.pid m.hid m.cid m.len m.cls m.serve m.hint m.rsvd m.sub m.status m.mapgen m.issue m.arg
  let ik := fullIssue s.now m.issue
  let log := fun (s : Body) => fabErr s 0 opSNOOPRESP m.link m.cid m.tag true
  match verify s hdr m.enc m.pid (nonce ik m.cid false true m.tag) m.check m.payload with
  | none => (log s).count R.FAB_AUTH_FAIL.COUNT
  | some (pay, prev) =>
    let s := oldKey s prev
    if !sourceOk s m.link m.cid then (log s).count R.FAB_SRC_FAIL.COUNT
    else if cidFenced s m.cid then s.count R.DIR_FENCED_RESP.COUNT
    else if !snoopRespOk { m with payload := pay } then log s
    else
      let mine := fun (o : SnoopOut) => o.cid == m.cid && o.link == m.link && o.tags.contains (m.tag, m.issue)
      match s.dir.rounds.find? (fun r => r.waiting.any mine) with
      | none => s
      | some r =>
        match r.waiting.find? mine with
        | none => s
        | some o => snoopAnswer s r o (m.arg % 4) (if m.arg % 4 = 2 then some pay else none)

/-- Requests not admitted at any of the 1,024 boundaries after their header check (R88): `late` 1 at a boundary after the last of
them, 0 in the knot of the last. -/
def waitedOut (late : Nat) (s : Body) : Body :=
  (s.olp.reqs.filter (fun r => r.stage == .waiting && decide (r.checked + 1024 + late ≤ s.tick))).foldl
    (fun s r => refuse s r stRETRY 4) s

/-- Admitted requests whose service has not begun 2,048 knots after admission (R88). -/
def servedOut (late : Nat) (s : Body) : Body :=
  (s.olp.reqs.filter (fun r => r.stage != .waiting && !r.farStarted && decide (r.admitted + 2048 + late ≤ s.now))).foldl
    (fun s r => refuse s r stRETRY 4) s

/-- ADMISSION_TIMEOUT (R88). -/
def admissionTimeout (s : Body) : Body := waitedOut 0 s

/-- SERVICE_TIMEOUT (R88). -/
def serviceTimeout (s : Body) : Body := servedOut 0 s

/-! ### Admission (R27 to R29, R100, R517) -/

/-- Near-tier bytes that a request is charged at admission (R517). -/
def nearCost (r : Req) : Nat :=
  let lines := fun n => ceilDiv n 128 * 128
  if r.op = opEVICTCLEAN ∨ r.op = opDOORBELL ∨ opSEIZEPREPARE ≤ r.op then 0
  else if r.op = opSTORE ∨ r.op = opCODEDSTORE then lines r.m.payload.length
  else if r.op = opLOAD then lines (lenBytes r.m.len)
  else if r.op = opCODEDLOAD then 65536
  else 128

/-- What of a knot's capacity is left: admissions and near-tier bytes. -/
structure Room where
  adm : Nat
  near : Nat

/-- An identical read has been admitted at this boundary, and HOME_SPLICE lets it serve this one too (R98). -/
def splicesHome (s : Body) (r : Req) : Bool :=
  s.on R.FAB_CTRL.HOME_SPLICE && s.olp.reqs.any (fun q => q.id != r.id && q.stage == .ready && q.admitted == s.now && sameRead r q)

/-- The unit that is admitted together: a request, or every member of its splice: its admissions, and its near-tier bytes, once
for all the members (R96, R517). -/
def unitCost (s : Body) (r : Req) : Nat × Nat :=
  let n := if r.splice = 0 then 1 else (s.olp.reqs.filter (fun q => q.splice == r.splice && q.stage == .waiting)).length
  (n, if splicesHome s r then 0 else nearCost r)

/-- The room takes a unit. -/
def Room.takes (a : Room) (c : Nat × Nat) : Bool := decide (c.1 ≤ a.adm) && decide (c.2 ≤ a.near)

def Room.less (a : Room) (c : Nat × Nat) : Room := { adm := a.adm - c.1, near := a.near - c.2 }

/-- STAGES of a request's hitch or PEER entry (R30). -/
def stagesOf (s : Body) (m : ReqMsg) : Nat :=
  match hitchOf s m.cid m.pid with
  | some h => h.stages
  | none => match peerOfCid s m.cid with | some p => p.stages | none => 0

/-- Admits one request (R29, R100): its map generation is decided here. `kind` 0 own slots, 1 borrowed, 2 best effort. -/
def admitOne (s : Body) (r : Req) (kind : Nat) : Body :=
  match check5 s r.op r.m.cid r.m.pid, mapgenOk s r.m.pid r.m.mapgen s.now with
  | some (st, sub), _ => refuse s r st sub
  | none, none => refuse s r stSTALEMAP 1
  | none, some grace =>
    let s := if grace then s.count R.FAB_GRACE.COUNT else s
    let s := s.count R.OBS_PART_CTR.COUNT 1 kind r.m.pid
    let s := if kind = 0 then s.count R.OBS_ADMIT_RES.COUNT
      else if kind = 1 then s.count R.OBS_ADMIT_BORROW.COUNT else s.count R.OBS_ADMIT_BE.COUNT
    putReq s { r with stage := .ready, admitted := s.now, grace := grace, own := kind == 0, stages := stagesOf s r.m,
                      issueK := fullIssue s.now r.m.issue }

/-- Draws near-tier bytes in this knot (R517). -/
def nearDraw (s : Body) (pid n : Nat) : Body :=
  { s with olp := { s.olp with nearUsed := AMap.put 0 s.olp.nearUsed pid (AMap.get 0 s.olp.nearUsed pid + n) } }

/-- Admits a request, with every member of its splice; the room that is left. One that is refused takes nothing. -/
def admitUnit (a : Room) (s : Body) (r : Req) (kind : Nat) : Room × Body :=
  let c := unitCost s r
  let ms := if r.splice = 0 then [r] else s.olp.reqs.filter (fun q => q.splice == r.splice && q.stage == .waiting)
  let t := ms.foldl (fun s q => admitOne s q kind) s
  let some_ := ms.filter (fun q => (reqNow t q.id).isSome)
  -- of a splice of reads, the first member makes the read (R96, R517)
  let t := some_.tail.foldl (fun s q => match reqNow s q.id with | some q => putReq s { q with rides := isRead q.op } | none => s) t
  let b := if some_.isEmpty then 0 else c.2
  let t := if kind = 0 then t.count R.OBS_PART_CTR.COUNT b 3 r.m.pid else t
  (a.less (some_.length, b), nearDraw t (drawPid (kind == 0) r.m.pid) b)

/-- Admits requests of a list, oldest first, while the room takes them. In steps 1 and 4 of R27 one that does not fit holds back
those after it; in step 3 it is passed over (DESIGN CHOICE, log entry 112). -/
def admitList (kind : Nat) : List Req → Room → Body → Room × Body
  | [], a, s => (a, s)
  | r :: t, a, s =>
    match reqNow s r.id with
    | none => admitList kind t a s
    | some q =>
      if q.stage ≠ .waiting then admitList kind t a s
      else if a.takes (unitCost s q) then
        let (a, s) := admitUnit a s q kind
        admitList kind t a s
      else if kind = 1 then admitList kind t a s else (a, s)

/-- The region of a waiting request is being filled with zeros, so that it waits (R356, R369). -/
def regionHeld (s : Body) (r : Req) : Bool :=
  (!s.cfg.zeroing.isEmpty || !s.sto.refill.isEmpty) && opSEIZEPREPARE > r.op && r.op != opDOORBELL &&
  (match (if r.m.space then some r.m.addr else (tlbFind s r.m.pid r.m.addr).map (fun e => e.sga + r.m.addr % 2 ^ pageLog e.size)) with
    | some a => (match regionOfSga s a with | some g => s.cfg.zeroing.contains g.id || s.sto.refill.contains g.id | none => false)
    | none => false)

/-- A request that this boundary may admit (R29, R61, R88): its header was checked in an earlier knot, and its port has not
changed its role. -/
def mayAdmit (s : Body) (r : Req) : Bool :=
  r.stage == .waiting && decide (r.checked < s.tick) && !regionHeld s r && !(s.link r.m.link).noAdmit

/-- A best-effort request of a partition that may be admitted. -/
def beWaits (s : Body) (pid : Nat) (r : Req) : Bool := mayAdmit s r && !r.m.cls && r.m.pid == pid

/-- One turn of the weighted round robin of step 4 of R27: up to `weight` requests of a partition. -/
def beTurn (pid weight : Nat) (a : Room) (s : Body) : Room × Body :=
  let rs := (s.olp.reqs.filter (beWaits s pid)).take weight
  admitList 2 rs a s

/-- The controller's own traffic of R351 is under way: migration, write-back, flush, initialisation (R356, R361), refill,
rebuild, shadowing, or the zero writes of a revocation (R391). -/
def ownTraffic (s : Body) : Bool :=
  !s.sto.migrations.isEmpty || s.sto.flush.isSome || !s.cfg.zeroing.isEmpty || !s.sto.refill.isEmpty ||
  (s.on R.STO_REBUILD.ACTIVE && !s.sto.rebuildPaused) || s.sto.accepting.isSome || s.get R.STO_SHADOW.STATE == 1 ||
  (match s.dir.revSweep with | some n => decide (2 ^ 22 < n) | none => false)

/-- The turn of the traffic of R351 in step 4 of R27: as many lines as the largest weight that the image gives a partition, as far
as there is room. It stands after the partitions, and moves near-tier lines and takes no admission (DESIGN CHOICE, log entry 159). -/
def ownTurn (a : Room) (s : Body) : Room × Body :=
  let n := if ownTraffic s then min (128 * s.img.cores.foldl (fun w c => max w c.weight) 1) a.near else 0
  if n = 0 then (a, s) else (a.less (0, n), nearDraw s 1026 n)

/-- Step 4 of R27: turns over the partitions that have best-effort requests and then over the traffic of R351, while any request
is admitted (at most as many turns as there are requests). -/
def beRounds : Nat → Room → Body → Body
  | 0, _, s => s
  | k + 1, a, s =>
    let ps := (s.img.parts.map (fun p => p.pid)).filter (fun p => s.olp.reqs.any (beWaits s p))
    if ps.isEmpty then s
    else
      let before := s.olp.reqs.length + (s.olp.reqs.filter (fun r => r.stage == .waiting)).length
      let order := ps.filter (fun p => decide (s.olp.rrPid < p)) ++ ps.filter (fun p => decide (p ≤ s.olp.rrPid))
      let (a, s) := order.foldl (fun (x : Room × Body) p =>
        let w := match s.img.cores.find? (fun c => c.pid == p) with | some c => max 1 c.weight | none => 1
        let (a, t) := beTurn p w x.1 x.2
        (a, { t with olp := { t.olp with rrPid := p } })) (a, s)
      let (a, s) := ownTurn a s
      if s.olp.reqs.length + (s.olp.reqs.filter (fun r => r.stage == .waiting)).length = before then s
      else beRounds k a s

/-- HOME_SPLICE (R98): identical reads admitted at this boundary are served with one read of the store. -/
def homeSplice (s : Body) : Body :=
  if !s.on R.FAB_CTRL.HOME_SPLICE then s
  else
    let here := s.olp.reqs.filter (fun r => r.stage == .ready && r.admitted == s.now)
    let many := here.filter (fun r => here.any (fun q => q.id != r.id && sameRead r q))
    let s := many.foldl (fun s r =>
      let first := !here.any (fun q => decide (q.order < r.order) && sameRead r q)
      putReq s { r with spliced := true, rides := r.rides || !first }) s
    if many.isEmpty then s else s.count R.FAB_SPLICE_HOME.COUNT many.length

/-- Admission is open (R82, R433, R443): KNOT, HOME, XLT and DIR set, and no quiesce. -/
def admissionOpen (s : Body) : Bool :=
  s.on R.MGT_READY.KNOT && s.on R.MGT_READY.HOME && s.on R.MGT_READY.XLT && s.on R.MGT_READY.DIR &&
  !quiet s

/-- A partition's near-tier share that steps of its reserved commands may still draw in this knot (R25, log entry 120). -/
def stepsKeep (s : Body) : Nat :=
  let runs := fun (p : Nat) => s.cores.any (fun c => c.2.ctxs.any (fun x =>
    x.2.phase == .running && x.2.pid == p && bitAt (le x.2.desc 0 8) 15))
  ((s.img.parts.filter (fun p => runs p.pid)).map (fun p =>
    slotShare s p.pid 5000000 - AMap.get 0 s.olp.nearUsed p.pid)).foldl (· + ·) 0

/-- ADMISSION (R27): own slots, the observation reserve, borrowed admissions, best effort. -/
def admitAll (flush : Bool) (s : Body) : Body :=
  if !admissionOpen s then obsBoundary s flush
  else
    let resv := s.olp.reqs.filter (fun r => mayAdmit s r && r.m.cls)
    -- step 1: each partition's own slots
    let (adm, s) := s.img.parts.foldl (fun (x : Nat × Body) p =>
      let a : Room := { adm := 16 * p.resSlots, near := slotShare x.2 p.pid 5000000 }
      let (b, t) := admitList 0 (resv.filter (fun r => r.m.pid == p.pid)) a x.2
      (x.1 + (a.adm - b.adm), t)) (0, s)
    -- step 2: what observation writes
    let s := obsBoundary s flush
    let s := nearDraw s 1025 (128 * (obsLines s - s.obs.left))
    -- steps 3 and 4: what is left of the knot
    let used := (s.olp.nearUsed.map (fun (e : Nat × Nat) => e.2)).foldl (· + ·) 0
    let (room, s) := admitList 1 resv { adm := 16384 - adm, near := 5000000 - used - stepsKeep s } s
    homeSplice (beRounds s.olp.reqs.length room s)

/-- What the transaction layer does at a boundary: old groups and draws are forgotten, bounds and bursts, admission, service. -/
def olpBoundary (flush : Bool) (s : Body) : Body :=
  let s := waitCounts s
  let s := { s with olp := { s.olp with
    groups := s.olp.groups.filter (fun g => decide (s.now < g.knot + 4096)), farUsed := [], nearUsed := [], lanes := 0,
    reqs := s.olp.reqs.map (fun r => { r with behind := false }) } }
  settle (admitAll flush (servedOut 1 (waitedOut 1 (burstBoundary s))))

end Sys2Proof.Machine
end

