-- ==== Sys2Proof/Machine/Eng.lean ====
section
/-!
DEFINITION. How a step core and its engine channels reach the store (R18, R147, R148, R160 to R166): the translation of
an engine access, its reads and its planned writes, the step-core data cache, and the issue and commit of steps.

Every command has a program, a computation that reads, decides, writes and ends its steps. At a boundary the next step of a
command is issued: the program is run up to the end of that step, on what its earlier steps have seen (`Ctx.tape`), and the
step's own reads are made then (R160). What the step still lacks is fetched first (R24, R148). Its writes take hold as it
commits (R22).
-/

namespace Sys2Proof.Machine

/-! ### Contexts -/

/-- Step core `c`. -/
def Body.core (s : Body) (c : Nat) : CoreSt := AMap.get {} s.cores c

def Body.setCore (s : Body) (c : Nat) (k : CoreSt) : Body := { s with cores := AMap.put {} s.cores c k }

/-- Context `x` of core `c`. -/
def Body.ctx (s : Body) (c x : Nat) : Ctx := AMap.get {} (s.core c).ctxs x

def Body.setCtx (s : Body) (c x : Nat) (v : Ctx) : Body :=
  s.setCore c { s.core c with ctxs := AMap.put {} (s.core c).ctxs x v }

/-- Word `n` of a descriptor (R187). -/
def Ctx.word (x : Ctx) (n : Nat) : Nat := le x.desc (8 * n) 8

/-- Fields of W0 (R187). -/
def Ctx.user (x : Ctx) : Nat := bits (x.word 0) 63 32
def Ctx.budget (x : Ctx) : Nat := bits (x.word 0) 31 16
def Ctx.cls (x : Ctx) : Bool := bitAt (x.word 0) 15
def Ctx.fence (x : Ctx) : Bool := bitAt (x.word 0) 14
def Ctx.opform (x : Ctx) : Nat := bits (x.word 0) 13 12
def Ctx.engine (x : Ctx) : Nat := bits (x.word 0) 11 8
def Ctx.opcode (x : Ctx) : Nat := bits (x.word 0) 7 0

/-- Operand word `n`: counted from W5, or from word 0 of the operand block (R188). -/
def Ctx.op (x : Ctx) (n : Nat) : Nat := le x.ops (8 * n) 8

/-- The CHAN entry of an engine's channel (R413). -/
def chanOf (s : Body) (engine chan : Nat) : Option ChanDef :=
  s.img.chans.find? (fun c => c.engine == engine && c.chan == chan)

/-- CTX_MAX and WAYS of a partition on a core (R413). -/
def ctxMax (s : Body) (pid core : Nat) : Nat :=
  match s.img.cores.find? (fun c => c.pid == pid) with | some c => c.ctxMax.getD core 0 | none => 0

def waysOn (s : Body) (pid core : Nat) : Nat :=
  match s.img.cores.find? (fun c => c.pid == pid) with | some c => c.ways.getD core 0 | none => 0

/-- Engine cycles for which a step of this knot is planned (R21, R44, R45, R242): 480 less 48 for each stretch level. -/
def engCp (s : Body) : Nat := 480 - 48 * min 5 (s.get R.PWR_STATUS.LEVEL)

/-- Store bytes that are left in this knot (R25) to work of no reserved share. -/
def nearRest (s : Body) : Nat := 5000000 - (s.olp.nearUsed.map (fun (e : Nat × Nat) => e.2)).foldl (· + ·) 0

/-- The store bytes for which a step is planned (R25, R242), in the near tier and in the far store: a partition's shares for CLASS
1, what is left of the knot for CLASS 0. -/
def tierCaps (s : Body) (pid : Nat) (cls : Bool) : List Nat :=
  if cls then [slotShare s pid 5000000, slotShare s pid 800000] else [nearRest s, 800000 - farTotal s 0]

/-- `n` near-tier bytes of a step can be drawn in this knot (R25). The first draw on a share in a knot is always taken, so that a
step whose one unit is larger than the share is issued at all (DESIGN CHOICE, log entry 112). -/
def stepFits (s : Body) (pid : Nat) (cls : Bool) (n : Nat) : Bool :=
  let u := AMap.get 0 s.olp.nearUsed (drawPid cls pid)
  u == 0 || decide (n ≤ if cls then slotShare s pid 5000000 - u else nearRest s)

/-! ### The data cache (R164, R165) -/

/-- Lines of a partition's ways in a set. -/
def cacheFind (k : CoreSt) (pid line : Nat) : Option CacheLine := k.cache.find? (fun e => e.pid == pid && e.line == line)

/-- Puts a line into the partition's ways, least recently used first out (R164). -/
def cacheFill (k : CoreSt) (ways pid line : Nat) (d : List Byte) : CoreSt :=
  if ways = 0 then k
  else
    let rest := k.cache.filter (fun e => !(e.pid == pid && e.line == line))
    let mine := rest.filter (fun e => e.pid == pid && e.line % 32 == line % 32)
    let old := mine.foldl (fun (m : Option CacheLine) e => match m with
      | none => some e
      | some v => if e.used < v.used then some e else m) none
    let rest := if mine.length < ways then rest else rest.filter (fun e => some e != old)
    { k with cache := rest ++ [{ pid := pid, line := line, data := d, used := k.clock }], clock := k.clock + 1 }

/-- WAYS_INVALIDATE (R165): the ways of a partition on a core, or all of them. -/
def waysInvalidate (s : Body) (c : Nat) (all : Bool) (pid : Nat) : Body :=
  let k := s.core c
  (s.setCore c { k with cache := if all then [] else k.cache.filter (fun e => e.pid != pid) }).count R.STP_CACHE_INVAL.COUNT 1 c

/-- A write committed by core `c` updates the matching lines of its cache (R165). -/
def cacheWrite (s : Body) (c sga : Nat) (b : List Byte) : Body :=
  let k := s.core c
  let patch := fun (e : CacheLine) =>
    if sga < e.line * 128 + 128 ∧ e.line * 128 < sga + b.length then
      { e with data := (List.range 128).map (fun i =>
        let a := e.line * 128 + i
        if sga ≤ a ∧ a < sga + b.length then b.getD (a - sga) 0 else e.data.getD i 0) }
    else e
  if k.cache.isEmpty then s else s.setCore c { k with cache := k.cache.map patch }

/-! ### The working state of a command -/

/-- What must be fetched before a step can be issued (R24, R148). -/
structure Wants where
  /-- a region that does not serve yet, a client's request that comes first, or a walk under way -/
  wait : Bool := false
  /-- local lines that clients own (R147) -/
  lines : List Nat := []
  /-- far accesses: local offset, SGA, length -/
  far : List (Nat × Nat × Nat) := []
  /-- lines of other home slices (R162), by SGA line -/
  peers : List Nat := []
  /-- coded blocks of other home slices (R162, R220), by SGA -/
  blocks : List Nat := []
  /-- lines that the step-core cache misses (R164), by SGA line -/
  miss : List Nat := []
  /-- CVAs whose pages must be walked (R113) -/
  walks : List Nat := []
  /-- part of it is for the spilled scores of ATTEND (R259, R265) -/
  spill : Bool := false
  deriving DecidableEq, Repr

/-- Why a run of a program stops short. -/
inductive Stop where
  /-- the command ends with this status, SUB and RESULT; its earlier steps stand -/
  | fail (st sub result : Nat)
  /-- the run has come to its end: the step has been cut, or something must be fetched first -/
  | more

/-- How a program is run: to issue a step, to commit it, to count the steps that are left, or for the operand checks (R190). -/
inductive RunMode where
  | issue
  | commit
  | peek
  | check
  deriving DecidableEq, Repr

/-- What a program works on: the state with the step's own writes applied, its context, and the step so far. -/
structure Ev where
  s : Body
  core : Nat
  x : Nat
  pid : Nat
  mode : RunMode := .check
  /-- the step it runs for, and the step it is in -/
  live : Nat := 1
  step : Nat := 1
  /-- what earlier steps saw, still to come; and what this step has seen, newest first -/
  tape : List Seen := []
  cur : List Seen := []
  /-- accesses of the step, newest first, and its draw on the channel in 1/65,536 (R158) -/
  accs : List StepAcc := []
  cost : Nat := 0
  /-- RESULT if the command is aborted after the current step (R290) -/
  prog : Nat := 0
  /-- what the step's accesses do to the machine as it is issued, newest first -/
  late : List (Body → Body) := []
  /-- the state and `prog` as the step was cut -/
  snap : Option (Body × Nat) := none
  wants : Wants := {}
  /-- the step's blocks have been planned in this knot, so that the step follows in the next (R237); `pause` where its reads have
  been asked for in this knot (R301) -/
  planned : Bool := false
  pause : Bool := false
  /-- what has been seen by the release boundary, newest first, where the command fixes that (R295) -/
  mark : Option (List Seen) := none
  kept : List (Nat × List Byte) := []
  got : List Nat := []
  /-- local lines whose far copies could not be read (R359) -/
  bad : List Nat := []
  /-- reads that other homes answered otherwise, and cached lines that cannot be read: key, status and SUB -/
  badKeys : List (Nat × Nat × Nat) := []
  walked : List Nat := []

/-- A computation of an engine command. -/
abbrev Eng (α : Type) := ExceptT Stop (StateM Ev) α

/-- Ends the command with a status. -/
def engFail {α : Type} (st sub result : Nat) : Eng α := throw (.fail st sub result)

/-- A refused operand: ST_BAD_OPCODE, SUB 0x03. -/
def engBad {α : Type} : Eng α := engFail stBADOPCODE 3 0

/-- Goes on only where `c` holds; otherwise a refused operand. -/
def engNeed (c : Bool) : Eng Unit := if c then pure () else engBad

/-- The state that the command works on. -/
def engS : Eng Body := do return (← get).s

/-- What the step does beside its accesses: it holds as the step commits, and not for a step that has committed. -/
def engMod (f : Body → Body) : Eng Unit := modify (fun e => if e.step < e.live then e else { e with s := f e.s })

/-- What an access does as the step is issued (R115, R124): translations, the directory's upkeep. -/
def engAcc (f : Body → Body) : Eng Unit := modify (fun e =>
  if e.mode = .issue ∧ e.step = e.live then { e with s := f e.s, late := f :: e.late } else e)

/-- What the step sees is noted. -/
def engSaw (v : Seen) : Eng Unit := modify (fun e => { e with cur := v :: e.cur })

/-- A failure is noted like anything else that the step sees. -/
def engFailed {α : Type} : Stop → Eng α
  | .fail a b c => do
    engSaw (.fail a b c)
    engFail a b c
  | .more => throw .more

/-- Something that depends on the state is seen: on a later run, for a later step, it is as the step saw it. -/
def engTape (f : Eng Seen) : Eng Seen := do
  let e ← get
  match e.tape with
  | .fail a b c :: t => do
    set { e with tape := t }
    engFail a b c
  | v :: t => do
    set { e with tape := t }
    return v
  | [] =>
    if e.live < e.step ∨ e.mode = .commit then throw .more
    else
      let v ← tryCatch f engFailed
      engSaw v
      return v

/-- A number that depends on the state. -/
def engNum (f : Ev → Nat) : Eng Nat := do
  match ← engTape (do return .num (f (← get))) with
  | .num n => return n
  | _ => return 0

/-- A decision that depends on the state. -/
def engAsk (f : Ev → Bool) : Eng Bool := do return (← engNum (fun e => b2n (f e))) == 1

/-- Ends the step: it draws `cost` of the channel, in 1/65,536 (R158). The run for an earlier step ends here. -/
def engStep (cost : Nat) : Eng Unit := do
  let e ← get
  if e.live < e.step ∨ e.wants ≠ {} then throw .more
  set { e with
    step := e.step + 1, tape := e.tape.tail, cur := if e.tape.isEmpty then .step :: e.cur else e.cur,
    cost := if e.step = e.live then min 65536 cost else e.cost,
    snap := if e.step = e.live then some (e.s, e.prog) else e.snap }

/-- Something must be fetched first: the run goes on with what the store holds now, to find what else the step needs. -/
def engWant (f : Wants → Wants) : Eng Unit := do
  if (← get).mode = .check then throw .more
  modify (fun e => { e with wants := f e.wants })

/-- Something must be fetched first, and nothing more can be known before. -/
def engWantNow {α : Type} (f : Wants → Wants) : Eng α := do
  modify (fun e => { e with wants := f e.wants })
  throw .more

/-- What must hold from now on, also of a step that is only planned (R229). -/
def engRef (f : Body → Body) : Eng Unit := modify (fun e =>
  if e.mode = .issue ∧ e.live ≤ e.step then { e with s := f e.s, late := f :: e.late } else e)

/-- The plan of a step over coded blocks is made in the knot before it (R237): in the run that cuts the step before it, or, for the
next step to be issued, in a run of its own. -/
def engPlanned (f : Eng (List Byte)) : Eng (List Byte) := do
  let e ← get
  if e.tape.isEmpty && e.mode == .issue then do
    let b ← tryCatch f engFailed
    engSaw (.plan b)
    modify (fun q => { q with planned := q.step == q.live })
    throw .more
  else if e.tape.isEmpty && e.mode == .peek then f
  else match ← engTape (throw .more) with
    | .plan b => return b
    | _ => return []

/-- The step's reads are asked for in the knot before it (R301). -/
def engPause : Eng Unit := do
  let e ← get
  if e.tape.isEmpty && e.mode == .issue then do
    if e.live < e.step then throw .more
    engRef (fun s =>
      let v := s.ctx e.core e.x
      s.setCtx e.core e.x { v with plans := v.plans ++ [[]] })
    engSaw (.plan [])
    modify (fun q => { q with planned := true, pause := true })
    throw .more
  else if e.tape.isEmpty && e.mode == .peek then return ()
  else
    let _ ← engTape (throw .more)

/-- What the command has seen so far is as it stood at its release boundary (R295). -/
def engMark : Eng Unit := modify (fun e => if e.mark.isNone then { e with mark := some e.cur } else e)

/-- What a command does to its own context as its step commits. -/
def engCtx (f : Ctx → Ctx) : Eng Unit := do
  let e ← get
  engMod (fun s => s.setCtx e.core e.x (f (s.ctx e.core e.x)))

/-- A translation fault of an engine access (R115, R194). -/
def engErr {α : Type} (x : XErr) (word idx : Nat) : Eng α := do
  modify (fun e =>
    if x.cause = 0 then e
    else
      let f := fun (s : Body) => xltFault s x 1 e.pid e.core word
      { e with s := f e.s, late := if e.mode = .issue ∧ e.step = e.live then f :: e.late else e.late })
  engFail x.status x.sub (if x.status = stXLTFAULT ∨ x.status = stPERMISSION then idx else 0)

/-- A range of the store as an operand names it: the address word, an offset from it, the operand's index, whether the command
writes there, and whether the access may reach coded regions only (R220). Words are converted as they are used (R106). -/
structure Rng where
  word : Nat
  off : Nat := 0
  idx : Nat
  writes : Bool := false
  coded : Bool := false
  deriving DecidableEq, Repr

/-- The range that an operand word names. -/
def engRng (word _run : Nat) (writes : Bool) (idx : Nat) (coded : Bool := false) : Eng Rng :=
  return { word := word, idx := idx, writes := writes, coded := coded }

/-- `r` moved on by `n` bytes. -/
def Rng.at (r : Rng) (n : Nat) : Rng := { r with off := r.off + n }

/-- The address field of the word, moved on. A window's base is a multiple of 64 KiB, so that up to that size the field shows the
alignment of what it converts to. -/
def Rng.addr (r : Rng) : Nat := (if !bitAt r.word 63 && bitAt r.word 62 then bits r.word 59 0 else bits r.word 56 0) + r.off

/-- The operand's address word, moved on. -/
def Rng.wordAt (r : Rng) (n : Nat) : Nat := r.word + r.off + n

/-- The word is an SGA word (R103). -/
def Rng.space (r : Rng) : Bool := !bitAt r.word 63 && bitAt r.word 62

/-- What the range's word is converted to now (R103, R105), `off` bytes on. -/
def rawAddr (r : Rng) (off : Nat) : Eng (Bool × Nat) := do
  let e ← get
  match wordAddr e.s e.pid r.word (r.off + off) r.writes with
  | .error x => engErr x r.word r.idx
  | .ok a => return a

/-- The address that an operand stands for, as comparisons of operands take it. -/
def engAddr (r : Rng) : Eng (Bool × Nat) := do
  match ← engTape (do
    let (sp, a) ← rawAddr r 0
    return .num (2 * a + b2n sp)) with
  | .num n => return (n % 2 == 1, n / 2)
  | _ => return (false, 0)

/-- Step 9 of R115 for an engine access (R381): the extent must hold the rights `need` and not be fenced as a whole. -/
def engExtent (s : Body) (pid addr need : Nat) : Option XErr :=
  match extentOf (s.part pid).cur addr with
  | none => some { status := stPERMISSION, sub := 4, cause := 0xB }
  | some x =>
    if x.fenced then some { status := stREVOKED, sub := 0, cause := 0xB }
    else if x.rights &&& need = need then none
    else some { status := stPERMISSION, sub := 4, cause := 0xB }

/-- Local lines that owners have returned to this command. -/
def keptLocal (k : List (Nat × List Byte)) : List (Nat × List Byte) :=
  (k.filter (fun e => decide (2 ^ 60 ≤ e.1) && decide (e.1 < 2 ^ 61))).map (fun e => (e.1 - 2 ^ 60, e.2))

/-- The checks of a translated address (R115, R220, R381): its leaf bits and extent rights `need`, its region, its companion;
last, that the key of a region of this home is held (R457). -/
def engChecked (r : Rng) (a word need sga : Nat) (sp : Bool) (perm : Option Nat) (lvl : Nat) : Eng Nat := do
  let e ← get
  match regionOfSga e.s sga with
  | none => engErr (xFault 5 lvl) word r.idx
  | some g =>
    let ok := match perm with | some p => p &&& need == need | none => true
    if !ok || isCompanion e.s g || g.coded != r.coded then engErr { xPerm with level := lvl } word r.idx
    else match if sp then none else engExtent e.s e.pid a need with
      | some x => engErr { x with level := lvl } word r.idx
      | none => if keyless e.s sga then engErr xKeyless word r.idx else return sga

/-- The SGA of one address of a range (R115). An engine access needs the leaf bit and the right E (R520); an action of a
SEIZE command needs the bits of its kind. A page that no cached translation covers is walked first (R113). -/
def rawSga (r : Rng) (off : Nat) (need : Nat := 8) : Eng Nat := do
  let (sp, a) ← rawAddr r off
  let word := if sp then a + 2 ^ 62 else a
  if sp then engChecked r a word need a true none 7
  else if a / 2 ^ 57 ≠ 0 then engErr (xFault 1) word r.idx
  else
    let e ← get
    match tlbFind e.s e.pid a with
    | some t => do
      let asked := e.walked.contains (a >>> 16)
      engAcc (fun s => if asked then tlbTouch s t else (tlbTouch s t).count R.XLT_HIT.COUNT)
      engChecked r a word need (t.sga + a % 2 ^ pageLog t.size) false (some t.perm) (if asked then t.size else 7)
    | none =>
      let known := e.walked.contains (a >>> 16) && !e.s.xlt.walks.any (fun w => w.pid == e.pid && w.page == a >>> 16)
      match walkPage e.s false (keptLocal e.kept) e.pid a with
      | .leaf l _ => do
        if !known then engWant (fun w => { w with walks := a :: w.walks })
        engChecked r a word need (l.sga + a % 2 ^ pageLog l.size) false (some l.perm) l.size
      | .err x _ => if known then engErr x word r.idx else engWantNow (fun w => { w with walks := a :: w.walks })
      | .need _ => engWantNow (fun w => { w with walks := a :: w.walks })

/-- Bytes of a piece of the store, in the near tier and in the far store. -/
def tierBytes (s : Body) (sga n : Nat) : Nat × Nat :=
  match (sgaLoc s sga).map (·.2) with | some loc => if isResident s loc then (n, 0) else (0, n) | none => (0, 0)

/-- What a unit of `n` bytes draws on the store, tier by tier: by the tier of its first byte (R255). -/
def rawTier (r : Rng) (off n : Nat) : Eng (List Nat) := do
  if n = 0 then return [0, 0]
  else
    let (a, b) := tierBytes (← engS) (← rawSga r off) n
    return [a, b]

/-- What several ranges draw on the store, tier by tier, as the step sees it. -/
def engTier (l : List (Rng × Nat × Nat)) : Eng (List Nat) := do
  match ← engTape (do
    let ts ← l.mapM (fun p => rawTier p.1 p.2.1 p.2.2)
    return .num ((ts.map (fun t => t.headD 0 * 2 ^ 64 + t.getLastD 0)).foldl (· + ·) 0)) with
  | .num n => return [n / 2 ^ 64, n % 2 ^ 64]
  | _ => return [0, 0]

/-- The SGA of one address of a range, as the step sees it. -/
def engSga (r : Rng) (off : Nat) (need : Nat := 8) : Eng Nat := do
  match ← engTape (do return .num (← rawSga r off need)) with
  | .num n => return n
  | _ => return 0

/-- Cuts `n` bytes from `a` at multiples of 4 KiB, the smallest page and granule: (offset from the start, length). -/
def cut4k (a n : Nat) : Nat → Nat → List (Nat × Nat)
  | 0, _ => []
  | k + 1, o => if n = 0 then [] else
    let m := min n (4096 - a % 4096)
    (o, m) :: cut4k (a + m) (n - m) k (o + m)

/-- The pieces of `n` bytes at offset `off` of a range: (offset in the range, SGA, length). A command waits for a region that does
not serve yet (R356, R369). -/
def rawPieces (r : Rng) (off n : Nat) : Eng (List (Nat × Nat × Nat)) := do
  let ps ← (cut4k (r.addr + off) n (n / 4096 + 2) 0).mapM (fun p => do return (p.1, ← rawSga r (off + p.1), p.2))
  let s ← engS
  let held := fun (p : Nat × Nat × Nat) => match regionOfSga s p.2.1 with
    | some g => s.cfg.zeroing.contains g.id || s.sto.refill.contains g.id
    | none => false
  if ps.any held then engWantNow (fun w => { w with wait := true }) else return ps

def engPieces (r : Rng) (off n : Nat) : Eng (List (Nat × Nat × Nat)) := do
  match ← engTape (do return .pieces (← rawPieces r off n)) with
  | .pieces ps => return ps
  | _ => return []

/-- Where an SGA lies under the current map: a local offset, or none at another home. -/
def sgaHere (s : Body) (sga : Nat) : Option Nat := (sgaLoc s sga).map (·.2)

/-- A client owns the line, or its entry asks for a round before it is used (R147, R154). -/
def lineAsk (s : Body) (line : Nat) : Bool :=
  match entryOf s line with
  | some e => e.st == .x || (e.reissue.isSome && e.st != .l)
  | none => false

/-- A client's request that was admitted before, and has not been served, comes first on this line (R84, R147): for a read of the
line one that changes it. -/
def reqFirst (s : Body) (line : Nat) (write : Bool) : Bool :=
  s.olp.reqs.any (fun r => r.stage != .waiting && (write || !isRead r.op) &&
    (if r.stage = .walk then guessLines s r else reqLines r).contains line)

/-- The copy of a local line that its owner has returned to the command, while the owner has it (R143, R147): once it has not, the
home is current. -/
def ownedCopy (s : Body) (kept : List (Nat × List Byte)) (l : Nat) : Option (List Byte) :=
  if lineAsk s l then (kept.find? (fun k => k.1 == l + 2 ^ 60)).map (·.2) else none

/-- A piece of a read waits for SP bits (R443). -/
def pieceHeld (s : Body) (kept : List (Nat × List Byte)) (p : Nat × Nat × Nat) : Bool :=
  match sgaHere s p.2.1 with
  | some loc => (linesOf loc p.2.2).any (fun l => (ownedCopy s kept l).isNone && !lineLost s l && farHeld s false (l * 128))
  | none => false

/-- What one piece of a read still lacks. A line that a seizing has write-locked is waited for (R330), and so is an SP bit
(R443). -/
def pieceWants (s : Body) (kept : List (Nat × List Byte)) (got : List Nat) (p : Nat × Nat × Nat) (w : Wants) : Wants :=
  match sgaHere s p.2.1 with
  | some loc =>
    let ls := (linesOf loc p.2.2).filter (fun l => (ownedCopy s kept l).isNone)
    let own := ls.filter (lineAsk s)
    let far := !isResident s loc && farReadable s loc && ls.any (fun l => !own.contains l && !got.contains l && !lineLost s l)
    { w with
      wait := w.wait || ls.any (fun l => reqFirst s l false || lockBlocks s l false) || pieceHeld s kept p, lines := w.lines ++ own,
      far := if far then w.far ++ [(loc, p.2.1, p.2.2)] else w.far }
  | none => { w with peers := w.peers ++ (linesOf p.2.1 p.2.2).filter (fun l => !kept.any (fun k => k.1 == l)) }

/-- The bytes of one piece. -/
def pieceBytes (s : Body) (kept : List (Nat × List Byte)) (p : Nat × Nat × Nat) : List Byte :=
  match sgaHere s p.2.1 with
  | some loc =>
    (linesOf loc p.2.2).flatMap (fun l =>
      let lo := max loc (l * 128)
      let n := min (loc + p.2.2) (l * 128 + 128) - lo
      match ownedCopy s kept l with
      | some d => slice d (lo - l * 128) n
      | none => s.rd lo n)
  | none =>
    (linesOf p.2.1 p.2.2).flatMap (fun l =>
      let lo := max p.2.1 (l * 128)
      let n := min (p.2.1 + p.2.2) (l * 128 + 128) - lo
      match kept.find? (fun k => k.1 == l) with
      | some (_, d) => slice d (lo - l * 128) n
      | none => List.replicate n 0)

/-- The status and SUB with which a read of this key ended (R162). -/
def keyBad (bad : List (Nat × Nat × Nat)) (key : Nat) : Option (Nat × Nat) := (bad.find? (fun b => b.1 == key)).map (·.2)

/-- The keys under which reads have been answered, well or otherwise. -/
def keysOf (kept : List (Nat × List Byte)) (bad : List (Nat × Nat × Nat)) : List (Nat × List Byte) :=
  kept ++ bad.map (fun b => (b.1, []))

/-- A line that ends the command, with its status and SUB: lost (R148), not readable (R352, R359, R361), or answered otherwise by its
home (R162). -/
def pieceBad (e : Ev) (p : Nat × Nat × Nat) : Option (Nat × Nat) :=
  match sgaHere e.s p.2.1 with
  | some loc =>
    let ls := (linesOf loc p.2.2).filter (fun l => (ownedCopy e.s e.kept l).isNone)
    if ls.any (lineLost e.s) then some (stLOSTLINE, 0)
    else if ls.any (fun l => unreadable e.s l || e.bad.contains l) then some (stUNCORRECTABLE, 0) else none
  | none => (linesOf p.2.1 p.2.2).findSome? (keyBad e.badKeys)

/-- Notes an access of the step that is being issued. -/
def engNote (r : Rng) (off sga n : Nat) (act : EAct) : Eng Unit :=
  modify (fun e => if e.mode = .issue ∧ e.step = e.live then { e with accs :=
    { step := e.step, cva := if r.space then none else some (r.addr + off), sga := sga, len := n, act := act } :: e.accs } else e)

/-- The pieces of a read or a write: entries that name fenced clients are reclaimed before they are used (R151). -/
def rawTouch (r : Rng) (off n : Nat) : Eng (List (Nat × Nat × Nat)) := do
  let ps ← rawPieces r off n
  engAcc (fun s => ps.foldl (fun s p => match sgaHere s p.2.1 with
    | some loc => (linesOf loc p.2.2).foldl reclaim s
    | none => s) s)
  return ps

/-- Reads `n` bytes at offset `off` of a range, with the effect of LOAD_NA (R147). -/
def rawRead (r : Rng) (off n : Nat) : Eng (List Byte) := do
  let ps ← rawTouch r off n
  let e ← get
  let w := if e.mode = .peek then {} else ps.foldl (fun w p => pieceWants e.s (keysOf e.kept e.badKeys) e.got p w) {}
  if w ≠ {} then
    engWant (fun v => { v with wait := v.wait || w.wait, lines := v.lines ++ w.lines, far := v.far ++ w.far, peers := v.peers ++ w.peers })
    if !w.peers.isEmpty || !w.lines.isEmpty || ps.any (pieceHeld e.s (keysOf e.kept e.badKeys)) then throw .more
  match ps.findSome? (pieceBad e) with
  | some (st, sub) => do
    if st = stLOSTLINE then engMod (fun s => s.count R.DIR_LOST_READ.COUNT)
    engFail st sub 0
  | none =>
    ps.forM (fun p => engNote r (off + p.1) p.2.1 p.2.2 .read)
    return ps.flatMap (pieceBytes e.s e.kept)

def engRead (r : Rng) (off n : Nat) : Eng (List Byte) := do
  match ← engTape (do return .bytes (← rawRead r off n)) with
  | .bytes b => return b
  | _ => return []

/-- Reads `n` bytes through the step-core data cache (R164). -/
def rawReadC (r : Rng) (off n : Nat) : Eng (List Byte) := do
  let ps ← rawPieces r off n
  let e ← get
  let k := e.s.core e.core
  let own := fun (l : Nat) => (e.kept.find? (fun q => q.1 == l + 2 ^ 61)).map (·.2)
  let has := fun (l : Nat) => (cacheFind k e.pid l).map (·.data) <|> own l
  let ls := (ps.flatMap (fun p => linesOf p.2.1 p.2.2)).eraseDups
  let gone := ls.filter (fun l => (has l).isNone)
  if e.mode = .peek then return ps.flatMap (pieceBytes e.s e.kept)
  match gone.findSome? (fun l => keyBad e.badKeys (l + 2 ^ 61)) with
  | some (st, sub) => do
    if st = stLOSTLINE then engMod (fun s => s.count R.DIR_LOST_READ.COUNT)
    engFail st sub 0
  | none => pure ()
  if !gone.isEmpty then engWantNow (fun w => { w with miss := gone })
  engAcc (fun s =>
    let k := s.core e.core
    (s.setCore e.core { k with
      cache := k.cache.map (fun (c : CacheLine) => if c.pid = e.pid ∧ ls.contains c.line then { c with used := k.clock } else c),
      clock := k.clock + 1 }).count R.STP_CACHE_HIT.COUNT (ls.filter (fun l => (own l).isNone)).length e.core)
  return ps.flatMap (fun p => (linesOf p.2.1 p.2.2).flatMap (fun l =>
    let lo := max p.2.1 (l * 128)
    let n := min (p.2.1 + p.2.2) (l * 128 + 128) - lo
    slice ((has l).getD []) (lo - l * 128) n))

def engReadC (r : Rng) (off n : Nat) : Eng (List Byte) := do
  match ← engTape (do return .bytes (← rawReadC r off n)) with
  | .bytes b => return b
  | _ => return []

/-- Puts bytes over the lines that the command keeps. -/
def keptWrite (s : Body) (kept : List (Nat × List Byte)) (sga : Nat) (b : List Byte) : List (Nat × List Byte) :=
  let patch := fun (base : Nat) (d : List Byte) (at_ : Nat) =>
    (List.range 128).map (fun i => let a := base + i; if at_ ≤ a ∧ a < at_ + b.length then b.getD (a - at_) 0 else d.getD i 0)
  kept.map (fun (k : Nat × List Byte) =>
    if 2 ^ 61 ≤ k.1 then (k.1, patch ((k.1 - 2 ^ 61) * 128) k.2 sga)
    else if 2 ^ 60 ≤ k.1 then
      (match sgaHere s sga with | some loc => (k.1, patch ((k.1 - 2 ^ 60) * 128) k.2 loc) | none => k)
    else (k.1, patch (k.1 * 128) k.2 sga))

/-- Whether a planned write of a piece ends the command: a partial write of a line in L (R148), a LOST region (R361), or an
EC8 data region without a peer CID (R80). -/
def writeBad (s : Body) (sga n : Nat) : Option Nat :=
  match sgaHere s sga with
  | none => none
  | some loc =>
    if (match regionOfLoc s loc with | some g => s.sto.lost.contains g.id | none => false) then some stUNCORRECTABLE
    else if !peerReady s && (match regionOfLoc s loc with | some g => (ecGroup s g.id).isSome | none => false) then some stRETRY
    else if (linesOf loc n).any (fun l =>
        lineLost s l && !(decide (loc ≤ l * 128) && decide (l * 128 + 128 ≤ loc + n))) then some stLOSTLINE
    else none

/-- A planned write of a piece ends the command (R148, R361, R80). -/
def engWriteOk (sga n : Nat) : Eng Unit := do
  match writeBad (← engS) sga n with
  | some st => do
    if st = stLOSTLINE then engMod (fun s => s.count R.DIR_LOST_READ.COUNT)
    engFail st (if st = stRETRY then 5 else 0) 0
  | none => return ()

/-- The pieces that a write of `n` bytes takes, each of which can be written. -/
def engTargets (r : Rng) (off n : Nat) : Eng (List (Nat × Nat × Nat)) := do
  match ← engTape (do
    let ps ← rawTouch r off n
    ps.forM (fun p => engWriteOk p.2.1 p.2.2)
    return .pieces ps) with
  | .pieces ps => return ps
  | _ => return []

/-- The place of a write that lies in one piece. -/
def engTarget (r : Rng) (off n : Nat) : Eng Nat := do
  match ← engTape (do
    let sga ← rawSga r off
    engWriteOk sga n
    return .num sga) with
  | .num a => return a
  | _ => return 0

/-- A piece's act is noted, and the step's own later reads see the bytes it leaves. -/
def engPutPiece (r : Rng) (off : Nat) (p : Nat × Nat × Nat) (act : EAct) (d : List Byte) : Eng Unit := do
  engNote r (off + p.1) p.2.1 p.2.2 act
  modify (fun e => if e.step < e.live ∨ e.mode ≠ .issue then e else
    { e with s := (match sgaHere e.s p.2.1 with | some loc => e.s.wr loc d | none => e.s), kept := keptWrite e.s e.kept p.2.1 d })

/-- Plans a write of bytes at offset `off` of a range (R147, R160). -/
def engWrite (r : Rng) (off : Nat) (b : List Byte) : Eng Unit := do
  (← engTargets r off b.length).forM (fun p =>
    let d := slice b p.1 p.2.2
    engPutPiece r off p (.put d) d)

/-- The addends of element `j`. -/
def addendsAt (vals : List Nat) (imgs : List (List Byte)) (j : Nat) : List Addend :=
  (match vals[j]? with | some v => [.val v] | none => []) ++
    (match imgs[j]? with | some l => [.img ((LAcc.ofImage l).getD {})] | none => [])

/-- A SINT row to whose elements exact sums are added (R281): q := clamp(round((m − b + Σ) / s)), where m − b is q × s. The
row's pair stays. -/
def sintAdd (fmt rnd : Nat) (row : List Byte) (imgs : List (List Byte)) : List Byte :=
  let s := fFP32.dec (le row 0 4)
  let b := fFP32.dec (le row 4 4)
  let w := elemBits fmt
  let qs := (List.range imgs.length).map (fun j =>
    let q := if w = 8 then le row (8 + j) 1 else le row (8 + j / 2) 1 / 16 ^ (j % 2) % 16
    let m := (sintTerms (toSigned w q) s b).foldl (fun (a : LAcc) t => a.term t) {}
    ofSigned w (sintEnc w rnd ((m.comb ((LAcc.ofImage (imgs.getD j [])).getD {})).num) s b))
  slice row 0 8 ++ packBits w qs

/-- What an element becomes under adds: an image of ACC format is combined, the others are rounded (R209, R281). -/
def addBytes (ty rnd : Nat) (old : List Byte) (vals : List Nat) (imgs : List (List Byte)) (j : Nat) : List Byte :=
  let sz := atomSize ty
  let b := slice old (sz * j) sz
  if ty = 30 then
    slice ((((LAcc.ofImage (slice b 0 40)).getD {}).comb ((LAcc.ofImage (imgs.getD j [])).getD {})).image) 0 64
  else leBytes sz (addRound ty rnd (leNat b) (addendsAt vals imgs j))

/-- Notes adds to the store at one range and applies them to the working state: `f` gives the bytes that a piece takes on
from its bytes before and its element numbers. -/
def engAddWith (r : Rng) (off sz n : Nat) (act : Nat → Nat → EAct) (f : List Byte → Nat → Nat → List Byte) : Eng Unit := do
  let old ← engRead r off (n * sz)
  (← engTargets r off (n * sz)).forM (fun p =>
    let i := p.1 / sz
    let k := p.2.2 / sz
    engPutPiece r off p (act i k) (f (slice old p.1 p.2.2) i k))

/-- Plans exact adds on consecutive elements at offset `off` (R77, R281). -/
def engAdd (r : Rng) (off ty rnd : Nat) (vals : List Nat) (imgs : List (List Byte)) : Eng Unit :=
  engAddWith r off (atomSize ty) (max vals.length imgs.length)
    (fun i k => .add ty rnd ((vals.drop i).take k) ((imgs.drop i).take k))
    (fun old i k => (List.range k).flatMap (addBytes ty rnd old ((vals.drop i).take k) ((imgs.drop i).take k)))

/-- The channel's UNITS and AUX for an engine on a core, and its SRAM share in bytes (R413). -/
def engUnits (s : Body) (engine core : Nat) : Nat := match chanOf s engine core with | some c => c.units | none => 0
def engAux (s : Body) (engine core : Nat) : Nat := match chanOf s engine core with | some c => c.aux | none => 0
def engSram (s : Body) (engine core : Nat) : Nat := match chanOf s engine core with | some c => c.sramKib * 1024 | none => 0

/-- The channel's own resources among those of a step: all but the last two, which are the partition's store bytes by tier. -/
def ofChannel {α : Type} (l : List α) : List α := l.take (l.length - 2)

/-- The draw of a step on its channel, in 1/65,536: the largest of its resources (R158). -/
def drawCost (a caps : List Nat) : Nat :=
  ((ofChannel (a.zip caps)).map (fun p => min 65536 (p.1 * 65536 / max 1 p.2))).foldl max 0

/-- Steps that one unit takes beyond its last: a unit larger than a step's capacity is worked on for as many full steps as that
needs (R21). -/
def unitSteps (need caps : List Nat) : Nat :=
  ((ofChannel (need.zip caps)).map (fun p => if p.2 = 0 then 0 else (p.1 - 1) / p.2)).foldl max 0

/-- A step's draw does not hold these units too. -/
def overFull (a caps : List Nat) : Bool := (a.zip caps).any (fun p => decide (p.2 < p.1))

/-- The units from `i` on, of `k` at most, that one step takes: while every capacity holds them, always the first. -/
def rawGroup (need : Nat → Eng (List Nat)) (caps : List Nat) : Nat → Nat → List Nat → Eng Nat
  | 0, _, _ => return 0
  | k + 1, i, a => do
    let v ← need i
    let sum := if a.isEmpty then v else (a.zip v).map (fun p => p.1 + p.2)
    if !a.isEmpty && overFull sum caps then return 0
    else return 1 + (← rawGroup need caps k (i + 1) sum)

/-- The number of units that the step takes beside the draw `a`. -/
def engGroup (need : Nat → Eng (List Nat)) (caps : List Nat) (k i : Nat) (a : List Nat := []) : Eng Nat := do
  match ← engTape (do return .num (← rawGroup need caps k i a)) with
  | .num n => return n
  | _ => return 0

/-- What is left of a unit's draw after `k` full steps of the channel; the store's bytes count in the first (R255). -/
def unitRest (a caps : List Nat) (k : Nat) : List Nat :=
  if k = 0 then a else (ofChannel (a.zip caps)).map (fun p => p.1 - k * p.2) ++ [0, 0]

/-- Makes room for `need` in the current step, resource by resource; a step that is full ends first (R237, R255, R278).
A step that has drawn nothing always takes one unit; of a unit larger than a step, the steps before its last hold a step's worth
of its work each (R21; DESIGN CHOICE, log entry 121). -/
def drawRoom (a need caps : List Nat) : Eng (List Nat) := do
  let a := if a.isEmpty then need.map (fun _ => 0) else a
  let sum := (a.zip need).map (fun p => p.1 + p.2)
  let a ← if ← engAsk (fun _ => a.any (· != 0) && overFull sum caps) then do
      engStep (drawCost a caps)
      pure need
    else pure sum
  let k ← engNum (fun _ => if a = need then unitSteps need caps else 0)
  (List.range k).forM (fun _ => engStep 65536)
  return unitRest a caps k

/-- Ends the last step. -/
def drawEnd (a caps : List Nat) : Eng Unit := if a.isEmpty then pure () else engStep (drawCost a caps)

/-- Tries a computation: none, with nothing changed, where it would end the command. -/
def engTry {α : Type} (f : Eng α) : Eng (Option α) := do
  let e0 ← get
  tryCatch (do return some (← f)) (fun x => match x with
    | .fail .. => do
      modify (fun e => { e0 with tape := e.tape, cur := e.cur, wants := e.wants })
      return none
    | x => throw x)

/-- Runs a part of a command; a failure in it is changed by `g` (status, SUB, RESULT) and noted by `f`. -/
def engCatch {α : Type} (f : Eng α) (g : Nat → Nat → Nat → Eng Unit) (res : Nat → Nat → Nat) : Eng α :=
  tryCatch f (fun x => match x with
    | .fail st sub r => do g st sub (res st r); engFail st sub (res st r)
    | x => throw x)

/-- Status ST_XLT_FAULT or ST_PERMISSION keeps the operand's index (R194); others take the unit's (R267). -/
def unitRes (u st r : Nat) : Nat := if st = stXLTFAULT ∨ st = stPERMISSION then r else u

/-! ### Issue and commit (R22, R24, R148, R158, R192) -/

/-- The act changes bytes of the store. -/
def EAct.writes : EAct → Bool
  | .read => false
  | .expect _ => false
  | .journal .. => false
  | .table .. => false
  | _ => true

/-- The act is an access of the store. -/
def EAct.touches : EAct → Bool
  | .expect d => !d.isEmpty
  | .journal .. => false
  | .table .. => false
  | _ => true

/-- The local lines that accesses of a step write. -/
def accLines (s : Body) (as : List StepAcc) : List Nat :=
  ((as.filter (·.act.writes)).flatMap (fun a =>
    match sgaHere s a.sga with | some loc => linesOf loc a.len | none => [])).eraseDups

/-- The accesses of a step as a watchpoint sees them. -/
def stepWatch (as : List StepAcc) (write : Bool) : List Access :=
  (as.filter (fun a => a.act.touches && a.act.writes == write)).flatMap (fun a =>
    { space := true, addr := a.sga, len := a.len : Access } ::
      (match a.cva with | some c => [{ space := false, addr := c, len := a.len : Access }] | none => []))

/-- Marks one kind of access of a step to the watchpoints (R481, R482). -/
def stepHit (s : Body) (c x : Nat) (v : Ctx) (as : List StepAcc) (write : Bool) : Body :=
  let ws := stepWatch as write
  if ws.isEmpty then s
  else watch s s.now (if write then 3 else 2) 1 (v.engine * 16 + v.opcode % 16) v.pid (c * 16 + x) v.idx ws

/-- The channel takes a step of this draw in this knot (R158): always its first. -/
def chanTakes (s : Body) (c engine cost : Nat) : Bool :=
  let u := AMap.get 0 (s.core c).used engine
  u == 0 || decide (u + cost ≤ 65536)

/-- A search command on the index header was released before the knot and has not completed (R311). -/
def gateShut (s : Body) : Option (Nat × Nat) → Bool
  | none => false
  | some g => s.cores.any (fun (k : Nat × CoreSt) => k.2.ctxs.any (fun (v : Nat × Ctx) =>
      v.2.phase == .running && v.2.engine == 4 && v.2.op 1 == g.1 && decide (v.2.release < g.2)))

/-! ### What a step fetches first (R24, R148) -/

/-- Starts the rounds that bring lines from their owners (R147). -/
def engRounds (s : Body) (c x : Nat) (ls : List Nat) : Body :=
  ls.foldl (fun s l =>
    let s := reclaim s l
    match entryOf s l with
    | none => s
    | some e =>
      if (roundOn s l).isSome ∨ !lineAsk s l then s
      else if (roundTargets s e none).isEmpty then setEntry s l none
      else
        let (id, s) := startRound s e (.engine c x true) none false false
        let v := s.ctx c x
        s.setCtx c x { v with rounds := v.rounds ++ [id] }) s

/-- Sends the peer requests that bring lines of other homes (R162). -/
def engPeers (s : Body) (c x pid : Nat) (ls : List Nat) : Body :=
  ls.foldl (fun s l =>
    let hid := match regionOfSga s (l * 128) with | some r => (homeLocal s false r (l * 128)).1 | none => 0
    let v := s.ctx c x
    let s := s.setCtx c x { v with peerWait := v.peerWait + 1 }
    peerSend s hid opLOAD (l * 128) 0 pid [] (.load c x l) 128) s

/-- The home of an SGA under the current map. -/
def sgaHome (s : Body) (sga : Nat) : Nat := match regionOfSga s sga with | some r => (homeLocal s false r sga).1 | none => 0

/-- Asks the home of a coded block for it (R162). -/
def engBlockAsk (s : Body) (c x pid sga : Nat) : Body :=
  let v := s.ctx c x
  peerSend (s.setCtx c x { v with peerWait := v.peerWait + 1 }) (sgaHome s sga) opCODEDLOAD sga 0 pid []
    (.load c x (sga / 128 + 2 ^ 62))

/-- Starts the far reads of operands (R18, R357), as far as the knot's bytes go (R25). -/
def engFar (s : Body) (c x : Nat) (ps : List (Nat × Nat × Nat)) : Body :=
  ps.foldl (fun s p =>
    let v := s.ctx c x
    let ls := linesOf p.1 p.2.2
    let who := drawPid v.cls v.pid
    let asked := (s.sto.ops.filter (fun o => v.farOps.contains o.id && o.new.isEmpty)).flatMap (fun o =>
      o.span.flatMap (fun q => linesOf q.1 q.2))
    if ls.all (fun l => v.got.contains l || asked.contains l) ∨ !farFits s who 0 (128 * ls.length) then s
    else
      let f := farRead s { ctx := some (c, x), knot := s.now, cls := v.cls } [] p
      let v := f.s.ctx c x
      let v := match f.id with | some i => { v with farOps := v.farOps ++ [i] } | none => { v with got := v.got ++ ls }
      farDraw (f.s.setCtx c x v) who 0 (128 * f.rd)) s

/-- Fetches what a step lacks. -/
def engFetch (s : Body) (c x : Nat) (w : Wants) : Body :=
  let v := s.ctx c x
  let s := engFar (engRounds s c x w.lines.eraseDups) c x w.far.eraseDups
  let s := if peerReady s then w.blocks.eraseDups.foldl (fun s a => engBlockAsk s c x v.pid a) (engPeers s c x v.pid w.peers.eraseDups)
    else s
  let s := w.walks.eraseDups.foldl (fun s a =>
    let u := s.ctx c x
    let page := a >>> 16
    if s.xlt.walks.any (fun w => w.pid == v.pid && w.page == page) then s
    else walkWant (s.setCtx c x { u with walked := page :: u.walked }) v.pid a s.now (2 ^ 64) (c * 16 + x)) s
  if w.miss.isEmpty then s else s.setCtx c x { s.ctx c x with missing := w.miss, since := s.now }

/-- The context waits for something its next step has asked for (far reads of the steps after it do not hold it). -/
def stepWaits (s : Body) (v : Ctx) : Bool :=
  !v.rounds.isEmpty || v.peerWait != 0 || !v.missing.isEmpty || decide (s.now < v.holdTo)

/-- The context waits for something it has asked for (far writes that are still under way do not hold it). -/
def ctxWaits (s : Body) (v : Ctx) : Bool :=
  stepWaits s v || v.farOps.any (fun i => s.sto.ops.any (fun o => o.id == i && o.writes.isEmpty && !o.parity))

/-! ### Issue -/

/-- What a run for a step comes to. -/
inductive StepRun where
  /-- something must be fetched -/
  | wants (w : Wants)
  /-- its blocks have been planned -/
  | plan (e : Ev)
  /-- the step is cut, and the command's end where it is the last -/
  | step (e : Ev) (fin : Option (Nat × Nat × Nat))
  /-- the command ends without a further step -/
  | over (e : Ev) (st sub result : Nat)

/-- The working state at the start of a run. -/
def evOf (s : Body) (c x : Nat) (mode : RunMode) (live : Nat) (tape : List Seen) : Ev :=
  let v := s.ctx c x
  { s := s, core := c, x := x, pid := v.pid, mode := mode, live := live, tape := tape, kept := v.remote, got := v.got,
    bad := v.badLines, badKeys := v.badKeys, walked := v.walked }

/-- Runs a program for the next step of a context. -/
def stepRun (s : Body) (c x : Nat) (f : Ctx → Eng (Nat × Nat × Nat)) : StepRun :=
  let v := s.ctx c x
  let (r, e) := ((f v).run).run (evOf s c x .issue (v.steps + 1) v.tape)
  if e.step ≤ e.live ∧ e.wants ≠ {} then .wants e.wants
  else if e.planned then .plan e
  else
    let fin := match r with
      | .ok o => some o
      | .error (.fail st sub result) => some (st, sub, result)
      | .error .more => none
    if e.live < e.step then .step e fin
    else match fin with
      | some (st, sub, result) => .over e st sub result
      | none => .wants {}

/-- The store's bytes are those of `s`: what a run writes is applied by the acts it has noted. -/
def Body.storeOf (t s : Body) : Body := { t with near := s.near, far := s.far, sto := s.sto }

/-- Near-tier bytes of a step's accesses, and far-store bytes of its writes (R25). -/
def accNear (s : Body) (as : List StepAcc) : Nat :=
  ((as.filter (·.act.touches)).map (fun a => (tierBytes s a.sga a.len).1)).foldl (· + ·) 0
def accFar (s : Body) (as : List StepAcc) : Nat :=
  ((as.filter (·.act.writes)).map (fun a => (tierBytes s a.sga a.len).2)).foldl (· + ·) 0

/-- A write of the step waits for SP bits (R443). -/
def accHeld (s : Body) (as : List StepAcc) : Bool := (accLines s as).any (fun l => farHeld s true (l * 128))

/-- The reads of accesses are marked to the watchpoints, and the accesses draw on the store's capacity (R25, R480). -/
def accDraw (s : Body) (c x : Nat) (v : Ctx) (as : List StepAcc) : Body :=
  let who := drawPid v.cls v.pid
  farDraw (nearDraw (stepHit s c x v as false) who (accNear s as)) who 1 (accFar s as)

/-- The step's draws and counts as it is issued (R25, R124, R158, R480). A step that runs again is not counted again (R124). -/
def stepIssued (s : Body) (c x : Nat) (e : Ev) : Body :=
  let v := s.ctx c x
  let core := s.core c
  let used := AMap.get 0 core.used v.engine + max 1 e.cost
  let s := s.setCore c { core with used := AMap.put 0 core.used v.engine used }
  let s := (s.count R.STP_STEPS.COUNT 1 c).set R.STP_STATUS.ISSUED (s.get R.STP_STATUS.ISSUED c + 1) c
  let here := e.accs.reverse
  let bytes := (here.map (·.len)).foldl (· + ·) 0
  let s := accDraw s c x v here
  if v.again then s
  else
    let units := (here.filterMap (fun a => (sgaHere s a.sga).map (fun l => (unitOf l, a)))).foldl
      (fun (u : List (Nat × StepAcc)) p => if u.any (fun f => f.1 == p.1) then u else u ++ [p]) []
    let s := units.foldl (fun s u =>
      accessUnit s v.pid (match u.2.cva with | some a => a | none => u.2.sga + 2 ^ 62) u.1 true) s
    let r := runOf s c x
    setRun s c x { r with bytes := min (2 ^ 32 - 1) (r.bytes + ceilDiv bytes 64) }

/-- The key of a queue. -/
def queKey (pid q : Nat) : Nat := pid * 64 + q

/-- Where a command's completion record lies: its SGA (R181). -/
def crSga (s : Body) (v : Ctx) : Nat :=
  let key := queKey v.pid v.queue
  s.get R.QUE_CRING.BASE 0 key * 4096 + 32 * (v.idx % 2 ^ s.get R.QUE_DRING.LOG2N 0 key)

/-- The local line that a command's record takes. Contexts from 16 on write none. -/
def crLines (s : Body) (x : Nat) (v : Ctx) : List Nat :=
  if 16 ≤ x then []
  else match sgaHere s (crSga s v) with | some loc => [loc / 128] | none => []

/-- Far lines that the steps from `step` on, `k` at most, lack beyond those of `got`, as the command stands now; `tape` is what it has
seen before (R255, R279, R298, R319). -/
def farAhead (s : Body) (c x : Nat) (f : Ctx → Eng (Nat × Nat × Nat)) : Nat → Nat → List Seen → List Nat → List (Nat × Nat × Nat)
  | 0, _, _, _ => []
  | k + 1, step, tape, got =>
    let run := fun (g : List Nat) => (((f (s.ctx c x)).run).run { evOf s c x .issue step tape with got := g }).2
    let e := run got
    let far := e.wants.far
    let all := got ++ far.flatMap (fun p => linesOf p.1 p.2.2)
    let e := if far.isEmpty then e else run all
    far ++ if step < e.step ∧ e.wants = {} then farAhead s c x f k (step + 1) (tape ++ e.cur.reverse) all else []

/-- The far bytes of the two steps after the one that has just been issued are asked for (R255, R279, R298, R319). -/
def askAhead (s : Body) (c x : Nat) (f : Ctx → Eng (Nat × Nat × Nat)) : Body :=
  let v := s.ctx c x
  if v.done then s else engFar s c x (farAhead s c x f 2 (v.steps + 2) (v.tape ++ v.cur) v.got).eraseDups

/-- The far lines that a context still has once a step has used its own. -/
def gotLeft (s : Body) (got : List Nat) (as : List StepAcc) : List Nat :=
  if got.isEmpty then [] else
    let used := as.flatMap (fun a => match sgaHere s a.sga with | some loc => linesOf loc a.len | none => [])
    got.filter (fun l => !used.contains l)

/-- The step that a run has cut is issued, if its channel and its share take it, no client's request comes first on its lines, no
seizing locks them, and no client holds them (R25, R84, R148, R158). The last step waits for the line of the record too (R161). -/
def stepTry (s : Body) (c x : Nat) (e : Ev) (fin : Option (Nat × Nat × Nat)) : Body :=
  let v := s.ctx c x
  let ls := accLines s e.accs
  let who := drawPid v.cls v.pid
  if !chanTakes s c v.engine e.cost then (s.setCtx c x { v with stall := 2 }).count R.STP_CHAN_FULL.COUNT 1 c
  else if !stepFits s v.pid v.cls (accNear s e.accs) ∨ !farFits s who 1 (accFar s e.accs) ∨
      accHeld s e.accs ∨ ls.any (fun l => reqFirst s l true || lockBlocks s l true) then s
  else
    let (ok, t) := clearForWrite s (ls ++ if fin.isSome then crLines s x v else [])
    if !ok then t
    else
      let t := stepIssued (e.late.foldr (fun g t => g t) t) c x e
      let v := t.ctx c x
      let w := { v with
        issued := true, stall := 0, accs := e.accs.reverse, cur := e.cur.reverse, remote := [],
        got := gotLeft t v.got e.accs, walked := [] }
      t.setCtx c x (match fin with
        | some (st, sub, result) => { w with planned := some e.live, done := true, status := st, sub := sub, result := result }
        | none => w)

/-- The blocks of the next step have been planned in this knot (R237). -/
def stepPlanned (s : Body) (c x : Nat) (e : Ev) : Body :=
  let t := accDraw (e.late.foldr (fun g t => g t) s) c x (s.ctx c x) e.accs.reverse
  let w := t.ctx c x
  t.setCtx c x { w with tape := w.tape ++ e.cur.reverse, stall := if e.pause then 0 else w.stall }

/-- STEP_ISSUE (R158): the next step of a context. -/
def issueStep (f : Ctx → Eng (Nat × Nat × Nat)) (c x : Nat) (s : Body) : Body :=
  let v := { s.ctx c x with tried := s.now + 1, stall := 1 }
  if v.phase ≠ .running ∨ v.issued ∨ v.done then s
  else if stepWaits s v then s.setCtx c x { s.ctx c x with stall := if (s.ctx c x).stall = 3 then 3 else 1 }
  else if v.steps ≠ 0 ∧ gateShut s v.gate then s
  else
    let s := s.setCtx c x v
    let fin := fun (t : Body) (st sub result : Nat) => t.setCtx c x { t.ctx c x with
      done := true, planned := some v.steps, status := st, sub := sub, result := result, remote := [], got := [], walked := [] }
    if v.farBad then fin s stUNCORRECTABLE 0 0
    else match stepRun s c x f with
      | .wants w => engFetch (s.setCtx c x { s.ctx c x with stall := if w.spill then 3 else 1 }) c x w
      | .plan e => stepPlanned s c x e
      | .over e st sub result => fin (e.s.storeOf s) st sub result
      | .step e o =>
        let t := stepTry s c x e o
        if (t.ctx c x).issued then askAhead t c x f else t

/-! ### Commit -/

/-- Bytes that a peer's line takes from a planned write: a whole line as STORE, a part as STORE_MASKED (R80, R162). -/
def peerWrite (s : Body) (c x pid sga : Nat) (b : List Byte) : Body :=
  let hid := match regionOfSga s sga with | some r => (homeLocal s false r sga).1 | none => 0
  (linesOf sga b.length).foldl (fun s l =>
    let v := s.ctx c x
    let s := s.setCtx c x { v with peerWait := v.peerWait + 1 }
    if sga ≤ l * 128 ∧ l * 128 + 128 ≤ sga + b.length then
      peerSend s hid opSTORE (l * 128) 0 pid (slice b (l * 128 - sga) 128) (.store c x)
    else
      let d := (List.range 128).map (fun i => if sga ≤ l * 128 + i then b.getD (l * 128 + i - sga) 0 else 0)
      let mask := (List.range 128).foldl (fun m i =>
        if sga ≤ l * 128 + i ∧ l * 128 + i < sga + b.length then m + 2 ^ i else m) 0
      peerSend s hid opSTOREMASKED (l * 128) 0 pid (d ++ leBytes 16 mask) (.store c x)) s

/-- Puts bytes at a local offset for an engine: a whole line leaves L (R145), the far store's messages go out (R357, R358), and the
deltas of an EC8 region (R366); `who` is the context whose command waits for them. -/
def engPut (s : Body) (c sga loc : Nat) (b : List Byte) (who : Option (Nat × Nat) := none) : Body :=
  let lines := linesOf loc b.length
  let s := lines.foldl (fun s l => if lineLost s l then clearLost s l else s) s
  let after := s.wr loc b
  let w : FarFor := { ctx := who, knot := s.now, cls := match who with | some (c, x) => (s.ctx c x).cls | none => false }
  let new := lines.map (fun l => (l, (List.range 128).map (fun i => AMap.get 0 after.far (l * 128 + i))))
  let old := lines.map (fun l => (l, s.rd (l * 128) 128))
  let (ids, s) := (farPieces [(loc, sga, b.length)]).foldl (fun (a : List Nat × Body) p =>
    let f := farWrite a.2 w new p
    (a.1 ++ f.id.toList, f.s)) ([], s)
  let s := s.wr loc b
  let (i, s) := match regionOfLoc s loc with
    | some g =>
      if (ecGroup s g.id).isSome then
        let ch := old.map (fun (o : Nat × List Byte) => (o.1, sga + o.1 * 128 - loc, o.2, s.rd (o.1 * 128) 128))
        ecDeltas s w (ch.filter (fun o => o.2.2.1 != o.2.2.2))
      else (none, s)
    | none => (none, s)
  let s := match who with
    | some (c, x) => s.setCtx c x { s.ctx c x with farOps := (s.ctx c x).farOps ++ ids ++ i.toList }
    | none => s
  cacheWrite s c sga b

/-- One planned write takes hold at its commit boundary. -/
def commitAcc (c x pid : Nat) (s : Body) (a : StepAcc) : Body :=
  match a.act with
  | .read => s
  | .put d =>
    (match sgaHere s a.sga with
      | some loc => engPut s c a.sga loc d (some (c, x))
      | none => cacheWrite (peerWrite s c x pid a.sga d) c a.sga d)
  | .add ty rnd vs is =>
    let sz := atomSize ty
    (match sgaHere s a.sga with
      | none => s
      | some loc =>
        let s := if ty = 30 then
            s.wr loc ((List.range (a.len / sz)).flatMap (addBytes ty rnd (s.rd loc a.len) vs is))
          else (List.range (a.len / sz)).foldl (fun s j => groupJoin s (s.now - 1) (loc + sz * j) ty rnd (addendsAt vs is j)) s
        engPut s c a.sga loc (s.rd loc a.len) (some (c, x)))
  | .sint fmt rnd is =>
    (match sgaHere s a.sga with
      | none => s
      | some loc => engPut s c a.sga loc (sintAdd fmt rnd (s.rd loc a.len) is) (some (c, x)))
  | .expect _ => s.count R.TXN_LOCAL.COUNT
  | .swap main entry =>
    (match sgaHere s a.sga with
      | none => s
      | some loc =>
        let s := s.count R.TXN_LOCAL.COUNT
        let h := s.rd loc 128
        let d := slice h 0 48 ++ leBytes 8 (le h 48 8 + 1) ++ slice h 56 4 ++ leBytes 4 main ++ slice h 64 4 ++ leBytes 4 entry ++
          slice h 72 3 ++ leBytes 1 (b2n (!bitAt (le h 75 1) 0)) ++ leBytes 4 (le h 76 4 + 1) ++ leBytes 8 s.now ++ slice h 88 40
        engPut s c a.sga loc d (some (c, x)))
  | .journal ph nx => { s with merges := s.merges.map (fun (m : MergeRec) =>
      if m.core = c ∧ m.ctx = some x then { m with phase := ph, next := nx } else m) }
  | .block h d =>
    (match sgaHere s a.sga with
      | some loc => engPut (s.wr (hdrLoc s loc) h) c a.sga loc d (some (c, x))
      | none =>
        let v := s.ctx c x
        let n := carried d.length
        peerSend (s.setCtx c x { v with peerWait := v.peerWait + 1 }) (sgaHome s a.sga) opCODEDSTORE a.sga 0 pid
          (slice (h ++ d) 0 n) (.store c x))
  | .table key t => { s with tables := AMap.put {} s.tables key t }

/-- The run for a step that commits: what the step does beside its accesses, and RESULT if the command is aborted after it. -/
def stepDone (s : Body) (c x : Nat) (f : Ctx → Eng (Nat × Nat × Nat)) : Body × Nat :=
  let v := s.ctx c x
  let (r, e) := ((f v).run).run (evOf s c x .commit (v.steps + 1) (v.tape ++ v.cur))
  match r, e.snap with
  | .error .more, some (t, p) => (t.storeOf s, p)
  | _, _ => (e.s.storeOf s, e.prog)

/-- The plans that the step issued in this knot has used: those among what it has seen. -/
def planCount (v : Ctx) : Nat :=
  ((v.tape.reverse.takeWhile (· != .step)) ++ v.cur.takeWhile (· != .step)).countP (fun q => match q with | .plan _ => true | _ => false)

/-- References of planned blocks are released (R229). -/
def plansDrop (s : Body) (c x : Nat) (ps : List (List Nat)) : Body :=
  let pid := (s.ctx c x).pid
  ps.flatten.foldl (fun s n =>
    let t := AMap.get {} s.tables (pid * 4 + n)
    { s with tables := AMap.put {} s.tables (pid * 4 + n) { t with refs := t.refs - 1 } }) s

/-- The step that was issued runs again (R24, R148). It keeps the references of its blocks (R229). -/
def stepAgain (s : Body) (c x : Nat) : Body :=
  let v := s.ctx c x
  let s := plansDrop s c x (v.plans.drop (planCount v))
  s.setCtx c x { s.ctx c x with
    plans := v.plans.take (planCount v), issued := false, again := true, accs := [], cur := [], done := false, planned := none, status := 0, sub := 0, result := 0 }

/-- A step cannot write one of its lines as it commits: it is discarded, and the command ends as the step finds that line now; a step
that finds more to fetch first runs again. -/
def commitFail (f : Ctx → Eng (Nat × Nat × Nat)) (s : Body) (c x st : Nat) : Body :=
  let v := s.ctx c x
  match stepRun s c x f with
  | .over e st' sub res =>
    if st' = st then
      let t := e.s.storeOf s
      t.setCtx c x { t.ctx c x with
        issued := false, accs := [], cur := [], planned := some v.steps, status := st, sub := sub, result := res, done := true }
    else stepAgain s c x
  | _ => stepAgain s c x

/-- STEP_COMMIT (R22): the step issued in the knot that ends commits; a client that has taken one of its lines since makes it run
again (R148). -/
def commitStep (f : Ctx → Eng (Nat × Nat × Nat)) (s : Body) (c x : Nat) : Body :=
  let v := s.ctx c x
  if !v.issued then s
  else
    let here := v.accs
    let ls := accLines s here
    let (ok, t) := clearForWrite s ls
    if !ok ∨ ls.any (fun l => lockBlocks s l true) then stepAgain t c x
    else
      let clash := here.any (fun a => match a.act with
        | .expect d => decide ((match sgaHere t a.sga with | some loc => t.rd loc a.len | none => []) ≠ d)
        | _ => false)
      if clash then
        t.setCtx c x { t.ctx c x with
          issued := false, accs := [], cur := [], planned := some v.steps, status := stSEIZECONFLICT, sub := 0, result := 0,
          done := true }
      else match here.findSome? (fun a => if a.act.writes then writeBad t a.sga a.len else none) with
      | some st => commitFail f t c x st
      | none =>
        let (t, p) := stepDone t c x f
        let t := plansDrop t c x (v.plans.take (planCount v))
        let w := t.ctx c x
        let t := t.setCtx c x { w with
          issued := false, again := false, steps := v.steps + 1, accs := [], tape := w.tape ++ w.cur, cur := [],
          plans := w.plans.drop (planCount v),
          progs := (if w.progs.isEmpty then [0] else w.progs) ++ [p] }
        let t := here.foldl (commitAcc c x v.pid) t
        let t := stepHit t c x v here true
        let r := runOf t c x
        (setRun t c x { r with steps := (r.steps + 1) % 2 ^ 32 }).count R.OBS_PART_CTR.COUNT 1 5 v.pid

/-! ### An engine's row -/

/-- An engine's row is due: the context runs a released command of this engine and opcode whose next step has not been tried at
this boundary, and nothing that it waits for is outstanding. -/
def engDue (s : Body) (c x engine opcode : Nat) : Bool :=
  let v := s.ctx c x
  !quiet s && v.phase == .running && v.engine == engine && v.opcode == opcode && !v.done && !v.issued &&
  v.tried != s.now + 1 && !stepWaits s v

/-- The row of an engine command issues its next step: nothing where no such command is due in the context. -/
def engRow (engine opcode : Nat) (f : Ctx → Eng (Nat × Nat × Nat)) (c x : Nat) (s : Body) : Body :=
  if engDue s c x engine opcode then issueStep f c x s else s

end Sys2Proof.Machine
end

