-- ==== Sys2Proof/Machine/Codec.lean ====
section
/-!
DEFINITION. The tensor codec's commands (spec/10, R228 to R239): DECODE, ENCODE, CHECK, LOAD_TABLE, DROP_TABLE, and the
table slots.
-/

namespace Sys2Proof.Machine

/-- Slot `n` of a partition (R228). -/
def Body.slot (s : Body) (pid n : Nat) : TableSlot := AMap.get {} s.tables (pid * 4 + n)

def Body.setSlot (s : Body) (pid n : Nat) (t : TableSlot) : Body :=
  { s with tables := AMap.put {} s.tables (pid * 4 + n) t }

/-- The command takes a reference on a slot, once (R229). -/
def slotTake (n : Nat) : Eng Unit := do
  let e ← get
  engAcc (fun s =>
    let v := s.ctx e.core e.x
    if v.refs.contains n then s
    else
      let t := s.slot e.pid n
      (s.setSlot e.pid n { t with refs := t.refs + 1 }).setCtx e.core e.x { v with refs := v.refs ++ [n] })

/-- A command's references are released (R229). -/
def slotsDrop (s : Body) (c x : Nat) : Body :=
  let v := s.ctx c x
  let s := plansDrop s c x (v.refs :: v.plans)
  s.setCtx c x { s.ctx c x with refs := [], plans := [] }

/-- Slots named in a PIN mask take their references at the release; one that is not READY ends the command (R229). -/
def slotPins (mask addr : Nat) : Eng Unit :=
  (List.range 4).forM (fun n => do
    if bitAt mask n then
      let e ← get
      if ← engAsk (fun e => (e.s.slot e.pid n).state != 2) then
        engMod (fun s => cdcErr s stTABLEMISSING 5 1 e.pid e.core 31 addr)
        engFail stTABLEMISSING 0 0
      slotTake n)

/-- A block as it is stored, header and payload in one (R219), read at offset `off` of a range of a coded region. -/
def rawBlock (r : Rng) (off : Nat) : Eng (List Byte) := do
  let sga ← rawSga r off
  let e ← get
  match sgaHere e.s sga with
  | some loc =>
    let h := e.s.rd (hdrLoc e.s loc) 64
    if unreadable e.s (hdrLoc e.s loc / 128) then engFail stUNCORRECTABLE 0 0
    if isEmptyBlk h then return h
    return h ++ (← rawRead r off (min (blkHdr h).payload 65536))
  | none =>
    match e.kept.find? (fun k => k.1 == sga / 128 + 2 ^ 62) with
    | none =>
      match keyBad e.badKeys (sga / 128 + 2 ^ 62) with
      | some (st, sub) => engFail st sub 0
      | none => engWantNow (fun w => { w with blocks := [sga] })
    | some (_, p) =>
      engNote r off sga 65536 .read
      return slice p 0 64 ++ slice p 64 (blkHdr p).payload

def engBlock (r : Rng) (off : Nat) : Eng (List Byte × List Byte) := do
  match ← engTape (do return .bytes (← rawBlock r off)) with
  | .bytes b => return (b.take 64, b.drop 64)
  | _ => return ([], [])

/-- The header of a block as it stands now. -/
def rawHdrAt (r : Rng) (off : Nat) : Eng (List Byte) := do
  let sga ← rawSga r off
  let e ← get
  match sgaHere e.s sga with
  | some loc => return e.s.rd (hdrLoc e.s loc) 64
  | none =>
    match e.kept.find? (fun k => k.1 == sga / 128 + 2 ^ 62) with
    | none =>
      match keyBad e.badKeys (sga / 128 + 2 ^ 62) with
      | some (st, sub) => engFail st sub 0
      | none => engWantNow (fun w => { w with blocks := [sga] })
    | some (_, p) => return slice p 0 64

/-- The blocks from `i` on that one step takes beside the draw `a`: block by block while every capacity holds them, always the
first of a step. A CODED block that matches no slot ends the command (R228, R239). -/
def rawPlan (r : Rng) (need : Nat → List Byte → Eng (List Nat)) (caps : List Nat) : Nat → Nat → List Nat → Eng (List Byte)
  | 0, _, _ => return []
  | k + 1, i, a => do
    let h ← rawHdrAt r (i * 65536)
    let v ← need i h
    let sum := if a.isEmpty then v else (a.zip v).map (fun p => p.1 + p.2)
    if !a.isEmpty && overFull sum caps then return []
    else
      let e ← get
      let coded := hdrOk h && lensOk h && !isEmptyBlk h && (blkHdr h).kind == 0
      match matchSlot e.s e.pid (blkHdr h), coded with
      | none, true => engFail stTABLEMISSING 0 i
      | m, _ => do
        let slot := match m, coded with | some (n, _), true => n | _, _ => 4
        return h ++ [BitVec.ofNat 8 slot] ++ (← rawPlan r need caps k (i + 1) sum)

/-- A plan's blocks: header and slot. -/
def planBlocks (b : List Byte) : List (List Byte × Nat) := (chunks 65 (b.length / 65) b).map (fun l => (l.take 64, le l 64 1))

/-- The blocks that the next step takes, matched in the knot before it; each takes a reference on its slot (R229, R237). -/
def engPlan (r : Rng) (i n : Nat) (need : Nat → List Byte → Eng (List Nat)) (caps a : List Nat) (src : Nat) :
    Eng (List (List Byte × Nat)) := do
  let e ← get
  let b ← engCatch (engPlanned (do
    let b ← rawPlan r need caps n i a
    let e ← get
    let ss := ((planBlocks b).map (·.2)).filter (· < 4)
    engRef (fun s =>
      let s := ss.foldl (fun s k => s.setSlot e.pid k { s.slot e.pid k with refs := (s.slot e.pid k).refs + 1 }) s
      let v := s.ctx e.core e.x
      s.setCtx e.core e.x { v with plans := v.plans ++ [ss] })
    return b))
    (fun st _ i => engMod (fun s => if st = stTABLEMISSING then
      cdcErr s stTABLEMISSING 5 src e.pid e.core 31 (r.wordAt (i * 65536)) else s)) (fun _ i => i)
  return planBlocks b

/-- The raw bytes of a planned block (R222 to R224, R228); block `i` of the command. SRC 1 codec command, 2 weight stream. A block
that has been stored anew since its header was matched is matched as it stands (log entry 123). -/
def engDecode (r : Rng) (off i src : Nat) (plan : List Byte × Nat) (h pay : List Byte) : Eng (List Byte) := do
  let e ← get
  let b := blkHdr h
  let slot ← engNum (fun e => if h = plan.1 ∧ plan.2 < 4 then plan.2 else match matchSlot e.s e.pid b with | some (n, _) => n | none => 4)
  let t := if slot < 4 then some (e.s.slot e.pid slot) else none
  match decodeWith t h pay with
  | .ok raw => do
    engMod (fun s =>
      let s := if isEmptyBlk h ∨ b.kind ≠ 0 then s.count R.CDC_RAW_BLK.COUNT else s.count R.CDC_DEC_BLK.COUNT
      (s.count R.CDC_CODED_BYTES.COUNT pay.length).count R.CDC_RAW_BYTES.COUNT 65536)
    return raw
  | .error (st, _, cause, ss) => do
    let st := if st = stTABLEMISSING then st else stUNCORRECTABLE
    engMod (fun s =>
      let s := cdcErr s st cause src e.pid e.core ss (r.wordAt off)
      if st = stUNCORRECTABLE then s.count R.CDC_BAD_BLK.COUNT else s)
    engFail st 0 i

/-- Coded sub-streams that one step of a channel with `g` decoder groups decodes (R236, R237). -/
def decodeCap (cp g : Nat) : Nat := g * 16 * ((cp - 32) / 128)

/-- COUNT and PIN of W7 (R238); `slot` where the command takes a SLOT field too. -/
def codecW7 (w : Nat) (slot : Bool) : Eng (Nat × Nat × Nat) := do
  let n := bits w 20 0
  engNeed (1 ≤ n && n ≤ 2 ^ 20 && bits w 31 26 == 0 && bits w 23 21 == 0 && bits w 63 36 == 0 && (slot || bits w 25 24 == 0))
  return (n, bits w 25 24, bits w 35 32)

/-- A source or destination of a codec command: aligned to 64 KiB (R238). -/
def codecRng (x : Ctx) (i n : Nat) (writes coded : Bool) : Eng Rng := do
  let r ← engRng (x.op i) (n * 65536) writes i coded
  engNeed (r.addr % 65536 == 0)
  let _ ← engSga r 0
  return r

/-- The operand check of a codec command (R190 check 6, R238); a table image is aligned to 4 KiB (R226). -/
def codecCheck (x : Ctx) : Eng Unit := do
  engNeed (x.opform == 0)
  if x.opcode = 1 then
    let (n, _, _) ← codecW7 (x.op 2) false
    let _ ← codecRng x 0 n false true
    let _ ← codecRng x 1 n true false
  else if x.opcode = 2 then
    let (n, _, _) ← codecW7 (x.op 2) true
    let _ ← codecRng x 0 n false false
    let _ ← codecRng x 1 n true true
  else if x.opcode = 3 then
    engNeed (x.op 1 == 0)
    let (n, _, _) ← codecW7 (x.op 2) false
    let _ ← codecRng x 0 n false true
  else if x.opcode = 4 then
    engNeed (x.op 1 < 4 && x.op 2 == 0)
    let r ← engRng (x.op 0) 64 false 0
    engNeed (r.addr % 4096 == 0)
    let _ ← engSga r 0
  else engNeed (x.op 0 == 0 && x.op 1 < 4 && x.op 2 == 0)

/-- The blocks of one step are decoded, each in its place. -/
def decodeBlocks (src : Rng) (dst : Option Rng) : Nat → List (List Byte × Nat) → Eng Unit
  | _, [] => return ()
  | i, p :: t => do
    let (h, pay) ← engCatch (engBlock src (i * 65536)) (fun _ _ _ => return ()) (unitRes i)
    let raw ← engDecode src (i * 65536) i 1 p h pay
    match dst with
    | some d => engWrite d (i * 65536) raw
    | none => return ()
    decodeBlocks src dst (i + 1) t

/-- The steps of DECODE and CHECK from block `i` on, `k` at most. -/
def decodeSteps (x : Ctx) (src : Rng) (dst : Option Rng) (n pin : Nat) : Nat → Nat → Eng Unit
  | 0, _ => return ()
  | k + 1, i => do
    if n ≤ i then return ()
    else
      let e ← get
      let caps := decodeCap (engCp e.s) (engUnits e.s 1 e.core) :: tierCaps e.s e.pid x.cls
      let need := fun (i : Nat) (h : List Byte) => do
        let t ← rawTier src (i * 65536) (blkHdr h).payload
        let u ← match dst with | some d => rawTier d (i * 65536) 65536 | none => pure [0, 0]
        return codedSubs h :: (t.zip u).map (fun p => p.1 + p.2)
      let ps ← engPlan src i (n - i) need caps [] 1
      if i = 0 then slotPins pin (x.op 0)
      decodeBlocks src dst i ps
      engStep (drawCost [(ps.map (fun p => codedSubs p.1)).foldl (· + ·) 0, 0, 0] caps)
      decodeSteps x src dst n pin k (i + max 1 ps.length)

/-- DECODE and CHECK (R238, R239): `to_` says whether the raw bytes are written. -/
def codecDecode (to_ : Bool) (x : Ctx) : Eng (Nat × Nat × Nat) := do
  codecCheck x
  let (n, _, pin) ← codecW7 (x.op 2) false
  let src ← codecRng x 0 n false true
  let dst ← if to_ then some <$> codecRng x 1 n true false else pure none
  decodeSteps x src dst n pin n 0
  return (stOK, 0, 0)

/-- Blocks are coded, each in its place from block `i` on; the number of those that fell back to RAW (R231). -/
def encodeBlocks (t : TableSlot) (dst : Rng) : Nat → List (List Byte) → Nat → Eng Nat
  | _, [], raws => return raws
  | i, raw :: l, raws => do
    let (h, p, lits, fell) := encodeBlock t raw
    engNote dst (i * 65536) (← engTarget dst (i * 65536) 65536) 65536 (.block h p)
    engMod (fun s =>
      let s := (s.count R.CDC_ENC_BLK.COUNT).count R.CDC_LIT_SS.COUNT (if fell then 0 else lits)
      if fell then s.count R.CDC_FALLBACK.COUNT else s)
    encodeBlocks t dst (i + 1) l (raws + b2n fell)

/-- The steps of ENCODE from block `i` on, `k` at most. What a block takes in the store is not known before it is coded: it is
planned as a RAW block (DESIGN CHOICE, log entry 125). A step planned for fewer than 256 cycles takes one more (R237). -/
def encodeSteps (x : Ctx) (t : TableSlot) (src dst : Rng) (n : Nat) : Nat → Nat → Nat → Eng Nat
  | 0, _, raws => return raws
  | k + 1, i, raws => do
    if n ≤ i then return raws
    else
      let e ← get
      let caps := engAux e.s 1 e.core :: tierCaps e.s e.pid x.cls
      let m ← engGroup (fun i => do
        let t ← rawTier src (i * 65536) 65536
        let u ← rawTier dst (i * 65536) 65536
        return 1 :: (t.zip u).map (fun p => p.1 + p.2)) caps (n - i) i
      let cost := drawCost [m, 0, 0] caps
      let bs ← (List.range m).mapM (fun j => engRead src ((i + j) * 65536) 65536)
      if ← engAsk (fun e => decide (engCp e.s < 256)) then engStep cost
      let raws ← encodeBlocks t dst i bs raws
      engStep cost
      encodeSteps x t src dst n k (i + max 1 m) raws

/-- ENCODE (R225, R231, R238, R239). -/
def codecEncode (x : Ctx) : Eng (Nat × Nat × Nat) := do
  codecCheck x
  let (n, k, pin) ← codecW7 (x.op 2) true
  let src ← codecRng x 0 n false false
  let dst ← codecRng x 1 n true true
  slotPins pin (x.op 0)
  slotPins (2 ^ k) (x.op 0)
  let raws ← encodeSteps x ((← engS).slot (← get).pid k) src dst n n 0 0
  return (if raws = 0 then stOK else stRAWFALLBACK, 0, raws)

/-- The image step of LOAD_TABLE (R230): the slot is LOADING for this command. -/
def codecLoad (x : Ctx) : Eng (Nat × Nat × Nat) := do
  let n := x.op 1 % 4
  let e ← get
  let key := e.pid * 4 + n
  let r ← engRng (x.op 0) 64 false 0
  let h ← engRead r 0 64
  let nctx := min 4 (le h 1 1)
  let img ← engRead r 0 (64 + 512 * nctx)
  match tableImage img with
  | some t => do
    engNote r 0 (← engSga r 0) 64 (.table key { t with waiter := none })
    engStep 65536
    return (stOK, 0, 0)
  | none => do
    engMod (fun s => (cdcErr s stBADOPCODE 6 1 e.pid e.core 31 (x.op 0)).setSlot e.pid n {})
    engStep 65536
    engBad

/-- A failed load leaves its slot EMPTY (R230). -/
def codecLoadEnd (s : Body) (c x : Nat) : Body :=
  let v := s.ctx c x
  if v.done ∧ v.status ≠ stOK then s.setSlot v.pid (v.op 1 % 4) {} else s

/-- Steps 1 and 2 of R230 for a released LOAD_TABLE or DROP_TABLE: a READY slot retires for it, an EMPTY one is LOADING. -/
def tableTake (s : Body) (c x : Nat) : Body :=
  let v := s.ctx c x
  let n := v.op 1 % 4
  let t := s.slot v.pid n
  let load := v.opcode == 4
  if t.state = 2 then s.setSlot v.pid n { t with state := 3, waiter := some (c, x, load) }
  else if t.state ≠ 0 then s
  else if load then s.setSlot v.pid n { state := 1, waiter := some (c, x, true) }
  else s.setCtx c x { v with done := true, planned := some 0, status := stOK }

/-- LOAD_TABLE (R230): the image is read once the slot is LOADING for this command. -/
def loadTable (c x : Nat) (s : Body) : Body :=
  if !engDue s c x 1 4 then s
  else
    let s := tableTake s c x
    let t := s.slot (s.ctx c x).pid ((s.ctx c x).op 1 % 4)
    if t.state = 1 ∧ t.waiter = some (c, x, true) then codecLoadEnd (issueStep codecLoad c x s) c x else s

/-- DROP_TABLE (R230): an EMPTY slot is done with at once. -/
def dropTable (c x : Nat) (s : Body) : Body := if engDue s c x 1 5 then tableTake s c x else s

/-- TABLE_SLOT_RETIRED (R230): references have reached 0; the slot becomes LOADING, or EMPTY and its DROP_TABLE is done. -/
def slotRetired (pid n : Nat) (s : Body) : Body :=
  let t := s.slot pid n
  if t.state ≠ 3 ∨ t.refs ≠ 0 then s
  else match t.waiter with
    | some (c, x, true) => s.setSlot pid n { state := 1, waiter := some (c, x, true) }
    | some (c, x, false) =>
      let s := s.setSlot pid n {}
      let v := s.ctx c x
      if v.phase = .running ∧ v.engine = 1 ∧ v.opcode = 5 ∧ v.pid = pid then
        s.setCtx c x { v with done := true, planned := some 0, status := stOK }
      else s
    | none => s.setSlot pid n {}

/-- The slots that wait for their last reference (R230). -/
def tablesRetire (s : Body) : Body :=
  (s.tables.filter (fun (t : Nat × TableSlot) => t.2.state == 3)).foldl (fun s t => slotRetired (t.1 / 4) (t.1 % 4) s) s

/-- The slots that a command which ends was loading or retiring (R240): a LOADING slot is EMPTY, a RETIRING one becomes
EMPTY when its references reach 0. -/
def slotAbort (s : Body) (c x : Nat) : Body :=
  let v := s.ctx c x
  (List.range 4).foldl (fun s n =>
    let t := s.slot v.pid n
    match t.waiter with
    | some (c', x', _) =>
      if c' = c ∧ x' = x then (if t.state = 1 then s.setSlot v.pid n {} else s.setSlot v.pid n { t with waiter := none }) else s
    | none => s) s

/-- DECODE. -/
def decodeRow (c x : Nat) (s : Body) : Body := engRow 1 1 (codecDecode true) c x s

/-- ENCODE. -/
def encodeRow (c x : Nat) (s : Body) : Body := engRow 1 2 codecEncode c x s

/-- CHECK. -/
def checkRow (c x : Nat) (s : Body) : Body := engRow 1 3 (codecDecode false) c x s

end Sys2Proof.Machine
end

