-- ==== Sys2Proof/Machine/Tensor.lean ====
section
/-!
DEFINITION. Tensor operands (R243 to R246) and the functions of R260: exponential, reciprocal, reciprocal root and error
function, correctly rounded to FP32.
-/

namespace Sys2Proof.Machine

/-! ### Functions (R260) -/

/-- The FP32 rounding under RNE of an exact value, as a value. -/
def rn (x : Num) : Num := fFP32.dec (fFP32.enc 0 x)

/-- The FP32 value of bits. -/
def f32 (b : Nat) : Num := fFP32.dec b

/-- Fixed-point precision in bits of the function evaluation. -/
def fixP : Nat := 400

/-- The sum of the exponential series for r / 2^fixP: `k` more terms, from term t of index n. -/
def expSum : Nat → Nat → Nat → Nat → Nat
  | 0, _, _, _ => 0
  | k + 1, n, t, r => t + expSum k (n + 1) (t * r / 2 ^ fixP / (n + 1)) r

/-- v squared `k` times, in fixed point. -/
def squares : Nat → Nat → Nat
  | 0, v => v
  | k + 1, v => squares k (v * v / 2 ^ fixP)

/-- e^(p/q) in fixed point, for 0 ≤ p/q < 128. -/
def expFix (p q : Nat) : Nat := squares 12 (expSum 80 0 (2 ^ fixP) (p * 2 ^ fixP / q / 2 ^ 12))

/-- EXP. -/
def fExp : Num → Num
  | .nan => .nan
  | .inf false => .inf false
  | .inf true => Num.zero
  | .fin neg m e =>
    let (p, q) := dyQ m e
    if m = 0 then .fin false 1 0
    else if 128 * q ≤ p then (if neg then Num.zero else .inf false)
    else if neg then f32 (fFP32.encQ 0 false (2 ^ fixP) (expFix p q))
    else f32 (fFP32.encQ 0 false (expFix p q) (2 ^ fixP))

/-- RCP. -/
def fRcp : Num → Num
  | .nan => .nan
  | .inf neg => .fin neg 0 0
  | .fin neg m e =>
    let (p, q) := dyQ m e
    if m = 0 then .inf neg else f32 (fFP32.encQ 0 neg q p)

/-- The integer square root, bit by bit from bit `k`. -/
def isqrt : Nat → Nat → Nat → Nat
  | 0, _, r => r
  | k + 1, v, r => let c := r + 2 ^ k; isqrt k v (if c * c ≤ v then c else r)

/-- RSQRT. -/
def fRsqrt : Num → Num
  | .nan => .nan
  | .inf neg => if neg then .nan else Num.zero
  | .fin neg m e =>
    if m = 0 then .inf neg
    else if neg then .nan
    else
      let (p, q) := dyQ m e
      let v := 2 ^ 800 * q / p
      let y := isqrt 500 v 0
      if y * y = v ∧ v * p = 2 ^ 800 * q then f32 (fFP32.encQ 0 false y (2 ^ 400))
      else f32 (fFP32.encQ 0 false (2 * y + 1) (2 ^ 401))

/-- arctan(1/n) in fixed point. -/
def atanInv : Nat → Nat → Nat → Nat → Int
  | 0, _, _, _ => 0
  | k + 1, i, t, n => (if i % 2 = 0 then ((t / (2 * i + 1) : Nat) : Int) else -((t / (2 * i + 1) : Nat) : Int)) + atanInv k (i + 1) (t / (n * n)) n

/-- π in fixed point, by Machin's formula. -/
def piFix : Nat := (16 * atanInv 200 0 (2 ^ fixP / 5) 5 - 4 * atanInv 60 0 (2 ^ fixP / 239) 239).toNat

/-- The series of the error function: `k` more terms; t is x^(2n+1) / n! in fixed point, x2 is x². -/
def erfSum : Nat → Nat → Nat → Nat → Int
  | 0, _, _, _ => 0
  | k + 1, n, t, x2 =>
    (if n % 2 = 0 then ((t / (2 * n + 1) : Nat) : Int) else -((t / (2 * n + 1) : Nat) : Int)) +
      erfSum k (n + 1) (t * x2 / 2 ^ fixP / (n + 1)) x2

/-- ERF. -/
def fErf : Num → Num
  | .nan => .nan
  | .inf neg => .fin neg 1 0
  | .fin neg m e =>
    let (p, q) := dyQ m e
    if m = 0 then .fin neg 0 0
    else if 4 * q ≤ p then .fin neg 1 0
    else
      let x := p * 2 ^ fixP / q
      let s := (erfSum 240 0 x (x * x / 2 ^ fixP)).toNat
      -- 2 / √π, with √π × 2^fixP = √(π × 2^(2 fixP))
      f32 (fFP32.encQ 0 neg (2 * s) (isqrt 420 (piFix * 2 ^ fixP) 0))

/-- The maximum of R217, on values. -/
def numMaxV (x y : Num) : Num := if x.isNaN || y.isNaN then .nan else if x.lt y then y else x

/-! ### Elements -/

/-- An element as it enters a sum: its terms, or an accumulator image (R206, R209). -/
inductive EV where
  | terms (l : List Num)
  | img (a : LAcc)

/-- Enters an element into an accumulator (R208, R209). -/
def EV.into (a : LAcc) : EV → LAcc
  | .terms l => l.foldl (fun (a : LAcc) x => a.term x) a
  | .img b => a.comb b

/-- The exact value of an element: of a single term itself, otherwise of the accumulator that its terms enter (R206, R208). -/
def EV.num : EV → Num
  | .terms [x] => x
  | .terms l => (l.foldl (fun (a : LAcc) x => a.term x) {}).num
  | .img a => a.num

/-- The accumulator of one element. -/
def EV.acc (v : EV) : LAcc := v.into {}

/-- The terms of the products of two elements (R208). -/
def mulTerms (x y : EV) : List Num :=
  let l := fun (v : EV) => match v with | .terms l => l | .img a => [a.num]
  (l x).flatMap (fun a => (l y).map (fun b => a.mul b))

/-- The format is microscaled, or a scaled integer (R199). -/
def isMx (f : Nat) : Bool := 5 ≤ f && f ≤ 0xA
def isSint (f : Nat) : Bool := f == 0xB || f == 0xC

/-- Bytes of a row of `cols` elements. -/
def rowBytes (fmt cols : Nat) : Nat := cols * elemBits fmt / 8

/-- The elements of a row from its bytes and its side bytes: the block scales, or the scale pair (R203, R206, R207);
none where an image has a reserved bit set (R210). -/
def rowVals (fmt cols : Nat) (b side : List Byte) : Option (List EV) :=
  match fmtOfCode fmt with
  | some f => some ((List.range cols).map (fun j => .terms [f.dec (le b (j * f.w / 8) (f.w / 8))]))
  | none =>
    if isMx fmt then
      let w := elemBits fmt
      some ((List.range (cols / 32)).flatMap (fun k => (mxDec fmt (slice b (4 * w * k) (4 * w)) (le side k 1)).map (fun x => .terms [x])))
    else if isSint fmt then
      let s := f32 (le side 0 4)
      let bias := f32 (le side 4 4)
      let w := elemBits fmt
      some ((List.range cols).map (fun j =>
        let q := if w = 8 then le b j 1 else le b (j / 2) 1 / 16 ^ (j % 2) % 16
        .terms (sintTerms (toSigned w q) s bias)))
    else
      (List.range cols).mapM (fun j =>
        if allZero (slice b (64 * j + 40) 24) then (LAcc.ofImage (slice b (64 * j) 40)).map EV.img else none)

/-- A row's bytes, and its block scales, from exact values rounded once (R205, R207, R212). -/
def rowEnc (fmt rnd : Nat) (vs : List EV) : List Byte × List Byte :=
  match fmtOfCode fmt with
  | some f => (vs.flatMap (fun v => leBytes (f.w / 8) (f.enc rnd v.num)), [])
  | none =>
    if isMx fmt then
      let bs := (chunks 32 (vs.length / 32) vs).map (fun c => mxEnc fmt rnd (c.map EV.num))
      (bs.flatMap (·.1), bs.map (fun x => BitVec.ofNat 8 x.2))
    else (vs.flatMap (fun v => slice v.acc.image 0 64), [])

/-- A scaled-integer row's bytes: its pair and its elements (R206, R272). -/
def sintRow (fmt rnd : Nat) (pair : List Byte) (vs : List EV) : List Byte :=
  let s := f32 (le pair 0 4)
  let b := f32 (le pair 4 4)
  let w := elemBits fmt
  let qs := vs.map (fun v => ofSigned w (sintEnc w rnd v.num s b))
  slice pair 0 8 ++ packBits w qs

/-! ### Tensors (R243, R244) -/

/-- A tensor operand. -/
structure Tensor where
  elem : Rng
  side : Option Rng
  fmt : Nat
  rows : Nat
  cols : Nat
  stride : Nat
  idx : Nat

/-- Bytes of the side array per row: a scale for each block, or a pair. -/
def sideRow (fmt cols : Nat) : Nat := if isMx fmt then cols / 32 else if isSint fmt then 8 else 0

/-- Bytes that the element array spans. -/
def Tensor.span (t : Tensor) : Nat := (t.rows - 1) * t.stride + rowBytes t.fmt t.cols

/-- A tensor operand at word `i` (R243, R244): its shape and format are checked, then its addresses. COLS is a multiple of
32 for the matrix engine's operands (R244); the embedding engine names R243 only (R274). -/
def engTensor (x : Ctx) (i : Nat) (fmts : List Nat) (writes coded : Bool) (blocks : Bool := true) : Eng Tensor := do
  let t2 := x.op (i + 2)
  let fmt := bits t2 63 60
  let rows := bits t2 41 21
  let cols := bits t2 20 0
  let stride := bits (x.op (i + 3)) 47 0
  let len := rowBytes fmt cols
  engNeed (bits t2 59 42 == 0 && bits (x.op (i + 3)) 63 48 == 0 && fmts.contains fmt && 1 ≤ rows && rows ≤ 2 ^ 20 &&
    1 ≤ cols && cols ≤ 2 ^ 20 && (!blocks || cols % 32 == 0) && stride % 64 == 0 && len ≤ stride)
  engNeed (sideRow fmt cols != 0 || x.op (i + 1) == 0)
  let r ← engRng (x.op i) ((rows - 1) * stride + len) writes i coded
  engNeed (r.addr % 64 == 0)
  let n := sideRow fmt cols
  let side ← if n = 0 then pure none else some <$> engRng (x.op (i + 1)) (n * rows) writes (i + 1)
  return { elem := r, side := side, fmt := fmt, rows := rows, cols := cols, stride := stride, idx := i }

/-- The tensor's addresses translate (R190 check 6). -/
def Tensor.probe (t : Tensor) : Eng Unit := do
  let _ ← engSga t.elem 0
  match t.side with
  | some r => do let _ ← engSga r 0
  | none => pure ()

/-- The side bytes of a row. -/
def Tensor.sideAt (t : Tensor) (r : Nat) : Eng (List Byte) :=
  match t.side with
  | some g => engRead g (r * sideRow t.fmt t.cols) (sideRow t.fmt t.cols)
  | none => return []

/-- The elements of bytes, or the refusal of R210. -/
def engVals (fmt cols : Nat) (b side : List Byte) : Eng (List EV) :=
  match rowVals fmt cols b side with
  | some l => return l
  | none => engFail stBADOPCODE 4 0

/-- Row `r` of a tensor. -/
def Tensor.row (t : Tensor) (r : Nat) : Eng (List EV) := do
  let b ← engRead t.elem (r * t.stride) (rowBytes t.fmt t.cols)
  engVals t.fmt t.cols b (← t.sideAt r)

/-- Row `r` as a range, an offset in it, and a length. -/
def Tensor.rowAt (t : Tensor) (r : Nat) : Rng × Nat × Nat := (t.elem, r * t.stride, rowBytes t.fmt t.cols)

/-- Writes elements of row `r` from column `c` on; for microscaled formats whole blocks. -/
def Tensor.write (t : Tensor) (r c rnd : Nat) (vs : List EV) : Eng Unit := do
  let (b, sc) := rowEnc t.fmt rnd vs
  engWrite t.elem (r * t.stride + rowBytes t.fmt c) b
  match t.side with
  | some g => if sc.isEmpty then pure () else engWrite g (r * (t.cols / 32) + c / 32) sc
  | none => pure ()

/-- The pieces of the store that a tensor covers: (SGA, length). -/
def Tensor.area (t : Tensor) : Eng (List (Nat × Nat)) := do
  let rows ← (List.range t.rows).mapM (fun r => engPieces t.elem (r * t.stride) (rowBytes t.fmt t.cols))
  let side ← match t.side with
    | some g => engPieces g 0 (t.rows * sideRow t.fmt t.cols)
    | none => pure []
  return ((rows.flatten ++ side).map (fun p => (p.2.1, p.2.2)))

/-- The pieces that `n` bytes of a range cover. -/
def Rng.area (r : Rng) (n : Nat) : Eng (List (Nat × Nat)) := do return (← engPieces r 0 n).map (fun p => (p.2.1, p.2.2))

/-- Two areas share a byte. -/
def overlaps (a b : List (Nat × Nat)) : Bool :=
  a.any (fun p => b.any (fun q => decide (p.1 < q.1 + q.2) && decide (q.1 < p.1 + p.2)))

/-- Two tensors are one (R246): equal ELEM, SIDE, FMT, ROWS, COLS and STRIDE. -/
def Tensor.same (t u : Tensor) : Bool :=
  t.elem.word == u.elem.word && t.side.map (·.word) == u.side.map (·.word) && t.fmt == u.fmt && t.rows == u.rows &&
  t.cols == u.cols && t.stride == u.stride

/-- All the words of an operand block beyond the named ones are zero. -/
def opsZero (x : Ctx) (from_ : Nat) : Bool := allZero (x.ops.drop (8 * from_))

end Sys2Proof.Machine
end

