-- ==== Sys2Proof/Machine/Matrix.lean ====
section
/-!
DEFINITION. The matrix engine (spec/11): sequence slots, GEMV, KV_APPEND, ATTEND, SOFTMAX, ELEMWISE and RMSNORM.
-/

namespace Sys2Proof.Machine

/-- Sequence slot `n` (R247). -/
def Body.seq (s : Body) (n : Nat) : SeqSlot := AMap.get {} s.seqs n

def Body.setSeq (s : Body) (n : Nat) (v : SeqSlot) : Body := { s with seqs := AMap.put {} s.seqs n v }

/-- The partition owns the slot (R247). -/
def seqOwned (s : Body) (pid n : Nat) : Bool := match partDef s pid with | some p => bitAt p.seqSlots n | none => false

/-- The slots of a mask, lowest first. -/
def maskSlots (m : Nat) : List Nat := (List.range 64).filter (fun n => bitAt m n)

/-- The slots that a matrix command names (R250). -/
def mtxNames (x : Ctx) : List Nat :=
  if x.opcode = 3 then [x.op 1 % 64] else if x.opcode = 0x11 ∨ x.opcode = 0x12 then maskSlots (x.op 2) else []

/-- At release a command takes a reference on each OPEN slot that it names, and a snapshot of its LEN (R250, R251). -/
def mtxRelease (s : Body) (c x : Nat) : Body :=
  let v := s.ctx c x
  if v.engine ≠ 2 then s
  else (mtxNames v).foldl (fun s n =>
    let q := s.seq n
    if q.state ≠ 1 then s
    else
      let w := s.ctx c x
      (s.setSeq n { q with refs := q.refs + 1 }).setCtx c x { w with snaps := w.snaps ++ [(n, q.len)] }) s

/-- A slot that is CLOSING becomes FREE when its references reach 0, and its SEQ_CLOSE is done (R250). -/
def seqTryFree (s : Body) (n : Nat) : Body :=
  let q := s.seq n
  if q.state ≠ 2 ∨ q.refs ≠ 0 then s
  else
    let s := s.setSeq n {}
    match q.closer with
    | some (c, x) =>
      let v := s.ctx c x
      if v.phase = .running ∧ v.engine = 2 ∧ v.opcode = 2 then
        s.setCtx c x { v with done := true, planned := some 0, status := stOK, result := q.len }
      else s
    | none => s

/-- The references of a command that ends are released (R250). -/
def mtxDrop (s : Body) (c x : Nat) : Body :=
  let v := s.ctx c x
  let s := s.setCtx c x { v with snaps := [] }
  v.snaps.foldl (fun s e =>
    let q := s.seq e.1
    seqTryFree (s.setSeq e.1 { q with refs := q.refs - 1 }) e.1) s

/-- MTX_ERR_LOG (R267). -/
def mtxLog (s : Body) (core pid cause slot st res : Nat) : Body :=
  let s := s.set R.MTX_ERR_LOG.STATUS st
  let s := s.set R.MTX_ERR_LOG.CAUSE cause
  let s := s.set R.MTX_ERR_LOG.PID pid
  let s := s.set R.MTX_ERR_LOG.CORE core
  let s := s.set R.MTX_ERR_LOG.SLOT slot
  let s := s.set R.MTX_ERR_LOG.UNIT res
  s.set R.MTX_ERR_KNOT.KNOT s.now

def mtxErr (cause slot : Nat) (st _sub res : Nat) : Eng Unit := do
  let e ← get
  engMod (fun s => mtxLog s e.core e.pid cause slot st res)

/-- A slot that is not as a matrix command needs it at its release (R250): SEQ_OPEN a FREE one, every other command OPEN ones. -/
def mtxRefused (s : Body) (v : Ctx) : Option Nat :=
  if v.engine ≠ 2 then none
  else if v.opcode = 1 then (if (s.seq (v.op 1 % 64)).state = 0 then none else some (v.op 1 % 64))
  else (if v.opcode = 2 then [v.op 1 % 64] else mtxNames v).find? (fun n => (s.seq n).state != 1)

/-- A part whose failures are operand failures. -/
def mtxOp {α : Type} (f : Eng α) : Eng α := engCatch f (mtxErr 1 0) (fun _ r => r)

/-- A part whose failures name a slot. -/
def mtxSlot {α : Type} (n : Nat) (f : Eng α) : Eng α := engCatch f (mtxErr 2 n) (fun _ r => r)

/-- A slot that the partition does not own is refused (R247). -/
def seqMine (n : Nat) : Eng Unit := do
  if ← engAsk (fun e => seqOwned e.s e.pid n) then pure () else engFail stPERMISSION 0 0

/-- What the command does as it completes. -/
def engHook (h : Hook) : Eng Unit := engCtx (fun v => { v with hook := h })

/-! ### Slots: SEQ_OPEN, SEQ_CLOSE, SEQ_ADVANCE (R250) -/

/-- The record of a sequence, checked (R248, R249). -/
def seqRecord (word : Nat) (b : List Byte) : Option SeqSlot :=
  let v : SeqSlot := {
    state := 1, record := word, len := le b 8 4, layers := le b 0 8, cap := le b 12 4, kvfmt := le b 16 1, hkv := le b 17 1,
    dhead := le b 18 2, nlayers := le b 20 2, scratch := le b 24 8, scratchLen := le b 32 8 }
  if v.len ≤ v.cap ∧ v.cap ≤ 2 ^ 24 ∧ 1 ≤ v.kvfmt ∧ v.kvfmt ≤ 4 ∧ 1 ≤ v.hkv ∧ v.hkv ≤ 64 ∧ 32 ≤ v.dhead ∧ v.dhead ≤ 256 ∧
      v.dhead % 32 = 0 ∧ 1 ≤ v.nlayers ∧ v.nlayers ≤ 1024 ∧ le b 22 2 = 0 ∧ allZero (slice b 40 24) = true then some v
  else none

/-- SEQ_OPEN. -/
def seqOpenRun (x : Ctx) : Eng (Nat × Nat × Nat) := do
  mtxOp (engNeed (x.opform == 0 && decide (x.op 1 < 64) && x.op 2 == 0))
  let n := x.op 1
  mtxSlot n (do
    seqMine n
    engNeed (← engAsk (fun e => (e.s.seq n).state == 0)))
  let v ← mtxOp (do
    let r ← engRng (x.op 0) 64 false 0
    engNeed (r.addr % 64 == 0)
    match seqRecord (x.op 0) (← engRead r 0 64) with
    | none => engBad
    | some v =>
      let l ← engRng v.layers (16 * v.nlayers) false 0
      let _ ← engSga l 0
      return v)
  engHook (.seqOpen n v)
  return (stOK, 0, v.len)

/-- SEQ_ADVANCE: applied at its completion boundary. -/
def seqAdvanceRun (x : Ctx) : Eng (Nat × Nat × Nat) := do
  mtxOp (engNeed (x.opform == 0 && x.op 0 == 0 && decide (x.op 1 < 64) && 1 ≤ x.op 2 && decide (x.op 2 < 65536)))
  let n := x.op 1
  mtxSlot n (do
    seqMine n
    engNeed (x.snaps.any (fun e => e.1 == n)))
  let e ← get
  let _ ← engTry (engTarget { word := (e.s.seq n).record, idx := 0, writes := true } 8 4)
  engHook (.seqAdvance n (x.op 2))
  return (stOK, 0, 0)

/-- The SGA of the LEN field of a slot's record (R250): none where its address word does not translate. -/
def seqLenAt (s : Body) (c x n : Nat) : Option Nat :=
  let (r, _) := ((engSga { word := (s.seq n).record, idx := 0, writes := true } 8).run).run (evOf s c x .peek (2 ^ 64) [])
  match r with
  | .ok sga => some sga
  | .error _ => none

/-- Local lines that a command writes as it completes. -/
def hookLines (s : Body) (c x : Nat) : List Nat :=
  match (s.ctx c x).hook with
  | .seqAdvance n _ => (match (seqLenAt s c x n).bind (sgaHere s) with | some loc => linesOf loc 4 | none => [])
  | _ => []

/-- What SEQ_OPEN and SEQ_ADVANCE do at completion (R250): status, SUB and RESULT in place of those planned. -/
def hookRun (s : Body) (c x : Nat) : Body :=
  let v := s.ctx c x
  match v.hook with
  | .none => s
  | .seqOpen n q => if (s.seq n).state = 0 then s.setSeq n q else s
  | .search ins del noop linked purged =>
    ((((s.count R.SRH_INSERTED.COUNT ins).count R.SRH_DELETED.COUNT del).count R.SRH_DEL_NOOP.COUNT noop).count
      R.SRH_LINKED.COUNT linked).count R.SRH_PURGED.COUNT purged
  | .seqAdvance n k =>
    let q := s.seq n
    if q.cap < q.len + k then s.setCtx c x { v with status := stBADOPCODE, sub := 3, result := 0 }
    else
      let s := (s.setSeq n { q with len := q.len + k }).setCtx c x { v with result := q.len + k }
      -- LEN goes to bytes 8 to 11 of the record, as a home store
      match seqLenAt s c x n with
      | some sga =>
        (match sgaHere s sga with
          | some loc => engPut s c sga loc (leBytes 4 (q.len + k)) (some (c, x))
          | none => peerWrite s c x v.pid sga (leBytes 4 (q.len + k)))
      | none => s

/-- SEQ_CLOSE: CLOSING at release, FREE when no reference is left. -/
def seqCloseRow (c x : Nat) (s : Body) : Body :=
  if !engDue s c x 2 2 then s
  else
    let v := s.ctx c x
    let n := v.op 1
    let stop := fun (st sub cause : Nat) =>
      let t := mtxLog s c v.pid cause (n % 64) st 0
      t.setCtx c x { t.ctx c x with done := true, planned := some 0, status := st, sub := sub }
    if v.opform ≠ 0 ∨ v.op 0 ≠ 0 ∨ 64 ≤ n ∨ v.op 2 ≠ 0 then stop stBADOPCODE 3 1
    else if seqOwned s v.pid n = false then stop stPERMISSION 0 2
    else
      let q := s.seq n
      if q.state = 1 then seqTryFree (s.setSeq n { q with state := 2, closer := some (c, x) }) n
      else if q.state = 2 ∧ q.closer = some (c, x) then seqTryFree s n
      else stop stBADOPCODE 3 2

/-! ### Operands -/

/-- Products per dot unit and cycle (R241). -/
def mtxRate (f : Nat) : Nat :=
  if f = 0 then 64 else if f = 1 ∨ f = 2 then 256 else if f = 9 ∨ f = 0xC then 2048 else 1024

/-- Word 0 of the block (R253). -/
structure MtxCtl where
  plan : Nat
  pin : Nat
  rnd : Nat
  ofmt : Nat
  op : Nat
  new : Bool
  accum : Bool

def mtxCtl (w : Nat) : MtxCtl := {
  plan := bits w 63 48, pin := bits w 39 36, rnd := bits w 35 34, ofmt := bits w 33 30, op := bits w 29 26,
  new := bitAt w 1, accum := bitAt w 0 }

/-- The control word's reserved bits, and the fields that only some commands have; the block holds `n` words (R252). -/
def mtxCtlOk (x : Ctx) (n : Nat) : Eng MtxCtl := do
  let w := x.op 0
  let k := mtxCtl w
  engNeed (x.opform == 1 && decide (8 * n ≤ x.ops.length) && opsZero x n && bits w 47 40 == 0 && bits w 25 2 == 0 &&
    (x.opcode == 0x10 || (k.pin == 0 && !k.accum)) && (x.opcode == 0x12 || !k.new) &&
    (x.opcode == 0x10 || x.opcode == 0x21 || k.op == 0))
  engCtx (fun v => { v with plan := k.plan })
  return k

def floats : List Nat := [0, 1, 2, 3, 4]
def anyIn : List Nat := [0, 1, 2, 3, 4, 5, 6, 7, 8, 9, 0xA, 0xB, 0xC]
def plainOut : List Nat := [0, 1, 2, 3, 4, 5, 6, 7, 8, 9, 0xA]

/-- No output shares a byte with an input (R246). -/
def mtxApart (y : Tensor) (ins : List Tensor) (mayBe : Option Tensor) : Eng Unit := do
  let a ← y.area
  ins.forM (fun t => do
    let same := match mayBe with | some m => m.same t && y.same t | none => false
    if same then pure () else engNeed (!overlaps a (← t.area)))

/-- The function of a GEMV activation (R254, R261): the exact product to be rounded. -/
def mtxSilu (a : Num) : Num := a.mul (fRcp (rn (Num.add (.fin false 1 0) (fExp a.neg))))
def mtxGelu (a : Num) : Num :=
  (a.mul (rn (Num.add (.fin false 1 0) (fErf (rn (a.mul (f32 0x3F3504F3))))))).scale (-1)

/-- Adds to MTX_PRODUCTS, in units of 2^20. -/
def mtxProducts (n : Nat) : Eng Unit := engMod (fun s =>
  let t := s.mtxFrac + n
  ({ s with mtxFrac := t % 2 ^ 20 }).count R.MTX_PRODUCTS.COUNT (t / 2 ^ 20))

/-- The accumulator of a dot product (R208, R254): one term for each product, or for each block of 32 where an operand is
microscaled. -/
def dotAcc (mx : Bool) (x w : List EV) : LAcc :=
  let ps := (x.zip w).map (fun p => mulTerms p.1 p.2)
  if mx then
    (chunks 32 (ps.length / 32) ps).foldl (fun (a : LAcc) c => a.term (c.flatten.foldl Num.add Num.zero)) {}
  else ps.flatten.foldl (fun (a : LAcc) t => a.term t) {}

/-! ### GEMV (R254, R255) -/

/-- The operands of GEMV. -/
structure Gemv where
  ctl : MtxCtl
  tx : Tensor
  tw : Tensor
  ty : Tensor
  bias : Option Rng

/-- The W operand: in a coded region where it keeps the rules of R245. -/
def gemvW (x : Ctx) : Eng Tensor := do
  let t ← engTensor x 5 anyIn false false
  let c ← engTry (engSga { t.elem with coded := true } 0)
  if c.isSome && t.elem.addr % 65536 == 0 && t.stride == rowBytes t.fmt t.cols then
    return { t with elem := { t.elem with coded := true } }
  else return t

/-- The operand check of GEMV. -/
def gemvCheck (x : Ctx) : Eng Gemv := mtxOp (do
  let k ← mtxCtlOk x 15
  engNeed (x.op 14 == 0)
  let tx ← engTensor x 1 anyIn false false
  let tw ← gemvW x
  let ty ← engTensor x 9 (plainOut ++ [0xE]) true false
  engNeed (tx.rows ≤ 64 && tw.cols == tx.cols && ty.rows == tx.rows && ty.cols == tw.rows && k.ofmt == ty.fmt &&
    (k.op == 0 || k.op == 4 || k.op == 5) && (k.ofmt != 0xE || k.op == 0) && (!k.accum || k.ofmt == 0xE))
  engNeed (← engAsk (fun e => decide (tx.rows * rowBytes tx.fmt tx.cols + 65536 + 40 * tx.rows ≤ engSram e.s 2 e.core)))
  tx.probe
  tw.probe
  ty.probe
  let bias ← if x.op 13 = 0 then pure none else some <$> engRng (x.op 13) (4 * tw.rows) false 13
  match bias with
  | some b => do let _ ← engSga b 0
  | none => pure ()
  mtxApart ty ([tx] ++ (if tw.elem.coded then [] else [tw])) none
  match bias with
  | some b => do engNeed (!overlaps (← ty.area) (← b.area (4 * tw.rows)))
  | none => pure ()
  return { ctl := k, tx := tx, tw := tw, ty := ty, bias := bias })

/-- `n` bytes at packed offset `o` of a tensor whose rows may lie apart. -/
def packedRead (t : Tensor) (o n : Nat) : Eng (List Byte) := do
  let len := rowBytes t.fmt t.cols
  if t.stride = len then engRead t.elem o n
  else
    let rows := (List.range ((o + n - 1) / len + 1 - o / len)).map (fun i => o / len + i)
    let bs ← rows.mapM (fun r =>
      let a := max o (r * len)
      let b := min (o + n) (r * len + len)
      engRead t.elem (r * t.stride + (a - r * len)) (b - a))
    return bs.flatten

/-- W's raw bytes in all; those of unit `u` (R255). -/
def Gemv.total (g : Gemv) : Nat := g.tw.rows * rowBytes g.tw.fmt g.tw.cols
def Gemv.unitLen (g : Gemv) (u : Nat) : Nat := min 65536 (g.total - u * 65536)

/-- A unit's stored bytes: all of it, or its block's payload. -/
def gemvStored (g : Gemv) (u : Nat) (plan : Option (List Byte × Nat)) : Nat :=
  match plan with | some p => (blkHdr p.1).payload | none => g.unitLen u

/-- A part that fails for a unit of W. -/
def gemvCatch {α : Type} (u : Nat) (f : Eng α) : Eng α := engCatch f (mtxErr 3 0) (unitRes u)

/-- Unit `u` of W (R255): its raw bytes. -/
def gemvUnit (g : Gemv) (u : Nat) (plan : Option (List Byte × Nat)) : Eng (List Byte) := gemvCatch u (do
  match plan with
  | some p => do
    let (h, pay) ← engBlock g.tw.elem (u * 65536)
    return (← engDecode g.tw.elem (u * 65536) u 2 p h pay).take (g.unitLen u)
  | none => packedRead g.tw (u * 65536) (g.unitLen u))

/-- Products of unit `u` against all rows of X. -/
def Gemv.prods (g : Gemv) (u : Nat) : Nat := g.unitLen u * 8 / elemBits g.tw.fmt * g.tx.rows

/-- The capacities of a GEMV step (R242): products, coded sub-streams, bytes of fetched units in SRAM, store bytes by tier. -/
def gemvCaps (s : Body) (core pid : Nat) (cls : Bool) (g : Gemv) : List Nat :=
  [engUnits s 2 core * min (mtxRate g.tx.fmt) (mtxRate g.tw.fmt) * engCp s, decodeCap (engCp s) (engAux s 2 core),
    engSram s 2 core - g.tx.rows * (rowBytes g.tx.fmt g.tx.cols + 40)] ++ tierCaps s pid cls

/-- What unit `u` draws of them; `h` is its block's header where W is coded. -/
def gemvNeed (g : Gemv) (u : Nat) (h : Option (List Byte)) : Eng (List Nat) := do
  let n := gemvStored g u (h.map (fun h => (h, 0)))
  let len := rowBytes g.tw.fmt g.tw.cols
  let at_ := if h.isSome then u * 65536 else u * 65536 / len * g.tw.stride + u * 65536 % len
  return [g.prods u, match h with | some h => codedSubs h | none => 0, n] ++ (← rawTier g.tw.elem at_ n)

/-- The units from `u` on that a step takes beside the draw `a` (R255); the headers of coded ones are matched in the knot before. -/
def gemvPlan (g : Gemv) (x : Ctx) (u : Nat) (a : List Nat) : Eng (List (Option (List Byte × Nat))) := do
  let e ← get
  let caps := gemvCaps e.s e.core e.pid x.cls g
  let n := ceilDiv g.total 65536 - u
  if g.tw.elem.coded then
    return (← engCatch (engPlan g.tw.elem u n (fun i h => gemvNeed g i (some h)) caps a 2) (mtxErr 3 0) (fun _ r => r)).map some
  else
    return List.replicate (← gemvCatch u (engGroup (fun i => gemvNeed g i none) caps n u a)) none

/-- Writes column `n` of Y, or the block of 32 columns that ends with it (R254). -/
def gemvOut (g : Gemv) (n : Nat) (ys : List (List EV)) : Eng Unit :=
  if isMx g.ty.fmt then
    (if n % 32 = 31 then
      (List.range g.ty.rows).forM (fun b => g.ty.write b (n - 31) g.ctl.rnd ((ys.drop (ys.length - 32)).map (fun l => l.getD b (.terms []))))
    else pure ())
  else (List.range g.ty.rows).forM (fun b => do
    let y := (ys.getLastD []).getD b (.terms [])
    let y ← if g.ctl.accum then do
        let old ← engRead g.ty.elem (b * g.ty.stride + 64 * n) 64
        match (← engVals 0xE 1 old []) with
        | [.img a] => pure (EV.img (a.comb y.acc))
        | _ => pure y
      else pure y
    g.ty.write b n g.ctl.rnd [y])

/-- One output of GEMV from its accumulator. -/
def gemvAct (op : Nat) (a : LAcc) : EV :=
  if op = 4 then .terms [mtxSilu (rn a.num)] else if op = 5 then .terms [mtxGelu (rn a.num)] else .img a

/-- The rows of W that `buf` completes, from row `n` on: each gives a column of Y. -/
def gemvRows (g : Gemv) (xs : List (List EV)) (bias : List Byte) : Nat → Nat → List Byte → List (List EV) →
    Eng (Nat × List Byte × List (List EV))
  | 0, n, buf, ys => return (n, buf, ys)
  | k + 1, n, buf, ys => do
    let len := rowBytes g.tw.fmt g.tw.cols
    if g.tw.rows ≤ n ∨ buf.length < len then return (n, buf, ys)
    else
      let w ← engVals g.tw.fmt g.tw.cols (buf.take len) (← g.tw.sideAt n)
      let mx := isMx g.tx.fmt || isMx g.tw.fmt
      let col := xs.map (fun x =>
        let a := dotAcc mx x w
        let a := if g.bias.isSome then a.term (f32 (le bias (4 * n) 4)) else a
        gemvAct g.ctl.op a)
      let ys := ys ++ [col]
      gemvOut g n ys
      gemvRows g xs bias k (n + 1) (buf.drop len) (if isMx g.ty.fmt && n % 32 != 31 then ys else [])

/-- What GEMV holds between units: the next row of W, its bytes fetched so far, columns of Y that wait for their block. -/
structure GemvSt where
  row : Nat := 0
  buf : List Byte := []
  ys : List (List EV) := []

/-- Raw bytes of W enter: the rows that they complete are done. -/
def gemvFeed (g : Gemv) (xs : List (List EV)) (bias : List Byte) (st : GemvSt) (raw : List Byte) : Eng GemvSt := mtxOp (do
  let (r, buf, ys) ← gemvRows g xs bias (raw.length * 8 + 65537) st.row (st.buf ++ raw) st.ys
  return { row := r, buf := buf, ys := ys })

/-- The units of one step, from unit `u` on. -/
def gemvUnits (g : Gemv) (xs : List (List EV)) (bias : List Byte) :
    Nat → GemvSt → List (Option (List Byte × Nat)) → Eng GemvSt
  | _, st, [] => return st
  | u, st, p :: ps => do
    let raw ← gemvUnit g u p
    engMod (fun s => s.count R.MTX_W_BYTES.COUNT (gemvStored g u p))
    gemvUnits g xs bias (u + 1) (← gemvFeed g xs bias st raw) ps

/-- The steps of GEMV from unit `u` on (R255): `ps` are the units planned for the step beside its draw `a`. A unit whose products
exceed a step takes more steps: its bytes are read in the first, and its rows are done in the last. -/
def gemvSteps (g : Gemv) (x : Ctx) (xs : List (List EV)) (bias : List Byte) :
    Nat → Nat → List Nat → GemvSt → List (Option (List Byte × Nat)) → Eng Unit
  | 0, _, _, _, _ => return ()
  | f + 1, u, a, st, ps => do
    let e ← get
    let caps := gemvCaps e.s e.core e.pid x.cls g
    let need := fun (p : Option (List Byte × Nat)) (i : Nat) =>
      [g.prods i, match p with | some p => codedSubs p.1 | none => 0, gemvStored g i p, 0, 0]
    let st ← gemvFeed g xs bias st []
    let k ← engNum (fun _ => if a.isEmpty && ps.length == 1 then unitSteps (need (ps.headD none) u) caps else 0)
    let last := fun (v : Nat) => decide (ceilDiv g.total 65536 ≤ v)
    if k ≠ 0 then do
      let p := ps.headD none
      let raw ← gemvUnit g u p
      engMod (fun s => s.count R.MTX_W_BYTES.COUNT (gemvStored g u p))
      (List.range k).forM (fun _ => engStep 65536)
      let a := unitRest (need p u) caps k
      let st := { st with buf := st.buf ++ raw }
      if last (u + 1) then do
        let _ ← gemvFeed g xs bias st []
        engStep (drawCost a caps)
      else gemvSteps g x xs bias f (u + 1) a st (← gemvPlan g x (u + 1) a)
    else do
      let st ← gemvUnits g xs bias u st ps
      let a := (ps.zip (List.range ps.length)).foldl (fun (a : List Nat) q =>
        let v := need q.1 (u + q.2)
        if a.isEmpty then v else (a.zip v).map (fun p => p.1 + p.2)) a
      engStep (drawCost a caps)
      if last (u + ps.length) then return ()
      else gemvSteps g x xs bias f (u + ps.length) [] st (← gemvPlan g x (u + ps.length) [])

/-- GEMV. -/
def gemvRun (x : Ctx) : Eng (Nat × Nat × Nat) := do
  let g ← gemvCheck x
  let ps ← gemvPlan g x 0 []
  mtxOp (slotPins g.ctl.pin (x.op 5))
  let xs ← mtxOp ((List.range g.tx.rows).mapM g.tx.row)
  let bias ← mtxOp (match g.bias with
    | some b => engRead b 0 (4 * g.tw.rows)
    | none => pure [])
  gemvSteps g x xs bias (2 * ceilDiv g.total 65536) 0 [] {} ps
  mtxProducts (g.tw.rows * g.tw.cols * g.tx.rows)
  return (stOK, 0, 0)

/-! ### The key-value cache (R249, R256 to R259) -/

/-- Bytes of a cache row, and rows of a page (R249). -/
def SeqSlot.rowb (q : SeqSlot) : Nat := q.hkv * q.dhead * elemBits q.kvfmt / 8
def SeqSlot.pageTok (q : SeqSlot) : Nat := 65536 / q.rowb

/-- The page of a layer's K (0) or V (1) list (R248, R249). -/
def kvPage (q : SeqSlot) (layer which page : Nat) (writes : Bool) : Eng Rng := do
  let l ← engRng q.layers (16 * q.nlayers) false 2
  let w := leNat (← engReadC l (16 * layer + 8 * which) 8)
  if w = 0 then engErr (xFault 9) 0 2
  let pl ← engRng w (8 * (page + 1)) false 2
  let p := leNat (← engReadC pl (8 * page) 8)
  if p = 0 then engErr (xFault 9) 0 2
  let r ← engRng p 65536 writes 2
  engNeed (r.addr % 65536 == 0)
  return r

/-- The slots of the mask, OPEN at release, with their snapshots (R250, R251). -/
def kvSlots (x : Ctx) : Eng (List (Nat × SeqSlot × Nat)) :=
  (maskSlots (x.op 2)).mapM (fun n => mtxSlot n (do
    seqMine n
    let e ← get
    match x.snaps.find? (fun p => p.1 == n) with
    | some (_, l) => return (n, e.s.seq n, l)
    | none => engBad))

/-- A failing page: RESULT holds the slot and the page or position (R267). -/
def kvCatch {α : Type} (n i : Nat) (f : Eng α) : Eng α := engCatch f (mtxErr 4 n) (unitRes (n * 2 ^ 24 + i % 2 ^ 24))

/-- The layer word and the mask (R256, R257). -/
def kvWords (x : Ctx) : Eng Unit := engNeed (decide (x.op 1 < 1024) && x.op 2 != 0)

/-- The operands of KV_APPEND, checked (R190 check 6). -/
def kvAppendOps (x : Ctx) : Eng (MtxCtl × Tensor × Tensor) := mtxOp (do
  let k ← mtxCtlOk x 11
  kvWords x
  let tk ← engTensor x 3 floats false false
  let tv ← engTensor x 7 floats false false
  return (k, tk, tv))

/-- KV_APPEND. -/
def kvAppendRun (x : Ctx) : Eng (Nat × Nat × Nat) := do
  let (k, tk, tv) ← kvAppendOps x
  let qs ← kvSlots x
  let layer := x.op 1
  mtxOp (do
    engNeed (tk.rows == qs.length && tv.rows == qs.length && tv.cols == tk.cols)
    qs.forM (fun e =>
      let q0 := (qs.headD (0, {}, 0)).2.1
      engNeed (e.2.1.kvfmt == q0.kvfmt && e.2.1.hkv == q0.hkv && e.2.1.dhead == q0.dhead && tk.cols == q0.hkv * q0.dhead &&
        decide (layer < e.2.1.nlayers) && decide (e.2.2 < e.2.1.cap))))
  (qs.zip (List.range qs.length)).forM (fun (e, i) => do
    let (n, q, len) := e
    let kr ← mtxOp (tk.row i)
    let vr ← mtxOp (tv.row i)
    kvCatch n len (do
      let at_ := len % q.pageTok * q.rowb
      let pk ← kvPage q layer 0 (len / q.pageTok) true
      engWrite pk at_ (rowEnc q.kvfmt k.rnd kr).1
      let pv ← kvPage q layer 1 (len / q.pageTok) true
      engWrite pv at_ (rowEnc q.kvfmt k.rnd vr).1)
    engMod (fun s => s.count R.MTX_KV_BYTES.COUNT (2 * q.rowb)))
  engStep 65536
  return (stOK, 0, 0)

/-- The softmax weights of a row of scores (R258): none where a score is NaN. -/
def softWeights (ss : List Num) : Option (List Num) :=
  if ss.any Num.isNaN then none
  else
    let m := ss.foldl numMaxV (ss.headD Num.zero)
    match m with
    | .inf false => some (ss.map (fun x => if x = .inf false then .fin false 1 0 else Num.zero))
    | .inf true => some (ss.map (fun _ => .fin false 1 0))
    | _ => some (ss.map (fun x => fExp (rn (x.add m.neg))))

/-- D and r of R257. -/
def softRcp (es : List Num) : Num := fRcp (rn ((es.foldl (fun (a : LAcc) e => a.term e) {}).num))

/-- A part that waits for the spilled scores, if it waits (R265). -/
def engSpill {α : Type} (f : Eng α) : Eng α := do
  let w := (← get).wants
  let mark : Eng Unit := modify (fun e => if e.wants = w then e else { e with wants := { e.wants with spill := true } })
  let r ← tryCatch f (fun x => do
    mark
    throw x)
  mark
  return r

/-- Scores go to the SCRATCH area, or come back from it, in pieces of 64 KiB that count against the store-byte shares (R259). The
spec states no layout for them: the bytes are free values (log entry 4). -/
def kvSpill (q : SeqSlot) (n : Nat) (back : Bool) (a caps : List Nat) : Eng (List Nat) := do
  let r ← engRng q.scratch n true 2
  let a ← (List.range (ceilDiv n 65536)).foldlM (fun (a : List Nat) i => do
    let m := min 65536 (n - 65536 * i)
    let t ← engTier [(r, 65536 * i, m)]
    let a ← drawRoom a ([0, 0, 0] ++ t) caps
    if back then engSpill (do let _ ← engRead r (65536 * i) m)
    else do
      let k ← engNum (fun e => e.s.drawn)
      engAcc (fun s => { s with drawn := s.drawn + m })
      engSpill (engWrite r (65536 * i) ((List.range m).map (fun j => BitVec.ofNat 8 (Config.freeWord (k + j)).toNat)))
    return a) a
  engMod (fun s => s.count R.MTX_SPILL_BYTES.COUNT n)
  return a

/-- One head's output row from its weights and V rows (R257). -/
def attendOut (es : List Num) (vs : List (List EV)) (dhead h0 : Nat) : List EV :=
  let r := softRcp es
  (List.range dhead).map (fun d =>
    let a := (es.zip vs).foldl (fun (a : LAcc) p =>
      (mulTerms (.terms [p.1]) (p.2.getD (h0 + d) (.terms []))).foldl (fun (a : LAcc) t => a.term t) a) {}
    .terms [r.mul a.num])

/-- The operands of ATTEND, checked (R190 check 6). -/
def attendOps (x : Ctx) : Eng (MtxCtl × Tensor × Tensor) := mtxOp (do
  let k ← mtxCtlOk x 14
  engNeed (x.op 13 == 0)
  kvWords x
  let tq ← engTensor x 3 floats false false
  let to_ ← engTensor x 7 plainOut true false
  engNeed (k.ofmt == to_.fmt && bits (x.op 11) 63 41 == 0 && 1 ≤ bits (x.op 11) 40 32 && bits (x.op 11) 40 32 ≤ 256 &&
    decide (x.op 12 < 2 ^ 21))
  tq.probe
  to_.probe
  mtxApart to_ [tq] none
  return (k, tq, to_))

/-- One phase of ATTEND over pages (R259), with one page as the unit: the rows of K (0) or V (1) at the positions in range. -/
def attendPhase (q : SeqSlot) (n layer hq which t0 en : Nat) (caps a : List Nat) : Eng (List Nat × List (List EV)) :=
  let pages := (List.range ((en + q.pageTok - 1) / q.pageTok - t0 / q.pageTok)).map (fun j => t0 / q.pageTok + j)
  pages.foldlM (fun (b : List Nat × List (List EV)) p => do
    let lo := max t0 (p * q.pageTok)
    let cnt := min en ((p + 1) * q.pageTok) - lo
    let at_ := lo % q.pageTok * q.rowb
    let (r, t) ← kvCatch n p (do
      let r ← kvPage q layer which p false
      return (r, ← engTier [(r, at_, cnt * q.rowb)]))
    let a ← drawRoom b.1 ([cnt * hq * q.dhead, if which = 1 then cnt * hq else 0, min (cnt * q.rowb) (caps.getD 2 0)] ++ t) caps
    let rows ← kvCatch n p ((List.range cnt).mapM (fun j => do
      engVals q.kvfmt (q.hkv * q.dhead) (← engRead r (at_ + j * q.rowb) q.rowb) []))
    engMod (fun s => s.count R.MTX_KV_BYTES.COUNT (cnt * q.rowb))
    return (a, b.2 ++ rows)) (a, [])

/-- The O row of one slot from its Q row and the rows of K and V in range (R257, R258). -/
def attendRow (q : SeqSlot) (hq : Nat) (scale : Num) (qrow : List EV) (ks vs : List (List EV)) : List EV :=
  (List.range hq).flatMap (fun h =>
    let h0 := h / (hq / q.hkv) * q.dhead
    let qh := (qrow.drop (h * q.dhead)).take q.dhead
    let ss := ks.map (fun kr =>
      let acc := (qh.zip ((kr.drop h0).take q.dhead)).foldl (fun (a : LAcc) p =>
        (mulTerms p.1 p.2).foldl (fun (a : LAcc) t => a.term (t.mul scale)) a) {}
      rn acc.num)
    if ks.isEmpty then (List.range q.dhead).map (fun _ => EV.terms [Num.zero])
    else match softWeights ss with
      | none => (List.range q.dhead).map (fun _ => EV.terms [.nan])
      | some es => attendOut es vs q.dhead h0)

/-- ATTEND. -/
def attendRun (x : Ctx) : Eng (Nat × Nat × Nat) := do
  let (k, tq, to_) ← attendOps x
  let qs ← kvSlots x
  let layer := x.op 1
  let hq := bits (x.op 11) 40 32
  let scale := f32 (bits (x.op 11) 31 0)
  let sram ← engNum (fun e => engSram e.s 2 e.core)
  mtxOp (do
    engNeed (tq.rows == qs.length && to_.rows == qs.length && to_.cols == tq.cols)
    qs.forM (fun s => engNeed (hq % s.2.1.hkv == 0 && tq.cols == hq * s.2.1.dhead && decide (layer < s.2.1.nlayers) &&
      (decide (hq * (s.2.2 + b2n k.new) * 4 ≤ sram) || decide (hq * (s.2.2 + b2n k.new) * 4 ≤ s.2.1.scratchLen)))))
  let (a, caps) ← (qs.zip (List.range qs.length)).foldlM (fun (st : List Nat × List Nat) (si : (Nat × SeqSlot × Nat) × Nat) => do
    let ((n, q, len), i) := si
    let en := len + b2n k.new
    let t0 := if x.op 12 = 0 then 0 else en - x.op 12
    let scores := hq * en * 4
    let e ← get
    let u := engUnits e.s 2 e.core * engCp e.s
    let caps := [u * min (mtxRate tq.fmt) (mtxRate q.kvfmt), 4 * u, sram - (if sram < scores then 0 else scores)] ++
      tierCaps e.s e.pid x.cls
    let qrow ← mtxOp (tq.row i)
    let (a, ks) ← attendPhase q n layer hq 0 t0 en caps st.1
    let spill := fun (back : Bool) (a : List Nat) =>
      if sram < scores then engCatch (kvSpill q scores back a caps) (mtxErr 5 n) (unitRes (n * 2 ^ 24)) else pure a
    let a ← spill false a
    let a ← spill true a
    let (a, vs) ← attendPhase q n layer hq 1 t0 en caps a
    engMod (fun s => s.count R.MTX_FUNC.COUNT (hq * (ks.length + 1)))
    mtxOp (to_.write i 0 k.rnd (attendRow q hq scale qrow ks vs))
    mtxProducts (2 * hq * q.dhead * ks.length)
    return (a, caps)) ([], [])
  if a.isEmpty then engStep 1 else drawEnd a caps
  return (stOK, 0, 0)

/-! ### SOFTMAX, ELEMWISE, RMSNORM (R261 to R263) -/

/-- The operands of SOFTMAX, checked (R190 check 6). -/
def softmaxOps (x : Ctx) : Eng (MtxCtl × Tensor × Tensor) := mtxOp (do
  let k ← mtxCtlOk x 9
  let ta ← engTensor x 1 anyIn false false
  let ty ← engTensor x 5 plainOut true false
  engNeed (k.ofmt == ty.fmt && ty.rows == ta.rows && ty.cols == ta.cols)
  ta.probe
  ty.probe
  mtxApart ty [ta] none
  return (k, ta, ty))

/-- SOFTMAX: elements are rounded to FP32 before the functions (R260). -/
def softmaxRun (x : Ctx) : Eng (Nat × Nat × Nat) := do
  let (k, ta, ty) ← softmaxOps x
  let (a, caps) ← (List.range ta.rows).foldlM (fun (st : List Nat × List Nat) r => mtxOp (do
    let e ← get
    let caps := [4 * engUnits e.s 2 e.core * engCp e.s] ++ tierCaps e.s e.pid x.cls
    let t ← engTier [ta.rowAt r, ty.rowAt r]
    let a ← drawRoom st.1 ([ta.cols + 1] ++ t) caps
    let vs ← ta.row r
    let ys := match softWeights (vs.map (fun v => rn v.num)) with
      | none => vs.map (fun _ => EV.terms [.nan])
      | some es => let rc := softRcp es; es.map (fun w => EV.terms [w.mul rc])
    ty.write r 0 k.rnd ys
    engMod (fun s => s.count R.MTX_FUNC.COUNT (ta.cols + 1))
    return (a, caps))) ([], [])
  drawEnd a caps
  return (stOK, 0, 0)

/-- The OP takes an operand B (R261). -/
def elemHasB (op : Nat) : Bool := op == 1 || op == 2 || op == 3 || op == 7 || op == 8

/-- The terms of an element. -/
def EV.parts : EV → List Num
  | .terms l => l
  | .img a => [a.num]

/-- One element of an elementwise operation: the exact value to be rounded, as the terms of its sum (R218, R261). -/
def elemOp (op : Nat) (a b : EV) (c : Num) : EV :=
  if op = 0 then a
  else if op = 1 then .terms (a.parts ++ b.parts)
  else if op = 2 then .terms (mulTerms a b)
  else if op = 3 then .terms (mulTerms a (.terms [c]) ++ b.parts)
  else if op = 4 then .terms [mtxSilu (rn a.num)]
  else if op = 5 then .terms [mtxGelu (rn a.num)]
  else if op = 6 then .terms [numMaxV a.num Num.zero]
  else .terms (mulTerms (.terms [mtxSilu (rn a.num)]) b)

/-- ROTATE of a row (R261). -/
def elemRotate : List EV → List EV → List EV
  | a0 :: a1 :: at_, c :: s :: bt =>
    .terms (mulTerms a0 c ++ (mulTerms a1 s).map Num.neg) :: .terms (mulTerms a0 s ++ mulTerms a1 c) :: elemRotate at_ bt
  | _, _ => []

/-- Function values that an element of the OP takes. -/
def elemFuncs (op : Nat) : Nat := if op = 4 ∨ op = 8 then 2 else if op = 5 then 1 else 0

/-- The operands of ELEMWISE, checked (R190 check 6). -/
def elemwiseOps (x : Ctx) : Eng (MtxCtl × Tensor × Option Tensor × Tensor) := mtxOp (do
  let k ← mtxCtlOk x 14
  engNeed (k.op ≤ 8 && bits (x.op 13) 63 32 == 0)
  let ta ← engTensor x 1 (if k.op = 0 then anyIn ++ [0xE] else anyIn) false false
  let tb ← if elemHasB k.op then some <$> engTensor x 5 (if k.op = 7 then [0] else anyIn) false false
    else do
      engNeed (x.op 5 == 0 && x.op 6 == 0 && x.op 7 == 0 && x.op 8 == 0)
      pure none
  let ty ← engTensor x 9 plainOut true false
  engNeed (k.ofmt == ty.fmt && ty.rows == ta.rows && ty.cols == ta.cols)
  match tb with
  | some b => do
    engNeed (b.rows == ta.rows && b.cols == ta.cols)
    b.probe
  | none => pure ()
  ta.probe
  ty.probe
  mtxApart ty (ta :: tb.toList) (some ta)
  return (k, ta, tb, ty))

/-- ELEMWISE. -/
def elemwiseRun (x : Ctx) : Eng (Nat × Nat × Nat) := do
  let (k, ta, tb, ty) ← elemwiseOps x
  let c := f32 (bits (x.op 13) 31 0)
  let (a, caps) ← (List.range ta.rows).foldlM (fun (st : List Nat × List Nat) r => mtxOp (do
    let e ← get
    let caps := [4 * engUnits e.s 2 e.core * engCp e.s] ++ tierCaps e.s e.pid x.cls
    let t ← engTier ([ta.rowAt r, ty.rowAt r] ++ (tb.map (·.rowAt r)).toList)
    let a ← drawRoom st.1 ([ta.cols * elemFuncs k.op] ++ t) caps
    let vs ← ta.row r
    let bs ← match tb with
      | some b => b.row r
      | none => pure (vs.map (fun _ => EV.terms [Num.zero]))
    let ys := if k.op = 7 then elemRotate vs bs else (vs.zip bs).map (fun p => elemOp k.op p.1 p.2 c)
    ty.write r 0 k.rnd ys
    engMod (fun s => s.count R.MTX_FUNC.COUNT (ta.cols * elemFuncs k.op))
    return (a, caps))) ([], [])
  drawEnd a caps
  return (stOK, 0, 0)

/-- An exact value divided by n, rounded to FP32 under RNE. -/
def rnDiv (x : Num) (n : Nat) : Num :=
  match x with
  | .fin neg m e => let (p, q) := dyQ m e; f32 (fFP32.encQ 0 neg p (q * n))
  | x => x

/-- The operands of RMSNORM, checked (R190 check 6). -/
def rmsnormOps (x : Ctx) : Eng (MtxCtl × Tensor × Tensor × Tensor) := mtxOp (do
  let k ← mtxCtlOk x 14
  engNeed (bits (x.op 13) 63 32 == 0)
  let ta ← engTensor x 1 anyIn false false
  let tg ← engTensor x 5 anyIn false false
  let ty ← engTensor x 9 plainOut true false
  engNeed (k.ofmt == ty.fmt && ty.rows == ta.rows && ty.cols == ta.cols && tg.rows == 1 && tg.cols == ta.cols)
  ta.probe
  tg.probe
  ty.probe
  mtxApart ty [ta, tg] (some ta)
  return (k, ta, tg, ty))

/-- RMSNORM. -/
def rmsnormRun (x : Ctx) : Eng (Nat × Nat × Nat) := do
  let (k, ta, tg, ty) ← rmsnormOps x
  let eps := f32 (bits (x.op 13) 31 0)
  let gs ← mtxOp (tg.row 0)
  let (a, caps) ← (List.range ta.rows).foldlM (fun (st : List Nat × List Nat) r => mtxOp (do
    let e ← get
    let u := engUnits e.s 2 e.core * engCp e.s
    let caps := [u * mtxRate ta.fmt, 4 * u] ++ tierCaps e.s e.pid x.cls
    let t ← engTier [ta.rowAt r, ty.rowAt r]
    let a ← drawRoom st.1 ([ta.cols, 1] ++ t) caps
    let vs ← ta.row r
    let sq := dotAcc (isMx ta.fmt) vs vs
    let rr := fRsqrt (rn ((rnDiv sq.num ta.cols).add eps))
    let ys := (vs.zip gs).map (fun p => EV.terms ((mulTerms p.1 p.2).map (fun t => t.mul rr)))
    ty.write r 0 k.rnd ys
    engMod (fun s => s.count R.MTX_FUNC.COUNT)
    mtxProducts ta.cols
    return (a, caps))) ([], [])
  drawEnd a caps
  return (stOK, 0, 0)

/-- The operand check of a matrix command (R190 check 6); a slot of another partition is refused (R247). -/
def mtxCheck (x : Ctx) : Eng Unit := do
  if x.opcode = 1 then mtxOp (engNeed (x.opform == 0 && decide (x.op 1 < 64) && x.op 2 == 0))
  else if x.opcode = 2 then mtxOp (engNeed (x.opform == 0 && x.op 0 == 0 && decide (x.op 1 < 64) && x.op 2 == 0))
  else if x.opcode = 3 then
    mtxOp (engNeed (x.opform == 0 && x.op 0 == 0 && decide (x.op 1 < 64) && 1 ≤ x.op 2 && decide (x.op 2 < 65536)))
  else if x.opcode = 0x10 then let _ ← gemvCheck x
  else if x.opcode = 0x11 then let _ ← kvAppendOps x
  else if x.opcode = 0x12 then let _ ← attendOps x
  else if x.opcode = 0x20 then let _ ← softmaxOps x
  else if x.opcode = 0x21 then let _ ← elemwiseOps x
  else let _ ← rmsnormOps x
  (if x.opcode < 3 then [x.op 1 % 64] else mtxNames x).forM (fun n => mtxSlot n (seqMine n))

/-- The command of an opcode of the matrix engine. -/
def matrixRun (x : Ctx) : Eng (Nat × Nat × Nat) :=
  if x.opcode = 1 then seqOpenRun x
  else if x.opcode = 3 then seqAdvanceRun x
  else if x.opcode = 0x10 then gemvRun x
  else if x.opcode = 0x11 then kvAppendRun x
  else if x.opcode = 0x12 then attendRun x
  else if x.opcode = 0x20 then softmaxRun x
  else if x.opcode = 0x21 then elemwiseRun x
  else rmsnormRun x

/-- The rows of the matrix engine. -/
def matrixRow (opcode : Nat) (c x : Nat) (s : Body) : Body := engRow 2 opcode matrixRun c x s

end Sys2Proof.Machine
end

