-- ==== Sys2Proof/Machine/Embed.lean ====
section
/-!
DEFINITION. The embedding engine (R270 to R290): tables and rows, gathering, scatter-add, overwrites and row replacement.
-/

namespace Sys2Proof.Machine

/-! ### Failures (R288) -/

/-- EMB_ERR_LOG. -/
def embErr (cause st res : Nat) : Eng Unit := do
  let e ← get
  engMod (fun s =>
    let s := s.set R.EMB_ERR_LOG.STATUS st
    let s := s.set R.EMB_ERR_LOG.CAUSE cause
    let s := s.set R.EMB_ERR_LOG.PID e.pid
    let s := s.set R.EMB_ERR_LOG.CORE e.core
    let s := s.set R.EMB_ERR_LOG.OPCODE ((s.ctx e.core e.x).opcode % 8)
    let s := s.set R.EMB_ERR_LOG.POS res
    s.set R.EMB_ERR_KNOT.KNOT s.now)

/-- The cause of a failed access, by its status. -/
def embCause (st : Nat) : Nat := if st = stBADOPCODE ∨ st = stXLTFAULT ∨ st = stPERMISSION ∨ st = stREVOKED then 1 else 4

/-- A part whose failures name position `p`. What another home answered counts as a row (R162, R288). -/
def embAt {α : Type} (p : Nat) (f : Eng α) : Eng α := engCatch f (fun st _ r => do
  let e ← get
  embErr (if (e.s.ctx e.core e.x).mute then 4 else embCause st) st r) (unitRes p)

/-- A failure of position `p` that the command itself finds. -/
def embFail {α : Type} (cause st sub p : Nat) : Eng α := do
  embErr cause st p
  engFail st sub p

/-! ### Tables (R270 to R272) -/

/-- One tier of a table: the address word of its rows, STRIDE and FMT. -/
structure EmbTier where
  base : Nat
  stride : Nat
  fmt : Nat

/-- A table descriptor. -/
structure EmbTable where
  map : Nat
  rows : Nat
  dim : Nat
  tiers : List EmbTier

/-- Bytes of a row of `dim` elements (R272). -/
def embRowLen (fmt dim : Nat) : Nat := (if isSint fmt then 8 else 0) + dim * elemBits fmt / 8

/-- The element formats of tiers (R270). -/
def embFmts : List Nat := [0, 1, 2, 3, 4, 0xB, 0xC, 0xE]

/-- The fields of a descriptor's 64 bytes, if they keep R270. -/
def embParse (b : List Byte) : Option EmbTable :=
  let n := le b 14 1
  let t : EmbTable := {
    map := le b 0 8, rows := le b 8 4, dim := le b 12 2,
    tiers := (List.range n).map (fun k => { base := le b (16 + 12 * k) 8, stride := le b (24 + 12 * k) 2, fmt := le b (26 + 12 * k) 1 : EmbTier }) }
  let okTier := fun (k : EmbTier) => embFmts.contains k.fmt && k.stride % 8 == 0 && decide (embRowLen k.fmt t.dim ≤ k.stride) &&
    decide (k.stride ≤ 4096) && (k.fmt != 0xC || t.dim % 2 == 0) && (k.fmt != 0xE || decide (t.dim ≤ 64))
  let ok := 1 ≤ n && n ≤ 4 && le b 15 1 == 0 && (t.map != 0 || n == 1) && 1 ≤ t.rows && 1 ≤ t.dim && t.dim ≤ 1024 &&
    t.tiers.all okTier && (List.range 4).all (fun k => if k < n then le b (27 + 12 * k) 1 == 0 else allZero (slice b (16 + 12 * k) 12))
  if ok then some t else none

/-- Reads the table descriptor that word 1 names, through the data cache (R271). -/
def embTable (x : Ctx) (writes : Bool) : Eng EmbTable := do
  let r ← engRng (x.op 1) 64 false 1
  engNeed (r.addr % 64 == 0)
  match embParse (← engReadC r 0 64) with
  | none => engBad
  | some t =>
    t.tiers.forM (fun k => do
      let g ← engRng k.base 1 writes 1
      engNeed (g.addr % 4096 == 0))
    return t

/-- The map entry of a row (R271): tier and slot; where the table has no map, tier 0 and the row's number. -/
def embEntry (t : EmbTable) (i : Nat) : Eng (Nat × Nat) := do
  if t.map = 0 then return (0, i)
  else
    let r ← engRng (t.map + 4 * i) 4 false 1
    let e := leNat (← engReadC r 0 4)
    return (bits e 31 30, bits e 29 0)

/-- The map entry of a row as the home holds it (R285). -/
def embEntryHome (t : EmbTable) (i : Nat) : Eng (Nat × Nat) := do
  let e := leNat (← engRead (← engRng (t.map + 4 * i) 4 false 1) 0 4)
  return (bits e 31 30, bits e 29 0)

/-- Where a slot of a tier lies (R271). -/
def embSlot (t : EmbTable) (k : EmbTier) (slot : Nat) (writes : Bool) : Eng Rng :=
  let rpp := 4096 / k.stride
  engRng (k.base + 4096 * (slot / rpp) + k.stride * (slot % rpp)) (embRowLen k.fmt t.dim) writes 1

/-- A position's row: its tier, its address and its number. -/
structure EmbRow where
  tier : EmbTier
  rng : Rng
  row : Nat

/-- The row of position `p` with index `i`; a malformed map entry ends the command (R271, R288). -/
def embRow (t : EmbTable) (p i : Nat) (writes : Bool) (home : Bool := false) : Eng EmbRow := do
  let (k, slot) ← embAt p (if home then embEntryHome t i else embEntry t i)
  match t.tiers[k]? with
  | none => embFail 3 stBADOPCODE 3 p
  | some tier =>
    let r ← embAt p (embSlot t tier slot writes)
    return { tier := tier, rng := r, row := i }

/-- Writes must resolve in the own home slice (R284). -/
def embHome (p : Nat) (r : Rng) (off : Nat) (n : Nat := 1) : Eng Unit := do
  let ps ← embAt p (engPieces r off n)
  if ← engAsk (fun e => ps.all (fun q => (sgaHere e.s q.2.1).isSome)) then pure () else embFail 5 stSTALEMAP 2 p

/-- The elements of a stored row. -/
def embVals (fmt dim : Nat) (b : List Byte) : Eng (List EV) :=
  if isSint fmt then engVals fmt dim (b.drop 8) (slice b 0 8) else engVals fmt dim b []

/-- The elements that a row holds. -/
def embRead (t : EmbTable) (r : EmbRow) : Eng (List EV) := do
  embVals r.tier.fmt t.dim (← engRead r.rng 0 (embRowLen r.tier.fmt t.dim))

/-! ### Control word and operands (R274, R275) -/

/-- Word 0 of the block. -/
structure EmbCtl where
  rnd : Nat
  ofmt : Nat
  pool : Nat
  skipOob : Bool
  self_ : Bool
  hist : Bool
  hshift : Nat

/-- Checks the control word and that the block ends at `n` words. -/
def embCtl (x : Ctx) (n : Nat) : Eng EmbCtl := do
  let w := x.op 0
  let k : EmbCtl := { rnd := bits w 35 34, ofmt := bits w 33 30, pool := bits w 29 27, skipOob := bitAt w 26, self_ := bitAt w 25,
                      hist := bitAt w 24, hshift := bits w 23 19 }
  engNeed (x.opform == 1 && decide (8 * n ≤ x.ops.length) && opsZero x n && bits w 63 36 == 0 && bits w 18 0 == 0 &&
    k.pool ≤ 4 && (x.opcode == 1 || (k.ofmt == 0 && k.pool == 0)))
  return k

/-- COUNT of word 3, its other bits zero. -/
def embCount (x : Ctx) (hi mx : Nat) : Eng Nat := do
  let n := bits (x.op 3) hi 0
  engNeed (decide (1 ≤ n) && decide (n ≤ mx))
  return n

/-- An array of `n` items of `sz` bytes at word `i`. -/
def embArr (x : Ctx) (i sz n : Nat) (writes : Bool) : Eng Rng := do
  let r ← engRng (x.op i) (sz * n) writes i
  engNeed (r.addr % sz == 0)
  let _ ← engSga r 0
  return r

/-- An optional array: there exactly where `want`. -/
def embOpt (x : Ctx) (i sz n : Nat) (want writes : Bool) : Eng (Option Rng) := do
  if want then
    engNeed (x.op i != 0)
    return some (← embArr x i sz n writes)
  else
    engNeed (x.op i == 0)
    return none

/-- The formats of G, S and Y. -/
def embDense : List Nat := [0, 1, 2, 3, 4, 0xE]

/-- The tensor at words 4 to 7, of `rows` rows and the table's DIM columns. -/
def embDenseAt (x : Ctx) (t : EmbTable) (rows : Nat) (writes : Bool) : Eng Tensor := do
  let y ← engTensor x 4 embDense writes false false
  engNeed (y.rows == rows && y.cols == t.dim)
  y.probe
  return y

/-- A span of addresses: space, first address, length. -/
abbrev Span := Bool × Nat × Nat

def spanOf (r : Rng) (n : Nat) : Eng Span := do
  let (sp, a) ← engAddr r
  return (sp, a, n)

/-- The spans of arrays that may be absent. -/
def spansOf (l : List (Option Rng × Nat)) : Eng (List Span) :=
  (l.filterMap (fun p => p.1.map (fun r => (r, p.2)))).mapM (fun p => spanOf p.1 p.2)

/-- Two spans share an address. -/
def Span.meets (a b : Span) : Bool := a.1 == b.1 && decide (a.2.1 < b.2.1 + b.2.2) && decide (b.2.1 < a.2.1 + a.2.2)

/-- No output overlaps an input or another output (R275). -/
def embApart (outs ins : List Span) : Eng Unit :=
  engNeed ((List.range outs.length).all (fun i =>
    let o := outs.getD i (false, 0, 0)
    ins.all (fun a => !o.meets a) && (outs.drop (i + 1)).all (fun a => !o.meets a)))

/-- The rows of a table without a tier map. Where the rows of another lie, only its map says. -/
def embRowSpans (t : EmbTable) : Eng (List Span) :=
  if t.map = 0 then t.tiers.mapM (fun k => do spanOf (← engRng k.base 1 false 1) (4096 * ceilDiv t.rows (4096 / k.stride)))
  else return []

/-- The tier map of a table. -/
def embMapSpan (t : EmbTable) : Eng (List Span) := do
  if t.map = 0 then return [] else return [← spanOf (← engRng t.map 4 false 1) (4 * t.rows)]

/-- The longest row of a table. -/
def embMaxRow (t : EmbTable) : Nat := (t.tiers.map (fun k => embRowLen k.fmt t.dim)).foldl max 0

/-! ### Steps (R273, R278) -/

/-- Sums that a step combines into a row's image in the scratch area (R280): `fresh` where the image is written afresh. -/
structure EmbImg where
  rng : Rng
  off : Nat
  fresh : Bool
  pos : Nat
  acc : List LAcc

/-- What the current step has drawn and touched. -/
structure EmbStep where
  positions : Nat := 0
  terms : Nat := 0
  near : Nat := 0
  far : Nat := 0
  buffer : Nat := 0
  /-- store bytes by tier -/
  nearBytes : Nat := 0
  farBytes : Nat := 0
  /-- SGA lines fetched, rows touched, and histogram entries counted in the step -/
  lines : List Nat := []
  rows : List Nat := []
  /-- with the first position that counts in the entry -/
  hist : AMap (Nat × Nat) := []
  /-- rows to be written at the step's commit, by address, latest last: with the position that supplies the row -/
  writes : List (Rng × Nat × List Byte) := []
  /-- images to be combined at the step's end -/
  imgs : List EmbImg := []

/-- Capacity of a step: positions, terms, near and far lines, step buffer, store bytes by tier (R273). -/
def embCaps (s : Body) (core pid : Nat) (cls : Bool) : List Nat :=
  let l := engUnits s 3 core
  let cp := engCp s
  [4 * l * cp, 128 * l * cp, l * cp, l * (cp / 10), engSram s 3 core] ++ tierCaps s pid cls

def EmbStep.draw (a : EmbStep) : List Nat := [a.positions, a.terms, a.near, a.far, a.buffer, a.nearBytes, a.farBytes]

/-- A step's sums are combined into a row's image in the scratch area (R209, R280). -/
def embImage (i : EmbImg) : Eng Unit := embAt i.pos (do
  let n := 64 * i.acc.length
  embHome i.pos i.rng i.off n
  let old ← if i.fresh then pure [] else engVals 0xE i.acc.length (← engRead i.rng i.off n) []
  let acc := if i.fresh then i.acc else (old.zip i.acc).map (fun p => p.1.into p.2)
  engWrite i.rng i.off (acc.flatMap (fun q => slice q.image 0 64))
  engMod (fun s => s.count R.EMB_SCRATCH_BYTES.COUNT (if i.fresh then n else 2 * n)))

/-- Ends the step: its histogram adds, images and row writes are made, and what it drew is noted. `carry` bytes of open
accumulators stay in the buffer. -/
def embEnd (x : Ctx) (hist : Option Rng) (carry : Nat) (a : EmbStep) : Eng EmbStep := do
  if a.draw.all (· == 0) then return a
  a.imgs.forM embImage
  a.writes.forM (fun w => embAt w.2.1 (engWrite w.1 0 w.2.2))
  engMod (fun s => s.count R.EMB_ROWS_WRITTEN.COUNT a.writes.length)
  match hist with
  | some h => a.hist.forM (fun e => embAt e.2.2 (engAdd h (4 * e.1) 2 0 [e.2.1] []))
  | none => pure ()
  let e ← get
  engStep (drawCost a.draw (embCaps e.s e.core e.pid x.cls))
  return { buffer := carry }

/-- Lines of the own home (near 0 or far 1) or of another home (2), by SGA line, as the step sees them. -/
def embLines (sga n : Nat) : Eng (List (Nat × Nat)) := do
  match ← engTape (do
    let s ← engS
    return .pieces ((linesOf sga n).map (fun l => (l, (match sgaHere s (l * 128) with
      | some loc => if isResident s loc then 0 else 1
      | none => 2), 0)))) with
  | .pieces ps => return ps.map (fun p => (p.1, p.2.1))
  | _ => return []

/-- What a position costs (R278): index positions, terms, shares of streams, buffer space opened, and the row that it touches: a key,
an SGA and a length. The lines of a row that is `fetched` count, and are fetched once in a step. -/
structure EmbCost where
  pos : Nat := 1
  terms : Nat := 0
  streams : List (Rng × Nat × Nat) := []
  open_ : Nat := 0
  row : Option (Nat × Nat × Nat) := none
  fetched : Bool := true

/-- The step with one more position, whose row has the lines `ls` and whose streams draw `st`. With it, the lines fetched for it,
and whether the row was there already (R278). -/
def embAdd (c : EmbCost) (ls : List (Nat × Nat)) (st : List Nat) (a : EmbStep) : EmbStep × List (Nat × Nat) × Bool :=
  let new := if c.fetched then ls.filter (fun l => !a.lines.contains l.1) else []
  let seen := match c.row with | none => true | some r => a.rows.contains r.1
  let len := match c.row with | none => 0 | some r => if seen then 0 else r.2.2
  let far := ls.any (fun l => l.2 == 1)
  let peer := ls.any (fun l => l.2 == 2)
  ({ a with
      positions := a.positions + c.pos, terms := a.terms + c.terms,
      near := a.near + (new.filter (fun l => l.2 == 0)).length, far := a.far + (new.filter (fun l => l.2 == 1)).length,
      buffer := a.buffer + len + c.open_,
      nearBytes := a.nearBytes + st.headD 0 + (if far || peer then 0 else len),
      farBytes := a.farBytes + st.getLastD 0 + (if far then len else 0),
      lines := new.map (·.1) ++ a.lines,
      rows := match c.row with | some r => if seen then a.rows else r.1 :: a.rows | none => a.rows }, new, seen)

/-- The step with one more position, with the lines and streams as they lie now; and whether that is more than a step holds. -/
def embSum (x : Ctx) (c : EmbCost) (a : EmbStep) : Eng ((EmbStep × List (Nat × Nat) × Bool) × Bool) := do
  let ls ← match c.row with | some r => embLines r.2.1 r.2.2 | none => pure []
  let st ← engTier c.streams
  let one := embAdd c ls st a
  let full ← engAsk (fun e => !a.draw.all (· == 0) && overFull one.1.draw (embCaps e.s e.core e.pid x.cls))
  return (one, full)

/-- A position's lines are counted as it is taken into the step. -/
def embTaken (c : EmbCost) (one : EmbStep × List (Nat × Nat) × Bool) : Eng EmbStep := do
  engMod (fun s =>
    let s := s.count R.EMB_LINES_NEAR.COUNT (one.2.1.filter (fun l => l.2 == 0)).length
    let s := s.count R.EMB_LINES_FAR.COUNT (one.2.1.filter (fun l => l.2 == 1)).length
    let s := s.count R.EMB_LINES_PEER.COUNT (one.2.1.filter (fun l => l.2 == 2)).length
    if c.row.isSome ∧ c.fetched ∧ one.2.2 then s.count R.EMB_DUP.COUNT else s)
  return one.1

/-- Takes what `c` costs into the current step, or into a new one where the step is full. -/
def embTake (x : Ctx) (hist : Option Rng) (carry : Nat) (c : EmbCost) (a : EmbStep) : Eng EmbStep := do
  match ← embSum x c a with
  | (one, false) => embTaken c one
  | (_, true) => embTaken c (← embSum x c (← embEnd x hist carry a)).1

/-- Takes a position into the current step, or into a new one where the step is full: `f` finds what it costs, from what the step
sees (R271, R279). A position that ends the command does so in the step that examines it; `least` is what it costs at least. -/
def embPos {α : Type} (x : Ctx) (hist : Option Rng) (carry : Nat) (least : EmbCost) (a : EmbStep) (f : EmbStep → Eng (EmbCost × α)) :
    Eng (EmbStep × α) := do
  match ← engTry (f a) with
  | some (c, v) =>
    match ← embSum x c a with
    | (one, false) => return (← embTaken c one, v)
    | (_, true) =>
      let a ← embEnd x hist carry a
      let (c, v) ← f a
      return (← embTaken c (← embSum x c a).1, v)
  | none =>
    let a ← match ← embSum x least a with
      | (_, false) => pure a
      | (_, true) => embEnd x hist carry a
    let (c, v) ← f a
    return (← embTaken c (← embSum x c a).1, v)

/-- Counts a position into the histogram of its step (R287). -/
def embHist (k : EmbCtl) (p idx : Nat) (a : EmbStep) : EmbStep :=
  if k.hist then
    { a with hist := AMap.upd (0, 0) a.hist (idx / 2 ^ k.hshift) (fun c => (c.1 + 1, if c.1 = 0 then p else c.2)) }
  else a

/-- The index of position `p`: none where it is skipped (R277). -/
def embIndex (k : EmbCtl) (t : EmbTable) (list : Rng) (p : Nat) : Eng (Option Nat) := do
  let i := leNat (← embAt p (engRead list (4 * p) 4))
  if i < t.rows then return some i
  else if i = 0xFFFFFFFF ∨ k.skipOob then return none
  else embFail 2 stBADOPCODE 3 p

/-- A skipped position is counted. -/
def embSkipped : Eng Unit := engMod (fun s => s.count R.EMB_SKIPPED.COUNT)

/-- A position that counts is in its step. -/
def embCounted : Eng Unit := engMod (fun s => s.count R.EMB_POSITIONS.COUNT)

/-- The histogram operand at word `i` (R275, R287). -/
def embHistArr (x : Ctx) (k : EmbCtl) (t : EmbTable) (i : Nat) : Eng (Option Rng) :=
  embOpt x i 4 (ceilDiv t.rows (2 ^ k.hshift)) k.hist true

/-- Every entry of the histogram that a position counts in lies in the own home slice (R284). -/
def embHistHome (k : EmbCtl) (hist : Option Rng) (p idx : Nat) : Eng Unit :=
  match hist with
  | some h => embHome p h (4 * (idx / 2 ^ k.hshift))
  | none => pure ()

/-! ### GATHER (R276 to R279) -/

/-- A bag: its accumulators, its maxima, and the positions counted. -/
structure EmbBag where
  acc : List LAcc
  top : List (Option Num)
  n : Nat := 0
  /-- the row itself, of a command that does not pool -/
  one : List EV := []

def embBag (dim : Nat) : EmbBag := { acc := List.replicate dim {}, top := List.replicate dim none }

/-- Enters a row's elements into a bag under POOL, with the weight of WSUM (R276). -/
def EmbBag.enter (pool : Nat) (w : Num) (b : EmbBag) (vs : List EV) : EmbBag :=
  if pool = 0 then { b with n := b.n + 1, one := vs }
  else if pool = 3 then
    { b with n := b.n + 1, top := (b.top.zip vs).map (fun p => some (match p.1 with | none => p.2.num | some m => numMaxV m p.2.num)) }
  else if pool = 4 then
    { b with n := b.n + 1, acc := (b.acc.zip vs).map (fun p => (mulTerms (.terms [w]) p.2).foldl (fun (a : LAcc) t => a.term t) p.1) }
  else { b with n := b.n + 1, acc := (b.acc.zip vs).map (fun p => p.2.into p.1) }

/-- An exact quotient by n, written in a format with one rounding. -/
def encDiv (f : FFmt) (rnd : Nat) (x : Num) (n : Nat) : Nat :=
  match x with
  | .fin neg m e => if m = 0 then f.enc rnd (.fin neg 0 0) else let (p, q) := dyQ m e; f.encQ rnd neg p (q * n)
  | y => f.enc rnd y

/-- The row of Y that a bag gives, as bytes (R276). -/
def EmbBag.bytes (k : EmbCtl) (b : EmbBag) : List Byte :=
  if k.pool = 2 then
    match fmtOfCode k.ofmt with
    | some f => b.acc.flatMap (fun a => leBytes (f.w / 8) (if b.n = 0 then 0 else encDiv f k.rnd a.num b.n))
    | none => []
  else if k.pool = 3 then (rowEnc k.ofmt k.rnd (b.top.map (fun m => EV.terms [m.getD Num.zero]))).1
  else if b.n = 0 then List.replicate (rowBytes k.ofmt b.acc.length) 0
  else if k.pool = 0 then (rowEnc k.ofmt k.rnd b.one).1
  else (rowEnc k.ofmt k.rnd (b.acc.map EV.img)).1

/-- One maximum row and one bag's accumulators fit in half of the SRAM share (R278). -/
def embFits (t : EmbTable) : Eng Unit := do
  engNeed (← engAsk (fun e => decide (2 * (embMaxRow t + 40 * t.dim) ≤ engSram e.s 3 e.core)))

/-- The checked operands of GATHER. -/
structure EmbGather where
  k : EmbCtl
  t : EmbTable
  list : Rng
  count : Nat
  nb : Nat
  y : Tensor
  off : Option Rng
  wts : Option Rng
  hist : Option Rng

def gatherCheck (x : Ctx) : Eng EmbGather := embAt 0 (do
  let k ← embCtl x 11
  let count ← embCount x 20 (2 ^ 20)
  let nb := bits (x.op 3) 52 32
  engNeed (bits (x.op 3) 31 21 == 0 && bits (x.op 3) 63 53 == 0 &&
    (if k.pool = 0 then nb == 0 else decide (1 ≤ nb) && decide (nb ≤ 2 ^ 20)) && !((k.pool == 2 || k.pool == 3) && k.ofmt == 0xE))
  let t ← embTable x false
  let list ← embArr x 2 4 count false
  let rows := if k.pool = 0 then count else nb
  let y ← embDenseAt x t rows true
  engNeed (y.fmt == k.ofmt)
  let off ← embOpt x 8 4 (nb + 1) (k.pool != 0) false
  let wts ← embOpt x 9 4 count (k.pool == 4) false
  let hist ← embHistArr x k t 10
  embApart (← spansOf [(some y.elem, y.span), (hist, 4 * ceilDiv t.rows (2 ^ k.hshift))])
    ((← spansOf [(some list, 4 * count), (off, 4 * nb + 4), (wts, 4 * count)]) ++ (← embRowSpans t) ++ (← embMapSpan t))
  embFits t
  return { k := k, t := t, list := list, count := count, nb := nb, y := y, off := off, wts := wts, hist := hist })

/-- The positions of bag `b`: first and end (R276); offsets that break R288 end the command. -/
def gatherBounds (g : EmbGather) (b : Nat) : Eng (Nat × Nat) :=
  match g.off with
  | none => return (b, b + 1)
  | some r => do
    let v ← embAt b (engRead r (4 * b) 8)
    let lo := le v 0 4
    let hi := le v 4 4
    if (b = 0 ∧ lo ≠ 0) ∨ hi < lo ∨ g.count < hi ∨ (b + 1 = g.nb ∧ hi ≠ g.count) then embFail 1 stBADOPCODE 3 b
    else return (lo, hi)

/-- One position of a bag; `first` and `last` where it opens the bag and where it completes it. -/
def gatherPos (x : Ctx) (g : EmbGather) (b : Nat) (first last : Bool) (st : EmbStep × EmbBag × Nat) (p : Nat) :
    Eng (EmbStep × EmbBag × Nat) := do
  let (a, bag, skipped) := st
  -- a bag's accumulators (R278); NONE needs none
  let size := if g.k.pool = 0 then 0 else 40 * g.t.dim
  let own := (g.list, 4 * p, 4) :: ((if first then (g.off.map (fun r => (r, 4 * b, 4))).toList else []) ++
    (if last then [g.y.rowAt b] else []))
  let open_ := if first then size else 0
  let (a, o) ← embPos x g.hist (if first then 0 else size) { streams := own, open_ := open_ } a (fun _ => do
    match ← embIndex g.k g.t g.list p with
    | none => return ({ streams := own, open_ := open_ }, none)
    | some i =>
      let r ← embRow g.t p i false
      let sga ← embAt p (engSga r.rng 0)
      return ({
        terms := g.t.dim * (if isSint r.tier.fmt then 2 else 1), row := some (i, sga, embRowLen r.tier.fmt g.t.dim), open_ := open_,
        streams := own ++ (g.wts.map (fun w => (w, 4 * p, 4))).toList }, some (i, r)))
  match o with
  | none => do
    embSkipped
    return (a, bag, skipped + 1)
  | some (i, r) =>
    embCounted
    embHistHome g.k g.hist p i
    let vs ← embAt p (embRead g.t r)
    let w ← embAt p (match g.wts with
      | some ws => do return f32 (leNat (← engRead ws (4 * p) 4))
      | none => return Num.zero)
    return (embHist g.k p i a, bag.enter g.k.pool w vs, skipped)

/-- A bag: its positions, and its row of Y with the step that completes it (R276, R278). -/
def gatherBag (x : Ctx) (g : EmbGather) (st : EmbStep × Nat) (b : Nat) : Eng (EmbStep × Nat) := do
  let (lo, hi) ← gatherBounds g b
  let a ← if lo < hi then pure st.1 else
    embTake x g.hist 0 { pos := 0, streams := g.y.rowAt b :: (g.off.map (fun r => (r, 4 * b, 4))).toList } st.1
  let (a, bag, skipped) ← (List.range (hi - lo)).foldlM
    (fun st i => gatherPos x g b (i == 0) (lo + i + 1 == hi) st (lo + i)) (a, embBag g.t.dim, st.2)
  embAt b (engWrite g.y.elem (b * g.y.stride) (bag.bytes g.k))
  return (a, skipped)

def gatherRun (x : Ctx) : Eng (Nat × Nat × Nat) := do
  let g ← gatherCheck x
  let (a, skipped) ← (List.range (if g.k.pool = 0 then g.count else g.nb)).foldlM (gatherBag x g) ({}, 0)
  let _ ← embEnd x g.hist 0 { a with positions := max 1 a.positions }
  return (stOK, 0, skipped)

/-! ### SCATTER_ADD (R280, R281) -/

/-- The checked operands of SCATTER_ADD. -/
structure EmbScatter where
  k : EmbCtl
  t : EmbTable
  list : Rng
  count : Nat
  src : Option Tensor
  scratch : Option Rng := none
  hist : Option Rng := none
  pairs : Option Rng := none

def scatterAddCheck (x : Ctx) : Eng EmbScatter := embAt 0 (do
  let k ← embCtl x 12
  let count ← embCount x 20 (2 ^ 20)
  engNeed (bits (x.op 3) 63 21 == 0 && bits (x.op 8) 63 32 == 0 && bits (x.op 10) 63 48 == 0)
  let t ← embTable x true
  let list ← embArr x 2 4 count false
  let g ← embDenseAt x t count false
  let sram ← engNum (fun e => engSram e.s 3 e.core)
  let n := min count t.rows
  -- where the accumulators are held (R280)
  let inside := decide (2 * (n * (40 * t.dim + 8)) ≤ sram)
  let scratch ← embOpt x 9 64 (n * t.dim) (!inside) true
  engNeed (inside || (decide (n * 64 * t.dim ≤ bits (x.op 10) 47 0) && decide (2 * (8 * n) ≤ sram)))
  let hist ← embHistArr x k t 11
  embApart ((← spansOf [(scratch, n * 64 * t.dim), (hist, 4 * ceilDiv t.rows (2 ^ k.hshift))]) ++ (← embRowSpans t))
    ((← spansOf [(some list, 4 * count), (some g.elem, g.span)]) ++ (← embMapSpan t))
  embFits t
  return { k := k, t := t, list := list, count := count, src := some g, scratch := scratch, hist := hist })

/-- A distinct row of a SCATTER_ADD: its logical row, its first position, and the exact sums that are held in SRAM. -/
structure EmbSum where
  row : Nat
  first : Nat
  acc : List LAcc

/-- Terms enter accumulators, element by element. -/
def accTerms (acc : List LAcc) (ts : List (List Num)) : List LAcc :=
  (acc.zip ts).map (fun q => q.2.foldl (fun (a : LAcc) t => a.term t) q.1)

/-- Adds a position's products to its row's sums; a new row takes the next ordinal. -/
def sumInto (row p dim : Nat) (ts : List (List Num)) : List EmbSum → List EmbSum
  | [] => [{ row := row, first := p, acc := accTerms (List.replicate dim {}) ts }]
  | u :: us => if u.row = row then { u with acc := accTerms u.acc ts } :: us else u :: sumInto row p dim ts us

/-- Where the sums are held in the scratch area, the step's part of row `k`'s sum is combined into its image at the step's end
(R280). -/
def scatterImage (g : EmbScatter) (k p : Nat) (isNew : Bool) (ts : List (List Num)) (a : EmbStep) : EmbStep :=
  match g.scratch with
  | none => a
  | some r =>
    let off := 64 * g.t.dim * k
    if a.imgs.any (fun i => i.off == off) then
      { a with imgs := a.imgs.map (fun i => if i.off = off then { i with pos := p, acc := accTerms i.acc ts } else i) }
    else
      let i : EmbImg := { rng := r, off := off, fresh := isNew, pos := p, acc := accTerms (List.replicate g.t.dim {}) ts }
      { a with imgs := a.imgs ++ [i] }

/-- The exact sums of row `k`, from where they are held. -/
def scatterSums (g : EmbScatter) (k : Nat) (u : EmbSum) : Eng (List LAcc) :=
  match g.scratch with
  | none => return u.acc
  | some r => do
    let n := 64 * g.t.dim
    engMod (fun s => s.count R.EMB_SCRATCH_BYTES.COUNT n)
    return (← engVals 0xE g.t.dim (← engRead r (n * k) n) []).map EV.acc

/-- Applies one distinct row (R281). -/
def scatterApply (g : EmbScatter) (r : EmbRow) (sums : List LAcc) : Eng Unit := do
  let imgs := sums.map (·.image)
  let fmt := r.tier.fmt
  if isSint fmt then
    engAddWith r.rng 0 (embRowLen fmt g.t.dim) 1 (fun _ _ => .sint fmt g.k.rnd imgs) (fun old _ _ => sintAdd fmt g.k.rnd old imgs)
  else do
    if fmt = 0xE then
      let _ ← embRead g.t r
    engAdd r.rng 0 (addTy fmt) g.k.rnd [] imgs

/-- What a step keeps of the accumulate phase after `n` rows (R273, R280): the sums that are held in SRAM, and the ordinals. -/
def scatterKeep (g : EmbScatter) (n : Nat) : Nat := n * (8 + if g.scratch.isNone then 40 * g.t.dim else 0)

/-- What a position of the accumulate phase costs: its index, its gradient row, its row's sums and ordinal, and the image where
one is held in the scratch area. -/
def scatterCost (g : EmbScatter) (src : Tensor) (p sga k : Nat) (isNew : Bool) (a : EmbStep) : EmbCost :=
  let n := 64 * g.t.dim
  let held := a.imgs.any (fun i => i.off == n * k)
  let sums := match g.scratch with | none => isNew | some _ => !held
  { terms := g.t.dim,
    streams := (g.list, 4 * p, 4) :: (match g.scratch with
      | some q => if held then [] else (q, n * k, n) :: (if isNew then [] else [(q, n * k, n)])
      | none => []),
    open_ := 8 * b2n isNew + 40 * g.t.dim * b2n sums, row := some (p, sga, rowBytes src.fmt src.cols) }

/-- One position of the accumulate phase (R280). -/
def scatterPos (x : Ctx) (g : EmbScatter) (src : Tensor) (c : Num) (st : EmbStep × List EmbSum) (p : Nat) :
    Eng (EmbStep × List EmbSum) := do
  let (a, us) := st
  let least : EmbCost := { streams := [(g.list, 4 * p, 4)] }
  let (a, o) ← embPos x g.hist (scatterKeep g us.length) least a (fun a => do
    match ← embIndex g.k g.t g.list p with
    | none => return (least, none)
    | some i =>
      let r ← embRow g.t p i true
      embHome p r.rng 0
      let sga ← embAt p (engSga src.elem (p * src.stride))
      let k := us.findIdx (fun u => u.row == i)
      return (scatterCost g src p sga k (decide (us.length ≤ k)) a, some i))
  match o with
  | none => do
    embSkipped
    return (a, us)
  | some i =>
    embCounted
    embHistHome g.k g.hist p i
    let k := us.findIdx (fun u => u.row == i)
    let ts := (← embAt p (src.row p)).map (fun v => mulTerms (.terms [c]) v)
    return (scatterImage g k p (decide (us.length ≤ k)) ts (embHist g.k p i a), sumInto i p g.t.dim ts us)

/-- One distinct row of the apply phase (R280, R281), with its ordinal. -/
def scatterRow (x : Ctx) (g : EmbScatter) (keep : Nat) (st : EmbStep × Nat) (u : EmbSum) : Eng (EmbStep × Nat) := do
  let n := 64 * g.t.dim
  let least : EmbCost := { pos := 0, streams := (g.scratch.map (fun q => (q, n * st.2, n))).toList }
  let (a, r) ← embPos x none keep least st.1 (fun _ => do
    let r ← embRow g.t u.first u.row true
    let sga ← embAt u.first (engSga r.rng 0)
    return ({ least with row := some (u.row, sga, embRowLen r.tier.fmt g.t.dim) }, r))
  embHome u.first r.rng 0
  embAt u.first (do scatterApply g r (← scatterSums g st.2 u))
  engMod (fun s => s.count R.EMB_ROWS_APPLIED.COUNT)
  modify (fun e => { e with prog := st.2 + 1 })
  return (a, st.2 + 1)

def scatterAddRun (x : Ctx) : Eng (Nat × Nat × Nat) := do
  let g ← scatterAddCheck x
  let c := f32 (bits (x.op 8) 31 0)
  match g.src with
  | none => engBad
  | some src =>
    let (a, us) ← (List.range g.count).foldlM (scatterPos x g src c) ({}, [])
    let keep := scatterKeep g us.length
    let a ← embEnd x g.hist keep a
    -- apply, in ordinal order
    let (a, n) ← us.foldlM (scatterRow x g keep) (a, 0)
    let _ ← embEnd x none 0 a
    return (stOK, 0, n)

/-! ### SCATTER_WRITE (R282 to R284) -/

/-- The row's bytes in a tier's format, from elements; a SINT row takes the pair. -/
def embEnc (fmt rnd : Nat) (pair : List Byte) (vs : List EV) : List Byte :=
  if isSint fmt then sintRow fmt rnd pair vs else (rowEnc fmt rnd vs).1

def scatterWriteCheck (x : Ctx) (hi mx : Nat) : Eng EmbScatter := embAt 0 (do
  let k ← embCtl x 9
  let count ← embCount x hi mx
  engNeed (x.op 3 >>> (hi + 1) == 0)
  let t ← embTable x true
  let list ← embArr x 2 (if x.opcode = 4 then 8 else 4) count false
  let self_ := x.opcode == 4 && k.self_
  let src ← if self_ then do
      engNeed (allZero (slice x.ops 32 32))
      pure none
    else some <$> embDenseAt x t count false
  let sint := t.tiers.any (fun q => isSint q.fmt)
  engNeed (sint || x.op 8 == 0)
  let pairs ← if x.op 8 = 0 then pure none else some <$> embArr x 8 8 count false
  let map ← embMapSpan t
  embApart ((← embRowSpans t) ++ (if x.opcode = 4 then map else []))
    ((← spansOf ([(some list, (if x.opcode = 4 then 8 else 4) * count), (pairs, 8 * count)] ++
      (src.map (fun s => (some s.elem, s.span))).toList)) ++ (if x.opcode = 4 then [] else map))
  embFits t
  return { k := k, t := t, list := list, count := count, src := src, pairs := pairs })

/-- The streams of one position of an overwrite: its entry of the list, its source row and its pair. -/
def overStreams (g : EmbScatter) (p sz : Nat) : List (Rng × Nat × Nat) :=
  (g.list, sz * p, sz) :: (g.src.map (·.rowAt p)).toList ++ (g.pairs.map (fun q => (q, 8 * p, 8))).toList

/-- One position of SCATTER_WRITE; the rows written so far (R282). -/
def overwritePos (x : Ctx) (g : EmbScatter) (st : EmbStep × List Nat) (p : Nat) : Eng (EmbStep × List Nat) := do
  let (a, o) ← embPos x none 0 { streams := [(g.list, 4 * p, 4)] } st.1 (fun _ => do
    match ← embIndex g.k g.t g.list p with
    | none => return ({ streams := [(g.list, 4 * p, 4)] }, none)
    | some i =>
      let r ← embRow g.t p i true
      embHome p r.rng 0
      let sga ← embAt p (engSga r.rng 0)
      return ({
        terms := g.t.dim, streams := overStreams g p 4, row := some (i, sga, embRowLen r.tier.fmt g.t.dim), fetched := false },
        some (i, r)))
  match o with
  | none => do
    embSkipped
    return (a, st.2)
  | some (i, r) =>
    embCounted
    let vs ← embAt p (match g.src with | some t => t.row p | none => pure [])
    let pair ← embAt p (if isSint r.tier.fmt then (match g.pairs with
      | some q => engRead q (8 * p) 8
      | none => engRead r.rng 0 8) else pure [])
    let d := embEnc r.tier.fmt g.k.rnd pair vs
    -- the last position of a row in the step supplies the row
    let ws := a.writes.filter (fun w => w.1 != r.rng)
    return ({ a with writes := ws ++ [(r.rng, p, d)] }, if st.2.contains i then st.2 else i :: st.2)

def scatterWriteRun (x : Ctx) : Eng (Nat × Nat × Nat) := do
  let g ← scatterWriteCheck x 20 (2 ^ 20)
  let (a, rows) ← (List.range g.count).foldlM (overwritePos x g) ({}, [])
  let _ ← embEnd x none 0 a
  return (stOK, 0, rows.length)

/-! ### ROW_REPLACE (R285, R286) -/

/-- What ROW_REPLACE carries from entry to entry: its step, the rows and slots named, and the entries applied. -/
structure EmbSwap where
  a : EmbStep := {}
  rows : List Nat := []
  slots : List (Nat × Nat) := []
  n : Nat := 0

/-- An entry of ROW_REPLACE that changes something: the row in its new slot, its map entry, and where its value comes from under
SELF. -/
structure EmbMove where
  row : Nat
  slot : Nat
  tier : Nat
  dst : EmbRow
  entry : Rng
  now : Option EmbRow

/-- Finds what entry `p` does and costs (R285): its row and slot, and the move, none for an entry that changes nothing. -/
def replaceFind (g : EmbScatter) (st : EmbSwap) (p : Nat) : Eng (EmbCost × Nat × Nat × Nat × Option EmbMove) := do
  let ent := leNat (← embAt p (engRead g.list (8 * p) 8))
  let i := bits ent 31 0
  let slot := bits ent 61 32
  let k := bits ent 63 62
  if g.t.rows ≤ i then embFail 2 stBADOPCODE 3 p
  else if st.rows.contains i ∨ st.slots.contains (k, slot) then embFail 6 stBADOPCODE 3 p
  else match g.t.tiers[k]? with
    | none => embFail 3 stBADOPCODE 3 p
    | some tier =>
      if (← embAt p (embEntryHome g.t i)) = (k, slot) then return ({ streams := [(g.list, 8 * p, 8)] }, i, k, slot, none)
      else
        let r ← embAt p (embSlot g.t tier slot true)
        let m ← embAt p (engRng (g.t.map + 4 * i) 4 true 1)
        embHome p r 0
        embHome p m 0
        let now ← match g.src with
          | some _ => pure none
          | none => do
            let c ← embRow g.t p i false true
            embHome p c.rng 0
            pure (some c)
        let from_ := now.getD { tier := tier, rng := r, row := i }
        let sga ← embAt p (engSga from_.rng 0)
        return ({
          terms := g.t.dim, streams := overStreams g p 8 ++ (if now.isSome then [(r, 0, embRowLen tier.fmt g.t.dim)] else []),
          row := some (i, sga, embRowLen from_.tier.fmt g.t.dim), fetched := now.isSome }, i, k, slot,
          some { row := i, slot := slot, tier := k, dst := { tier := tier, rng := r, row := i }, entry := m, now := now })

/-- One entry of ROW_REPLACE. -/
def replaceEntry (x : Ctx) (g : EmbScatter) (st : EmbSwap) (p : Nat) : Eng EmbSwap := do
  let (a, i, k, slot, o) ← embPos x none 0 { streams := [(g.list, 8 * p, 8)] } st.a (fun _ => replaceFind g st p)
  let next := { a := a, rows := i :: st.rows, slots := (k, slot) :: st.slots, n := st.n + 1 : EmbSwap }
  match o with
  | none => return next
  | some v =>
    let vs ← embAt p (match g.src, v.now with
      | some t, _ => t.row p
      | none, some c => embRead g.t c
      | none, none => pure [])
    let fmt := v.dst.tier.fmt
    let pair ← if isSint fmt then (match g.pairs with
      | some q => embAt p (engRead q (8 * p) 8)
      | none => embFail 1 stBADOPCODE 3 p) else pure []
    embAt p (do
      engWrite v.dst.rng 0 (embEnc fmt g.k.rnd pair vs)
      engWrite v.entry 0 (leBytes 4 (v.tier * 2 ^ 30 + v.slot))
      engNote v.entry 0 (← engSga v.entry 0) 0 (.expect []))
    engMod (fun s => s.count R.EMB_ROWS_REPLACED.COUNT)
    return next

def rowReplaceRun (x : Ctx) : Eng (Nat × Nat × Nat) := do
  let g ← scatterWriteCheck x 16 (2 ^ 16)
  embAt 0 (engNeed (g.t.map != 0))
  let t ← (List.range g.count).foldlM (replaceEntry x g) {}
  let _ ← embEnd x none 0 t.a
  return (stOK, 0, t.n)

/-! ### The rows of the table -/

/-- The operand check of an embedding command (R190 check 6). -/
def embCheck (x : Ctx) : Eng Unit := do
  if x.opcode = 1 then let _ ← gatherCheck x
  else if x.opcode = 2 then let _ ← scatterAddCheck x
  else if x.opcode = 3 then let _ ← scatterWriteCheck x 20 (2 ^ 20)
  else
    let g ← scatterWriteCheck x 16 (2 ^ 16)
    embAt 0 (engNeed (g.t.map != 0))

/-- What an embedding command computes. -/
def embRun (x : Ctx) : Eng (Nat × Nat × Nat) :=
  if x.opcode = 1 then gatherRun x else if x.opcode = 2 then scatterAddRun x
  else if x.opcode = 3 then scatterWriteRun x else rowReplaceRun x

/-- GATHER, SCATTER_ADD, SCATTER_WRITE and ROW_REPLACE. -/
def embedRow (opcode : Nat) (c x : Nat) (s : Body) : Body := engRow 3 opcode embRun c x s

end Sys2Proof.Machine
end

