-- ==== Sys2Proof/Machine/Search.lean ====
section
/-!
DEFINITION. The search engine (R291 to R315): scans, graph traversals, inserts, deletes and merges of an index.
-/

namespace Sys2Proof.Machine

/-! ### Failures (R313) -/

/-- SRH_ERR_LOG. -/
def srhLog (s : Body) (core pid opcode cause st pos : Nat) : Body :=
  let s := s.set R.SRH_ERR_LOG.STATUS st
  let s := s.set R.SRH_ERR_LOG.CAUSE cause
  let s := s.set R.SRH_ERR_LOG.PID pid
  let s := s.set R.SRH_ERR_LOG.CORE core
  let s := s.set R.SRH_ERR_LOG.OPCODE (opcode % 8)
  let s := s.set R.SRH_ERR_LOG.POS pos
  s.set R.SRH_ERR_KNOT.KNOT s.now

def srhErr (cause st pos : Nat) : Eng Unit := do
  let e ← get
  engMod (fun s => srhLog s e.core e.pid (s.ctx e.core e.x).opcode cause st pos)

/-- The cause of a failed part, by its status (R313). -/
def srhCause (st : Nat) : Nat := if st = stSTALEMAP then 5 else if st = stSEIZECONFLICT then 6 else embCause st

/-- A part whose failures name an item or a query. -/
def srhAt {α : Type} (p : Nat) (f : Eng α) : Eng α := engCatch f (fun st _ r => srhErr (srhCause st) st r) (unitRes p)

/-- A failure that the command itself finds. -/
def srhFail {α : Type} (cause st sub p : Nat) : Eng α := do
  srhErr cause st p
  engFail st sub p

/-! ### The index (R292, R293) -/

/-- An index header, as a command's snapshot holds it (R295). -/
structure SrhIdx where
  word : Nat
  codes : Nat
  life : Nat
  segs : Nat
  attrs : Nat
  g0 : Nat
  g1 : Nat
  epoch : Nat
  total : Nat
  main : Nat
  cap : Nat
  entry : Nat
  words : Nat
  degree : Nat
  flags : Nat
  swapKnot : Nat

/-- No item. -/
def noItem : Nat := 0xFFFFFFFF
/-- No delete epoch. -/
def noEpoch : Nat := 0xFFFFFFFFFFFFFFFF

/-- The header's fields, if they keep R292 and R293. -/
def srhParse (word : Nat) (b : List Byte) : Option SrhIdx :=
  let h : SrhIdx := {
    word := word, codes := le b 0 8, life := le b 8 8, segs := le b 16 8, attrs := le b 24 8, g0 := le b 32 8, g1 := le b 40 8,
    epoch := le b 48 8, total := le b 56 4, main := le b 60 4, cap := le b 64 4, entry := le b 68 4, words := le b 72 2,
    degree := le b 74 1, flags := le b 75 1, swapKnot := le b 80 8 }
  let graphs := if h.degree = 0 then h.g0 == 0 && h.g1 == 0 else h.g0 != 0 && h.g1 != 0
  let ok := h.total ≤ h.cap && h.main ≤ h.total && h.cap % 1024 == 0 && h.cap ≤ 0xFFFFFC00 &&
    (h.entry == noItem || decide (h.entry < h.main)) && 1 ≤ h.words && h.words ≤ 64 && h.degree ≤ 64 && h.flags < 4 && graphs &&
    allZero (slice b 88 40)
  if ok then some h else none

/-- The graph buffer in use, and the other one. -/
def SrhIdx.active (h : SrhIdx) : Nat := if bitAt h.flags 0 then h.g1 else h.g0
def SrhIdx.idle (h : SrhIdx) : Nat := if bitAt h.flags 0 then h.g0 else h.g1

/-- Every byte of an index array must lie in the own home slice (R293, R300). -/
def rawHome (r : Rng) (n p : Nat) : Eng Unit := do
  let ps ← rawPieces r 0 n
  let s ← engS
  if ps.all (fun q => (sgaHere s q.2.1).isSome) then return ()
  else srhFail 5 stSTALEMAP 2 p

/-- Bytes of an index array, for item `p`. -/
def srhRead (word off n p : Nat) : Eng (List Byte) := srhAt p (do
  let r : Rng := { word := word + off, idx := 1 }
  match ← engTape (do
    rawHome r n p
    return .bytes (← rawRead r 0 n)) with
  | .bytes b => return b
  | _ => return [])

/-- Writes to an index array. -/
def srhWrite (word off : Nat) (b : List Byte) (p : Nat) : Eng Unit := srhAt p (do
  let r : Rng := { word := word + off, idx := 1, writes := true }
  let _ ← engTape (do
    rawHome r b.length p
    return .num 0)
  engWrite r 0 b)

/-- An address that must translate, in the own home slice (R300). -/
def srhHere (word : Nat) (writes : Bool) : Eng Unit := do
  let _ ← engTape (do
    let sga ← rawSga { word := word, idx := 1, writes := writes } 0
    if (sgaHere (← engS) sga).isNone then srhFail 5 stSTALEMAP 2 0
    return .num 0)

/-- Item `i`'s code, life record, attribute word and list, and segment `j`'s header. -/
def SrhIdx.code (h : SrhIdx) (i : Nat) : Eng Nat := do return leNat (← srhRead h.codes (8 * h.words * i) (8 * h.words) i)
def SrhIdx.lifeOf (h : SrhIdx) (i : Nat) : Eng (List Byte) := srhRead h.life (32 * i) 32 i
def SrhIdx.attr (h : SrhIdx) (i : Nat) : Eng Nat := do return leNat (← srhRead h.attrs (8 * i) 8 i)
def SrhIdx.seg (h : SrhIdx) (j : Nat) : Eng (Nat × Nat) := do
  let b ← srhRead h.segs (16 * j) 16 (1024 * j)
  return (le b 0 8, le b 8 8)

/-- The edges of a list, up to the first unused entry. -/
def SrhIdx.edges (h : SrhIdx) (graph i : Nat) : Eng (List Nat) := do
  let b ← srhRead graph (4 * h.degree * i) (4 * h.degree) i
  return ((List.range h.degree).map (fun k => le b (4 * k) 4)).takeWhile (· != noItem)

/-- Writes item `i`'s list as one engine write. -/
def SrhIdx.putEdges (h : SrhIdx) (graph i : Nat) (es : List Nat) : Eng Unit :=
  srhWrite graph (4 * h.degree * i) ((List.range h.degree).flatMap (fun k => leBytes 4 (es.getD k noItem))) i

/-- The distance of two codes (R291). -/
def hamming (w a b : Nat) : Nat := popcount (a ^^^ b) (64 * w)

/-- Keys (distance, item) in the order of R291. -/
def keyLe (a b : Nat × Nat) : Bool := decide (a.1 < b.1) || (a.1 == b.1 && decide (a.2 ≤ b.2))

/-- Puts a key into a sorted list, keeping the best `n`. -/
def keyIns (n : Nat) (k : Nat × Nat) (l : List (Nat × Nat)) : List (Nat × Nat) :=
  (l.takeWhile (fun x => keyLe x k) ++ k :: l.dropWhile (fun x => keyLe x k)).take n

/-- The item is visible at Q (R296). -/
def visibleAt (q : Nat) (life : List Byte) : Bool := decide (le life 0 8 ≤ q) && decide (q < le life 8 8)

/-- The segment is clear for Q (R297). -/
def segClear (q : Nat) (seg : Nat × Nat) : Bool := decide (seg.1 ≤ q) && decide (q < seg.2)

/-- Adds to SRH_COMPARES, in units of 2^20. -/
def srhCompares (n : Nat) : Eng Unit := engMod (fun s =>
  ({ s with srhFrac := (s.srhFrac + n) % 2 ^ 20 }).count R.SRH_COMPARES.COUNT ((s.srhFrac + n) / 2 ^ 20))

/-! ### Operands (R299, R300) -/

/-- The partition is an index owner. -/
def srhOwner (s : Body) (pid : Nat) : Bool := match partDef s pid with | some p => p.owner | none => false

/-- The snapshot, with the checks on the control word and the header that every command makes (R299, R300). -/
def srhOpen (x : Ctx) (n : Nat) (compact writes : Bool) : Eng SrhIdx := do
  engNeed (x.opform == 1 && decide (8 * n ≤ x.ops.length) && opsZero x n && (if compact then decide (x.op 0 < 2) else x.op 0 == 0))
  if writes && !(← engAsk (fun e => srhOwner e.s e.pid)) then engFail stPERMISSION 4 0
  let r ← engRng (x.op 1) 128 writes 1
  engNeed (r.addr % 128 == 0)
  srhHere (x.op 1) writes
  match srhParse (x.op 1) (← engRead r 0 128) with
  | none => engBad
  | some h =>
    engMark
    ([h.codes, h.life, h.segs] ++ (if h.attrs = 0 then [] else [h.attrs]) ++ (if h.degree = 0 then [] else [h.g0, h.g1])).forM (fun w => do
      let g ← engRng w 1 writes 1
      engNeed (g.addr % 4096 == 0)
      srhHere w writes)
    return h

/-- The spans of an index: its header and its arrays. -/
def SrhIdx.spans (h : SrhIdx) : Eng (List Span) :=
  ([(h.word, 128), (h.codes, 8 * h.words * h.cap), (h.life, 32 * h.cap), (h.segs, 16 * (h.cap / 1024))] ++
    (if h.attrs = 0 then [] else [(h.attrs, 8 * h.cap)]) ++
    (if h.degree = 0 then [] else [(h.g0, 4 * h.degree * h.cap), (h.g1, 4 * h.degree * h.cap)])).mapM (fun p => do
      spanOf (← engRng p.1 1 false 1) p.2)

/-- The operands of SCAN and TRAVERSE. -/
structure SrhQuery where
  h : SrhIdx
  queries : Rng
  nq : Nat
  k : Nat
  keep : Nat
  ef : Nat
  p : Nat
  rounds : Nat
  out : Rng
  block : Nat
  clauses : List (Nat × Nat)
  /-- the filter is applied after the search, as an index owner's is (R303) -/
  post : Bool

def srhQuery (x : Ctx) : Eng SrhQuery := srhAt 0 (do
  let h ← srhOpen x 15 false false
  let trav := x.opcode == 2
  let nq := bits (x.op 3) 6 0
  let k := bits (x.op 3) 26 16
  let wide := bits (x.op 3) 36 32
  let ef := bits (x.op 4) 10 0
  let p := bits (x.op 4) 20 16
  let mr := bits (x.op 4) 43 32
  let nc := x.op 6
  let owner ← engAsk (fun e => srhOwner e.s e.pid)
  engNeed (decide (1 ≤ nq) && decide (nq ≤ 64) && decide (1 ≤ k) && decide (k ≤ 1024) && decide (1 ≤ wide) && decide (wide ≤ 16) &&
    bits (x.op 3) 15 7 == 0 && bits (x.op 3) 31 27 == 0 && bits (x.op 3) 63 37 == 0 && (owner || wide == 1))
  engNeed (if trav then decide (k ≤ ef) && decide (ef ≤ 1024) && decide (1 ≤ p) && decide (p ≤ 16) && decide (1 ≤ mr) &&
      bits (x.op 4) 15 11 == 0 && bits (x.op 4) 31 21 == 0 && bits (x.op 4) 63 44 == 0 && h.degree != 0
    else x.op 4 == 0)
  engNeed (decide (nc ≤ 4) && (List.range 8).all (fun i => decide (i < 2 * nc) || x.op (7 + i) == 0) && (nc == 0 || h.attrs != 0))
  let qs ← engRng (x.op 2) (8 * h.words * nq) false 2
  engNeed (qs.addr % 8 == 0)
  let block := ceilDiv (16 + 16 * k) 64 * 64
  let out ← engRng (x.op 5) (nq * block) true 5
  engNeed (out.addr % 64 == 0)
  let _ ← engSga qs 0
  let _ ← engSga out 0
  embApart [← spanOf out (nq * block)] ((← spanOf qs (8 * h.words * nq)) :: (← h.spans))
  let keep := if owner then min 1024 (k * wide) else k
  let work := if trav then nq * (8 * h.words + 16 * ef + 4 * (1 + mr * p * h.degree)) else nq * (8 * h.words + 16 * keep)
  engNeed (← engAsk (fun e => decide (2 * work ≤ engSram e.s 4 e.core)))
  return { h := h, queries := qs, nq := nq, k := k, keep := keep, ef := ef, p := p, rounds := mr, out := out, block := block,
           clauses := (List.range nc).map (fun j => (x.op (7 + 2 * j), x.op (8 + 2 * j))), post := owner })

/-- The item passes the filter (R302). -/
def SrhQuery.passes (q : SrhQuery) (attr : Nat) : Bool := q.clauses.isEmpty || q.clauses.any (fun c => attr &&& c.1 == c.2)

/-- Capacity of a step: words, random lines by tier, store bytes by tier (R298). -/
def srhCaps (s : Body) (core pid : Nat) (cls : Bool) : List Nat :=
  let l := engUnits s 4 core
  [40 * l * engCp s, l * engCp s, l * (engCp s / 10)] ++ tierCaps s pid cls

def addDraw (a b : List Nat) : List Nat := if a.isEmpty then b else (a.zip b).map (fun p => p.1 + p.2)

/-- Random lines of an index array, and their bytes, by tier (R298). -/
def srhLines (l : List (Nat × Nat × Nat)) : Eng (List Nat) := do
  let ts ← l.mapM (fun p => engTier [({ word := p.1 + p.2.1, idx := 1 }, 0, (linesOf p.2.1 p.2.2).length * 128)])
  let near := (ts.map (fun t => t.headD 0)).foldl (· + ·) 0
  let far := (ts.map (fun t => t.getLastD 0)).foldl (· + ·) 0
  return [0, near / 128, far / 128, near, far]

/-- The step can hold `need` too: always where it has drawn nothing. -/
def srhRoom (x : Ctx) (a need : List Nat) : Eng Bool :=
  engAsk (fun e => a.all (· == 0) || !overFull (addDraw a need) (srhCaps e.s e.core e.pid x.cls))

/-- Ends a step of this draw. -/
def srhStep (x : Ctx) (a : List Nat) : Eng Unit := do
  let e ← get
  engStep (max 1 (drawCost a (srhCaps e.s e.core e.pid x.cls)))

/-! ### Scanning (R301) -/

/-- Life records are read for the item, unless its segment is clear (R297). -/
def srhClear (q : SrhQuery) (i : Nat) : Eng Bool := do return segClear q.h.epoch (← q.h.seg (i / 1024))

/-- The attribute words of items are read as they are compared (R303). -/
def SrhQuery.inline (q : SrhQuery) : Bool := !q.post && !q.clauses.isEmpty

/-- The item is visible, and passes an inline filter (R296, R303). -/
def srhReturnable (q : SrhQuery) (clear : Bool) (i : Nat) : Eng Bool := do
  let vis ← if clear then pure true else (do return visibleAt q.h.epoch (← q.h.lifeOf i))
  if !vis then return false
  else if q.inline then return q.passes (← q.h.attr i)
  else return true

/-- The codes of the queries. -/
def srhCodes (q : SrhQuery) : Eng (List Nat) := (List.range q.nq).mapM (fun i => do
  return leNat (← srhAt i (engRead q.queries (8 * q.h.words * i) (8 * q.h.words))))

/-- One item against every query: each keeps its best. -/
def scanItem (q : SrhQuery) (codes : List Nat) (clear : Bool) (best : List (List (Nat × Nat))) (i : Nat) :
    Eng (List (List (Nat × Nat))) := do
  let c ← q.h.code i
  if ← srhReturnable q clear i then
    return (codes.zip best).map (fun p => keyIns q.keep (hamming q.h.words p.1 c, i) p.2)
  else return best

/-- What `n` items of a segment from item `i` on cost (R301): words, and bytes by tier. -/
def segCost (q : SrhQuery) (clear : Bool) (i n : Nat) : Eng (List Nat) := do
  let at_ : Nat → Nat → Nat → Rng × Nat × Nat := fun word sz m => ({ word := word + sz * i, idx := 1 }, 0, m)
  let t ← engTier ([at_ q.h.codes (8 * q.h.words) (8 * q.h.words * n), ({ word := q.h.segs + 16 * (i / 1024), idx := 1 }, 0, 16)] ++
    (if q.inline then [at_ q.h.attrs 8 (8 * n)] else []) ++ (if clear then [] else [at_ q.h.life 32 (32 * n)]))
  return [n * q.nq * q.h.words, 0, 0] ++ t

/-- Segments from `seg` on, `k` at most, while the step holds them: items `lo` to TOTAL − 1 of the snapshot. With the next segment,
the step's draw and the best items of each query. -/
def scanSegs (x : Ctx) (q : SrhQuery) (codes : List Nat) (lo : Nat) :
    Nat → Nat → List Nat → List (List (Nat × Nat)) → Eng (Nat × List Nat × List (List (Nat × Nat)))
  | 0, seg, a, best => return (seg, a, best)
  | k + 1, seg, a, best => do
    let i0 := max lo (1024 * seg)
    let n := min q.h.total (1024 * seg + 1024) - i0
    let clear ← srhClear q i0
    let need ← segCost q clear i0 n
    if !(← srhRoom x a need) then return (seg, a, best)
    else
      engMod (fun s => (s.count R.SRH_CODE_BYTES.COUNT (8 * q.h.words * n)).count R.SRH_SLOW_SEG.COUNT (b2n (!clear)))
      srhCompares (n * q.nq)
      let best ← (List.range n).foldlM (fun b i => scanItem q codes clear b (i0 + i)) best
      scanSegs x q codes lo k (seg + 1) (addDraw a need) best

/-! ### Traversal (R305 to R307) -/

/-- The state of one traversal: candidates and all items examined, each with its distance, best first; items expanded and items not
returnable; rounds; whether MAX_ROUNDS stopped it; the items to be ranked next; the items to be expanded next; whether it has
stopped. -/
structure Trav where
  code : Nat
  cand : List (Nat × Nat) := []
  seen : List (Nat × Nat) := []
  done : List Nat := []
  dead : List Nat := []
  rounds : Nat := 0
  cut : Bool := false
  fresh : List Nat := []
  front : List Nat := []
  stopped : Bool := false

/-- The rules of a traversal: EF, P, MAX_ROUNDS, the graph, the bound on edges, and the items that are not ranked. -/
structure TravRule where
  h : SrhIdx
  graph : Nat
  below : Nat
  ef : Nat
  p : Nat
  rounds : Nat
  skip : List Nat := []

/-- A traversal that starts at an entry item. -/
def travStart (entry code : Nat) : Trav :=
  if entry = noItem then { code := code, stopped := true } else { code := code, fresh := [entry] }

/-- What ranking the new items costs: words, lines of codes, and lines of the life records and attributes of `reads`. -/
def travRankCost (t : TravRule) (v : Trav) (reads : List (Nat × Nat × Nat)) : Eng (List Nat) := do
  let l ← srhLines (v.fresh.map (fun y => (t.h.codes, 8 * t.h.words * y, 8 * t.h.words)) ++ reads)
  return addDraw [v.fresh.length * t.h.words, 0, 0, 0, 0] l

/-- The first step of a round: the new items are ranked, and the items to expand are chosen (R305). -/
def travRank (t : TravRule) (v : Trav) : Eng Trav := do
  let v ← v.fresh.foldlM (fun (v : Trav) y => do
    let d := hamming t.h.words v.code (← t.h.code y)
    return { v with seen := keyIns (v.seen.length + 1) (d, y) v.seen, cand := keyIns (v.cand.length + 1) (d, y) v.cand }) v
  srhCompares v.fresh.length
  engMod (fun s => s.count R.SRH_CODE_BYTES.COUNT (8 * t.h.words * v.fresh.length))
  let v := { v with cand := v.cand.take t.ef, fresh := [] }
  let f := (v.cand.filter (fun k => !v.done.contains k.2)).take t.p
  match f with
  | [] => return { v with stopped := true }
  | b :: _ =>
    if v.rounds = t.rounds then return { v with stopped := true, cut := true }
    else if v.cand.length = t.ef ∧ !keyLe b (v.cand.getLastD b) then return { v with stopped := true }
    else return { v with front := f.map (·.2) }

/-- One edge: an item not yet seen is to be ranked. -/
def travEdge (t : TravRule) (x : Nat) (v : Trav) (y : Nat) : Eng Trav := do
  if t.below ≤ y then srhFail 2 stBADOPCODE 3 x
  else if v.seen.any (fun k => k.2 == y) ∨ v.fresh.contains y ∨ t.skip.contains y then return v
  else return { v with fresh := v.fresh ++ [y] }

/-- The lines of the lists to be read. -/
def travListCost (t : TravRule) (v : Trav) : Eng (List Nat) :=
  srhLines (v.front.map (fun x => (t.graph, 4 * t.h.degree * x, 4 * t.h.degree)))

/-- The second step of a round: the lists of the chosen items are read (R307). -/
def travLists (t : TravRule) (v : Trav) : Eng Trav := do
  engMod (fun s => (s.count R.SRH_ROUNDS.COUNT).count R.SRH_TOMB_VISIT.COUNT (v.front.filter v.dead.contains).length)
  let w ← v.front.foldlM (fun (v : Trav) x => do
    (← t.h.edges t.graph x).foldlM (travEdge t x) { v with done := x :: v.done }) v
  return { w with front := [], rounds := v.rounds + 1 }

/-- One query of TRAVERSE in one step: its traversal, its best items, and the step's draw; `waits` where it does not fit. -/
structure TravStep where
  v : Trav
  best : List (Nat × Nat)
  a : List Nat
  waits : Bool := false

/-- The next half round of a query, if the step holds it (R306, R307). -/
def travHalf (x : Ctx) (q : SrhQuery) (t : TravRule) (st : TravStep) : Eng TravStep := do
  let v := st.v
  if v.stopped then return st
  else if v.front.isEmpty then do
    let ys ← v.fresh.mapM (fun y => do return (y, ← srhClear q y))
    let reads := (ys.filter (fun y => !y.2)).map (fun y => (q.h.life, 32 * y.1, 32)) ++
      (if q.inline then ys.map (fun y => (q.h.attrs, 8 * y.1, 8)) else [])
    let need ← travRankCost t v reads
    if !(← srhRoom x st.a need) then return { st with waits := true }
    else
      let rs ← ys.mapM (fun y => do return (y.1, ← srhReturnable q y.2 y.1))
      let w ← travRank t v
      let ok := (rs.filter (·.2)).map (·.1)
      let best := (w.seen.filter (fun k => ok.contains k.2)).foldl (fun l k => keyIns q.keep k l) st.best
      return { st with v := { w with dead := (rs.filter (fun r => !r.2)).map (·.1) ++ w.dead }, best := best, a := addDraw st.a need }
  else do
    let need ← travListCost t v
    if !(← srhRoom x st.a need) then return { st with waits := true }
    else return { st with v := ← travLists t v, a := addDraw st.a need }

/-- The search steps of SCAN and TRAVERSE: every query takes a half round, and segments from `seg` on take the room that is left
(R301, R307). -/
def srhSearch (x : Ctx) (q : SrhQuery) (t : TravRule) (codes : List Nat) (lo : Nat) :
    Nat → Nat → List Trav → List (List (Nat × Nat)) → Eng (List (List (Nat × Nat)) × List Bool)
  | 0, _, ts, best => return (best, ts.map (·.cut))
  | f + 1, seg, ts, best => do
    let segs := ceilDiv q.h.total 1024 - seg
    if ts.all (·.stopped) && segs == 0 then return (best, ts.map (·.cut))
    else
      let (us, a) ← (ts.zip best).foldlM (fun (st : List TravStep × List Nat) p => do
        let u ← travHalf x q t { v := p.1, best := p.2, a := st.2 }
        return (st.1 ++ [u], u.a)) ([], [])
      let best := if ts.isEmpty then best else us.map (·.best)
      let (seg, a, best) ← scanSegs x q codes lo segs seg a best
      if us.any (·.waits) then engMod (fun s => s.count R.SRH_STALL_FETCH.COUNT)
      srhStep x a
      srhSearch x q t codes lo f seg (us.map (·.v)) best

/-! ### Results (R304, R308) -/

/-- The result block of one query: its bytes, whether SHORT and POST_LOSS are set, and the lines read for it (R298). -/
def srhBlock (q : SrhQuery) (best : List (Nat × Nat)) (cut : Bool) : Eng (List Byte × Bool × Bool × List Nat) := do
  let pass ← if q.post && !q.clauses.isEmpty then best.filterM (fun k => do return q.passes (← q.h.attr k.2)) else pure best
  let found := pass.take q.k
  let short := decide (found.length < q.k)
  let loss := q.post && short && decide (pass.length < best.length)
  let cands := if q.post then best.length else found.length
  let es ← found.mapM (fun k => do
    let l ← q.h.lifeOf k.2
    return slice l 16 8 ++ leBytes 4 k.2 ++ leBytes 2 k.1 ++ leBytes 2 (b2n (decide (q.h.main ≤ k.2))))
  let b := leBytes 8 q.h.epoch ++ leBytes 2 found.length ++ leBytes 2 cands ++
    leBytes 2 (b2n short + 2 * b2n loss + 4 * b2n cut) ++ leBytes 2 0 ++ es.flatten
  let a ← srhLines (found.map (fun k => (q.h.life, 32 * k.2 + 16, 8)) ++
    if q.post && !q.clauses.isEmpty then best.map (fun k => (q.h.attrs, 8 * k.2, 8)) else [])
  return (slice b 0 q.block, short, loss, a)

/-- The result step: every block is written (R301). -/
def srhResults (x : Ctx) (q : SrhQuery) (best : List (List (Nat × Nat))) (cuts : List Bool) : Eng (Nat × Nat × Nat) := do
  let (shorts, a) ← (List.range q.nq).foldlM (fun (n : Nat × List Nat) i => do
    let (b, short, loss, a) ← srhBlock q (best.getD i []) (cuts.getD i false)
    srhAt i (engWrite q.out (i * q.block) b)
    engMod (fun s => (s.count R.SRH_SHORT.COUNT (b2n short)).count R.SRH_POST_LOSS.COUNT (b2n loss))
    return (n.1 + b2n short, addDraw n.2 a)) (0, [])
  srhStep x a
  return (stOK, 0, shorts)

/-- SCAN and TRAVERSE: search steps, and the result step, whose reads are asked for as the last search step commits. -/
def srhFind (x : Ctx) (q : SrhQuery) (t : TravRule) (lo : Nat) (codes : List Nat) (ts : List Trav) : Eng (Nat × Nat × Nat) := do
  let fuel := ceilDiv q.h.total 1024 + q.nq * (2 * q.rounds + 2) + 1
  let (best, cuts) ← srhSearch x q t codes lo fuel (lo / 1024) ts (codes.map (fun _ => []))
  if lo < q.h.total || ts.any (fun v => !v.stopped) then engPause
  srhResults x q best cuts

/-- The rules of TRAVERSE. -/
def srhRule (q : SrhQuery) : TravRule :=
  { h := q.h, graph := q.h.active, below := q.h.main, ef := q.ef, p := q.p, rounds := q.rounds }

def scanRun (x : Ctx) : Eng (Nat × Nat × Nat) := do
  let q ← srhQuery x
  srhFind x q (srhRule q) 0 (← srhCodes q) []

def traverseRun (x : Ctx) : Eng (Nat × Nat × Nat) := do
  engCtx (fun v => { v with dyn := true })
  let q ← srhQuery x
  let codes ← srhCodes q
  srhFind x q (srhRule q) q.h.main codes (codes.map (travStart q.h.entry))

/-! ### INSERT and DELETE (R309, R310) -/

/-- Notes that the header must still hold these bytes. -/
def srhExpect (h : SrhIdx) (off : Nat) (d : List Byte) : Eng Unit := do
  let r ← engRng (h.word + off) d.length true 1
  engNote r 0 (← engSga r 0) d.length (.expect d)

/-- The operands of INSERT. -/
def insertCheck (x : Ctx) : Eng (SrhIdx × Nat × Rng × Rng × Option Rng) := srhAt 0 (do
  let h ← srhOpen x 6 false true
  let n := bits (x.op 5) 16 0
  engNeed (bits (x.op 5) 63 17 == 0 && decide (1 ≤ n) && decide (n ≤ 65536) && decide (h.total + n ≤ h.cap))
  let codes ← engRng (x.op 2) (8 * h.words * n) false 2
  let keys ← engRng (x.op 3) (8 * n) false 3
  engNeed (codes.addr % 8 == 0 && keys.addr % 8 == 0)
  let _ ← engSga codes 0
  let _ ← engSga keys 0
  let attrs ← if x.op 4 = 0 then pure none else do
    engNeed (h.attrs != 0)
    let r ← engRng (x.op 4) (8 * n) false 4
    engNeed (r.addr % 8 == 0)
    let _ ← engSga r 0
    pure (some r)
  return (h, n, codes, keys, attrs))

def insertRun (x : Ctx) : Eng (Nat × Nat × Nat) := do
  let (h, n, codes, keys, attrs) ← insertCheck x
  let a ← (List.range n).foldlM (fun (a : List Nat) i => do
    let t := h.total + i
    let at_ : Nat → Nat → Nat → Rng × Nat × Nat := fun w off n => ({ word := w + off, idx := 1 }, 0, n)
    let bytes ← srhAt t (engTier ([(codes, 8 * h.words * i, 8 * h.words), (keys, 8 * i, 8),
      at_ h.codes (8 * h.words * t) (8 * h.words), at_ h.life (32 * t) 32] ++
      (match attrs with | some r => [(r, 8 * i, 8), at_ h.attrs (8 * t) 8] | none => [])))
    let a ← if ← srhRoom x a ([0, 0, 0] ++ bytes) then pure a else do
      srhStep x a
      pure []
    let a := addDraw a ([0, 0, 0] ++ bytes)
    srhWrite h.codes (8 * h.words * t) (← srhAt t (engRead codes (8 * h.words * i) (8 * h.words))) t
    let key ← srhAt t (engRead keys (8 * i) 8)
    srhWrite h.life (32 * t) (leBytes 8 (h.epoch + 1) ++ leBytes 8 noEpoch ++ key ++ leBytes 8 0) t
    match attrs with
    | some r => srhWrite h.attrs (8 * t) (← srhAt t (engRead r (8 * i) 8)) t
    | none => pure ()
    return a) []
  srhStep x a
  -- the local seizing
  srhAt 0 (srhExpect h 48 (leBytes 8 h.epoch ++ leBytes 4 h.total))
  let j0 := h.total / 1024
  (List.range ((h.total + n - 1) / 1024 + 1 - j0)).forM (fun j => do
    let (mx, _) ← h.seg (j0 + j)
    srhWrite h.segs (16 * (j0 + j)) (leBytes 8 (max mx (h.epoch + 1))) h.total)
  srhWrite h.word 48 (leBytes 8 (h.epoch + 1) ++ leBytes 4 (h.total + n)) h.total
  engStep 1
  engHook (.search n 0 0 0 0)
  return (stOK, 0, h.total)

/-- The operands of DELETE. -/
def deleteCheck (x : Ctx) : Eng (SrhIdx × Nat × Rng) := srhAt 0 (do
  let h ← srhOpen x 4 false true
  let n := bits (x.op 3) 10 0
  engNeed (bits (x.op 3) 63 11 == 0 && decide (1 ≤ n) && decide (n ≤ 1024))
  let list ← engRng (x.op 2) (4 * n) false 2
  engNeed (list.addr % 4 == 0)
  let _ ← engSga list 0
  return (h, n, list))

def deleteRun (x : Ctx) : Eng (Nat × Nat × Nat) := do
  let (h, n, list) ← deleteCheck x
  srhAt 0 (srhExpect h 48 (leBytes 8 h.epoch))
  let (dead, noop) ← (List.range n).foldlM (fun (st : Nat × Nat) k => do
    let i := leNat (← srhAt k (engRead list (4 * k) 4))
    if h.total ≤ i then srhFail 3 stBADOPCODE 3 i
    else
      let l ← h.lifeOf i
      if le l 8 8 ≠ noEpoch then return (st.1, st.2 + 1)
      else
        let (_, mn) ← h.seg (i / 1024)
        srhWrite h.life (32 * i + 8) (leBytes 8 (h.epoch + 1)) i
        srhWrite h.segs (16 * (i / 1024) + 8) (leBytes 8 (min mn (h.epoch + 1))) i
        return (st.1 + 1, st.2)) (0, 0)
  srhWrite h.word 48 (leBytes 8 (h.epoch + 1)) 0
  engStep 1
  engHook (.search 0 dead noop 0 0)
  return (stOK, 0, dead)

/-! ### MERGE (R311, R312) -/

/-- Where a merge stands when its row is taken: afresh, or as the journal gives it. -/
structure MergeFrom where
  erel : Nat
  t0 : Nat
  main0 : Nat
  phase : Nat
  next : Nat
  build : Nat
  compact : Bool

/-- The operands of MERGE. -/
def mergeCheck (x : Ctx) (resumed : Bool) : Eng SrhIdx := srhAt 0 (do
  let h ← srhOpen x 4 true true
  let ef := bits (x.op 2) 10 0
  let p := bits (x.op 2) 20 16
  let mr := bits (x.op 2) 43 32
  engNeed (x.op 3 == 0 && h.degree != 0 && decide (1 ≤ ef) && decide (ef ≤ 1024) && decide (1 ≤ p) && decide (p ≤ 16) &&
    decide (1 ≤ mr) && bits (x.op 2) 15 11 == 0 && bits (x.op 2) 31 21 == 0 && bits (x.op 2) 63 44 == 0)
  -- header, LIFE, SEGS and the graph buffers are write-through: PIN or WT
  [h.word, h.life, h.segs, h.g0, h.g1].forM (fun w => do
    let sga ← engSga (← engRng w 1 true 1) 0
    engNeed (← engAsk (fun e => match sgaHere e.s sga with | some loc => decide (tierOf e.s loc ≤ 1) | none => true)))
  engNeed (resumed || (← engAsk (fun e =>
    decide (2 * (8 * h.words + 16 * ef + 4 * (1 + mr * p * h.degree)) ≤ engSram e.s 4 e.core))))
  return h)

/-- Notes the journal's record for the current step. -/
def mergeNote (phase next : Nat) : Eng Unit :=
  modify (fun e => if e.mode ≠ .issue ∨ e.step ≠ e.live then e else { e with accs :=
    { step := e.step, cva := none, sga := 0, len := 0, act := .journal phase next } :: e.accs.filter (fun a =>
      !(a.step == e.step && (match a.act with | .journal .. => true | _ => false))) })

/-- Takes a unit into the current step, or into a new one where the step is full. -/
def srhTake (x : Ctx) (a need : List Nat) : Eng (List Nat) := do
  if ← srhRoom x a need then return addDraw a need
  else
    srhStep x a
    return need

/-- The main items that a compacting merge purges (R311), by their life records, and the step's draw. -/
def mergePurged (x : Ctx) (h : SrhIdx) (m : MergeFrom) (a : List Nat) : Eng (List Nat × List Nat) :=
  if !m.compact then return ([], a)
  else (List.range m.main0).foldlM (fun (st : List Nat × List Nat) i => do
    let a ← srhTake x st.2 (← srhLines [(h.life, 32 * i, 32)])
    return (if le (← h.lifeOf i) 8 8 ≤ m.erel then st.1 ++ [i] else st.1, a)) ([], a)

/-- ENTRY after PURGE. -/
def mergeEntry (h : SrhIdx) (m : MergeFrom) (purged : List Nat) : Nat :=
  if h.entry ≠ noItem ∧ purged.contains h.entry then
    ((List.range m.main0).find? (fun i => !purged.contains i)).getD noItem
  else h.entry

/-- The `n` best of items by distance to an item, the item left out (R311). -/
def bestNear (h : SrhIdx) (i n : Nat) (ys : List Nat) : Eng (List Nat) := do
  let c ← h.code i
  engMod (fun s => s.count R.SRH_CODE_BYTES.COUNT (8 * h.words * (1 + ((ys.filter (· != i)).eraseDups).length)))
  let ks ← ((ys.filter (· != i)).eraseDups).foldlM (fun (l : List (Nat × Nat)) y => do
    return keyIns n (hamming h.words c (← h.code y), y) l) []
  return ks.map (·.2)

/-- The search for a side item (R305, R311): its steps write nothing; the last one is left open. -/
def linkSearch (x : Ctx) (t : TravRule) : Nat → Trav → Eng (Trav × List Nat)
  | 0, v => return (v, [])
  | f + 1, v => do
    let need ← travRankCost t v []
    let e ← get
    let a ← drawRoom [] need (srhCaps e.s e.core e.pid x.cls)
    let v ← travRank t v
    if v.stopped then return (v, a)
    else
      srhStep x a
      let a ← travListCost t v
      let v ← travLists t v
      srhStep x a
      linkSearch x t f v

/-- Links one side item (R311, phase LINK): ENTRY after it. -/
def mergeLink (x : Ctx) (h : SrhIdx) (m : MergeFrom) (purged : List Nat) (entry i : Nat) : Eng Nat := do
  if entry = noItem then
    h.putEdges h.idle i []
    mergeNote 3 (i + 1)
    engStep 65536
    return i
  else
    let c ← h.code i
    let rule : TravRule := { h := h, graph := h.idle, below := i, ef := bits m.build 10 0, p := bits m.build 20 16,
                             rounds := bits m.build 43 32, skip := purged }
    let (t, a) ← linkSearch x rule (rule.rounds + 1) (travStart entry c)
    let near := (t.seen.take h.degree).map (·.2)
    h.putEdges h.idle i near
    near.forM (fun y => do
      let ys ← h.edges h.idle y
      h.putEdges h.idle y (← bestNear h y h.degree (ys ++ [i])))
    mergeNote 3 (i + 1)
    srhStep x a
    return entry

/-- The phases of a merge, from where it stands. -/
def mergePhases (x : Ctx) (h : SrhIdx) (m : MergeFrom) : Eng (Nat × Nat × Nat) := do
  let list := fun (graph i : Nat) => (graph, 4 * h.degree * i, 4 * h.degree)
  -- COPY
  if m.phase ≤ 1 then
    let from_ := if m.phase = 1 then m.next else 0
    let a ← (List.range (m.main0 - from_)).foldlM (fun (a : List Nat) k => do
      let i := from_ + k
      let a ← srhTake x a (← srhLines [list h.active i, list h.idle i])
      h.putEdges h.idle i (← h.edges h.active i)
      mergeNote 1 (i + 1)
      return a) []
    if !a.isEmpty then srhStep x a
  -- PURGE
  let (purged, a) ← mergePurged x h m []
  let a ← if m.compact ∧ m.phase ≤ 2 then do
      let from_ := if m.phase = 2 then m.next else 0
      (List.range (m.main0 - from_)).foldlM (fun (a : List Nat) k => do
        let i := from_ + k
        let lines ← srhLines [list h.active i, list h.idle i]
        let a ← srhTake x a (addDraw [h.degree * h.words, 0, 0, 0, 0] lines)
        if purged.contains i then h.putEdges h.idle i []
        else
          let es ← h.edges h.active i
          if es.any purged.contains then
            let more ← (es.filter purged.contains).mapM (h.edges h.active)
            let ys := (es ++ more.flatten).filter (fun y => !purged.contains y)
            h.putEdges h.idle i (← bestNear h i h.degree ys)
        mergeNote 2 (i + 1)
        return a) a
    else pure a
  -- LINK
  let (xs, a) ← (List.range (m.t0 - m.main0)).foldlM (fun (st : List Nat × List Nat) k => do
    let i := m.main0 + k
    let a ← srhTake x st.2 (← srhLines [(h.life, 32 * i, 32)])
    return (if m.erel < le (← h.lifeOf i) 8 8 then st.1 ++ [i] else st.1, a)) ([], a)
  if !a.isEmpty then srhStep x a
  let from_ := if m.phase = 3 then m.next else m.main0
  let old := xs.filter (fun x => decide (x < from_))
  let e0 := mergeEntry h m purged
  let e0 := if e0 = noItem then old.headD noItem else e0
  let entry ← (xs.filter (fun i => decide (from_ ≤ i))).foldlM (fun en i => mergeLink x h m purged en i) e0
  -- SWAP
  let r ← engRng h.word 128 true 1
  engNote r 0 (← engSga r 0) 128 (.swap m.t0 entry)
  mergeNote 4 m.t0
  engStep 1
  return (xs.length, purged.length, entry)

/-- The merge of a context: the journal's record where it was resumed. -/
def mergeRec (s : Body) (c x : Nat) : Option MergeRec := s.merges.find? (fun m => m.core == c && m.ctx == some x)

/-- Where the command's merge stood as its first step was issued: none where it had no journal record. -/
def mergeFrom : Eng (Option MergeFrom) := do
  match ← engTape (do
    let e ← get
    return .pieces (match mergeRec e.s e.core e.x with
      | some r => [(r.erel, r.t0, r.main0), (r.phase, r.next, r.build), (b2n r.compact, 0, 0)]
      | none => [])) with
  | .pieces [(erel, t0, main0), (phase, next, build), (k, _, _)] =>
    return some { erel := erel, t0 := t0, main0 := main0, phase := phase, next := next, build := build, compact := k == 1 }
  | _ => return none

def mergeRun (x : Ctx) : Eng (Nat × Nat × Nat) := do
  let rec_ ← mergeFrom
  let h ← mergeCheck x rec_.isSome
  let m : MergeFrom := rec_.getD
    { erel := h.epoch, t0 := h.total, main0 := h.main, phase := 0, next := 0, build := x.op 2, compact := bitAt (x.op 0) 0 }
  engCtx (fun v => { v with dyn := true, gate := some (h.word, h.swapKnot) })
  if rec_.isNone then
    if bitAt h.flags 1 then srhFail 6 stSEIZECONFLICT 0 0
    -- the first step sets MERGING
    srhAt 0 (srhExpect h 75 (leBytes 1 h.flags))
    srhWrite h.word 75 (leBytes 1 (h.flags + 2)) 0
    let e ← get
    engMod (fun s => { s with merges := s.merges.filter (fun (q : MergeRec) => q.core != e.core) ++
      [{ hdr := h.word, erel := m.erel, t0 := m.t0, next := 0, phase := 1, core := e.core, pid := e.pid, main0 := m.main0,
         knot := s.now, build := m.build, compact := m.compact, ctx := some e.x : MergeRec }] })
    engStep 1
  let (linked, purged, _) ← mergePhases x h m
  engHook (.search 0 0 0 linked purged)
  return (stOK, 0, linked)

/-- A merge is running on a core's channel in another context (R311). -/
def mergeBusy (s : Body) (c x : Nat) : Bool := s.merges.any (fun m => m.core == c && m.ctx.isSome && m.ctx != some x)

/-- The end of a merge (R311, R312): its journal record is gone; a resumed one sets MERGE_DONE. -/
def mergeEnd (s : Body) (c x : Nat) : Body :=
  match mergeRec s c x with
  | none => s
  | some m =>
    let s := { s with merges := s.merges.filter (fun (q : MergeRec) => !(q.core == c && q.ctx == some x)) }
    if m.resumed then s.set R.SRH_EVENT.MERGE_DONE 1 else s

/-- A merge is abandoned (R312): a local seizing clears MERGING, if the header can still be reached. -/
def mergeAbandon (s : Body) (m : MergeRec) : Body :=
  let s := { s with merges := s.merges.filter (fun (q : MergeRec) => !(q.core == m.core && q.hdr == m.hdr && q.pid == m.pid)) }
  let s := s.set R.SRH_EVENT.MERGE_LOST 1
  let (r, _) := ((engSga { word := m.hdr, idx := 1, writes := true } 75).run).run
    { evOf s m.core 16 .peek (2 ^ 64) [] with pid := m.pid }
  match r with
  | .ok sga =>
    (match sgaHere s sga with
      | some loc => (engPut (clearForWrite s (linesOf loc 1)).2 m.core sga loc
          (leBytes 1 (leNat (s.rd loc 1) &&& 0xFD))).count R.TXN_LOCAL.COUNT
      | none => s)
  | .error _ => s

/-- MERGE_RESUME (R312): the journaled merge of a core's channel goes on in a context outside every queue, or is abandoned
where its partition or its channel share is gone. -/
def mergeResume (c : Nat) (s : Body) : Body :=
  match s.merges.find? (fun m => m.core == c && m.ctx.isNone) with
  | none => s
  | some m =>
    if !s.on R.MGT_READY.SRH then s
    else if (partDef s m.pid).isNone || (match chanOf s 4 c with | some k => k.units == 0 || k.owner != m.pid | none => true) then
      mergeAbandon s m
    else
      let v : Ctx := {
        phase := .running, pid := m.pid,
        desc := leBytes 8 (0x5 + 4 * 256 + 4096) ++ List.replicate 56 0,
        ops := leBytes 8 (b2n m.compact) ++ leBytes 8 m.hdr ++ leBytes 8 m.build ++ leBytes 8 0,
        usable := s.now, release := s.now, since := s.now }
      let s := s.setCtx c 16 v
      let s := { s with merges := s.merges.map (fun (q : MergeRec) =>
        if q.core = c ∧ q.ctx = none then { q with ctx := some 16, resumed := true } else q) }
      s.set R.SRH_EVENT.MERGE_RESUMED 1

/-! ### The rows of the table -/

/-- The operand check of a search command (R190 check 6, R300). -/
def srhCheck (x : Ctx) : Eng Unit := do
  if x.opcode = 1 ∨ x.opcode = 2 then let _ ← srhQuery x
  else if x.opcode = 3 then let _ ← insertCheck x
  else if x.opcode = 4 then let _ ← deleteCheck x
  else let _ ← mergeCheck x false

/-- What a search command computes. -/
def srhRun (x : Ctx) : Eng (Nat × Nat × Nat) :=
  if x.opcode = 1 then scanRun x else if x.opcode = 2 then traverseRun x else if x.opcode = 3 then insertRun x
  else if x.opcode = 4 then deleteRun x else mergeRun x

/-- SCAN, TRAVERSE, INSERT and DELETE. -/
def searchRow (opcode : Nat) (c x : Nat) (s : Body) : Body := engRow 4 opcode srhRun c x s

/-- MERGE: a second merge on the channel waits (R311). -/
def mergeRow (c x : Nat) (s : Body) : Body := if mergeBusy s c x then s else engRow 4 5 srhRun c x s

end Sys2Proof.Machine
end

