-- ==== Sys2Proof/Machine/Pool.lean ====
section
/-!
DEFINITION. Pool commands (R316 to R323) and the SEIZE command (R339).
-/

namespace Sys2Proof.Machine

/-- POOL_ERR_LOG (R323). -/
def poolLog (s : Body) (core pid opcode st unit : Nat) : Body :=
  let s := s.set R.POOL_ERR_LOG.STATUS st
  let s := s.set R.POOL_ERR_LOG.OPCODE (if opcode = 0x10 then 0 else opcode % 16)
  let s := s.set R.POOL_ERR_LOG.PID pid
  let s := s.set R.POOL_ERR_LOG.CORE core
  let s := s.set R.POOL_ERR_LOG.UNIT unit
  s.set R.POOL_ERR_KNOT.KNOT s.now

/-- A part of a command whose failures name unit `u`. -/
def poolAt {α : Type} (u : Nat) (f : Eng α) : Eng α :=
  engCatch f (fun st _ r => do
    let e ← get
    engMod (fun s => poolLog s e.core e.pid (s.ctx e.core e.x).opcode st r)) (unitRes u)

/-- Capacity of a step: bytes read, written, terms, bytes hashed, staged bytes, store bytes by tier (R316). -/
def poolCaps (s : Body) (core pid : Nat) (cls : Bool) : List Nat :=
  let p := engUnits s 5 core
  let c := engCp s
  [64 * p * c, 64 * p * c, 32 * p * c, 8 * p * c, engSram s 5 core] ++ tierCaps s pid cls

/-- Takes a unit into the current step: bytes read, written, terms, bytes hashed, staged bytes; and the ranges that it covers. -/
def poolTake (x : Ctx) (a need : List Nat) (ranges : List (Rng × Nat × Nat)) : Eng (List Nat) := do
  let t ← engTier ranges
  let e ← get
  drawRoom a (need ++ t) (poolCaps e.s e.core e.pid x.cls)

/-- Ends the last step. -/
def poolEnd (x : Ctx) (a : List Nat) : Eng Unit := do
  let e ← get
  drawEnd a (poolCaps e.s e.core e.pid x.cls)

/-- An address of a pool command: aligned to 8 B, but for DIGEST (R318), and its first byte translates. -/
def poolRng (word n : Nat) (writes : Bool) (idx : Nat) (coded : Bool := false) (align : Nat := 8) : Eng Rng := do
  let r ← engRng word n writes idx coded
  engNeed (r.addr % align == 0)
  let _ ← engSga r 0
  return r

/-- A destination or an output lies in the own home slice (R319). -/
def poolHome (r : Rng) (off n : Nat) : Eng Unit := do
  let ps ← engPieces r off n
  if ← engAsk (fun e => ps.all (fun p => (sgaHere e.s p.2.1).isSome)) then pure () else engFail stSTALEMAP 2 0

/-- The word names a coded region. -/
def poolCoded (word : Nat) : Eng Bool := do
  return (← engTry (do
    let r ← engRng word 1 false 0 true
    let _ ← engSga r 0)).isSome

/-- LENGTH: `hi` is its top bit; the bits above are zero. -/
def poolLen (w hi : Nat) (byEight : Bool) : Eng Nat := do
  let n := bits w hi 0
  engNeed (w >>> (hi + 1) == 0 && 1 ≤ n && (!byEight || n % 8 == 0))
  return n

/-- No destination overlaps an input (R318). -/
def poolApart (d : Rng) (n : Nat) (ins : List (Rng × Nat)) : Eng Unit := do
  embApart [← spanOf d n] (← ins.mapM (fun p => spanOf p.1 p.2))

/-- The control word of a pool block is zero, and the block ends at `n` words. -/
def poolBlock (x : Ctx) (n : Nat) (control : Bool) : Eng Unit :=
  engNeed (x.opform == 1 && decide (8 * n ≤ x.ops.length) && opsZero x n && (control || x.op 0 == 0))

/-- The lines of a range of `n` bytes, as (offset, length). -/
def lines128 (n : Nat) : List (Nat × Nat) := (List.range (ceilDiv n 128)).map (fun i => (128 * i, min 128 (n - 128 * i)))

/-! ### FILL and COPY (R317 to R319) -/

def fillCheck (x : Ctx) : Eng (Rng × Nat) := poolAt 0 (do
  engNeed (x.opform == 0)
  let n ← poolLen (x.op 1) 47 true
  return (← poolRng (x.op 0) n true 0, n))

def fillRun (x : Ctx) : Eng (Nat × Nat × Nat) := do
  let (d, n) ← fillCheck x
  let pat := leBytes 8 (x.op 2)
  let a ← (lines128 n).foldlM (fun (a : List Nat) p => poolAt (p.1 / 65536) (do
    let a ← poolTake x a [0, p.2, 0, 0, 0] [(d, p.1, p.2)]
    poolHome d p.1 p.2
    engWrite d p.1 ((List.replicate (p.2 / 8) pat).flatten)
    engMod (fun s => s.count R.POOL_WR_BYTES.COUNT p.2)
    return a)) []
  poolEnd x a
  return (stOK, 0, 0)

/-- The operands of COPY, and whether both regions are coded (R318). -/
def copyCheck (x : Ctx) : Eng (Rng × Rng × Nat × Bool) := poolAt 0 (do
  engNeed (x.opform == 0)
  let n ← poolLen (x.op 2) 47 true
  let cs ← poolCoded (x.op 0)
  let cd ← poolCoded (x.op 1)
  engNeed (cs == cd)
  let a ← poolRng (x.op 0) n false 0 cs
  let d ← poolRng (x.op 1) n true 1 cd
  engNeed (!cs || (a.addr % 65536 == 0 && d.addr % 65536 == 0 && n % 65536 == 0))
  poolApart d n [(a, n)]
  return (a, d, n, cs))

/-- The stored length of a block's payload, by its header as it stands when the block is planned. -/
def rawPayload (r : Rng) (off : Nat) : Eng Nat := do
  match ← engTape (do return .num (min 65536 (blkHdr (← rawHdrAt r off)).payload)) with
  | .num n => return n
  | _ => return 0

def copyRun (x : Ctx) : Eng (Nat × Nat × Nat) := do
  let (a, d, n, coded) ← copyCheck x
  if coded then
    let t ← (List.range (n / 65536)).foldlM (fun (t : List Nat) i => poolAt i (do
      let m ← rawPayload a (i * 65536)
      let t ← poolTake x t [m, m, 0, 0, 0] [(a, i * 65536, m), (d, i * 65536, m)]
      let (h, p) ← engBlock a (i * 65536)
      poolHome d (i * 65536) 64
      engNote d (i * 65536) (← engTarget d (i * 65536) 65536) 65536 (.block h p)
      engMod (fun s => (s.count R.POOL_RD_BYTES.COUNT (64 + p.length)).count R.POOL_WR_BYTES.COUNT (64 + p.length))
      return t)) []
    poolEnd x t
  else
    let t ← (lines128 n).foldlM (fun (t : List Nat) p => poolAt (p.1 / 65536) (do
      let t ← poolTake x t [p.2, p.2, 0, 0, p.2] [(a, p.1, p.2), (d, p.1, p.2)]
      poolHome d p.1 p.2
      engWrite d p.1 (← engRead a p.1 p.2)
      engMod (fun s => (s.count R.POOL_RD_BYTES.COUNT p.2).count R.POOL_WR_BYTES.COUNT p.2)
      return t)) []
    poolEnd x t
  return (stOK, 0, 0)

/-! ### COMPARE and DIGEST (R320) -/

def compareCheck (x : Ctx) : Eng (Rng × Rng × Nat × Rng) := poolAt 0 (do
  poolBlock x 5 false
  let n ← poolLen (x.op 3) 47 true
  let a ← poolRng (x.op 1) n false 1
  let b ← poolRng (x.op 2) n false 2
  let o ← poolRng (x.op 4) 16 true 4
  poolApart o 16 [(a, n), (b, n)]
  poolHome o 0 16
  return (a, b, n, o))

/-- The first differing byte of two runs, and the 8-byte words that differ. -/
def runDiff (a b : List Byte) : Option Nat × Nat :=
  (((List.range a.length).find? (fun i => a.getD i 0 != b.getD i 0)),
    ((List.range (a.length / 8)).filter (fun k => slice a (8 * k) 8 != slice b (8 * k) 8)).length)

def compareRun (x : Ctx) : Eng (Nat × Nat × Nat) := do
  let (a, b, n, o) ← compareCheck x
  let (t, first, words) ← (lines128 n).foldlM (fun (t : List Nat × Option Nat × Nat) p => poolAt (p.1 / 65536) (do
    let u ← poolTake x t.1 [2 * p.2, 0, 0, 0, 0] [(a, p.1, p.2), (b, p.1, p.2)]
    let (f, k) := runDiff (← engRead a p.1 p.2) (← engRead b p.1 p.2)
    engMod (fun s => s.count R.POOL_RD_BYTES.COUNT (2 * p.2))
    return (u, t.2.1 <|> f.map (· + p.1), t.2.2 + k))) ([], none, 0)
  poolAt 0 (engWrite o 0 (leBytes 8 (first.getD (2 ^ 64 - 1)) ++ leBytes 8 words))
  engMod (fun s => s.count R.POOL_WR_BYTES.COUNT 16)
  poolEnd x t
  return (stOK, 0, b2n first.isSome)

def digestCheck (x : Ctx) : Eng (Rng × Nat × Rng) := poolAt 0 (do
  poolBlock x 4 false
  let n ← poolLen (x.op 2) 40 false
  engNeed (n ≤ 2 ^ 40)
  let a ← poolRng (x.op 1) n false 1 false 1
  let o ← poolRng (x.op 3) 48 true 3 false 64
  poolApart o 48 [(a, n)]
  poolHome o 0 48
  return (a, n, o))

/-- The two-level digest of chunks (R320). -/
def digest2 (n : Nat) (leaves : List (List Byte)) : List Byte := sha384 (leBytes 8 n ++ leaves.flatten)

def digestRun (x : Ctx) : Eng (Nat × Nat × Nat) := do
  let (a, n, o) ← digestCheck x
  -- the step's draw, the bytes of the chunk under way, latest first, and the leaves
  let (t, leaves) ← (List.range (ceilDiv n 65536)).foldlM (fun (t : List Nat × List (List Byte)) j => poolAt j (do
    let m := min 65536 (n - 65536 * j)
    let (u, b) ← (lines128 m).foldlM (fun (u : List Nat × List (List Byte)) p => do
      let w ← poolTake x u.1 [p.2, 0, 0, p.2, 0] [(a, 65536 * j + p.1, p.2)]
      return (w, (← engRead a (65536 * j + p.1) p.2) :: u.2)) (t.1, [])
    engMod (fun s => (s.count R.POOL_RD_BYTES.COUNT m).count R.POOL_HASH_BYTES.COUNT m)
    return (u, t.2 ++ [sha384 b.reverse.flatten]))) ([], [])
  poolAt 0 (engWrite o 0 (digest2 n leaves))
  engMod (fun s => s.count R.POOL_WR_BYTES.COUNT 48)
  poolEnd x t
  return (stOK, 0, 0)

/-! ### REDUCE (R321) -/

/-- The minimum of R217, on values. -/
def numMinV (x y : Num) : Num := if x.isNaN || y.isNaN then .nan else if y.lt x then y else x

structure Reduce where
  rnd : Nat
  ofmt : Nat
  op : Nat
  accum : Bool
  dst : Rng
  n : Nat
  ifmt : Nat
  srcs : List Rng

def reduceCheck (x : Ctx) : Eng Reduce := poolAt 0 (do
  poolBlock x 4 true
  let w := x.op 0
  let ofmt := bits w 33 30
  let op := bits w 29 27
  let accum := bitAt w 0
  let n := bits (x.op 2) 23 0
  let ns := bits (x.op 2) 39 32
  let ifmt := bits (x.op 2) 43 40
  engNeed (bits w 63 36 == 0 && bits w 26 1 == 0 && embDense.contains ofmt && embDense.contains ifmt && op ≤ 2 &&
    (!accum || (op == 0 && ofmt == 0xE)) && (op == 0 || ofmt != 0xE) && 1 ≤ n && 1 ≤ ns && ns ≤ 64 &&
    bits (x.op 2) 31 24 == 0 && bits (x.op 2) 63 44 == 0)
  let dst ← poolRng (x.op 1) (rowBytes ofmt n) true 1
  let arr ← poolRng (x.op 3) (8 * ns) false 3
  let b ← engRead arr 0 (8 * ns)
  let srcs ← (List.range ns).mapM (fun i => poolRng (le b (8 * i) 8) (rowBytes ifmt n) false 3)
  poolApart dst (rowBytes ofmt n) ((arr, 8 * ns) :: srcs.map (fun r => (r, rowBytes ifmt n)))
  return { rnd := bits w 35 34, ofmt := ofmt, op := op, accum := accum, dst := dst, n := n, ifmt := ifmt, srcs := srcs })

/-- Elements a step takes at a time. -/
def reduceGrain : Nat := 16

def reduceRun (x : Ctx) : Eng (Nat × Nat × Nat) := do
  let k ← reduceCheck x
  let ns := k.srcs.length
  let a ← (List.range (ceilDiv k.n reduceGrain)).foldlM (fun (a : List Nat) g => do
    let i := reduceGrain * g
    let m := min reduceGrain (k.n - i)
    let ib := rowBytes k.ifmt m
    let ob := rowBytes k.ofmt m
    let rd := ns * ib + b2n k.accum * ob
    let a ← poolAt (rowBytes k.ofmt i / 65536) (poolTake x a [rd, ob, b2n (k.op == 0) * (m * ns), 0, b2n (k.op == 0) * (40 * m)]
      ((k.dst, rowBytes k.ofmt i, ob + b2n k.accum * ob) :: k.srcs.map (fun r => (r, rowBytes k.ifmt i, ib))))
    poolAt (rowBytes k.ofmt i / 65536) (do
      poolHome k.dst (rowBytes k.ofmt i) ob
      let vs ← k.srcs.mapM (fun r => do engVals k.ifmt m (← engRead r (rowBytes k.ifmt i) ib) [])
      let old ← if k.accum then (do engVals k.ofmt m (← engRead k.dst (rowBytes k.ofmt i) ob) []) else pure []
      let out := (List.range m).map (fun j =>
        let es := vs.map (fun (v : List EV) => v.getD j (.terms []))
        if k.op = 0 then
          EV.img ((es ++ (if k.accum then [old.getD j (.terms [])] else [])).foldl (fun (a : LAcc) v => v.into a) {})
        else
          let pick := if k.op = 1 then numMinV else numMaxV
          match es.map EV.num with
          | [] => EV.terms []
          | v :: rest => EV.terms [rest.foldl pick v])
      engWrite k.dst (rowBytes k.ofmt i) (rowEnc k.ofmt k.rnd out).1
      engMod (fun s =>
        let s := (s.count R.POOL_RD_BYTES.COUNT rd).count R.POOL_WR_BYTES.COUNT ob
        let t := s.poolFrac + b2n (k.op == 0) * (m * ns)
        ({ s with poolFrac := t % 2 ^ 20 }).count R.POOL_TERMS.COUNT (t / 2 ^ 20)))
    return a) []
  poolEnd x a
  return (stOK, 0, 0)

/-! ### SEIZE (R339) -/

/-- The description's operands: its range and length. -/
def seizeOps (x : Ctx) : Eng (Rng × Nat) := poolAt 0 (do
  poolBlock x 3 false
  let n := bits (x.op 2) 16 0
  engNeed (bits (x.op 2) 63 17 == 0 && decide (64 ≤ n) && decide (n ≤ 65536))
  let r ← engRng (x.op 1) n false 1
  engNeed (r.addr % 64 == 0)
  let _ ← engSga r 0
  return (r, n))

/-- Cuts a description into its sections, each SIZE bytes and aligned to 64 B; none where they do not fill it exactly. -/
def seizeCut : Nat → List Byte → Option (List (List Byte))
  | 0, l => if l.isEmpty then some [] else none
  | k + 1, l =>
    if l.isEmpty then some []
    else
      let n := le l 6 2
      let m := ceilDiv n 64 * 64
      if n < 64 ∨ 4096 < n ∨ n % 8 ≠ 0 ∨ l.length < n then none
      else (seizeCut k (l.drop m)).map (fun r => l.take n :: r)

/-- Reads a description of `n` bytes, `m` bytes in each knot (R339). -/
def seizeBytes (r : Rng) (m n : Nat) : Nat → Nat → Eng (List Byte)
  | 0, _ => return []
  | k + 1, o => do
    let d ← engRead r o (min m (n - o))
    if n ≤ o + m then return d
    else
      engPause
      return d ++ (← seizeBytes r m n k (o + m))

/-- Reads and cuts the description: as many knots as the partition's share of store bytes needs. -/
def seizeRead (x : Ctx) : Eng (List (List Byte)) := do
  let (r, n) ← seizeOps x
  poolAt 0 (do
    let near := (← engTier [(r, 0, n)]).headD 0 != 0
    let m ← engNum (fun e =>
      let c := tierCaps e.s e.pid x.cls
      max 64 (if near then c.headD 0 else c.getLastD 0))
    match seizeCut 16 (← seizeBytes r m n (ceilDiv n 64) 0) with
    | some l => return l
    | none => engBad)

/-- Translates the actions of the command's own part (step 4 of R329). -/
def seizeXlt (as : List SAction) : Eng (List SAction) :=
  as.mapM (fun a => do
    let r ← engRng a.addr a.data.length (a.kind != 2) 1
    let sga ← engSga r 0 (leafNeed (actionOp a.kind))
    match ← engNum (fun e => match sgaHere e.s sga with | some loc => loc + 1 | none => 0) with
    | 0 => engFail stSTALEMAP 2 0
    | k + 1 => return { a with loc := k })

/-- What becomes of the actions of the own part: translated, or refused with a status and a SUB. -/
abbrev OwnPart := Option (Except (Nat × Nat) (List SAction))

/-- The record of the own part. -/
def seizeRec (s : Body) (c x sid pid : Nat) (b : CtlBlk) (as : List SAction) : Seizing := {
  ocid := s.get R.FAB_PEER_CID.CID, sid := sid, pid := pid, index := b.index, oneshot := false, parts := b.parts, actions := as,
  preparedAt := s.now, cmd := some (c, x) }

/-- The command's own part is prepared internally, with no message. -/
def seizeOwn (s : Body) (c x sid pid : Nat) (sec : List Byte) (own : OwnPart) : Body :=
  let cid := s.get R.FAB_PEER_CID.CID
  match parseOrigin s cid sec with
  | .error sub =>
    let b := ctlBlk sec
    let s := if 1 ≤ b.npart ∧ b.npart ≤ 16 ∧ b.index < b.npart then txnVote s cid sid pid b.index b.parts stBADOPCODE sub else s
    originAnswer s c x stBADOPCODE sub
  | .ok (b, as) =>
    let t := seizeRec s c x sid pid b as
    match txnRoom s t with
    | some s => s
    | none => match own with
      | some (.ok as) => txnBegin s { t with actions := as }
      | some (.error (st, sub)) => txnFail (txnOpenRec s { t with preparing := false }) t st sub
      | none => txnFail (txnOpenRec s { t with preparing := false }) t stSTALEMAP 2

/-- Sends every prepare (R339). -/
def seizeSend (s : Body) (c x : Nat) (secs : List (List Byte)) (own : List OwnPart) : Body :=
  let v := s.ctx c x
  let sid := s.txn.nextId % 2 ^ 24
  let coord := (ctlBlk (secs.headD [])).parts.headD 0
  let o : Origin := { core := c, ctx := x, sid := sid, pid := v.pid, waiting := secs.length, coord := coord }
  let s := { s with txn := { s.txn with nextId := (sid + 1) % 2 ^ 24, origins := s.txn.origins ++ [o] } }
  (secs.zip own).foldl (fun s p =>
    let sec := p.1
    let b := ctlBlk sec
    let hid := b.parts.getD b.index 0
    if hid = s.hid then seizeOwn s c x sid v.pid sec p.2
    else
      let n := ([64, 128, 256, 512, 1024, 2048].find? (fun m => decide (sec.length ≤ m))).getD 4096
      peerSend s hid opSEIZEPREPARE 0 sid v.pid (slice sec 0 n) (.prepare c x)) s

/-- The own part among the sections: its actions are translated where steps 1 to 3 of R329 pass. -/
def seizeOwnPart (sec : List Byte) : Eng OwnPart := do
  let e ← get
  match parseOrigin e.s (e.s.get R.FAB_PEER_CID.CID) sec with
  | .error _ => return none
  | .ok (b, as) =>
    if ← engAsk (fun e => (ctlBlk sec).parts.getD b.index 0 == e.s.hid &&
        (txnRoom e.s (seizeRec e.s e.core e.x 0 e.pid b as)).isNone) then
      tryCatch (do return some (.ok (← seizeXlt as))) (fun q => match q with
        | .fail st sub _ => return some (.error (st, sub))
        | q => throw q)
    else return none

/-- Once every participant has answered, SEIZE_COMMIT or SEIZE_ABORT goes to the coordinator (R339). -/
def seizeFinish (s : Body) (o : Origin) : Body :=
  if o.waiting ≠ 0 ∨ o.sent then s
  else
    let s := { s with txn := { s.txn with origins := s.txn.origins.map (fun (p : Origin) =>
      if p.core = o.core ∧ p.ctx = o.ctx then { p with sent := true } else p) } }
    let cid := s.get R.FAB_PEER_CID.CID
    if o.coord ≠ s.hid then
      peerSend s o.coord (if o.fail.isNone then opSEIZECOMMIT else opSEIZEABORT) 0 o.sid o.pid [] (.finish o.core o.ctx)
    else match o.fail, (txnRec s cid o.sid).filter (fun t => isCoord s t) with
      | none, some t => txnPut s { t with commitSeen := true }
      | some f, some t => if t.outcome.isSome then s else txnPut s { t with cause := some (t.cause.getD f) }
      | some (st, sub), none => originEnd s o.core o.ctx st sub 0
      | none, none => originEnd s o.core o.ctx stSEIZEABORT 3 0

/-- Every SEIZE command under way goes on. -/
def seizeProgress (s : Body) : Body := s.txn.origins.foldl seizeFinish s

/-- A peer's answer to a SEIZE command's message: a prepare, or the coordinator's (R339). -/
def seizeAnswer (s : Body) (prepare : Bool) (c x st sub : Nat) (pay : List Byte) : Body :=
  if prepare then seizeProgress (originAnswer s c x st sub)
  else match s.txn.origins.find? (fun o => o.core == c && o.ctx == x) with
    | none => s
    | some o =>
      let (st, sub) := match o.fail with | some f => f | none => (st, sub)
      originEnd s c x st sub (leNat (slice pay 0 8))

/-- SEIZE: the description is read, every prepare is sent in one step, and the command waits for the coordinator's answer. -/
def seizeRun (x : Ctx) : Eng (Nat × Nat × Nat) := do
  let secs ← seizeRead x
  if ← engAsk (fun e => !peerReady e.s && secs.any (fun b => (ctlBlk b).parts.any (· != e.s.hid))) then engFail stRETRY 5 0
  let own ← secs.mapM seizeOwnPart
  let e ← get
  engAcc (fun s => seizeProgress (seizeSend s e.core e.x secs own))
  engStep 1
  engWantNow (fun w => { w with wait := true })

/-- SEIZE. -/
def seizeRow (c x : Nat) (s : Body) : Body := engRow 5 0x10 seizeRun c x s

/-! ### The rows of the table -/

/-- The operand check of a pool command (R190 check 6). -/
def poolCheck (x : Ctx) : Eng Unit := do
  if x.opcode = 1 then let _ ← fillCheck x
  else if x.opcode = 2 then let _ ← copyCheck x
  else if x.opcode = 3 then let _ ← compareCheck x
  else if x.opcode = 4 then let _ ← digestCheck x
  else if x.opcode = 5 then let _ ← reduceCheck x
  else let _ ← seizeOps x

/-- What a pool command computes. -/
def poolRun (x : Ctx) : Eng (Nat × Nat × Nat) :=
  if x.opcode = 1 then fillRun x else if x.opcode = 2 then copyRun x else if x.opcode = 3 then compareRun x
  else if x.opcode = 4 then digestRun x else if x.opcode = 5 then reduceRun x else seizeRun x

/-- FILL, COPY, COMPARE, DIGEST and REDUCE. -/
def poolRow (opcode : Nat) (c x : Nat) (s : Body) : Body := engRow 5 opcode poolRun c x s

end Sys2Proof.Machine
end

