-- ==== Sys2Proof/Machine/Stp.lean ====
section
/-!
DEFINITION. The step cores and their work queues (R156 to R198): semaphores, barriers and waits, fetch and checks of
descriptors, release, completion with its signals and record, and the ends that resets bring.
-/

namespace Sys2Proof.Machine

/-! ### Semaphores (R167 to R171) -/

/-- The SEM entry that allocates semaphore `n` of core `c` (R521). -/
def semDef (s : Body) (c n : Nat) : Option SemDef :=
  s.img.sems.find? (fun d => d.core == c && decide (d.sem ≤ n) && decide (n < d.sem + (if d.barrier then 2 else d.num)))

/-- KIND of an allocated semaphore: 0 COUNTER, 1 BARRIER head, 2 BARRIER body. -/
def semKind (d : SemDef) (n : Nat) : Nat := if d.barrier then (if n = d.sem then 1 else 2) else 0

/-- VALUE of semaphore `n` of core `c`. -/
def semVal (s : Body) (c n : Nat) : Nat := s.get R.SEM.VALUE (c * 4096 + n)

def setSem (s : Body) (c n v : Nat) : Body := s.set R.SEM.VALUE (v % 2 ^ 32) (c * 4096 + n)

/-- A sync word (R168). -/
structure SyncW where
  op : Nat
  acq : Bool
  sem : Nat
  operand : Nat

def syncW (w : Nat) : SyncW := { op := bits w 63 60, acq := bitAt w 59, sem := bits w 43 32, operand := bits w 31 0 }

/-- The sync words of a context: WAIT0, WAIT1, and SIG0, SIG1. -/
def Ctx.wait (x : Ctx) (i : Nat) : SyncW := syncW (x.word (1 + i))
def Ctx.sig (x : Ctx) (i : Nat) : SyncW := syncW (x.word (3 + i))

/-- Serial comparison (R169): a has reached b. -/
def serialGe (a b : Nat) : Bool := decide ((a + 2 ^ 32 - b) % 2 ^ 32 < 2 ^ 31)

/-- Round g has completed: (GEN − g) mod 2^32 is 1 to 2^31 − 1 (R169). -/
def roundPast (gen g : Nat) : Bool := gen != g && serialGe gen g

/-- Notes a change of a semaphore at this boundary, for the WAIT_END records that it causes (R479). -/
def noteSig (s : Body) (c sem kind ctx seq : Nat) : Body :=
  let k := s.core c
  s.setCore c { k with sigs := k.sigs ++ [(sem, kind, ctx, seq)] }

/-- The reserved parts of a sync word are zero (R168). -/
def syncShape (w : Nat) : Bool :=
  let y := syncW w
  bits w 58 44 == 0 && (y.op != 0 || w == 0) && (y.op != 8 || (y.sem == 0 && decide (y.operand < 64)))

/-- Why a sync word is refused (R170): its cause and the status; none where it is accepted. -/
def syncRefused (s : Body) (c pid : Nat) (wait : Bool) (y : SyncW) : Option (Nat × Nat) :=
  let v := semVal s c y.sem
  let nq := match partDef s pid with | some p => p.nq | none => 0
  let d := semDef s c y.sem
  let kind := match d with | some d => semKind d y.sem | none => 3
  let use := if wait then y.op == 1 || y.op == 2 || y.op == 6 || y.op == 7 else y.op == 3 || y.op == 4 || y.op == 5
  let dist := (y.operand + 2 ^ 32 - v) % 2 ^ 32
  if y.op = 0 then none
  else if y.op = 8 ∧ wait = false then
    (if y.acq then some (4, stBADOPCODE) else if nq ≤ y.operand then some (6, stBADOPCODE) else none)
  else if (match d with | some d => d.pid != pid | none => true) then some (1, stPERMISSION)
  else if y.op = 1 ∧ 2 ^ 16 < dist ∧ dist < 2 ^ 31 then some (2, stBADOPCODE)
  else if (2 ≤ y.op ∧ y.op ≤ 4 ∧ 2 ^ 16 < y.operand) ∨ (y.op = 2 ∧ y.operand = 0) then some (3, stBADOPCODE)
  else if !use ∨ (y.acq ∧ wait = false) ∨ kind ≠ (if 1 ≤ y.op ∧ y.op ≤ 4 then 0 else 1) then some (4, stBADOPCODE)
  else if (y.op = 5 ∨ y.op = 6) ∧ roundPast v y.operand then some (5, stBADOPCODE)
  else none

/-! ### Barriers (R173 to R175) -/

/-- The number under which a stalled arrival is recorded (R478). -/
def arrivalNo (a : Nat × Nat) : Nat := 2 + a.1 + 4096 * a.2

/-- The recorded wait of a context: the knot of its WAIT_BEGIN. -/
def waitBegun (s : Body) (c x i : Nat) : Option Nat :=
  (s.obs.waits.find? (fun w => w.1 == c && w.2.1 == x && w.2.2.1 == i)).map (·.2.2.2)

/-- What ended a wait on a semaphore (R479): RKIND, RCTX and RSEQ, of the round for a barrier operation, of the first signal or
forced change otherwise. -/
def waitCause (s : Body) (c : Nat) (y : SyncW) : Nat × Nat × Nat :=
  let mine := (s.core c).sigs.filter (fun g => g.1 == y.sem)
  let rounds := mine.filter (fun g => g.2.1 == 2)
  let first := (sortBy (fun (a b : Nat × Nat × Nat × Nat) => decide (a.2.2.1 < b.2.2.1)) mine).head?
  match (if 5 ≤ y.op ∧ y.op ≤ 7 then rounds.getLast? <|> first else first) with
  | some g => (g.2.1, g.2.2.1, g.2.2.2)
  | none => (1, 0, 0)

/-- WAIT_END (R478, R479): the recorded wait `i` of a context ends, aborted or satisfied. -/
def waitEnd (s : Body) (c x i : Nat) (y : SyncW) (aborted : Bool) : Body :=
  match waitBegun s c x i with
  | none => s
  | some k =>
    let v := s.ctx c x
    let (rk, rctx, rseq) := if aborted then (4, 0, 0) else waitCause s c y
    let nsig := min 255 ((s.core c).sigs.countP (fun g => g.1 == y.sem && g.2.1 == 1))
    let ext := leBytes 1 rk ++ leBytes 1 nsig ++ leBytes 1 rctx ++ [0] ++ leBytes 4 rseq ++ leBytes 4 (s.now - k) ++ leBytes 4 0
    let s := { s with obs := { s.obs with waits := s.obs.waits.filter (fun w => !(w.1 == c && w.2.1 == x && w.2.2.1 == i)) } }
    syncRec s 0x11 c x v.queue y.op v.pid y.sem v.idx y.operand 0 ext

/-- A stalled arrival as a sync word. -/
def arrivalW (a : Nat × Nat) : SyncW := { op := 5, acq := false, sem := a.1, operand := a.2 }

/-- An arrival of a context counts, and no longer holds the context (R174). -/
def arrivalTaken (s : Body) (c x : Nat) (a : Nat × Nat) : Body :=
  let s := waitEnd s c x (arrivalNo a) (arrivalW a) false
  let v := s.ctx c x
  s.setCtx c x { v with arrivals := v.arrivals.erase a }

/-- The arrivals that wait in the contexts of a core, by context. -/
def openArrivals (s : Body) (c : Nat) : List (Nat × Nat × Nat) :=
  (s.core c).ctxs.flatMap (fun (v : Nat × Ctx) => v.2.arrivals.map (fun a => (v.1, a)))

/-- The rounds that complete (R175): `ctx`, `queue` and `seq` made the last arrival; 15, 0 and 0 stand for a forced change. -/
def barrierRounds (c sem n ctx queue seq : Nat) : Nat → Body → Body
  | 0, s => s
  | fuel + 1, s =>
    let body := semVal s c (sem + 1)
    if body % 65536 < n then s
    else
      let gen := (semVal s c sem + 1) % 2 ^ 32
      let s := noteSig (setSem s c sem gen) c sem 2 ctx seq
      let pid := match semDef s c sem with | some d => d.pid | none => 0
      let s := syncRec s 0x13 c ctx queue 5 pid sem seq n gen []
      let free := (openArrivals s c).filter (fun a => a.2 == (sem, (gen + 1) % 2 ^ 32))
      let s := setSem s c (sem + 1) (body / 65536 + 65536 * free.length)
      barrierRounds c sem n ctx queue seq fuel (free.foldl (fun s a => arrivalTaken s c a.1 a.2) s)

/-- One arrival is counted, or keeps waiting (R174, R175): the last arrival of each barrier is noted. -/
def arrivalCount (c : Nat) (r : Body × AMap (Option (Nat × Nat × Nat))) (a : Nat × Nat × Nat) :
    Body × AMap (Option (Nat × Nat × Nat)) :=
  let s := r.1
  let gen := semVal s c a.2.1
  let v := s.ctx c a.1
  let took := fun (n : Nat) =>
    (arrivalTaken (setSem s c (a.2.1 + 1) (semVal s c (a.2.1 + 1) + n)) c a.1 a.2,
      AMap.put none r.2 a.2.1 (some (a.1, v.queue, v.idx)))
  if a.2.2 = gen then took 1
  else if a.2.2 = (gen + 1) % 2 ^ 32 then took 65536
  else r

/-- Step 3 of R171 on one core (R175): the arrivals, and then the rounds of each barrier. A context that only its arrivals held is
freed. -/
def arrivalsApply (s : Body) (c : Nat) : Body :=
  let (s, last) := (openArrivals s c).foldl (arrivalCount c) (s, [])
  let s := (s.img.sems.filter (fun d => d.core == c && d.barrier)).foldl (fun s d =>
    let (x, q, k) := (AMap.get none last d.sem).getD (15, 0, 0)
    barrierRounds c d.sem (d.num % 256 + 1) x q k 128 s) s
  (s.core c).ctxs.foldl (fun s (v : Nat × Ctx) =>
    if v.2.phase = .stalled ∧ v.2.arrivals.isEmpty then s.setCtx c v.1 {} else s) s

/-! ### Waits (R171, R177) -/

/-- Wait `i` of a context is still to be satisfied. -/
def Ctx.waits (x : Ctx) (i : Nat) : Bool :=
  x.phase == .waiting && (x.wait i).op != 0 && !(if i = 0 then x.wait0 else x.wait1)

/-- Wait `i` of a context is satisfied (R165, R171). -/
def waitDone (s : Body) (c x i : Nat) : Body :=
  let v := s.ctx c x
  let y := v.wait i
  let s := waitEnd s c x i y false
  let s := s.setCtx c x (if i = 0 then { s.ctx c x with wait0 := true } else { s.ctx c x with wait1 := true })
  let s := s.count R.STP_SEM_OPS.COUNT 1 c
  if y.acq then waysInvalidate s c false v.pid else s

/-- The unsatisfied waits of a core, as (knot it began in, context, number). -/
def openWaits (s : Body) (c : Nat) : List (Nat × Nat × Nat) :=
  ((s.core c).ctxs.flatMap (fun (v : Nat × Ctx) => ((List.range 2).filter v.2.waits).map (fun i => (v.2.waitFrom, v.1, i))))

/-- Step 4 of R171 on one core: the WAIT_TAKE waits in order, a failing one holding those after it on its semaphore; then
the others. -/
def evalWaits (s : Body) (c : Nat) : Body :=
  let ws := sortBy (fun (w u : Nat × Nat × Nat) => decide (w.1 < u.1) || (w.1 == u.1 && decide (w.2.1 < u.2.1))) (openWaits s c)
  let takes := ws.filter (fun w => ((s.ctx c w.2.1).wait w.2.2).op == 2)
  let (s, _) := takes.foldl (fun (a : Body × List Nat) w =>
    let y := (a.1.ctx c w.2.1).wait w.2.2
    let v := semVal a.1 c y.sem
    if a.2.contains y.sem ∨ !serialGe v y.operand then (a.1, y.sem :: a.2)
    else (waitDone (setSem a.1 c y.sem (v + 2 ^ 32 - y.operand)) c w.2.1 w.2.2, a.2)) (s, [])
  (ws.filter (fun w => ((s.ctx c w.2.1).wait w.2.2).op != 2)).foldl (fun s w =>
    let y := (s.ctx c w.2.1).wait w.2.2
    let v := semVal s c y.sem
    let ok := if y.op = 1 then serialGe v y.operand else roundPast v y.operand
    if ok then waitDone s c w.2.1 w.2.2 else s) s

/-- A wait or stalled arrival that has been evaluated and not satisfied is recorded (R478). -/
def waitBegin (s : Body) (c x i : Nat) (y : SyncW) : Body :=
  if (waitBegun s c x i).isSome then s
  else
    let v := s.ctx c x
    let s := { s with obs := { s.obs with waits := s.obs.waits ++ [(c, x, i, s.now)] } }
    syncRec s 0x10 c x v.queue y.op v.pid y.sem v.idx y.operand 0 []

/-- The waits and the arrivals of a core that go on. -/
def waitsBegin (s : Body) (c : Nat) : Body :=
  let s := (openWaits s c).foldl (fun s w => waitBegin s c w.2.1 w.2.2 ((s.ctx c w.2.1).wait w.2.2)) s
  (openArrivals s c).foldl (fun s a => waitBegin s c a.1 (arrivalNo a.2) (arrivalW a.2)) s

/-- WAIT_LIMIT_REACHED (R177): each wait of the context that has lasted WAIT_LIMIT knots is reported once. -/
def waitLimit (c x : Nat) (s : Body) : Body :=
  let v := s.ctx c x
  let lim := s.get R.STP_CTRL.WAIT_LIMIT c
  (List.range 2).foldl (fun s i =>
    let v := s.ctx c x
    if lim = 0 ∨ !v.waits i ∨ (if i = 0 then v.long0 else v.long1) ∨ s.now < v.waitFrom + lim then s
    else
      let y := v.wait i
      let s := s.setCtx c x (if i = 0 then { v with long0 := true } else { v with long1 := true })
      let s := s.set R.STP_WAIT_LOG.CTX (x % 16) c
      let s := s.set R.STP_WAIT_LOG.PID v.pid c
      let s := s.set R.STP_WAIT_LOG.QUEUE v.queue c
      let s := s.set R.STP_WAIT_LOG.SEM y.sem c
      let s := s.set R.STP_WAIT_LOG.TARGET y.operand c
      let s := s.set R.STP_WAIT_KNOT.KNOT v.waitFrom c
      s.set R.STP_EVENT.WAIT_LONG 1 c) (if v.phase = .waiting then s else s)

/-! ### Forced changes (R178) -/

/-- A write of STP_SEM_FORCE or of a SEM word's VALUE: armed for the next boundary; ignored where the semaphore is not
allocated. -/
def forceArm (s : Body) (c sem : Nat) (add : Bool) (v : Nat) : Body :=
  if (semDef s c sem).isNone then s
  else
    let k := s.core c
    s.setCore c { k with forces := k.forces ++ [(sem, add, v)] }

/-- One forced change takes effect: `before` is the value that it finds (R178). -/
def forceApply (s : Body) (c : Nat) (f : Nat × Bool × Nat) (before : Nat) : Body :=
  let pid := match semDef s c f.1 with | some d => d.pid | none => 0
  let s := setSem s c f.1 (if f.2.1 then semVal s c f.1 + f.2.2 else f.2.2)
  let op := if f.2.1 then 2 else 1
  let s := s.set R.STP_FORCE_LOG.OP op c
  let s := s.set R.STP_FORCE_LOG.PID pid c
  let s := s.set R.STP_FORCE_LOG.SEM f.1 c
  let s := s.set R.STP_FORCE_LOG.BEFORE before c
  let s := s.set R.STP_FORCE_KNOT.KNOT s.now c
  let s := (s.set R.STP_EVENT.FORCE 1 c).count R.STP_FORCE_CNT.COUNT 1 c
  let s := noteSig s c f.1 3 15 0
  syncRec s 0x14 c 15 0 op pid f.1 0 f.2.2 0 []

/-- The forced changes of a core take effect (steps 1 and 2 of R171): each SET in turn, then the ADDs as one change. -/
def forcesApply (s : Body) (c : Nat) : Body :=
  let k := s.core c
  let s := (k.forces.filter (fun f => !f.2.1)).foldl (fun s f => forceApply s c f (semVal s c f.1)) (s.setCore c { k with forces := [] })
  (k.forces.filter (·.2.1)).foldl (fun t f => forceApply t c f (semVal s c f.1)) s

/-! ### Queues (R180 to R186, R196, R197) -/

/-- The image defines the queue; its core. -/
def queCore (s : Body) (key : Nat) : Option Nat :=
  match partDef s (key / 64) with
  | some p => if key % 64 < p.nq then p.qcore[key % 64]? else none
  | none => none

/-- The contexts that hold commands of a queue: core and number. -/
def queCtxs (s : Body) (key : Nat) : List (Nat × Nat) :=
  match queCore s key with
  | none => []
  | some c => ((s.core c).ctxs.filter (fun (v : Nat × Ctx) =>
      v.1 < 16 && v.2.phase != .idle && queKey v.2.pid v.2.queue == key)).map (fun v => (c, v.1))

/-- Descriptor index `a` comes before `b` (serial). -/
def idxBefore (a b : Nat) : Bool := a != b && serialGe b a

/-- The queues of a step core, by PID and number. -/
def coreQueues (s : Body) (c : Nat) : List Nat :=
  sortBy (fun a b => decide (a < b)) (s.img.parts.flatMap (fun p =>
    ((List.range p.nq).filter (fun q => p.qcore[q]? == some c)).map (queKey p.pid)))

/-- The contexts of a core that hold commands, those of one queue by descriptor index. -/
def ctxsByIdx (s : Body) (c : Nat) : List Nat :=
  let k := s.core c
  let xs := (k.ctxs.filter (fun (v : Nat × Ctx) => v.2.phase != .idle)).map (fun v => (v.1, queKey v.2.pid v.2.queue, v.2.idx))
  (sortBy (fun (a b : Nat × Nat × Nat) => decide (a.2.1 < b.2.1) || (a.2.1 == b.2.1 && idxBefore a.2.2 b.2.2)) xs).map (·.1)

/-- A queue error, or (cause 0) a refused command (R197). -/
def queError (s : Body) (key cause status sub seq : Nat) : Body :=
  let s := s.set R.QUE_ERR_LOG.STATUS status
  let s := s.set R.QUE_ERR_LOG.SUB sub
  let s := s.set R.QUE_ERR_LOG.CAUSE cause
  let s := s.set R.QUE_ERR_LOG.PID (key / 64)
  let s := s.set R.QUE_ERR_LOG.QUEUE (key % 64)
  let s := s.set R.QUE_ERR_SEQ.SEQ (seq % 2 ^ 32)
  let s := s.set R.QUE_ERR_KNOT.KNOT s.now
  if cause = 0 then (s.set R.QUE_EVENT.REFUSED 1).count R.QUE_REFUSED.COUNT
  else
    let st := s.get R.QUE_STATUS.STATE 0 key
    let s := if cause = 4 then { s with que := { s.que with revoked := (s.que.revoked ++ [key]).eraseDups } } else s
    let s := if st = 1 ∨ st = 3 then (s.set R.QUE_STATUS.STATE 3 0 key).set R.QUE_STATUS.CAUSE cause 0 key else s
    s.set R.QUE_EVENT.ERR 1

/-- The producer index that the DOORBELLs decided at this boundary leave (R184). -/
def nextPI (s : Body) (key : Nat) : Nat :=
  match s.que.newPI.find? (fun e => e.1 == key) with | some (_, v) => v | none => s.get R.QUE_IDX.PI 0 key

/-- One KICK is applied to the queue of key `k` (R185), after the boundary's DOORBELLs: it advances both PI as it stands and what
those leave for the next boundary. -/
def kickApply (s : Body) (k : Nat × Nat × Nat × Nat × Nat × Nat) : Body :=
  let (c, x, queue, pid, seq, key) := k
  let one := fun (v : Nat) => (v + 1) % 2 ^ 32
  if s.get R.QUE_STATUS.STATE 0 key = 0 then s.count R.QUE_KICK_LOST.COUNT
  else if 2 ^ s.get R.QUE_DRING.LOG2N 0 key < (one (nextPI s key) + 2 ^ 32 - s.get R.QUE_IDX.FI 0 key) % 2 ^ 32 then
    queError (s.count R.QUE_KICK_LOST.COUNT) key 1 0 0 (nextPI s key)
  else
    let s := (s.set R.QUE_IDX.PI (one (s.get R.QUE_IDX.PI 0 key)) 0 key).count R.QUE_KICK.COUNT
    let s := { s with que := { s.que with
      newPI := s.que.newPI.map (fun (e : Nat × Nat) => if e.1 = key then (e.1, one e.2) else e),
      rung := (s.que.rung ++ [key]).eraseDups } }
    syncRec s 0x15 c x queue 8 pid 0 seq (key % 64) (nextPI s key) []

/-- The KICKs of a boundary are applied (R176, R185). -/
def kicksApply (s : Body) : Body := s.que.kicks.foldl kickApply { s with que := { s.que with kicks := [] } }

/-- The producer indices of the doorbells served in the knot before take effect (R184). -/
def doorbellsApply (s : Body) : Body :=
  let t := s.que.newPI.foldl (fun (s : Body) e => s.set R.QUE_IDX.PI e.2 0 e.1) s
  { t with que := { t.que with newPI := [] } }

/-- QUE_CTRL takes effect at a boundary (R196). -/
def queEnableNow (s : Body) (key : Nat) : Body :=
  if (queCore s key).isSome ∧ s.get R.QUE_STATUS.STATE 0 key = 0 then s.set R.QUE_STATUS.STATE 1 0 key else s
def queDisableNow (s : Body) (key : Nat) : Body :=
  let st := s.get R.QUE_STATUS.STATE 0 key
  if st = 1 ∨ st = 3 then (s.set R.QUE_STATUS.STATE 2 0 key).set R.QUE_STATUS.CAUSE 0 0 key else s
def queResumeNow (s : Body) (key : Nat) : Body :=
  if s.get R.QUE_STATUS.STATE 0 key = 3 then (s.set R.QUE_STATUS.STATE 1 0 key).set R.QUE_STATUS.CAUSE 0 0 key else s

/-- DRAIN_DONE (R196): a queue in DRAIN of which no context holds a command enters OFF. -/
def drainDone (pid q : Nat) (s : Body) : Body :=
  let key := queKey pid q
  if s.get R.QUE_STATUS.STATE 0 key = 2 ∧ (queCtxs s key).isEmpty then s.set R.QUE_STATUS.STATE 0 0 key else s

/-- A ring of `size` bytes may lie at `a` (R181). -/
def ringFits (s : Body) (pid a size : Nat) : Bool := a % size == 0 && ringPlaced s pid a size

/-- A queue holds PI − FI descriptors, never more than N (R182). -/
def idxFits (pi fi log2n : Nat) : Bool := decide ((pi + 2 ^ 32 - fi) % 2 ^ 32 ≤ 2 ^ log2n)

/-- The ring's extent is not fenced (R197). -/
def ringOpen (s : Body) (pid a : Nat) : Bool :=
  match regionOfSga s a with
  | some g => (s.part pid).cur.exts.any (fun e => e.region == g.id && !e.fenced)
  | none => false

/-- RING_PLACE (R181): a write of QUE_DRING (`cring` false) or QUE_CRING; ignored where it breaks a placement rule. The length that
QUE_DRING gives holds for a completion ring that has been placed too; one at base 0 has not (DESIGN CHOICE, log entry 126). -/
def ringPlace (pid q : Nat) (cring : Bool) (base log2n : Nat) (s : Body) : Body :=
  let key := queKey pid q
  let n := if cring then s.get R.QUE_DRING.LOG2N 0 key else log2n
  let dbase := if cring then s.get R.QUE_DRING.BASE 0 key else base
  let cbase := if cring then base else s.get R.QUE_CRING.BASE 0 key
  let dOk := ringFits s pid (dbase * 4096) (64 * 2 ^ n)
  let cOk := ringFits s pid (cbase * 4096) (32 * 2 ^ n)
  if s.get R.QUE_STATUS.STATE 0 key ≠ 0 ∨ (queCore s key).isNone ∨ n < 4 ∨ 16 < n ∨
      !(if cring then cOk else dOk && (cOk || cbase == 0) && idxFits (s.get R.QUE_IDX.PI 0 key) (s.get R.QUE_IDX.FI 0 key) n) then s
  else
    let s := if dOk && cOk && ringOpen s pid (dbase * 4096) && ringOpen s pid (cbase * 4096) then { s with que := { s.que with revoked := s.que.revoked.filter (· != key) } } else s
    if cring then s.set R.QUE_CRING.BASE base 0 key
    else (s.set R.QUE_DRING.BASE base 0 key).set R.QUE_DRING.LOG2N n 0 key

/-- QUEUE_INDEX_WRITE (R196): only in OFF; indices that would leave more than N descriptors are not taken (R182; DESIGN CHOICE,
log entry 127). -/
def queueIndexWrite (pid q pi fi : Nat) (s : Body) : Body :=
  let key := queKey pid q
  if s.get R.QUE_STATUS.STATE 0 key ≠ 0 ∨ !idxFits (pi % 2 ^ 32) (fi % 2 ^ 32) (s.get R.QUE_DRING.LOG2N 0 key) then s
  else (s.set R.QUE_IDX.PI (pi % 2 ^ 32) 0 key).set R.QUE_IDX.FI (fi % 2 ^ 32) 0 key

/-! ### Completion (R161, R191 to R195) -/

/-- Statuses under which a command has delivered its results. -/
def goodEnd (st : Nat) : Bool := st == stOK || st == stOKSPLICED || st == stRAWFALLBACK || st == stBUDGETMISS

/-- One signal of a completing command (R169, R185). Arrivals and KICKs take their places later at the boundary. -/
def signal (s : Body) (c x : Nat) (y : SyncW) : Body :=
  let v := s.ctx c x
  if y.op = 0 then s
  else
    let s := s.count R.STP_SEM_OPS.COUNT 1 c
    if y.op = 8 then
      { s with que := { s.que with kicks := s.que.kicks ++ [(c, x, v.queue, v.pid, v.idx, queKey v.pid y.operand)] } }
    else
      let s := if y.op = 3 then setSem s c y.sem (semVal s c y.sem + y.operand)
        else if y.op = 4 then setSem s c y.sem (semVal s c y.sem + 2 ^ 32 - y.operand)
        else s.setCtx c x { v with arrivals := v.arrivals ++ [(y.sem, y.operand)] }
      syncRec (noteSig s c y.sem 1 x v.idx) 0x12 c x v.queue y.op v.pid y.sem v.idx y.operand 0 []

/-- The completion record of a command (R194). -/
def crBytes (s : Body) (v : Ctx) (status sub result waited run : Nat) : List Byte :=
  leBytes 8 s.now ++ leBytes 4 v.idx ++ leBytes 4 v.user ++ leBytes 4 v.steps ++ leBytes 4 result ++
    leBytes 2 (min 0xFFFF waited) ++ leBytes 2 (min 0xFFFF run) ++ leBytes 1 status ++ leBytes 1 sub ++ leBytes 1 v.opcode ++
    leBytes 1 (1 + 16 * v.engine)

/-- COMPLETION_RECORD_WRITE and CR_FAIL (R194, R195, R197). -/
def crWrite (s : Body) (c x : Nat) (status sub result waited run : Nat) : Body :=
  let v := s.ctx c x
  let key := queKey v.pid v.queue
  let sga := crSga s v
  if s.que.revoked.contains key then s.count R.QUE_CR_DROP.COUNT
  else
    let s := match sgaHere s sga with | some loc => reclaim s (loc / 128) | none => s
    let fail := fun (st : Nat) => queError (s.count R.QUE_CR_DROP.COUNT) key 2 st 0 v.idx
    match sgaHere s sga with
    | none => fail stSTALEMAP
    | some loc =>
      if keyless s sga then fail stPERMISSION
      else if lineLost s (loc / 128) then fail stLOSTLINE
      else if unreadable s (loc / 128) then fail stUNCORRECTABLE
      else (engPut s c sga loc (crBytes s v status sub result waited run)).count R.QUE_CR.COUNT

/-- Commands completed, by engine. -/
def countCommand (s : Body) (engine : Nat) : Body :=
  if engine = 2 then s.count R.MTX_CMDS.COUNT else if engine = 3 then s.count R.EMB_CMDS.COUNT
  else if engine = 4 then s.count R.SRH_CMDS.COUNT else if engine = 5 then s.count R.POOL_CMDS.COUNT else s

/-- The end of a command: what its engine keeps is released, its signals commit, its record is written, and its context is freed,
unless an arrival holds it (R161, R174, R194). -/
def finishCtx (s : Body) (c x : Nat) : Body :=
  let s := if goodEnd (s.ctx c x).status then hookRun s c x else s
  let v := s.ctx c x
  let run := s.now - v.release
  let overPlan := v.engine == 2 && decide (0 < v.plan) && decide (v.plan < run)
  let miss := v.status == stOK && ((v.cls && decide (0 < v.budget) && decide (v.budget < run)) || overPlan)
  let status := if miss then stBUDGETMISS else v.status
  let s := if v.status = stOK ∧ overPlan then s.count R.MTX_PLAN_MISS.COUNT else s
  let s := if miss then (s.count R.QUE_BUDGET_MISS.COUNT).count R.OBS_PART_CTR.COUNT 1 6 v.pid else s
  let s := countCommand s v.engine
  let s := if v.status = stREVOKED then s.count R.PRT_REVOKED.COUNT
    else if v.status = stJOBTORN then s.count R.FLT_TORN.COUNT else s
  let s := if v.engine = 4 ∧ v.status = stSEIZECONFLICT then
      srhLog (s.count R.SRH_CONFLICT.COUNT) c v.pid v.opcode 6 v.status 0 else s
  let s := if v.engine = 4 ∧ v.opcode = 5 then
      match mergeRec s c x with
      | some m => if goodEnd v.status ∨ v.steps = 0 then mergeEnd s c x else mergeAbandon s m
      | none => s
    else s
  let s := if v.engine = 5 ∧ v.opcode = 0x10 ∧ !goodEnd v.status then poolLog s c v.pid v.opcode v.status 0 else s
  let s := slotsDrop (mtxDrop s c x) c x
  -- a SEIZE command whose description fails its operand check is refused (R190, R339)
  let refused := v.engine == 5 && v.opcode == 0x10 && v.steps == 0 && v.status == stBADOPCODE && !v.mute
  let s := if refused ∧ x < 16 then queError s (queKey v.pid v.queue) 0 v.status v.sub v.idx else s
  let s := if v.mute || refused then s else (List.range 2).foldl (fun s i => signal s c x (v.sig i)) s
  if 16 ≤ x then s.setCtx c x {}
  else
    let key := queKey v.pid v.queue
    let (waited, s) := if v.unreleased then s.free 16 else (v.release - v.usable, s)
    let (ran, s) := if v.unreleased then s.free 16 else (run, s)
    let s := crWrite s c x status v.sub v.result waited ran
    let s := s.set R.QUE_DONE.DONE ((s.get R.QUE_DONE.DONE 0 key + 1) % 2 ^ 32) 0 key
    let w := s.ctx c x
    s.setCtx c x (if w.arrivals.isEmpty then {} else {
      phase := .stalled, pid := w.pid, queue := w.queue, idx := w.idx, desc := w.desc, since := s.now, arrivals := w.arrivals })

/-- The lines that the command writes as it completes are free of clients and of locks (R147, R161, R330). -/
def crReady (s : Body) (c x : Nat) : Bool × Body :=
  let ls := crLines s x (s.ctx c x) ++ hookLines s c x
  if ls.any (fun l => lockBlocks s l true || farHeld s true (l * 128)) then (false, s) else clearForWrite s ls

/-- Far writes of the command are still under way (R18, R357); a read that has been asked for ahead is not waited for. -/
def farWaits (s : Body) (v : Ctx) : Bool :=
  v.farOps.any (fun i => s.sto.ops.any (fun o => o.id == i && (!o.new.isEmpty || o.span.isEmpty)))

/-- The command has nothing left to commit: a command that ends without a step does so at the boundary after it was released, one
that waits for a peer at the first boundary after its answer (R162, R187). -/
def ctxDone (s : Body) (v : Ctx) : Bool :=
  v.phase == .running && !v.issued && v.rounds.isEmpty && v.peerWait == 0 && v.peerAt != s.now + 1 && v.tried != s.now + 1 &&
  !farWaits s v &&
  (if v.engine = 0 ∧ v.opcode = 1 ∧ !v.done then
    (match v.inv with | some (i, b) => decide (b ≤ s.now) && !invHolds s i b | none => false)
  else
    v.done && (match v.planned with | some n => decide (n ≤ v.steps) | none => false))

/-- COMMAND_COMPLETE (R161, R194). Context 17 holds a trial entry, which SHADOW_TRIAL_ENTRY ends (R368). -/
def commandComplete (c x : Nat) (s : Body) : Body :=
  if x = 17 ∨ !ctxDone s (s.ctx c x) then s
  else
    let (ok, s) := crReady s c x
    if !ok then s.setCtx c x { s.ctx c x with tried := s.now + 1 }
    else
      let v := s.ctx c x
      finishCtx (if v.engine = 0 ∧ v.opcode = 1 ∧ goodEnd v.status then s.count R.XLT_INV.COUNT else s) c x

/-- A command refused by R190 or R300: it has no effect, and its signals do not commit. -/
def refuseCtx (s : Body) (c x status sub result : Nat) : Body :=
  let v := s.ctx c x
  let s := if 16 ≤ x then s else queError s (queKey v.pid v.queue) 0 status sub v.idx
  s.setCtx c x { s.ctx c x with
    phase := .running, release := s.now, unreleased := v.phase != .running, since := s.now, done := true, planned := some 0,
    mute := true, status := status, sub := sub, result := result, remote := [], got := [], walked := [], tape := [] }

/-! ### Fetch (R159, R189) -/

/-- The contexts that a queue may take now (R159): none while a queue that has waited longer, of a partition below its maximum,
can use them. -/
def freeCtxs (s : Body) (c pid key : Nat) : List Nat :=
  let k := s.core c
  let busy := (List.range 16).filter (fun x => (s.ctx c x).phase != .idle)
  let held := fun p => (busy.filter (fun x => (s.ctx c x).pid == p)).length
  let ahead := ((k.starved.takeWhile (fun e => e.1 != key)).filter (fun e =>
    decide (held (e.1 / 64) < ctxMax s (e.1 / 64) c))).length
  let free := (List.range 16).filter (fun x => !busy.contains x)
  let left := if k.starved.isEmpty then free.length else free.length - ahead
  free.take (min left (ctxMax s pid c - held pid))

/-- The descriptor read at a local offset: its bytes, or the line of a client to ask first, or the status of a failure. -/
inductive RingRead where
  | bytes (b : List Byte)
  | owned (line : Nat)
  | bad (status : Nat)

/-- The ring's line, reclaimed where its entry names a fenced client (R151). -/
def ringReclaim (s : Body) (sga : Nat) : Body :=
  match sgaHere s sga with | some loc => reclaim s (loc / 128) | none => s

def ringRead (s : Body) (sga : Nat) : RingRead :=
  match sgaHere s sga with
  | none => .bad stSTALEMAP
  | some loc =>
    let l := loc / 128
    if keyless s sga then .bad stPERMISSION
    else if lineLost s l then .bad stLOSTLINE
    else if unreadable s l || (match regionOfLoc s loc with | some g => s.sto.lost.contains g.id | none => false) then .bad stUNCORRECTABLE
    else if lineAsk s l then .owned l
    else .bytes (s.rd loc 64)

/-- The SGA of a descriptor's slot (R181). -/
def ringSlot (s : Body) (key k : Nat) : Nat :=
  s.get R.QUE_DRING.BASE 0 key * 4096 + 64 * (k % 2 ^ s.get R.QUE_DRING.LOG2N 0 key)

/-- One descriptor of a fetch: it takes a context. A ring whose extent was fenced is not read (R197). -/
def fetchOne (s : Body) (c x key k : Nat) (fresh : Bool) : Option Nat × Body :=
  let sga := ringSlot s key k
  let v : Ctx := {
    phase := .fetched, pid := key / 64, queue := key % 64, idx := k, fresh := fresh, usable := s.now + 1, since := s.now }
  let take := fun (s : Body) (v : Ctx) => (s.set R.QUE_IDX.FI ((k + 1) % 2 ^ 32) 0 key).setCtx c x v
  let s := ringReclaim s sga
  if s.que.revoked.contains key then (some stREVOKED, s)
  else match ringRead s sga with
    | .bad st => (some st, s)
    | .bytes b => (none, (take s { v with desc := b }).count R.QUE_FETCH.COUNT)
    | .owned l => (none, engRounds (take s v) c x [l])

/-- A fetch read has failed at a descriptor (R189): FI stays there, and the contexts from it on are freed. -/
def ringFail (s : Body) (key k st : Nat) : Body :=
  let gone := (queCtxs s key).filter (fun e => let v := s.ctx e.1 e.2; v.phase == .fetched && !idxBefore v.idx k)
  let fresh := gone.any (fun e => (s.ctx e.1 e.2).fresh)
  let s := gone.foldl (fun s e => s.setCtx e.1 e.2 {}) (s.set R.QUE_IDX.FI k 0 key)
  let s := if fresh then { s with que := { s.que with rung := (s.que.rung ++ [key]).eraseDups } } else s
  queError s key 3 st 0 k

/-- The core's readiness bit, and its engine's: a queue fetches once the first is set, a command is released once both are
(R443). -/
def coreReady (s : Body) (c : Nat) : Bool := bitAt (s.get R.MGT_READY.CORE) c

def engineReady (s : Body) (e : Nat) : Bool :=
  if e = 1 then s.on R.MGT_READY.CDC else if e = 2 then s.on R.MGT_READY.MTX else if e = 3 then s.on R.MGT_READY.EMB
  else if e = 4 then s.on R.MGT_READY.SRH else if e = 5 then s.on R.MGT_READY.POOL else true

/-- A seizing has write-locked the line of the next descriptor (R330), or a slot that the fetch may read waits for SP bits (R443). -/
def ringLocked (s : Body) (key : Nat) : Bool :=
  let at_ := fun (k : Nat) => sgaHere s (ringSlot s key (s.get R.QUE_IDX.FI 0 key + k))
  (match at_ 0 with | some loc => lockBlocks s (loc / 128) false | none => false) ||
  (List.range 4).any (fun k => match at_ k with | some loc => farHeld s false loc | none => false)

/-- A queue may fetch (R189, R196, R443): it is in RUN with descriptors ready on a core that fetches, and has no fetch read under
way. -/
def queFetches (s : Body) (c key : Nat) : Bool :=
  !quiet s && !ringLocked s key && queCore s key == some c && s.on R.STP_CTRL.ENABLE c && coreReady s c && s.get R.QUE_STATUS.STATE 0 key == 1 &&
  s.get R.QUE_IDX.PI 0 key != s.get R.QUE_IDX.FI 0 key && !(queCtxs s key).any (fun e => (s.ctx e.1 e.2).phase == .fetched)

/-- DESCRIPTOR_FETCH (R189): one fetch read of a RUN queue with descriptors ready. -/
def descriptorFetch (c pid q : Nat) (s : Body) : Body :=
  let key := queKey pid q
  let pi := s.get R.QUE_IDX.PI 0 key
  let fi := s.get R.QUE_IDX.FI 0 key
  let n := 2 ^ s.get R.QUE_DRING.LOG2N 0 key
  let room := freeCtxs s c pid key
  let many := min (min 4 ((pi + 2 ^ 32 - fi) % 2 ^ 32)) (min room.length (n - fi % n))
  if !queFetches s c key ∨ many = 0 then s
  else
    let fresh := s.que.rung.contains key
    let k := s.core c
    let s := s.setCore c { k with starved := k.starved.filter (fun e => e.1 != key) }
    ((room.take many).zip (List.range many)).foldl (fun (a : Bool × Body) (e : Nat × Nat) =>
      if a.1 then a
      else
        let i := (fi + e.2) % 2 ^ 32
        match fetchOne a.2 c e.1 key i (fresh && e.2 == 0) with
        | (none, s) => (false, { s with que := { s.que with rung := s.que.rung.filter (· != key) } })
        | (some st, s) => (true, queError s key 3 st 0 i)) (false, s) |>.2

/-- The fetch reads of a boundary: the queues that have waited longest for a context first (R159). -/
def queuesFetch (s : Body) (c : Nat) : Body :=
  let old := (s.core c).starved.map (·.1)
  (old ++ (coreQueues s c).filter (fun key => !old.contains key)).foldl (fun s key => descriptorFetch c (key / 64) (key % 64) s) s

/-! ### Checks (R190) -/

/-- The commands of each engine. -/
def cmdKnown (engine op : Nat) : Bool :=
  if engine = 0 then op ≤ 1
  else if engine = 1 then 1 ≤ op && op ≤ 5
  else if engine = 2 then [1, 2, 3, 0x10, 0x11, 0x12, 0x20, 0x21, 0x22].contains op
  else if engine = 3 then 1 ≤ op && op ≤ 4
  else if engine = 4 then 1 ≤ op && op ≤ 5
  else if engine = 5 then (1 ≤ op && op ≤ 5) || op == 0x10
  else false

/-- Check 1: reserved fields, OPFORM and the rules of R188. -/
def descShape (v : Ctx) : Bool :=
  (List.range 4).all (fun i => syncShape (v.word (1 + i))) && decide (v.opform ≤ 1) &&
  (v.opform != 1 || (decide (4 ≤ v.word 6) && decide (v.word 6 ≤ 256) && v.word 7 == 0 && v.word 5 % 64 == 0)) &&
  (v.engine != 0 || v.opcode != 0 || (v.word 5 == 0 && v.word 6 == 0 && v.word 7 == 0)) &&
  (v.engine != 0 || v.opcode != 1 || v.opform != 0 || (bits (v.word 5) 31 30 == 0 && bits (v.word 5) 63 42 == 0 &&
    (v.word 6 &&& (2 ^ 64 - 1 - (2 ^ 41 - 1) * 2 ^ 16)) == 0 && v.word 7 == 0))

/-- Check 3: the partition has a share of its engine's channel on the core. -/
def chanGranted (s : Body) (c pid engine : Nat) : Bool :=
  engine == 0 || (match chanOf s engine c with | some k => k.owner == pid && (k.units != 0 || k.aux != 0) | none => false)

/-- SYNC_WORD_REFUSE: STP_SEM_ERR (R170). -/
def syncErr (s : Body) (c : Nat) (v : Ctx) (y : SyncW) (cause : Nat) : Body :=
  let s := s.set R.STP_SEM_ERR.CAUSE cause c
  let s := s.set R.STP_SEM_ERR.PID v.pid c
  let s := s.set R.STP_SEM_ERR.QUEUE v.queue c
  let s := s.set R.STP_SEM_ERR.SEM y.sem c
  let s := s.set R.STP_SEM_ERR.OPERAND y.operand c
  s.set R.STP_EVENT.SEM_ERR 1 c

/-- The invalidation that an INVALIDATE names (R117, R187). -/
def invOf (v : Ctx) : InvScope :=
  { scope := bits (v.word 5) 29 28, pid := v.pid, size := bits (v.word 5) 27 26, count := bits (v.word 5) 25 0,
    cva := bits (v.word 6) 56 16 * 65536 }

/-- The engine's own operand checks (check 6). A search command's are made at its release (R300). -/
def opCheck (v : Ctx) : Eng Unit :=
  if v.engine = 0 then
    engNeed (v.opform == 0 && (v.opcode == 0 || (!(invOf v).malformed && (invOf v).scope != 3)))
  else if v.engine = 1 then codecCheck v
  else if v.engine = 2 then mtxCheck v
  else if v.engine = 3 then embCheck v
  else if v.engine = 5 then poolCheck v
  else return ()

/-- Check 6 of a context whose operands are present: refused, or from now on waiting for its waits and its release; its ARRIVE_WAITs
arrive at this boundary (R175, R190; log entry 128). An operand that does not translate, or that names data not yet read, is no
matter of this check: the step that reaches it ends the command. -/
def checkOps (s : Body) (c x : Nat) : Body :=
  let v := s.ctx c x
  let (r, e) := ((opCheck v).run).run (evOf s c x .check 1 [])
  let wait := fun (s : Body) =>
    let v := s.ctx c x
    s.setCtx c x { v with
      phase := .waiting, waitFrom := s.now, since := s.now, remote := [], got := [],
      arrivals := ([v.wait 0, v.wait 1].filter (fun y => y.op == 6)).map (fun y => (y.sem, y.operand)) }
  match r with
  | .ok _ => wait e.s
  | .error (.fail st sub res) =>
    if st = stBADOPCODE ∨ (st = stPERMISSION ∧ sub = 0) then refuseCtx e.s c x st sub res else wait s
  | .error .more => wait s

/-- The address word of the operand block. -/
def blockWord (v : Ctx) : Nat := v.word 5

/-- Checks 1 to 5 of R190: status, SUB and RESULT of a refusal. -/
def descCheck (s : Body) (c x : Nat) : Option (Nat × Nat × Nat) × Body :=
  let v := s.ctx c x
  if !descShape v then (some (stBADOPCODE, 4, 0), s)
  else if !cmdKnown v.engine v.opcode ∨ !chanGranted s c v.pid v.engine then (some (stBADOPCODE, 1, 0), s)
  else
    let ws := [(true, v.wait 0), (true, v.wait 1), (false, v.sig 0), (false, v.sig 1)]
    match ws.findSome? (fun w => (syncRefused s c v.pid w.1 w.2).map (fun r => (w.2, r))) with
    | some (y, cause, st) => (some (st, 0, 0), syncErr s c v y cause)
    | none =>
      if v.opform = 1 then
        let (r, e) := ((do
          let g ← engRng (blockWord v) (8 * v.word 6) false 0
          let _ ← engSga g 0 : Eng Unit).run).run (evOf s c x .check 1 [])
        match r with
        | .error (.fail st sub res) => (some (st, sub, res), e.s)
        | _ => (none, e.s)
      else (none, s)

/-- A fetched descriptor is read once its line has come, and after those fetched before it (R189): its bytes, or why the read fails;
none while it waits. -/
def descBytes (s : Body) (x : Nat) (v : Ctx) : Option (Except Nat (List Byte)) :=
  let key := queKey v.pid v.queue
  let before := decide (x < 16) && (queCtxs s key).any (fun e => let w := s.ctx e.1 e.2; w.phase == .fetched && idxBefore w.idx v.idx)
  if v.phase ≠ .fetched ∨ s.now < v.usable ∨ !v.rounds.isEmpty ∨ before then none
  else if !v.desc.isEmpty then some (.ok v.desc)
  else match sgaHere s (ringSlot s key v.idx) with
    | none => some (.error stSTALEMAP)
    | some loc =>
      match v.remote.find? (fun k => k.1 == loc / 128 + 2 ^ 60) with
      | some (_, b) => some (.ok (slice b (loc % 128) 64))
      | none => match ringRead s (ringSlot s key v.idx) with
        | .bytes b => some (.ok b)
        | .owned _ => none
        | .bad st => some (.error st)

/-- DESCRIPTOR_USABLE (R165, R189, R190). -/
def descriptorUsable (c x : Nat) (s : Body) : Body :=
  let v := s.ctx c x
  match descBytes s x v with
  | none => s
  | some (.error st) => ringFail s (queKey v.pid v.queue) v.idx st
  | some (.ok d) =>
    let s := if v.desc.isEmpty then s.count R.QUE_FETCH.COUNT else s
    let s := if v.fresh then waysInvalidate s c false v.pid else s
    let s := { s with obs := { s.obs with runNew := s.obs.runNew ++ [(c, x, v.idx, v.pid + 1024 * v.queue)] } }
    let s := s.setCtx c x { v with desc := d, ops := slice d 40 24, usable := s.now, fresh := false, remote := [] }
    match descCheck s c x with
    | (some (st, sub, res), s) => refuseCtx s c x st sub res
    | (none, s) =>
      if (s.ctx c x).opform = 1 then s.setCtx c x { s.ctx c x with phase := .block, ops := [], since := s.now }
      else checkOps s c x

/-- The row DESCRIPTOR_USABLE: a refused command completes at once (R190). -/
def usableRow (c x : Nat) (s : Body) : Body :=
  let s := descriptorUsable c x s
  if (s.ctx c x).done then commandComplete c x s else s

/-- `n` bytes from an address word lie within one page (R188); an SGA word names none. -/
def onePage (s : Body) (pid word n : Nat) : Bool :=
  match wordAddr s pid word 0 false with
  | .ok (false, a) =>
    let log := match tlbFind s pid a with
      | some t => pageLog t.size
      | none => match walkPage s false [] pid a with | .leaf l _ => pageLog l.size | _ => 64
    a >>> log == (a + n - 1) >>> log
  | _ => true

/-- The bytes of the operand block, as one read with the effect of LOAD_NA (R188). -/
def blockProg (v : Ctx) : Eng (List Byte) := do
  let n := 8 * v.word 6
  let g ← engRng (blockWord v) n false 0
  let _ ← engSga g 0
  if ← engAsk (fun e => onePage e.s e.pid (blockWord v) n) then engRead g 0 n else engFail stBADOPCODE 4 0

/-- The read of an operand block is made (R188): its bytes are kept until they can be used, at `at_` at the earliest, or what it
needs first is fetched. A read that fails refuses the command as the bytes would have come. -/
def blockRead (c x at_ : Nat) (s : Body) : Body :=
  let v := s.ctx c x
  if v.phase ≠ .block ∨ quiet s ∨ v.done ∨ !v.ops.isEmpty ∨ ctxWaits s v then s
  else
    let (r, e) := ((blockProg v).run).run (evOf s c x .issue 1 [])
    let t := e.late.foldr (fun g t => g t) s
    match r with
    | .error (.fail st sub res) =>
      e.s.setCtx c x { e.s.ctx c x with done := true, status := st, sub := sub, result := res, holdTo := at_ }
    | .error .more => engFetch t c x e.wants
    | .ok b =>
      if e.wants.wait ∨ !e.wants.walks.isEmpty then engFetch t c x e.wants
      else
        let t := engFetch t c x e.wants
        t.setCtx c x { t.ctx c x with ops := b, holdTo := at_ }

/-- The operands of a block are present (R190, R191). -/
def blockUse (c x : Nat) (s : Body) : Body :=
  let v := s.ctx c x
  if v.phase ≠ .block ∨ ctxWaits s v ∨ s.now ≤ v.usable then s
  else if v.done then refuseCtx s c x v.status v.sub v.result
  else if v.farBad ∨ !v.badLines.isEmpty then refuseCtx s c x stUNCORRECTABLE 0 0
  else if v.ops.isEmpty then s
  else checkOps s c x

/-- OPERAND_BLOCK_READ (R188): a block whose read waited for something is read now; one that is present is used. -/
def operandBlockRead (c x : Nat) (s : Body) : Body :=
  let v := s.ctx c x
  blockUse c x (if v.usable < s.now then blockRead c x s.now s else s)

/-- The row OPERAND_BLOCK_READ: a refused command completes at once (R190). -/
def blockRow (c x : Nat) (s : Body) : Body :=
  let s := operandBlockRead c x s
  if (s.ctx c x).phase = .running then commandComplete c x s else s

/-! ### Release (R191) -/

/-- FENCE (R191): an earlier command of the queue has not completed, and this one or that one is fenced, or not yet read. -/
def fenceHolds (s : Body) (c x : Nat) : Bool :=
  let v := s.ctx c x
  decide (x < 16) && (queCtxs s (queKey v.pid v.queue)).any (fun e =>
    let w := s.ctx e.1 e.2
    e.2 != x && w.phase != .stalled && idxBefore w.idx v.idx && (v.fence || w.fence || w.phase == .fetched))

/-- The program of an engine command (R192); none where the command reads and writes nothing by steps. -/
def progOf (v : Ctx) : Option (Ctx → Eng (Nat × Nat × Nat)) :=
  if v.engine = 1 then
    if v.opcode = 1 then some (codecDecode true) else if v.opcode = 2 then some codecEncode
    else if v.opcode = 3 then some (codecDecode false) else if v.opcode = 4 then some codecLoad else none
  else if v.engine = 2 then (if v.opcode = 2 then none else some matrixRun)
  else if v.engine = 3 then some embRun
  else if v.engine = 4 then some srhRun
  else if v.engine = 5 then some poolRun
  else none

/-- NOP (R187). -/
def nopRow (c x : Nat) (s : Body) : Body :=
  let v := s.ctx c x
  if engDue s c x 0 0 then s.setCtx c x { v with done := true, planned := some 0, tried := s.now + 1 } else s

/-- INVALIDATE (R117, R118, R187): starts, unless the partition has one in progress on the core. -/
def invalidateRow (c x : Nat) (s : Body) : Body :=
  let v := s.ctx c x
  let other := (s.core c).ctxs.any (fun (w : Nat × Ctx) => w.1 != x && w.2.pid == v.pid && w.2.inv.isSome)
  if engDue s c x 0 1 && v.inv.isNone && !other then s.setCtx c x { v with inv := some (invOf v, s.now + 1) } else s

/-- What a running context's command does at a boundary: its row. -/
def runCommand (s : Body) (c x : Nat) : Body :=
  let v := s.ctx c x
  if v.engine = 0 then (if v.opcode = 0 then nopRow c x s else invalidateRow c x s)
  else if v.engine = 1 ∧ v.opcode = 4 then loadTable c x s
  else if v.engine = 1 ∧ v.opcode = 5 then dropTable c x s
  else if v.engine = 2 ∧ v.opcode = 2 then seqCloseRow c x s
  else if v.engine = 4 ∧ v.opcode = 5 ∧ mergeBusy s c x then s
  else match progOf v with
    | some f => issueStep f c x s
    | none => s

/-- The header check of a search command at its release (R300): refused with these, or not. -/
def searchRefused (s : Body) (c x : Nat) : Option (Nat × Nat × Nat) × Body :=
  let v := s.ctx c x
  if v.engine ≠ 4 then (none, s)
  else
    let (r, e) := ((srhCheck v).run).run (evOf s c x .check 1 v.tape)
    match r with
    | .error (.fail st sub res) =>
      if st = stBADOPCODE ∨ st = stPERMISSION ∨ st = stSTALEMAP then (some (st, sub, res), e.s) else (none, s)
    | _ => (none, s)

/-- The command is released (R191, R229, R230, R250): what it has seen of its release boundary is kept (R295). A search command whose
header fails its check, and a matrix command whose slots are not as it needs them, are refused (R250, R300). -/
def releaseNow (s : Body) (c x : Nat) (seen : List Seen) : Body :=
  match mtxRefused s (s.ctx c x) with
  | some n => commandComplete c x (refuseCtx (mtxLog s c (s.ctx c x).pid 2 n stBADOPCODE 0) c x stBADOPCODE 3 0)
  | none =>
  let k := s.core c
  let s := s.setCore c { k with ords := k.ords + 1 }
  let v := s.ctx c x
  let s := mtxRelease (s.setCtx c x { v with
    phase := .running, release := s.now, since := s.now, tried := 0, ord := k.ords, tape := v.tape ++ seen.reverse }) c x
  let s := if v.engine = 1 ∧ (v.opcode = 4 ∨ v.opcode = 5) then tableTake s c x
    else if v.engine = 2 ∧ v.opcode = 2 then seqCloseRow c x s else s
  match searchRefused s c x with
  | (some (st, sub, res), s) => commandComplete c x (refuseCtx s c x st sub res)
  | (none, s) => s

/-- COMMAND_RELEASE (R171, R191): at the first boundary at which its waits are satisfied, no fence holds it, and what its first step
needs is there, for GEMV the weights of its second too (R255). Far data, page walks and the plan of the first step are asked for while
it waits; what other agents may still change is fetched once its waits are satisfied. -/
def commandRelease (c x : Nat) (s : Body) : Body :=
  let v := s.ctx c x
  let hold := s.setCtx c x { v with tried := s.now + 1 }
  if v.phase ≠ .waiting ∨ v.tried = s.now + 1 then s
  else if quiet s ∨ !coreReady s c ∨ !engineReady s v.engine ∨ ctxWaits s v then hold
  else
    let ready := !v.waits 0 && !v.waits 1 && v.arrivals.isEmpty && !fenceHolds s c x
    let go := fun (seen : List Seen) => if ready then releaseNow s c x seen else hold
    match progOf v with
    | none => go []
    | some f =>
      if v.done ∨ (v.engine = 1 ∧ v.opcode = 4) then go []
      else match stepRun (mtxRelease (s.setCtx c x { v with phase := .running, release := s.now }) c x) c x f with
        | .wants w => engFetch hold c x (if ready then w else { far := w.far, walks := w.walks })
        | .plan e => if e.pause then go (e.mark.getD []) else stepPlanned hold c x e
        | .step e _ =>
          let far := if v.engine = 2 ∧ v.opcode = 0x10 then farAhead s c x f 1 2 (v.tape ++ e.cur.reverse) v.got else []
          if far.isEmpty then go (e.mark.getD []) else engFetch hold c x { far := far }
        | .over e _ _ _ => go (e.mark.getD [])

/-- The work-queue invalidations that take effect at this boundary (R118). -/
def ctxInvalidations (s : Body) : Body :=
  s.cores.foldl (fun s (k : Nat × CoreSt) => k.2.ctxs.foldl (fun s (v : Nat × Ctx) =>
    match v.2.inv with
    | some (i, b) => if b = s.now then invEffect s i else s
    | none => s) s) s

/-- The line of the SGA space as a context's core has it: from its owner, from another home, or from the store. -/
def missLine (s : Body) (v : Ctx) (l : Nat) : List Byte :=
  match sgaHere s (l * 128) with
  | some a => ((v.remote.find? (fun k => k.1 == a / 128 + 2 ^ 60)).map (·.2)).getD (s.rd a 128)
  | none => ((v.remote.find? (fun k => k.1 == l)).map (·.2)).getD (List.replicate 128 0)

/-- Why a line of the SGA space cannot be read (R148, R162, R359): status and SUB. -/
def missBad (s : Body) (v : Ctx) (l : Nat) : Option (Nat × Nat) :=
  match sgaHere s (l * 128) with
  | some a =>
    if (ownedCopy s v.remote (a / 128)).isSome then none
    else if lineLost s (a / 128) then some (stLOSTLINE, 0)
    else if unreadable s (a / 128) || v.badLines.contains (a / 128) then some (stUNCORRECTABLE, 0) else none
  | none => keyBad v.badKeys l

/-- CACHE_MISS_FILL (R164): the lines that a context's core misses are read at the boundary after the miss, with the effect of
LOAD_NA, and can be used from the boundary after that. -/
def cacheMissFill (c x : Nat) (s : Body) : Body :=
  let v := s.ctx c x
  if v.missing.isEmpty ∨ ctxWaits s { v with missing := [] } ∨ s.now ≤ v.since then s
  else
    let at_ := fun (l : Nat) => sgaHere s (l * 128)
    let locals := v.missing.filterMap at_
    let s := locals.foldl (fun s a => reclaim s (a / 128)) s
    let w := v.missing.foldl (fun w l => pieceWants s (keysOf v.remote v.badKeys) v.got (0, l * 128, 128) w) {}
    if w.wait then s
    else if w ≠ {} then engFetch s c x w
    else
      let bad := v.missing.filterMap (fun l => (missBad s v l).map (fun b => (l + 2 ^ 61, b)))
      let ds := (v.missing.filter (fun l => (missBad s v l).isNone)).map (fun l => (l, missLine s v l))
      let ways := waysOn s v.pid c
      let k := ds.foldl (fun k d => cacheFill k ways v.pid d.1 d.2) (s.core c)
      let s := (s.setCore c k).count R.STP_CACHE_MISS.COUNT ds.length c
      s.setCtx c x { s.ctx c x with
        missing := [], holdTo := s.now + 1, remote := v.remote ++ ds.map (fun d => (d.1 + 2 ^ 61, d.2)),
        badKeys := v.badKeys ++ bad }

/-! ### The end that a reset or a teardown brings (R179, R198, R401) -/

/-- A context leaves nothing behind where the machine still works for it: its peer requests, its far accesses and its seizing. A
SEIZE command's seizing is aborted if it has not been committed (R337). -/
def ctxForget (s : Body) (c x : Nat) : Body :=
  let s := s.txn.origins.foldl (fun s o =>
    if o.core = c ∧ o.ctx = x then
      let t := if o.sent then s else seizeFinish s { o with waiting := 0, fail := some (stSEIZEABORT, 1) }
      { t with txn := { t.txn with origins := t.txn.origins.filter (fun (p : Origin) => !(p.core == c && p.ctx == x)) } }
    else s) s
  { s with
    sto := { s.sto with ops := s.sto.ops.map (fun o => { o with ctxs := o.ctxs.filter (· != (c, x)) }) }
    peers := s.peers.filter (fun p => match p.purpose with
      | .load a b _ => !(a == c && b == x)
      | .store a b => !(a == c && b == x)
      | .prepare a b => !(a == c && b == x)
      | .finish a b => !(a == c && b == x)
      | _ => true) }

/-- Ends a context with a status; `record` says whether it completes with a record. It commits no signal (R179). -/
def abortCtx (s : Body) (c x status : Nat) (record : Bool) : Body :=
  let v := s.ctx c x
  if v.phase = .idle then s
  else
    let s := (List.range 2).foldl (fun s i => waitEnd s c x i (v.wait i) true) s
    let s := v.arrivals.foldl (fun s a => waitEnd s c x (arrivalNo a) (arrivalW a) true) s
    if v.phase = .stalled then s.setCtx c x {}
    else
      let s := slotAbort s c x
      let s := match mergeRec s c x with
        | some m => if v.steps = 0 then mergeEnd s c x else mergeAbandon s m
        | none => s
      let s := ctxForget s c x
      let w := s.ctx c x
      let s := s.setCtx c x { w with
        phase := .running, issued := false, again := false, accs := [], tape := [], cur := [], remote := [], got := [], walked := [],
        planned := some w.steps, done := true, mute := true, status := status, sub := 0, result := w.progs.getD w.steps 0,
        peerWait := 0, peerAt := 0, rounds := [], missing := [], farOps := [], holdTo := 0, arrivals := [], hook := .none, inv := none,
        tried := 0, release := if v.phase = .running then w.release else s.now,
        unreleased := w.unreleased || v.phase != .running }
      if record ∧ x < 16 then commandComplete c x s
      else (slotsDrop (mtxDrop s c x) c x).setCtx c x {}

/-- Ends every context of a core, or of a partition on every core. -/
def abortCtxs (s : Body) (core pid : Option Nat) (status : Nat) (record : Bool) : Body :=
  s.cores.foldl (fun s (k : Nat × CoreSt) =>
    if core.isSome ∧ core ≠ some k.1 then s
    else k.2.ctxs.foldl (fun s (v : Nat × Ctx) =>
      if pid.isSome ∧ pid ≠ some v.2.pid then s else abortCtx s k.1 v.1 status record) s) s

/-! ### Answers of peers to contexts (R80, R162) -/

/-- A peer has answered a context's request for a line or block (`line` some), or a write. A read that was answered otherwise ends the
command at the step that needs it. -/
def ctxPeerAnswer (s : Body) (c x : Nat) (line : Option Nat) (status sub : Nat) (data : List Byte) : Body :=
  let v := s.ctx c x
  if v.peerWait = 0 then s
  else
    let v := { v with peerWait := v.peerWait - 1, peerAt := s.now + 1 }
    if status = stOK ∨ status = stOKSPLICED ∨ status = stBUDGETMISS then
      s.setCtx c x (match line with | some l => { v with remote := v.remote ++ [(l, data)] } | none => v)
    else s.setCtx c x (match line with
      | some l => { v with mute := true, badKeys := v.badKeys ++ [(l, status, sub)] }
      | none => { v with
          done := true, planned := some v.steps, issued := false, accs := [], cur := [], mute := true, status := status, sub := sub,
          result := 0, missing := [] })

/-! ### At a boundary -/

/-- The context waits, or its arrival is stalled, or it waits for a read: STP_CTX.STATE (R157). -/
def ctxState (s : Body) (v : Ctx) : Nat :=
  let reads := !v.missing.isEmpty || decide (s.now < v.holdTo) || v.peerWait != 0
  match v.phase with
  | .idle => 0
  | .fetched => 5
  | .block => 5
  | .stalled => 4
  | .waiting =>
    if !v.arrivals.isEmpty then 4
    else if v.waits 0 then (if 6 ≤ (v.wait 0).op then 3 else 2)
    else if v.waits 1 then (if 6 ≤ (v.wait 1).op then 3 else 2)
    else if reads then 5 else 1
  | .running =>
    if v.done then 1
    else if reads ∨ (v.engine = 0 ∧ v.opcode = 1 ∧ v.inv.isNone) ∨ (v.engine = 1 ∧ 4 ≤ v.opcode ∧ !v.issued) ∨
        (v.engine = 2 ∧ v.opcode = 2) ∨ (!v.issued ∧ v.gate.isSome ∧ gateShut s v.gate) then 5
    else 1

/-- The context's command has a step to issue, and issued none in the knot that ends (R265, R477). -/
def Ctx.stalls (v : Ctx) : Bool :=
  v.phase == .running && !v.issued && !(v.done && (match v.planned with | some n => decide (n ≤ v.steps) | none => false))

/-- A context's knot is counted (R174, R265, R477). -/
def ctxClose (c : Nat) (s : Body) (e : Nat × Ctx) : Body :=
  let v := e.2
  let st := ctxState s v
  let s := if st = 4 then s.count R.STP_ARRIVE_STALL.COUNT 1 c
    else if st = 2 ∨ st = 3 then s.count R.STP_WAIT_KNOTS.COUNT 1 c else s
  let r := runOf s c e.1
  let s := setRun s c e.1 { r with wait := r.wait + b2n (2 ≤ st && st ≤ 5), stall := r.stall + b2n v.stalls }
  if !v.stalls then s
  else if v.engine = 2 then
    (if v.stall = 1 then s.count R.MTX_STALL_FETCH.COUNT else if v.stall = 2 then s.count R.MTX_STALL_SHARE.COUNT
      else if v.stall = 3 then s.count R.MTX_STALL_OTHER.COUNT else s)
  else if v.engine = 3 ∧ v.stall = 1 then s.count R.EMB_STALL_FETCH.COUNT
  else if v.engine = 4 ∧ v.stall = 1 then s.count R.SRH_STALL_FETCH.COUNT
  else s

/-- Queues of a core that have found all 16 contexts busy wait in order (R159): by the knot, then by PID and number. -/
def queuesStarve (s : Body) (c : Nat) : Body :=
  let k := s.core c
  let busy := (List.range 16).all (fun x => (s.ctx c x).phase != .idle)
  let keys := (coreQueues s c).filter (fun key =>
    s.get R.QUE_STATUS.STATE 0 key == 1 && s.get R.QUE_IDX.PI 0 key != s.get R.QUE_IDX.FI 0 key)
  let old := k.starved.filter (fun e => keys.contains e.1)
  let new := if busy then (keys.filter (fun key => !old.any (fun e => e.1 == key))).map (fun key => (key, s.now)) else []
  s.setCore c { k with starved := old ++ new }

/-- Applies a step to every core. -/
def onCores (f : Body → Nat → Body) (s : Body) : Body := (List.range 16).foldl f s

/-- The knot that ends: its stalls and waits are counted (R174, R265, R477). -/
def stpClose (s : Body) : Body := onCores (fun s c => queuesStarve ((s.core c).ctxs.foldl (ctxClose c) s) c) s

/-- Counts a committed step of an engine. -/
def countStep (s : Body) (engine : Nat) : Body :=
  if engine = 2 then s.count R.MTX_STEPS.COUNT else if engine = 3 then s.count R.EMB_STEPS.COUNT
  else if engine = 4 then s.count R.SRH_STEPS.COUNT else if engine = 5 then s.count R.POOL_STEPS.COUNT else s

/-- The contexts of a core in the order of their commands (R147). -/
def ctxsByOrd (s : Body) (c : Nat) : List Nat :=
  (sortBy (fun (a b : Nat × Ctx) => decide (a.2.ord < b.2.ord))
    ((s.core c).ctxs.filter (fun (v : Nat × Ctx) => v.2.phase == .running))).map (·.1)

/-- STEP_COMMIT and STEP_OVERRUN (R22, R24): the steps issued in the knot before, by core and by the order of the command. -/
def stepsCommit (late : List (Nat × Nat)) (s : Body) (c : Nat) : Body :=
  (ctxsByOrd s c).foldl (fun s x =>
    let v := s.ctx c x
    match (if v.issued then progOf v else none) with
    | none => s
    | some f =>
      if late.contains (c, x) then (stepAgain s c x).count R.OBS_STEP_OVERRUN.COUNT
      else
        let t := commitStep f s c x
        if (t.ctx c x).steps = v.steps then t
        else countStep (if v.engine = 4 ∧ v.opcode = 5 then mergeJournal t c x else t) v.engine) s

/-- Queues in DRAIN of which no context holds a command are OFF (R196). -/
def drainsDone (s : Body) (c : Nat) : Body := (coreQueues s c).foldl (fun s key => drainDone (key / 64) (key % 64) s) s

/-- Descriptors and operand blocks that can be used from this boundary on (R188, R190). -/
def ctxsReady (s : Body) (c : Nat) : Body :=
  (ctxsByIdx s c).foldl (fun s x => operandBlockRead c x (descriptorUsable c x s)) s

/-- SEQ_ADVANCE commands change places among them, to stand by context (R250). -/
def advancesByCtx (s : Body) (c : Nat) (xs : List Nat) : List Nat :=
  let adv := xs.filter (fun x => match (s.ctx c x).hook with | .seqAdvance _ _ => true | _ => false)
  xs.map (fun x => if adv.contains x then (sortBy (fun a b => decide (a < b)) adv).getD (adv.idxOf x) x else x)

/-- COMMAND_COMPLETE of every command that has nothing left to commit (R161). -/
def ctxsComplete (s : Body) (c : Nat) : Body :=
  (advancesByCtx s c (ctxsByOrd s c)).foldl (fun s x => commandComplete c x s) s

/-- Steps 3 and 4 of R171 on one core, and the waits that go on. -/
def semsUpdate (s : Body) (c : Nat) : Body :=
  let s := waitsBegin (evalWaits (arrivalsApply s c) c) c
  (s.core c).ctxs.foldl (fun s (v : Nat × Ctx) => waitLimit c v.1 s) s

/-- What the step cores do at a boundary, after the tick: STEP_COMMIT; the descriptors that become usable; forced changes, the
commands that complete with their signals, arrivals and waits (R22, R161, R171, R190). -/
def stpBoundary (s : Body) (late : List (Nat × Nat)) : Body :=
  let s := onCores (stepsCommit late) s
  let s := onCores (fun s c => (s.setCore c { s.core c with used := [], sigs := [] }).set R.STP_STATUS.ISSUED 0 c) s
  let s := onCores drainsDone (ctxInvalidations (doorbellsApply s))
  onCores semsUpdate (onCores ctxsComplete (onCores forcesApply (onCores ctxsReady s)))

/-- The contexts of a core in the order of R158: the busy ones from one past the one that the last boundary started with. -/
def issueOrder (s : Body) (c : Nat) : List Nat :=
  let k := s.core c
  (((List.range 16).map (fun i => (k.rr + 1 + i) % 16)) ++ [16, 17]).filter (fun x => (s.ctx c x).phase != CtxPhase.idle)

/-- Commands of one queue that were released at one boundary change places among them, to stand by descriptor index (R191). -/
def byPlace (s : Body) (c : Nat) (xs : List Nat) : List Nat :=
  let mates := fun (x : Nat) => xs.filter (fun y =>
    let v := s.ctx c x
    let w := s.ctx c y
    x == y || (x < 16 && y < 16 && v.phase == .running && w.phase == .running && v.pid == w.pid && v.queue == w.queue &&
      v.release == w.release))
  xs.map (fun x =>
    let g := mates x
    (sortBy (fun a b => idxBefore (s.ctx c a).idx (s.ctx c b).idx) g).getD (g.idxOf x) x)

/-- STEP_ISSUE (R158) on one core. -/
def stepsIssue (s : Body) (c : Nat) : Body :=
  let xs := issueOrder s c
  let s := s.setCore c { s.core c with rr := xs.headD (s.core c).rr }
  if quiet s then s else (byPlace s c xs).foldl (fun s x => runCommand s c x) s

/-- What the step cores do at a boundary once the client requests admitted at it have been served (R147): KICKs, block and cache
reads, releases, the issue of steps, and fetches. -/
def stpServe (s : Body) : Body :=
  let s := onCores (fun s c => (ctxsByIdx s c).foldl (fun s x => cacheMissFill c x (blockRead c x (s.now + 1) s)) s) (kicksApply s)
  let s := onCores (fun s c => (ctxsByIdx s c).foldl (fun s x => commandRelease c x s) s) s
  onCores queuesFetch (onCores stepsIssue (tablesRetire s))

end Sys2Proof.Machine
end

