-- ==== Sys2Proof/Machine/Store.lean ====
section
/-!
DEFINITION. The tiers of the store and the sleds (R344 to R369): promotion and demotion, flushes, near-tier errors, sled
positions, lost regions, rebuilds and shadowing.
-/

namespace Sys2Proof.Machine

/-! ### Frames (R348 to R351) -/

/-- 64 KiB frames outside the reserve (R348). -/
def nFrames : Nat := 16646144

/-- Units of a region at this home. -/
def regionUnits (s : Body) (r : Region) : Nat := ceilDiv (localSize s r) 65536

/-- Frames that PIN and NEAR regions and the observation buffers hold for good (R348, R416). -/
def pinnedFrames (s : Body) : Nat :=
  ((s.img.regions.filter (regionPinned s)).map (regionUnits s)).foldl (· + ·) 0 +
    s.img.traceFrames + s.img.sampleFrames + (s.img.rings.map (fun r => r.2)).foldl (· + ·) 0

/-- The frames that promotions under way have taken. -/
def promoting (s : Body) : List (Nat × Nat) :=
  s.sto.migrations.filterMap (fun m => match m with | .promote u f => some (u, f) | .writeback .. => none)

/-- Free frames (STO_NEAR.FREE). -/
def freeFrames (s : Body) : Nat := nFrames - pinnedFrames s - s.sto.resident.length - (promoting s).length

/-- The region of a unit. -/
def unitRegion (s : Body) (u : Nat) : Option Region := regionOfLoc s (u * 65536)

/-- Frames that a WT or WB region holds, those of promotions under way included. -/
def framesHeld (s : Body) (rid : Nat) : Nat :=
  (s.sto.resident.filter (fun x => (unitRegion s x.unit).any (·.id == rid))).length +
    ((promoting s).filter (fun x => (unitRegion s x.1).any (·.id == rid))).length

/-- The frame quota of a region (R348). -/
def quotaOf (s : Body) (rid : Nat) : Nat := match protOf s rid with | some p => p.quota | none => 0

/-- The lowest-numbered frame that no unit holds. PIN and NEAR units hold the lowest frames after the reserve (log
entry 22); a frame's number shows nowhere. -/
def takeFrame (s : Body) : Nat :=
  let used := s.sto.resident.map (·.frame) ++ (promoting s).map (·.2)
  let base := 131072 + pinnedFrames s
  base + ((List.range (used.length + 1)).find? (fun i => !used.contains (base + i))).getD 0

/-- The victim of R349 among the units that `ok` admits: HOT = 0, the lowest COUNT, then the lowest unit number. -/
def victim (s : Body) (ok : Nat → Bool) : Option Nat :=
  let count := fun (u : Nat) => AMap.get 0 s.xlt.acc u
  let cs := s.sto.resident.filter (fun x =>
    ok x.unit && decide (count x.unit < 128) && !s.sto.migrations.any (fun m => m.backs x.unit))
  cs.foldl (fun (b : Option Nat) x => match b with
    | none => some x.unit
    | some u => if count x.unit < count u ∨ (count x.unit = count u ∧ x.unit < u) then some x.unit else some u) none

/-- A unit loses its frame (R351). -/
def freeUnit (s : Body) (u : Nat) : Body :=
  let s := { s with
    near := AMap.clear s.near (u * 65536) ((u + 1) * 65536)
    sto := { s.sto with
      resident := s.sto.resident.filter (fun x => x.unit != u)
      migrations := s.sto.migrations.filter (fun m => !m.backs u) } }
  s.count R.STO_DEMOTE.COUNT

/-- PROMOTION_START for one queued unit (R349): it takes a frame, or a victim's demotion begins and it waits. `claimed`
lists the demotions that older promotions wait for. -/
def promoteOne (s : Body) (u : Nat) (claimed : List Nat) : Bool × List Nat × Body :=
  match unitRegion s u with
  | none => (false, claimed, s)
  | some r =>
    let inReg := fun (v : Nat) => (unitRegion s v).any (·.id == r.id)
    let below := decide (framesHeld s r.id < quotaOf s r.id)
    if s.sto.lost.contains r.id then (false, claimed, s)
    else if below && decide (0 < freeFrames s) then
      let m : Migration := .promote u (takeFrame s)
      let q := s.sto.queue.filter (· != u)
      let a := s.sto.ahead.filter (· != u)
      (true, claimed, { s with sto := { s.sto with ahead := a, queue := q, migrations := s.sto.migrations ++ [m] } })
    else
      let above := fun (v : Nat) => match unitRegion s v with
        | some x => decide (quotaOf s x.id < framesHeld s x.id)
        | none => false
      let useful := fun (v : Nat) => inReg v || (below && above v)
      let going := s.sto.migrations.filterMap (fun m => match m with | .writeback v true _ _ => some v | _ => none)
      match going.find? (fun v => useful v && !claimed.contains v) with
      | some v => (false, v :: claimed, s)
      | none =>
        match (victim s inReg).orElse (fun _ => if below then victim s above else none) with
        | some v =>
          let m : Migration := .writeback v true 0 false
          (false, v :: claimed, { s with sto := { s.sto with migrations := s.sto.migrations ++ [m] } })
        | none => (false, claimed, s)

/-- PROMOTION_START (R349): oldest first, at most PROMOTE_MAX in each knot. -/
def promoteStart (s : Body) : Body :=
  let max := s.get R.STO_MIG.PROMOTE_MAX
  ((s.sto.ahead ++ s.sto.queue).foldl (fun (a : Nat × List Nat × Body) u =>
    if max ≤ a.1 then a
    else
      let (ok, claimed, t) := promoteOne a.2.2 u a.2.1
      (a.1 + b2n ok, claimed, t)) (0, [], s)).2.2

/-- Demotions of units that need no write-back are done at the boundary after they began (R351). -/
def freeClean (s : Body) : Body :=
  s.sto.migrations.foldl (fun s m => match m with
    | .writeback u true _ _ =>
      if tierOf s (u * 65536) = 1 ∨ !s.sto.resident.any (fun x => x.unit == u && x.dirty) then freeUnit s u else s
    | _ => s) s

/-- PROMOTION_SWITCH (R350): the unit's last line has arrived; from this boundary its frame serves. -/
def promotionSwitch (u : Nat) (s : Body) : Body :=
  if quiet s then s else
  match (promoting s).find? (fun (x : Nat × Nat) => x.1 == u) with
  | none => s
  | some (_, f) =>
    if !(List.range 512).all (fun i => farReadable s (u * 65536 + i * 128)) then s
    else
      let lo := u * 65536
      let bytes := s.far.filter (fun (e : Nat × Byte) => decide (lo ≤ e.1) && decide (e.1 < lo + 65536))
      let near := bytes.foldl (fun (m : AMap Byte) (e : Nat × Byte) => AMap.put 0 m e.1 e.2) (AMap.clear s.near lo (lo + 65536))
      let s := { s with
        near := near
        sto := { s.sto with
          migrations := s.sto.migrations.filter (fun m => m != Migration.promote u f)
          resident := s.sto.resident ++ [({ unit := u, frame := f, dirty := false } : Resident)] } }
      (s.count R.STO_PROMOTE.COUNT).count R.STO_FAR_RD.COUNT 512

/-- Lines that a write-back of 512 lines moves on the sleds (R351, R353): each line is a round of its own. -/
def countBack (s : Body) (u : Nat) : Body :=
  let s := s.count R.STO_WRITEBACK.COUNT
  match rowOf s (u * 65536) with
  | none => s
  | some (_, _, _, sch) =>
    if sch = 1 ∨ 3 ≤ sch then
      ((s.count R.STO_FAR_RD.COUNT 1536).count R.STO_FAR_WR.COUNT 1536).count R.STO_PARITY.COUNT 512
    else s.count R.STO_FAR_WR.COUNT (if sch = 2 then 1024 else 512)

/-- DEMOTION_DONE (R351): the write-back of a unit that is being demoted has been answered. -/
def demotionDone (u : Nat) (s : Body) : Body :=
  if quiet s then s else
  match s.sto.migrations.find? (fun m => m.backs u) with
  | some (.writeback _ true done _) => freeUnit (countBack (backLines s u done 512) u) u
  | _ => s

/-! ### STO_CMD (R351, R360 to R362) -/

/-- A command was ignored. -/
def stoIgnore (s : Body) : Body := s.set R.STO_CMD_STATUS.ERR 1

/-- Units of a region that are resident and dirty. -/
def dirtyUnits (s : Body) (rid : Nat) : List Nat :=
  (s.sto.resident.filter (fun x => x.dirty && (unitRegion s x.unit).any (·.id == rid))).map (·.unit)

/-- FLUSH takes effect (R351). -/
def flushNow (s : Body) (rid : Nat) : Body :=
  match protOf s rid with
  | none => stoIgnore s
  | some p =>
    if p.tier ≠ 2 ∨ s.on R.STO_CMD_STATUS.BUSY then stoIgnore s
    else
      let us := dirtyUnits s rid
      let new := us.filter (fun u => !s.sto.migrations.any (fun m => m.backs u))
      let s := { s with sto := { s.sto with
        flush := some (rid, us), migrations := s.sto.migrations ++ new.map (fun u => Migration.writeback u false 0 false) } }
      s.set R.STO_CMD_STATUS.BUSY 1

/-- One unit of a flush has been written back: it stays resident, and dirty only where a write has come since. -/
def flushUnit (s : Body) (u : Nat) : Body :=
  match s.sto.migrations.find? (fun m => m.backs u) with
  | some (.writeback _ false done again) =>
    let s := countBack (backLines s u done 512) u
    { s with sto := { s.sto with
      migrations := s.sto.migrations.filter (fun m => !m.backs u)
      resident := s.sto.resident.map (fun (x : Resident) => if x.unit = u then { x with dirty := again } else x) } }
  | some (.writeback _ true _ _) => demotionDone u s
  | _ => s

/-- FLUSH_COMPLETE (R351): every unit dirty at the start has been written back once. -/
def flushComplete (s : Body) : Body :=
  if quiet s then s else
  match s.sto.flush with
  | none => s
  | some (_, us) =>
    let s := us.foldl flushUnit s
    { s.set R.STO_CMD_STATUS.BUSY 0 with sto := { s.sto with flush := none } }

/-- Bytes of a range go back to zero in both tiers. -/
def zeroLoc (s : Body) (lo n : Nat) : Body :=
  { s with near := AMap.clear s.near lo (lo + n), far := AMap.clear s.far lo (lo + n) }

/-! ### Lost regions (R361) -/

/-- REGION_LOST (R361). -/
def regionLost (s : Body) (rid : Nat) : Body :=
  if s.sto.lost.contains rid then s
  else
    let base := match s.img.regions.find? (fun r => r.id == rid) with | some r => r.localBase | none => 0
    let s := stoErr s stUNCORRECTABLE 3 0 rid 0 base
    let s := (s.set R.STO_RGN.LOST 1 0 rid).set R.STO_EVENT.LOSS 1
    { s with sto := { s.sto with lost := s.sto.lost ++ [rid] } }

/-- A position's chunk of row `r` is on a FAILED position, or in REBUILD and not yet rebuilt. -/
def posGone (s : Body) (r q : Nat) : Bool :=
  let st := s.get R.STO_SLED.STATE q
  st == 3 || (st == 4 && decide (s.get R.STO_REBUILD.NEXT ≤ r))

/-- A region's data can no longer be recovered from its rows (R361). -/
def rowsLost (s : Body) (p : ProtDef) : Bool :=
  let last := p.rowBase + p.nRows - 1
  let qs := List.range (if s.img.sp2 then 14 else 16)
  if p.nRows = 0 then false
  else if p.scheme = 0 then qs.any (fun q => s.get R.STO_SLED.STATE q == 3)
  else if p.scheme = 2 then (List.range 8).any (fun i => posGone s last (2 * i) && posGone s last (2 * i + 1))
  else decide (3 ≤ (qs.filter (posGone s last)).length)

/-- Regions that have become LOST. -/
def regionsCheck (s : Body) : Body :=
  s.img.prots.foldl (fun s p => if rowsLost s p then regionLost s p.region else s) s

/-- Some position that holds rows of a region is FAILED or in REBUILD. -/
def rowsImpaired (s : Body) (rid : Nat) : Bool :=
  match protOf s rid with
  | none => false
  | some p => p.nRows != 0 && (List.range 16).any (fun q => let st := s.get R.STO_SLED.STATE q; st == 3 || st == 4)

/-- ACCEPT takes effect (R361): ignored while rows of the region are on a position FAILED or in REBUILD. -/
def acceptNow (s : Body) (rid : Nat) : Body :=
  if rowsImpaired s rid || s.on R.STO_CMD_STATUS.BUSY then stoIgnore s
  else if !s.sto.lost.contains rid then s
  else { s.set R.STO_CMD_STATUS.BUSY 1 with sto := { s.sto with accepting := some rid } }

/-- ACCEPT_COMPLETE (R361). -/
def acceptComplete (s : Body) : Body :=
  match s.sto.accepting with
  | none => s
  | some rid =>
    let s := match s.img.regions.find? (fun r => r.id == rid) with
      | none => s
      | some r =>
        let lo := r.localBase
        let n := localSize s r
        let inR := fun (loc : Nat) => decide (lo ≤ loc) && decide (loc < lo + n)
        let s := match protOf s rid with
          | some p =>
            if p.tier = 3 then { s with near := AMap.clear s.near lo (lo + n) }
            else if p.tier = 2 then
              -- a WB region holds its far copy as last written back
              { s with
                near := AMap.clear s.near lo (lo + n)
                sto := { s.sto with
                  resident := s.sto.resident.filter (fun x => !inR (x.unit * 65536))
                  migrations := s.sto.migrations.filter (fun m => match m with
                    | .promote u _ => !inR (u * 65536)
                    | .writeback u _ _ _ => !inR (u * 65536)) } }
            else s
          | none => s
        { s with sto := { s.sto with bad := s.sto.bad.filter (fun l => !inR (l * 128)) } }
    let s := (s.set R.STO_RGN.LOST 0 0 rid).set R.STO_CMD_STATUS.BUSY 0
    { s with sto := { s.sto with lost := s.sto.lost.filter (· != rid), accepting := none } }

/-! ### Errors of the near tier (R352) -/

/-- A read of a near-tier line was uncorrectable (R352). -/
def nearFix (s : Body) (line : Nat) : Body :=
  let loc := line * 128
  let t := tierOf s loc
  let dirty := s.sto.resident.any (fun x => x.unit == unitOf loc && x.dirty)
  if !isResident s loc then s
  else if t = 3 ∨ (t = 2 ∧ dirty = true) then
    if s.sto.bad.contains line then s
    else if 65536 ≤ s.sto.bad.length then
      (match regionOfLoc s loc with | some r => regionLost s r.id | none => s)
    else
      let s := stoErr s stUNCORRECTABLE 1 0 (match regionOfLoc s loc with | some r => r.id | none => 0) 0 loc
      { s with sto := { s.sto with bad := s.sto.bad ++ [line] } }
  else
    let b := (List.range 128).map (fun i => AMap.get 0 s.far (loc + i))
    { s with near := putBytes s.near loc b }.count R.STO_NEAR_FIX.COUNT

/-- A clock region stops (R44, R46): `k` is its stop knot. -/
def regionStop (s : Body) (region k : Nat) : Body :=
  let s := (s.set R.KNT_RGN.STATE 2 region).set R.KNT_RGN.LAST_STOP (k % 2 ^ 32) region
  { s with knot := { s.knot with gaps := (s.knot.gaps.filter (fun (g : Nat × Nat × Nat) => g.1 != region)) ++ [(region, k, 0)] } }

/-- STACK_FAIL (R44, R352): the stack's region is stopped, and from the next boundary every request is answered
ST_INTERNAL. -/
def stackFail (k : Nat) (s : Body) : Body :=
  if 8 ≤ k ∨ !bitAt (s.get R.STO_NEAR.STACK_UP) k then s
  else
    let s := s.set R.STO_NEAR.STACK_UP (s.get R.STO_NEAR.STACK_UP - 2 ^ k)
    let s := s.set R.MGT_READY.STK (clrBit (s.get R.MGT_READY.STK) k)
    let s := regionStop s (8 + k) (s.now + 1)
    (s.set R.STO_EVENT.STACK_FAIL 1).arm .stackDead

/-- ZERO_FILL_DONE (R356). -/
def zeroFillDone (rid : Nat) (s : Body) : Body :=
  match s.img.regions.find? (fun r => r.id == rid) with
  | none => s
  | some r =>
    if !s.cfg.zeroing.contains rid then s
    else
      let s := zeroLoc s r.localBase (localSize s r)
      { s with cfg := { s.cfg with zeroing := s.cfg.zeroing.filter (· != rid) } }

/-- PIN_REFILL_DONE (R369): the frames of a PIN region hold its far copy again. -/
def pinRefillDone (rid : Nat) (s : Body) : Body :=
  match s.img.regions.find? (fun r => r.id == rid) with
  | none => s
  | some r =>
    if !s.sto.refill.contains rid then s
    else
      let lo := r.localBase
      let hi := lo + localSize s r
      let bytes := s.far.filter (fun (e : Nat × Byte) => decide (lo ≤ e.1) && decide (e.1 < hi))
      let near := bytes.foldl (fun (m : AMap Byte) (e : Nat × Byte) => AMap.put 0 m e.1 e.2) (AMap.clear s.near lo hi)
      { s with near := near, sto := { s.sto with refill := s.sto.refill.filter (· != rid) } }

/-! ### Sleds (R355, R360, R364) -/

/-- One past the highest row in use (R355). -/
def rowTop (s : Body) : Nat := (s.img.prots.map (fun p => if p.nRows = 0 then 0 else p.rowBase + p.nRows)).foldl max 0

/-- The first row in use at or after `r`. -/
def rowNext (s : Body) (r : Nat) : Option Nat :=
  (s.img.prots.filter (fun p => p.nRows != 0 && decide (r < p.rowBase + p.nRows))).foldl (fun (b : Option Nat) p =>
    let v := max r p.rowBase
    some (match b with | none => v | some x => min x v)) none

/-- The sled known on a store port. -/
def sledOn (s : Body) (port : Nat) : Option Sled :=
  match s.sto.sleds.find? (fun e => e.1 == port) with | some (_, x) => some x | none => none

/-- A label names this controller, this position and this plan (R355). -/
def labelOk (s : Body) (q : Nat) (spare : Bool) (l : SledLabel) : Bool :=
  l.ver == 1 && l.hid == s.hid && l.plan == s.img.plan && (l.spare == spare) && (spare || l.pos == q)

/-- A sled passes R355 for a position. -/
def sledPasses (s : Body) (q : Nat) (x : Sled) : Bool :=
  decide (rowTop s ≤ x.rows) && (match x.label with | none => true | some l => labelOk s q l.spare l)

/-- What is known of a sled once the controller has written its label. -/
def writeLabel (s : Body) (port q : Nat) (spare : Bool) : Body :=
  match sledOn s port with
  | none => s
  | some x =>
    let l : SledLabel := { ver := 1, hid := s.hid, pos := q, spare := spare, serial := x.serial, knot := s.now, plan := s.img.plan }
    { s with sto := { s.sto with sleds := AMap.put {} s.sto.sleds port { x with label := some l } } }

/-- Position `q` shows the sled on a port, in a state. -/
def placeSled (s : Body) (q port st : Nat) : Body :=
  let x := (sledOn s port).getD {}
  let s := (s.set R.STO_SLED.STATE st q).set R.STO_SLED.PORT port q
  (s.set R.STO_SLED.ROWS_MAX x.rows q).set R.STO_SLED_ID.SERIAL x.serial q

/-- The controller writes the label of the sled on a port, which then stands at a place, in a state (R355). -/
def labelSled (s : Body) (place port st q : Nat) (spare : Bool) : Body :=
  let s := placeSled (writeLabel s port q spare) place port st
  match (sledOn s port).bind (·.label) with
  | some l => metaPut s [place] 0 (labelBytes l)
  | none => s

/-- The labels of all sleds that stand at a place are written again, under a new plan (R424). -/
def relabel (s : Body) : Body :=
  (List.range 16).foldl (fun s q =>
    let st := s.get R.STO_SLED.STATE q
    match (if st = 0 ∨ st = 3 then none else sledOn s (s.get R.STO_SLED.PORT q)).bind (·.label) with
    | some l => metaPut s [q] 0 (labelBytes l)
    | none => s) s

/-- Starts the rebuild of a position on the sled of a port (R362, R363). -/
def rebuildBegin (s : Body) (q port : Nat) (spare : Bool) : Body :=
  let s := labelSled s q port 4 q false
  let next := (rowNext s 0).getD 0
  let s := (s.set R.STO_REBUILD.ACTIVE 1).set R.STO_REBUILD.RESUMED 0
  let s := (s.set R.STO_REBUILD.POS q).set R.STO_REBUILD.PORT port
  let s := s.set R.STO_REBUILD.NEXT next
  let x := (sledOn s port).getD {}
  { s with sto := { s.sto with
      rebuildStart := s.tick, rebuildPaused := false, rebuildNamed := s.sto.rebuildNamed.filter (· != q)
      rebuild := some { knot := s.now, next := next, last := rowTop s - 1, pos := q, port := port, spare := spare,
                        serial := x.serial } } }

/-- The spare of the lowest-numbered port whose sled passes (R364): its place and its port. Spares stand at places 14 and
15, which hold no position in SP-2 mode (log entry 23). -/
def spareFor (s : Body) (q : Nat) : Option (Nat × Nat) :=
  let cs := [14, 15].filterMap (fun e =>
    let port := s.get R.STO_SLED.PORT e
    match sledOn s port with
    | some x => if s.get R.STO_SLED.STATE e = 5 ∧ sledPasses s q { x with label := none } = true then some (e, port) else none
    | none => none)
  cs.foldl (fun (b : Option (Nat × Nat)) c => match b with
    | none => some c
    | some d => if c.2 < d.2 then some c else some d) none

/-- SPARE_TAKEOVER (R364). -/
def spareTakeover (s : Body) (q : Nat) : Body :=
  if !s.img.sp2 ∨ 14 ≤ q ∨ s.sto.rebuild.isSome then s
  else match spareFor s q with
    | none => s
    | some (e, port) => rebuildBegin (s.set R.STO_SLED.STATE 0 e) q port true

/-- SLED_FAILED (R360): a position enters FAILED with a cause. -/
def positionFailed (s : Body) (q cause : Nat) : Body :=
  if 16 ≤ q ∨ s.get R.STO_SLED.STATE q = 3 then s
  else
    let s := ((s.set R.STO_SLED.STATE 3 q).set R.STO_SLED.CAUSE cause q).set R.STO_EVENT.SLED_FAILED 1
    let s := match s.sto.rebuild with
      | some m =>
        if m.pos = q then
          { (s.set R.STO_REBUILD.ACTIVE 0).set R.STO_REBUILD.RESUMED 0 with sto := { s.sto with rebuild := none } }
        else s
      | none => s
    let s := farPosLost (txnSledLost s q) q
    spareTakeover (regionsCheck s) q

/-- Armed failures of a position (R359, R360): the port of a store link, or a sled's own answer. -/
def armedFail (s : Body) (q : Nat) : Option Nat :=
  s.acts.findSome? (fun a => match a with
    | .portFailed p => if posOfPort s p = some q then some 1 else none
    | .posFail p c => if p = q then some c else none
    | _ => none)

/-- The row SLED_FAILED: what has been armed against a position becomes one failure, of the first cause, which takes effect at the
boundary (R360). -/
def sledFailedRow (q : Nat) (s : Body) : Body :=
  match armedFail s q with
  | none => s
  | some c =>
    let acts := s.acts.filter (fun a => match a with
      | .portFailed p => posOfPort s p != some q
      | .posFail p _ => p != q
      | _ => true)
    { s with acts := acts ++ [.posFail q c] }

/-- SLED_RECOVER (R360). -/
def sledRecover (q : Nat) (s : Body) : Body :=
  let n := 32 + s.get R.STO_SLED.PORT q
  if q < 16 ∧ s.get R.STO_SLED.STATE q = 2 ∧ linkUp s n = true ∧ s.get R.LNK_HB.MISS n = 0 then s.set R.STO_SLED.STATE 1 q
  else s

/-- SLED_SUSPECT_TIMEOUT (R360). -/
def sledSuspectTimeout (q : Nat) (s : Body) : Body :=
  if q < 16 ∧ s.get R.STO_SLED.STATE q = 2 ∧ AMap.get 0 s.suspectAt q + max 1 (s.get R.STO_CTRL.FAIL_KNOTS) ≤ s.tick then
    positionFailed s q 2
  else s

/-- Store ports that the image uses. -/
def storePorts (s : Body) : List Nat :=
  (List.range 16).filter (fun p => s.get R.LNK_STATUS.ROLE (32 + p) != 0 && portPlace s p != 0xFF)

/-- The places where spares stand that are free. -/
def spareSlot (s : Body) : Option Nat := [14, 15].find? (fun e => let st := s.get R.STO_SLED.STATE e; st == 0 || st == 3)

/-- First initialisation (R356): every sled in use is known and blank. Labels are written, positions enter IN, and all rows
in use are filled with zeros. -/
def firstInit (s : Body) : Body :=
  let ps := storePorts s
  let blank := ps.all (fun p => match sledOn s p with
    | some x => x.label.isNone && decide (rowTop s ≤ x.rows)
    | none => false)
  let fresh := (List.range 16).all (fun q => s.get R.STO_SLED.STATE q == 0)
  if ps.isEmpty || !blank || !fresh || s.cfg.img.isNone then s
  else
    let s := ps.foldl (fun s p =>
      let q := portPlace s p
      if q = 0xFE then
        match spareSlot s with | some e => labelSled s e p 5 0 true | none => s
      else labelSled s q p 1 q false) s
    { s with cfg := { s.cfg with zeroing := (s.img.prots.filter (fun p => p.nRows != 0)).map (fun p => p.region) } }

/-- A sled takes a position that was ABSENT (R355, R360, R363): IN where its label matches. -/
def sledTakes (s : Body) (q port : Nat) (x : Sled) : Body :=
  let resumed := match s.sto.rebuild with | some m => m.pos == q && m.port == port && m.serial == x.serial | none => false
  if resumed then placeSled s q port 4
  else if x.rows < rowTop s then positionFailed (placeSled s q port 0) q 5
  else match x.label with
    | some l => if labelOk s q false l then placeSled s q port 1 else positionFailed (placeSled s q port 0) q 6
    | none => s

/-- SLED_IDENTIFIED (R360): a sled is identified on a store port, with its serial number, rows and label. -/
def sledIdentified (port : Nat) (x : Sled) (s : Body) : Body :=
  if 16 ≤ port ∨ s.cfg.img.isNone ∨ portPlace s port = 0xFF then s
  else
    let s := { s with sto := { s.sto with sleds := AMap.put {} s.sto.sleds port x } }
    let enterSpare := fun (s : Body) => match spareSlot s with
      | some e => labelSled s e port 5 0 true
      | none => s
    if s.img.sp2 then
      match x.label with
      | some l =>
        if l.spare then (if labelOk s 0 true l then enterSpare s else s)
        else if l.pos < 14 ∧ s.get R.STO_SLED.STATE l.pos = 0 then sledTakes s l.pos port x
        else s
      | none =>
        -- a sled identified later on a failed port becomes a spare
        let failed := (List.range 14).any (fun q => s.get R.STO_SLED.STATE q != 0)
        if failed then (if rowTop s ≤ x.rows then enterSpare s else s) else firstInit s
    else
      let st := s.get R.STO_SLED.STATE port
      if st = 0 then firstInit (sledTakes s port port x)
      else if st = 3 then
        let s := placeSled s port port 3
        if x.rows < rowTop s then s.set R.STO_SLED.CAUSE 5 port
        else if sledPasses s port x then s else s.set R.STO_SLED.CAUSE 6 port
      else s

/-! ### Rebuild (R362, R363) -/

/-- REBUILD_START (R362). -/
def rebuildStart (q : Nat) (s : Body) : Body :=
  let st := s.get R.STO_SLED.STATE q
  let named := s.on R.STO_CTRL.AUTO_REBUILD || s.sto.rebuildNamed.contains q
  if s.sto.rebuild.isSome ∨ 16 ≤ q ∨ !(st == 3 || st == 0) ∨ s.cfg.img.isNone = true then s
  else if s.img.sp2 then (if st = 3 then spareTakeover s q else s)
  else match sledOn s q with
    | some x =>
      if named && linkUp s (32 + q) && sledPasses s q x && (st == 3 || x.label.isNone) then rebuildBegin s q q false else s
    | none => s
/-- The local offset of a position's data chunk of row `r`, in the region that holds the row. -/
def chunkLoc (s : Body) (r q : Nat) : Option (ProtDef × Option Nat) :=
  match s.img.prots.find? (fun p => p.nRows != 0 && decide (p.rowBase ≤ r) && decide (r < p.rowBase + p.nRows)) with
  | none => none
  | some p => match s.img.regions.find? (fun g => g.id == p.region) with
    | none => none
    | some g =>
      let d := if p.scheme = 1 ∨ 3 ≤ p.scheme then (q + 30 - r % 16) % 16 else if p.scheme = 2 then q / 2 else q
      let loc := g.localBase + (r - p.rowBase) * dataPerRow s.img.sp2 p.scheme + d * 65536
      let data := (p.scheme = 0 ∨ p.scheme = 2 ∨ d < 14) ∧ loc < g.localBase + localSize s g
      some (p, if data then some loc else none)

/-- The chunk of row `r` on position `q` can be reconstructed (R345). -/
def chunkHolds (s : Body) (p : ProtDef) (r q : Nat) : Bool :=
  if p.scheme = 0 then false
  else if p.scheme = 2 then !posDown s r (q ^^^ 1)
  else decide ((((List.range 16).filter (fun x => x != q && posDown s r x)).length) ≤ 1)

/-- REBUILD_DONE (R362): the position enters IN. -/
def rebuildDone (s : Body) (q : Nat) : Body :=
  let s := ((s.set R.STO_SLED.STATE 1 q).set R.STO_REBUILD.ACTIVE 0).set R.STO_EVENT.REBUILD_DONE 1
  { s with sto := { s.sto with rebuild := none } }

/-- REBUILD_STEP (R362): one row, at most one in INTERVAL knots. -/
def rebuildStep (s : Body) : Body :=
  match s.sto.rebuild with
  | none => s
  | some m =>
    let ch := s.get R.STO_REBUILD.CHAN
    if quiet s ∨ !s.on R.STO_REBUILD.ACTIVE ∨ s.sto.rebuildPaused ∨ !s.on R.MGT_READY.POOL ∨ !bitAt (s.get R.MGT_READY.CORE) ch ∨
        s.tick < s.sto.rebuildStart + max 1 (s.get R.STO_REBUILD.INTERVAL) then s
    else match rowNext s m.next with
      | none => rebuildDone s m.pos
      | some r =>
        let s := match chunkLoc s r m.pos with
          | none => s
          | some (p, loc) =>
            let from_ := if p.scheme = 0 then [] else rowOthers s p.scheme r m.pos
            let ok := chunkHolds s p r m.pos
            let s := match loc with
              | some l => if ok then s else { s with far := AMap.clear s.far l (l + 65536) }
              | none => s
            (s.count R.STO_FAR_RD.COUNT (512 * from_.length)).count R.STO_FAR_WR.COUNT 512
        let s := s.count R.STO_REBUILD_ROWS.COUNT
        let s := s.set R.STO_REBUILD.NEXT (r + 1)
        let s := rebuildJournal { s with sto := { s.sto with rebuildStart := s.tick, rebuild := some { m with next := r + 1 } } }
        if (rowNext s (r + 1)).isNone then rebuildDone s m.pos else s

/-- REBUILD_RESUME (R363): after a reset, or once a paused core is ready. -/
def rebuildResume (s : Body) : Body :=
  match s.sto.rebuild with
  | none => s
  | some m =>
    let ready := bitAt (s.get R.MGT_READY.CORE) (s.get R.STO_REBUILD.CHAN) && s.on R.MGT_READY.POOL
    if s.sto.rebuildPaused then
      if ready then { s with sto := { s.sto with rebuildPaused := false, rebuildStart := s.tick } } else s
    else if s.on R.STO_REBUILD.ACTIVE ∨ (positionsIn s).isEmpty then s
    else
      let here := match sledOn s m.port with | some x => x.serial == m.serial | none => false
      if here && s.get R.STO_SLED.STATE m.pos == 4 then
        let s := (s.set R.STO_REBUILD.ACTIVE 1).set R.STO_REBUILD.RESUMED 1
        let s := (s.set R.STO_REBUILD.POS m.pos).set R.STO_REBUILD.PORT m.port
        { s.set R.STO_REBUILD.NEXT m.next with sto := { s.sto with rebuildStart := s.tick } }
      else if (sledOn s m.port).isSome && !here then
        positionFailed { s with sto := { s.sto with rebuild := none } } m.pos (s.get R.STO_SLED.CAUSE m.pos)
      else s

/-! ### Shadowing (R367, R368) -/

/-- Shadowing fails (R367, R368): STO_SHADOW_LOG. -/
def shadowFail (s : Body) (status phase region entry : Nat) : Body :=
  let s := (s.set R.STO_SHADOW_LOG.STATUS status).set R.STO_SHADOW_LOG.PHASE phase
  let s := (s.set R.STO_SHADOW_LOG.REGION region).set R.STO_SHADOW_LOG.ENTRY entry
  let s := (s.set R.STO_SHADOW.STATE 5).set R.STO_EVENT.SHADOW_DONE 1
  { s with sto := { s.sto with shadowAt := none, shadowGot := [] } }

/-- Bytes that FILL asks for at once in a region: a SWAP region is read by 64 KiB (R427 note 6). -/
def fillUnit (s : Body) (rid : Nat) : Nat := match protOf s rid with | some p => if p.swap then 65536 else 128 | none => 128

/-- FILL works on this region, in the mode. -/
def fillsRegion (s : Body) (mode : Nat) (r : Region) : Bool :=
  decide (0 < localSize s r) && (match protOf s r.id with
    | some p => if mode = 2 then p.tier != 3 && !r.coded else mode == 3 && decide (3 ≤ p.scheme)
    | none => false)

/-- The first local offset at or after `loc` that FILL works on. -/
def fillNext (s : Body) (mode loc : Nat) : Option Nat :=
  (s.img.regions.filter (fillsRegion s mode)).foldl (fun (b : Option Nat) r =>
    if loc < r.localBase + localSize s r then
      let v := max loc r.localBase
      some (match b with | none => v | some x => min x v)
    else b) none

/-- EC8 members whose chunks rebuild this member's: 7 data members and P, or 6 and P and Q; for a parity member the 8
data members (R367). -/
def fillMembers (s : Body) (p : ProtDef) (members : List Nat) : List Nat :=
  let dead := fun (m : Nat) => s.fences.any (fun f => f.isHid && f.id == members.getD m 512)
  if 8 ≤ p.member then List.range 8
  else
    let data := (List.range 8).filter (fun m => m != p.member && !dead m)
    data ++ (if data.length = 7 then [8] else [8, 9])

/-- The SGA that member `m` is asked for, for relative offset `o` (R365, R367): the data region of a parity member is the
one whose LIST is the group's data members. -/
def fillSga (s : Body) (r : Region) (p : ProtDef) (members : List Nat) (m o : Nat) : Option Nat :=
  if 8 ≤ m then companionSga s p.group (m - 4) p.member o
  else
    let src := if p.scheme = 3 then some r else s.img.regions.find? (fun x => x.list == members.take 8)
    src.map (fun x => x.base + ((o / 2 ^ x.gLog) * 8 + m) * 2 ^ x.gLog + o % 2 ^ x.gLog)

/-- FILL asks for the data of local offset `loc`; without a peer CID shadowing fails with ST_RETRY (R80). -/
def fillAsk (s : Body) (loc : Nat) : Body :=
  let mode := s.get R.STO_SHADOW.MODE
  match regionOfLoc s loc with
  | none => s
  | some r =>
    let pid := r.pids.headD 0
    if !peerReady s then shadowFail s stRETRY 1 r.id 0 else
    let s := { s with sto := { s.sto with shadowAt := some loc, shadowGot := [] } }
    if mode = 2 then
      peerSend s (s.get R.STO_SHADOW.SRC_HID) opLOAD (locSga s r loc) 0 pid [] (.shadow loc 0) (fillUnit s r.id)
    else match protOf s r.id with
      | none => s
      | some p => match s.img.groups.find? (fun g => g.num == p.group) with
        | none => s
        | some g => (fillMembers s p g.members).foldl (fun s m =>
            match fillSga s r p g.members m (loc - r.localBase) with
            | some a => peerSend s (g.members.getD m 0) opLOAD a 0 pid [] (.shadow loc m) 128
            | none => s) s

/-- Inverse in GF(2^8): the 254th power. -/
def gfInv (a : Nat) : Nat := (List.range 254).foldl (fun r _ => gfMul 8 r a) 1

/-- The chunk of the shadow's member, from the others' (R354, R367), all ciphertext. -/
def reconMember (me : Nat) (got : List (Nat × List Byte)) : List Byte :=
  let z := List.replicate 128 (0 : Byte)
  let at_ := fun (m : Nat) => match got.find? (fun g => g.1 == m) with | some (_, b) => b | none => z
  let data := (List.range 8).filter (fun m => got.any (fun g => g.1 == m))
  let p := data.foldl (fun b m => xorBytes b (at_ m)) (at_ 8)
  if me = 8 then data.foldl (fun b m => xorBytes b (at_ m)) z
  else if me = 9 then data.foldl (fun b m => xorBytes b (gfScale (gfPow m) (at_ m))) z
  else match (List.range 8).find? (fun m => m != me && !data.contains m) with
    | none => p
    | some o =>
      let q := data.foldl (fun b m => xorBytes b (gfScale (gfPow m) (at_ m))) (at_ 9)
      gfScale (gfInv (gfPow me ^^^ gfPow o)) (xorBytes q (gfScale (gfPow o) p))

/-- Puts what FILL has formed in place, in every copy that the region keeps. -/
def fillPut (s : Body) (r : Region) (loc : Nat) (b : List Byte) : Body :=
  let pin := regionPinned s r
  { s with far := putBytes s.far loc b, near := if pin || framed s loc then putBytes s.near loc b else s.near }

/-- FILL goes on from `loc`. -/
def fillStep (s : Body) (loc : Nat) : Body :=
  match fillNext s (s.get R.STO_SHADOW.MODE) loc with
  | some l => fillAsk s l
  | none => { s with sto := { s.sto with fillDone := true, shadowAt := none, shadowGot := [] } }

/-- A peer has answered a read of FILL (R367). -/
def shadowAnswer (s : Body) (loc member status : Nat) (data : List Byte) : Body :=
  if s.get R.STO_SHADOW.STATE ≠ 1 ∨ s.sto.shadowAt ≠ some loc then s
  else match regionOfLoc s loc with
    | none => s
    | some r =>
      if !goodEnd status then shadowFail s status 1 r.id 0
      else if s.get R.STO_SHADOW.MODE = 2 then fillStep (fillPut s r loc data) (loc + data.length)
      else match protOf s r.id with
        | none => s
        | some p => match s.img.groups.find? (fun g => g.num == p.group) with
          | none => s
          | some g =>
            -- parity is over ciphertext (R347): a data member's answer is plaintext
            let o := loc - r.localBase
            let cip := fun (m : Nat) (b : List Byte) =>
              if 8 ≤ m then b else lineCipher s r ((fillSga s r p g.members m o).getD 0) b
            let got := s.sto.shadowGot ++ [(member, cip member data)]
            let s := { s with sto := { s.sto with shadowGot := got } }
            if got.length < (fillMembers s p g.members).length then s
            else
              let c := reconMember p.member got
              let b := if 8 ≤ p.member then c else Config.xtsDecrypt ((restKey s r).getD []) (locSga s r loc / 128) c
              fillStep (fillPut s r loc b) (loc + 128)

/-- FILL starts (R367): the regions that are lost in the mode, and the first reads. -/
def shadowStart (s : Body) (mode : Nat) : Body :=
  let s := (s.set R.STO_SHADOW.MODE mode).set R.STO_SHADOW.STATE 1
  let s := { s with sto := { s.sto with fillDone := mode == 1, trialNext := 0, shadowAt := none, shadowGot := [] } }
  let s := s.img.prots.foldl (fun s p =>
    let coded := s.img.regions.any (fun r => r.id == p.region && r.coded)
    let gone := if mode = 1 then decide (2 ≤ p.tier) else if mode = 2 then coded else decide (p.scheme < 3)
    if gone then regionLost s p.region else s) s
  if mode = 1 then s else fillStep s 0

/-- A MODE written to STO_SHADOW takes effect (R367). -/
def shadowMode (s : Body) (mode : Nat) : Body :=
  let st := s.get R.STO_SHADOW.STATE
  if mode = 0 then (if st = 4 ∨ st = 5 then (s.set R.STO_SHADOW.STATE 0).set R.STO_SHADOW.MODE 0 else s)
  else if st ≠ 0 then s
  else if mode = 3 ∧ s.img.sp2 = true then stoIgnore s
  else shadowStart s mode

/-- SHADOW_FILL_DONE (R367, R427 note 4). -/
def shadowFillDone (s : Body) : Body :=
  if s.get R.STO_SHADOW.STATE = 1 ∧ s.sto.fillDone = true ∧ !s.on R.STO_REBUILD.ACTIVE then s.set R.STO_SHADOW.STATE 2 else s

/-- READY (R367). -/
def shadowReady (s : Body) : Body := (s.set R.STO_SHADOW.STATE 4).set R.STO_EVENT.SHADOW_DONE 1

/-- The context of trial entry `e`: core e mod 16, context 17. -/
def trialCore (e : Nat) : Nat := e % 16

/-- What the shadow's partition reads for trial entry `e` (R368; log entry 70). -/
def trialSees {α : Type} (s : Body) (e : Nat) (m : Eng α) : Except Stop α :=
  (m.run.run { evOf s (trialCore e) 17 .peek (2 ^ 64) [] with pid := s.get R.STO_SHADOW.PID }).1

/-- A trial entry (R368). -/
def trialRead (s : Body) (e : Nat) : Except Stop (List Byte) :=
  trialSees s e (do engRead (← engRng (s.get R.STO_SHADOW_TRIAL.ADDR) (128 * (e + 1)) false 0) (128 * e) 128)

/-- Starts trial entry `e`: its descriptor goes to a context outside every queue (R368). -/
def trialStart (s : Body) (e : Nat) : Body :=
  let c := trialCore e
  match trialRead s e with
  | .ok b =>
    if (List.range 4).any (fun i => le b (8 + 8 * i) 8 != 0) then shadowFail s stBADOPCODE 3 0 e
    else s.setCtx c 17 {
      phase := .fetched, pid := s.get R.STO_SHADOW.PID, desc := slice b 0 64, usable := s.now + 1, since := s.now, idx := e }
  | .error (.fail st _ _) => shadowFail s st 3 0 e
  | .error .more => s

/-- The digest of a trial's output range (R320, R368). -/
def trialDigest (s : Body) (e : Nat) (b : List Byte) : Except Stop (List Byte) :=
  let n := le b 72 8
  trialSees s e (do
    let g ← engRng (le b 64 8) n false 0
    let leaves ← (List.range (ceilDiv n 65536)).mapM (fun j => do
      return sha384 (← engRead g (65536 * j) (min 65536 (n - 65536 * j))))
    return digest2 n leaves)

/-- TRIAL begins (R367, R368): 0 entries pass at once. -/
def trialBegin (s : Body) : Body :=
  let s := { s.set R.STO_SHADOW.STATE 3 with sto := { s.sto with trialNext := 0 } }
  if s.get R.STO_SHADOW.NTRIAL = 0 then shadowReady s else trialStart s 0

/-- SHADOW_TRIAL_ENTRY (R368): the entry's command is done and its output's digest is compared. Where no entry runs, the
next one starts. -/
def shadowTrialEntry (s : Body) : Body :=
  let e := s.sto.trialNext
  let c := trialCore e
  if s.get R.STO_SHADOW.STATE ≠ 3 then s
  else if (s.ctx c 17).phase = .idle then trialStart s e
  else if !ctxDone s (s.ctx c 17) then s
  else
    let v := s.ctx c 17
    let s := finishCtx s c 17
    if !goodEnd v.status then shadowFail s v.status 3 0 e
    else match (do
        let b ← trialRead s e
        return (b, ← trialDigest s e b) : Except Stop (List Byte × List Byte)) with
      | .error (.fail st _ _) => shadowFail s st 3 0 e
      | .error .more => shadowFail s stSHADOWMISMATCH 3 0 e
      | .ok (b, d) =>
        if d != slice b 80 48 then shadowFail s stSHADOWMISMATCH 3 0 e
        else
          let s := { s with sto := { s.sto with trialNext := e + 1 } }
          if s.get R.STO_SHADOW.NTRIAL ≤ e + 1 then shadowReady s else trialStart s (e + 1)

/-- The digest of a region's local range (R320). -/
def regionDigest (s : Body) (r : Region) : List Byte :=
  let n := localSize s r
  digest2 n ((List.range (ceilDiv n 65536)).map (fun j =>
    sha384 (s.rd (r.localBase + 65536 * j) (min 65536 (n - 65536 * j)))))

/-- A row of VERIFY with KEEP that mismatched (R367): repaired, or its region becomes LOST. -/
def verifyRow (s : Body) (r : Nat) : Body :=
  match s.img.prots.find? (fun p => p.nRows != 0 && decide (p.rowBase ≤ r) && decide (r < p.rowBase + p.nRows)) with
  | none => s
  | some p =>
    if p.scheme = 0 then s
    else if (List.range 16).any (fun q => s.get R.STO_SLED.STATE q == 3) then
      let s := regionLost s p.region
      stoErr s stUNCORRECTABLE 4 0 p.region r 0
    else (s.count R.STO_SCRUB_FIX.COUNT).set R.STO_EVENT.SCRUB_FIX 1

/-- SHADOW_VERIFY_DONE (R367): the rows that mismatched (KEEP), and each region's digest at the source, or of the parity
recomputed from the data members (COPY, RECON). -/
def shadowVerifyDone (rows : List Nat) (digests : List (Nat × List Byte)) (s : Body) : Body :=
  if s.get R.STO_SHADOW.STATE ≠ 2 then s
  else if s.get R.STO_SHADOW.MODE = 1 then trialBegin (rows.foldl verifyRow s)
  else
    match digests.find? (fun d => match s.img.regions.find? (fun r => r.id == d.1) with
        | some r => fillsRegion s (s.get R.STO_SHADOW.MODE) r && regionDigest s r != d.2
        | none => false) with
    | some d => shadowFail s stSHADOWMISMATCH 2 d.1 0
    | none => trialBegin s

/-! ### At a boundary -/

/-- An event of the store takes effect (R350, R351, R360 to R363, R367 to R369). -/
def stoNow (s : Body) : StoEv → Body
  | .promoted u => promotionSwitch u s
  | .demoted u => demotionDone u s
  | .flushed => flushComplete s
  | .zeroed rid => zeroFillDone rid s
  | .refilled rid => pinRefillDone rid s
  | .accepted => acceptComplete s
  | .recovered q => sledRecover q s
  | .timeout q => sledSuspectTimeout q s
  | .identified port x => sledIdentified port x s
  | .rebuild q => rebuildStart q s
  | .rebuildRow => rebuildStep s
  | .rebuildOn => rebuildResume s
  | .fillDone => shadowFillDone s
  | .verified rows digests => shadowVerifyDone rows digests s
  | .trial => shadowTrialEntry s

/-- What the store does at a boundary: positions that cannot serve, journal positions, demotions and promotions. -/
def storeBoundary (s : Body) : Body :=
  let s := (List.range 16).foldl (fun s q =>
    let st := s.get R.STO_SLED.STATE q
    if st = 2 ∨ st = 3 then farPosLost s q else s) s
  if quiet s then s else promoteStart (freeClean (journalCopy s))

end Sys2Proof.Machine
end

