-- ==== Sys2Proof/Machine/Image.lean ====
section
/-!
DEFINITION. The image (R407 to R417, R521): its sections taken apart from its bytes, and the ten checks of R416, each with
the cause, the section and the entry that the error log shows.
-/

namespace Sys2Proof.Machine

/-- A check of R416: fails with (cause, section, entry). -/
abbrev Chk := Except (Nat × Nat × Nat)

/-- Fails with a cause, a section and an entry, unless `c`. -/
def chk (c : Bool) (cause sect entry : Nat) : Chk Unit := if c then .ok () else .error (cause, sect, entry)

/-- Every entry of a list passes; the first that does not names its index. -/
def chkAll {α : Type} (cause sect : Nat) (l : List α) (f : α → Bool) : Chk Unit :=
  match l.findIdx? (fun x => !f x) with
  | some i => .error (cause, sect, i)
  | none => .ok ()

/-- No two entries have the same key. -/
def chkUnique {α : Type} (cause sect : Nat) (l : List α) (key : α → Nat) : Chk Unit :=
  let ks := l.map key
  match (List.range ks.length).find? (fun i => (ks.take i).contains (ks.getD i 0)) with
  | some i => .error (cause, sect, i)
  | none => .ok ()

/-- Bytes `a` to `b` of an entry are zero. -/
def zeroAt (e : List Byte) (a b : Nat) : Bool := allZero (slice e a (b + 1 - a))

/-! ### Directory and sections (R408, R409) -/

/-- One directory entry: TYPE, OFFSET, SLEN. -/
structure SectDir where
  ty : Nat
  off : Nat
  len : Nat
  deriving DecidableEq, Repr

/-- The directory. -/
def imageDir (b : List Byte) : List SectDir := (List.range 13).map (fun n =>
  let e := slice b (64 + 16 * n) 16
  { ty := le e 0 1, off := le e 4 4, len := le e 8 4 })

/-- The section types. -/
def sectTypes : List Nat := [1, 2, 3, 4, 5, 6, 7, 8, 9, 10, 11, 12, 15]

/-- Entry size, and least and greatest COUNT; the CORE section has one entry for each partition. -/
def sectShape (ty : Nat) : Nat × Nat × Nat :=
  if ty = 1 then (64, 1, 1024) else if ty = 2 then (8, 0, 16384) else if ty = 3 then (0, 0, 256)
  else if ty = 4 then (8, 48, 48) else if ty = 5 then (16, 80, 80) else if ty = 6 then (40, 1, 1024)
  else if ty = 7 then (1, 48, 48) else if ty = 8 then (32, 0, 256) else if ty = 9 then (8, 0, 1024)
  else if ty = 10 then (8, 0, 511) else if ty = 11 then (24, 0, 256) else (8, 0, 65536)

/-- The bytes of a section. -/
def sect (b : List Byte) (ty : Nat) : List Byte :=
  match (imageDir b).find? (fun d => d.ty == ty) with
  | some d => slice b d.off d.len
  | none => []

/-- The entries of a section of fixed entry size. -/
def sectEntries (b : List Byte) (ty : Nat) : List (List Byte) :=
  let x := sect b ty
  chunks (sectShape ty).1 (le x 0 4) (x.drop 32)

/-- The entries of ILV, each as long as its ELEN. -/
def ilvEntries : Nat → List Byte → List (List Byte)
  | 0, _ => []
  | k + 1, l => let n := le l 0 2; l.take n :: ilvEntries k (l.drop n)

/-- The header and the directory. -/
def checkHeader (b : List Byte) : Chk Unit := do
  let n := le b 8 8
  chk (decide (320 ≤ b.length) && le b 0 4 == 0x4741424D && le b 4 2 == 1 && le b 6 2 == 13) 2 0 0
  chk (decide (4096 ≤ n) && decide (n ≤ 67108864) && n % 4096 == 0 && decide (n ≤ b.length)) 2 0 0
  chk (decide (le b 21 1 < 2) && decide (le b 22 2 < 512) && zeroAt b 48 63) 2 0 0
  let ds := imageDir b
  chkAll 2 0 (List.range 13) (fun i => let e := slice b (64 + 16 * i) 16; zeroAt e 1 3 && zeroAt e 12 15)
  chkAll 2 0 sectTypes (fun t => (ds.filter (fun d => d.ty == t)).length == 1)
  chkAll 2 0 ds (fun d => d.off % 64 == 0 && decide (320 ≤ d.off) && decide (d.off + d.len ≤ n))
  chkAll 2 0 (List.range 13) (fun i => (List.range 13).all (fun j =>
    let a := ds.getD i { ty := 0, off := 0, len := 0 }
    let c := ds.getD j { ty := 0, off := 0, len := 0 }
    i == j || decide (a.off + a.len ≤ c.off) || decide (c.off + c.len ≤ a.off)))
  let sig := (ds.find? (fun d => d.ty == 15)).getD { ty := 15, off := 0, len := 0 }
  chk (ds.all (fun d => decide (d.off ≤ sig.off)) && sig.len == 4800 && allZero (slice b (sig.off + sig.len) (n - sig.off - sig.len))) 2 0 0

/-- A section's head (R409): COUNT, ESIZE, SLEN, and zeros but where PROT and OBS have fields of their own. -/
def checkHead (b : List Byte) (ty : Nat) : Chk Unit := do
  let x := sect b ty
  let (es, lo, hi) := sectShape ty
  let n := le x 0 4
  chk (decide (32 ≤ x.length) && decide (lo ≤ n) && decide (n ≤ hi) && le x 4 4 == es) 2 ty 0
  chk (if ty = 3 then ((ilvEntries n (x.drop 32)).map (·.length)).foldl (· + ·) 32 == x.length else x.length == 32 + n * es) 2 ty 0
  chk (if ty = 8 then zeroAt x 24 31 else if ty = 9 then zeroAt x 10 11 && zeroAt x 20 31 else zeroAt x 8 31) 2 ty 0

/-! ### The sections' entries (R410 to R415, R521) -/

/-- A PART entry (R410). -/
def parsePart (e : List Byte) : PartDef :=
  let f := le e 2 1
  { pid := le e 0 2, sess := bitAt f 0, owner := bitAt f 1, sgaOk := bitAt f 2, nq := le e 3 1, resSlots := le e 4 2,
    xltShare := le e 6 2, walkMax := le e 8 1, dirShare := le e 10 2, seizeMax := le e 12 4,
    qcore := (List.range 64).map (fun q => bits (le e 16 32) (4 * q + 3) (4 * q)), seqSlots := le e 48 8 }

/-- The limits that R410 states for it. -/
def partOk (e : List Byte) : Bool :=
  let p := parsePart e
  decide (p.pid < 1024) && decide (le e 2 1 < 8) && decide (p.nq ≤ 64) && decide (1 ≤ p.walkMax) && decide (p.walkMax ≤ 32) &&
  zeroAt e 9 9 && decide (1 ≤ p.seizeMax) && decide (p.seizeMax ≤ 4096) && zeroAt e 56 63

/-- A HITCH entry (R410). -/
def parseHitch (e : List Byte) : HitchDef :=
  { cid := le e 0 2, pid := le e 2 2, stages := le e 4 1 % 16, sgaOk := bitAt (le e 4 1) 7 }

/-- An ILV entry (R411). -/
def parseRegion (e : List Byte) : Region :=
  let l := 2 ^ le e 4 1
  let np := le e 6 2
  { id := le e 2 1, gLog := le e 3 1, lLog := le e 4 1, shared := bitAt (le e 5 1) 0, coded := bitAt (le e 5 1) 1,
    base := le e 8 8, size := le e 16 8, localBase := le e 24 8, hdrBase := le e 32 8, keyOwner := le e 40 2,
    list := (List.range l).map (fun i => le e (64 + 2 * i) 2), pids := (List.range np).map (fun i => le e (64 + 2 * l + 2 * i) 2) }

/-- The layout of an ILV entry. -/
def ilvOk (e : List Byte) : Bool :=
  let l := 2 ^ (le e 4 1 % 16)
  let np := le e 6 2
  e.length % 8 == 0 && decide (64 + 2 * l + 2 * np ≤ e.length) && decide (le e 4 1 ≤ 9) && decide (le e 5 1 < 4) &&
  decide (1 ≤ np) && decide (np ≤ 1024) && zeroAt e 42 63 && allZero (e.drop (64 + 2 * l + 2 * np)) &&
  (parseRegion e).list.all (fun h => decide (h < 512)) && (parseRegion e).pids.all (fun p => decide (p < 1024))

/-- A CHAN entry (R413). -/
def parseChan (e : List Byte) : ChanDef :=
  { engine := le e 0 1, chan := le e 1 1, owner := le e 2 2, units := le e 4 2, aux := le e 6 1, sramKib := le e 8 4 }

/-- A CORE entry (R413). -/
def parseCore (e : List Byte) : CoreDef :=
  { pid := le e 0 2, weight := le e 2 1, ctxMax := (List.range 16).map (fun c => le e (4 + 2 * c) 2 % 32),
    ways := (List.range 16).map (fun c => bits (le e (4 + 2 * c) 2) 12 8) }

/-- The limits that R413 states for it. -/
def coreOk (e : List Byte) : Bool :=
  let c := parseCore e
  decide (1 ≤ c.weight) && zeroAt e 3 3 && zeroAt e 36 39 &&
  (List.range 16).all (fun i => let v := le e (4 + 2 * i) 2
    bits v 7 5 == 0 && bits v 15 13 == 0 && decide (v % 32 ≤ 16) && (v % 32 != 0 || bits v 12 8 == 0))

/-- A PROT entry (R414). -/
def parseProt (e : List Byte) : ProtDef :=
  { region := le e 0 1, tier := le e 1 1 % 4, swap := bitAt (le e 1 1) 2, scheme := le e 2 1, member := le e 3 1, group := le e 4 2,
    rowBase := le e 8 4, nRows := le e 12 4, quota := le e 16 4 }

/-- A PEER entry (R414). -/
def parsePeer (e : List Byte) : PeerDef := { hid := le e 0 2, cid := le e 2 2, stages := le e 4 1, link := le e 5 1 }

/-- A GROUP entry (R414). -/
def parseGroup (e : List Byte) : GroupDef := { num := le e 0 2, members := (List.range 10).map (fun m => le e (4 + 2 * m) 2) }

/-- A SEM entry (R521). -/
def parseSem (e : List Byte) : SemDef :=
  { core := le e 0 1, barrier := le e 1 1 == 1, sem := le e 2 2, pid := le e 4 2, num := le e 6 2 }

/-- The layout of a SEM entry. -/
def semOk (e : List Byte) : Bool :=
  decide (le e 0 1 < 16) && decide (le e 1 1 < 2) && decide (le e 2 2 < 4096) && decide (le e 4 2 < 1024) &&
  (if le e 1 1 = 1 then decide (le e 6 2 < 256) else decide (1 ≤ le e 6 2) && decide (le e 6 2 ≤ 4096))

/-- An image, taken apart. NUM of a BARRIER entry holds N − 1. -/
def parseImage (b : List Byte) : Image :=
  let prot := sect b 8
  let obs := sect b 9
  { hid := le b 22 2 % 512, sp2 := bitAt (le b 21 1) 0, length := le b 8 8, partCode := le b 16 4, stepping := le b 20 1,
    ver := le b 24 8, buildId := le b 32 16, parts := (sectEntries b 1).map parsePart,
    hitches := (sectEntries b 2).map parseHitch,
    regions := (ilvEntries (le (sect b 3) 0 4) ((sect b 3).drop 32)).map parseRegion,
    sched := (sectEntries b 4).map (fun e => { link := le e 0 1, inBytes := le e 4 2, outBytes := le e 6 2 }),
    chans := (sectEntries b 5).map parseChan, cores := (sectEntries b 6).map parseCore,
    links := (sectEntries b 7).map (fun e => le e 0 1), portmap := (List.range 16).map (fun i => le prot (8 + i) 1),
    prots := (sectEntries b 8).map parseProt, obsSlots := le obs 8 2, traceFrames := le obs 12 4, sampleFrames := le obs 16 4,
    rings := (sectEntries b 9).map (fun e => (le e 0 2, le e 4 4)), peers := (sectEntries b 10).map parsePeer,
    groups := (sectEntries b 11).map parseGroup, sems := (sectEntries b 12).map parseSem,
    plan := leNat ((sha384 prot).take 16), keyId := le (sect b 15) 0 8 }

/-! ### The checks of R416 -/

/-- Check 1: FORMAT. -/
def checkFormat (b : List Byte) : Chk Unit := do
  checkHeader b
  let rec heads : List Nat → Chk Unit
    | [] => .ok ()
    | t :: ts => do checkHead b t; heads ts
  heads [1, 2, 3, 4, 5, 6, 7, 8, 9, 10, 11, 12]
  let i := parseImage b
  chkAll 2 1 (sectEntries b 1) partOk
  chkUnique 2 1 i.parts (·.pid)
  chkAll 2 2 (sectEntries b 2) (fun e => decide (le e 0 2 < 8192) && decide (le e 2 2 < 1024) && bits (le e 4 1) 6 4 == 0 && zeroAt e 5 7)
  chkUnique 2 2 i.hitches (fun h => h.cid * 1024 + h.pid)
  chkAll 2 2 i.hitches (fun h => i.parts.any (fun p => p.pid == h.pid))
  chkAll 2 3 (ilvEntries (le (sect b 3) 0 4) ((sect b 3).drop 32)) ilvOk
  chkUnique 2 3 i.regions (·.id)
  chkAll 2 4 (List.range 48) (fun k => let e := (sectEntries b 4).getD k []; le e 0 1 == k && zeroAt e 1 3)
  chkAll 2 5 (sectEntries b 5) (fun e => let c := parseChan e
    decide (1 ≤ c.engine) && decide (c.engine ≤ 5) && decide (c.chan < 16) && zeroAt e 7 7 && zeroAt e 12 15 &&
    (c.engine == 1 || c.engine == 2 || c.aux == 0))
  chkUnique 2 5 i.chans (fun c => c.engine * 16 + c.chan)
  chkAll 2 6 (sectEntries b 6) coreOk
  chkUnique 2 6 i.cores (·.pid)
  chk (i.cores.length == i.parts.length && i.cores.all (fun c => i.parts.any (fun p => p.pid == c.pid))) 2 6 0
  chkAll 2 8 (sectEntries b 8) (fun e => decide (le e 1 1 < 8) && zeroAt e 6 7 && zeroAt e 20 31)
  chkAll 2 9 (sectEntries b 9) (fun e => decide (le e 0 2 < 1024) && zeroAt e 2 3)
  chkUnique 2 9 i.rings (·.1)
  chkAll 2 10 (sectEntries b 10) (fun e => decide (le e 0 2 < 512) && decide (le e 2 2 < 8192) && decide (le e 4 1 < 16) && zeroAt e 6 7)
  chkUnique 2 10 i.peers (·.hid)
  chkUnique 2 10 i.peers (·.cid)
  chkAll 2 10 i.peers (fun p => p.hid != i.hid)
  chkAll 2 11 (sectEntries b 11) (fun e => zeroAt e 2 3 && (parseGroup e).members.all (fun h => decide (h < 512)))
  chkUnique 2 11 i.groups (·.num)
  chkAll 2 12 (sectEntries b 12) semOk
  chk (zeroAt (sect b 15) 4779 4799) 2 15 0

/-- The slot under which an image is signed (R415, R447, R451): valid, not revoked, with role IMAGE, and its record intact. -/
def imageSlot (k : SecSt) (keyId : Nat) : Option SecSlot :=
  ((k.slots.zip (List.range 8)).find? (fun x =>
    let (e, n) := x
    e.valid && !e.revoked && bitAt e.roles 0 && le e.digest 0 8 == keyId && sha384 e.record == e.digest &&
    (if k.lcs = 1 ∨ k.lcs = 0x0F then n == 0 else if k.lcs = 3 then true else if k.lcs = 7 then n != 0 else false))).map (·.1)

/-- Check 2: DIGEST and both signatures. -/
def imageSigned (k : SecSt) (b : List Byte) : Bool :=
  let sig := sect b 15
  let off := match (imageDir b).find? (fun d => d.ty == 15) with | some d => d.off | none => 0
  let dg := slice sig 8 48
  sha384 (b.take off) == dg &&
  (match imageSlot k (le sig 0 8) with
    | some e => Config.ecdsaVerify (e.record.take 96) dg (slice sig 56 96) && Config.mldsaVerify (e.record.drop 96) dg (slice sig 152 4627)
    | none => false)

/-- Checks 3 and 4: TARGET and ROLLBACK. -/
def checkTarget (s : Body) (i : Image) : Chk Unit := do
  chk (i.partCode == 0x4800 && i.stepping == s.get R.MGT_ID.STEPPING) 3 0 0
  chk (decide (s.cfg.floor ≤ i.ver)) 4 0 0

/-- Check 5: LINKS. -/
def checkLinks (i : Image) : Chk Unit := do
  chkAll 10 7 (List.range 48) (fun n => let r := i.links.getD n 0; if n < 32 then decide (r ≤ 3) else r == 0 || r == 4)
  chkAll 10 10 i.peers (fun p => decide (p.link < 32) && (i.links.getD p.link 0 == 2 || i.links.getD p.link 0 == 3))

/-- The bytes that a home holds of a region (R120, R121). -/
def regionShare (i : Image) (r : Region) : Nat := r.size / r.list.length * (r.list.filter (· == i.hid)).length

/-- Check 6: INTERLEAVE. -/
def checkIlv (i : Image) : Chk Unit := do
  let here := fun (r : Region) => r.list.contains i.hid
  chkAll 7 3 i.regions (fun r =>
    let st := 2 ^ r.gLog * 2 ^ r.lLog
    decide (12 ≤ r.gLog) && decide (r.gLog ≤ 30) && r.base % st == 0 && r.size % st == 0 && decide (r.base + r.size ≤ 2 ^ 60) &&
    (!r.coded || decide (16 ≤ r.gLog)) && r.shared == decide (2 ≤ r.pids.length) && r.pids.contains r.keyOwner &&
    r.pids.all (fun p => i.parts.any (fun d => d.pid == p)) && (here r || r.localBase == 0) && (r.coded && here r || r.hdrBase == 0))
  chkAll 7 3 i.regions (fun r => i.regions.all (fun q =>
    r.id == q.id || decide (r.base + r.size ≤ q.base) || decide (q.base + q.size ≤ r.base)))
  chkAll 7 3 i.regions (fun r => !here r || (decide (r.localBase + regionShare i r ≤ 2 ^ 45) && i.regions.all (fun q =>
    r.id == q.id || !here q || decide (r.localBase + regionShare i r ≤ q.localBase) || decide (q.localBase + regionShare i q ≤ r.localBase))))
  chkAll 7 3 i.regions (fun r => !(here r && r.coded) || i.regions.any (fun q =>
    here q && decide (q.localBase ≤ r.hdrBase) &&
    decide (r.hdrBase + 64 * ceilDiv (regionShare i r) 65536 ≤ q.localBase + regionShare i q) &&
    i.prots.any (fun p => p.region == q.id && (p.tier == 0 || p.tier == 3))))

/-- The semaphores that a SEM entry names. -/
def semSpan (d : SemDef) : Nat := if d.barrier then 2 else d.num

/-- Check 7: SHARES (R417). -/
def checkShares (i : Image) : Chk Unit := do
  let sum := fun (l : List Nat) => l.foldl (· + ·) 0
  let units := fun (e : Nat) => sum ((i.chans.filter (fun c => c.engine == e)).map (·.units))
  let aux := fun (e : Nat) => sum ((i.chans.filter (fun c => c.engine == e)).map (·.aux))
  let ctxOf := fun (pid c : Nat) => match i.cores.find? (fun k => k.pid == pid) with | some k => k.ctxMax.getD c 0 | none => 0
  chk (decide (sum (i.parts.map (·.xltShare)) ≤ 1024) && decide (sum (i.parts.map (·.dirShare)) ≤ 1024)) 8 1 0
  chk (decide (sum (i.parts.map (·.resSlots)) ≤ 896)) 8 1 0
  chkAll 8 1 (List.range 16) (fun c => decide (sum (i.parts.map (fun p => ((p.qcore.take p.nq).filter (· == c)).length)) ≤ 1024))
  chk (decide (sum (i.parts.map (·.nq)) ≤ 16384)) 8 1 0
  chkAll 8 1 i.parts (fun p => (p.qcore.take p.nq).all (fun c => decide (1 ≤ ctxOf p.pid c)))
  chkAll 8 6 (List.range 16) (fun c => decide (sum (i.cores.map (fun k => k.ways.getD c 0)) ≤ 16))
  chkAll 8 1 i.parts (fun p => i.parts.all (fun q => p.pid == q.pid || p.seqSlots &&& q.seqSlots == 0))
  chkAll 8 5 i.chans (fun c => (c.engine != 2 || c.units % 16 == 0) && (c.owner == 0xFFFF || i.parts.any (fun p => p.pid == c.owner)))
  chk (decide (units 2 ≤ 1024) && decide (units 3 ≤ 32) && decide (units 4 ≤ 32) && decide (units 5 ≤ 32)) 8 5 0
  chk (decide (units 1 + aux 2 ≤ 30) && decide (aux 1 ≤ 16) && decide (sum (i.chans.map (·.sramKib)) ≤ 187392)) 8 5 0
  chkAll 8 12 i.sems (fun d => decide (d.sem + semSpan d ≤ 4096) && i.parts.any (fun p => p.pid == d.pid) && decide (1 ≤ ctxOf d.pid d.core))
  chkAll 8 12 (List.range i.sems.length) (fun n => match i.sems[n]? with
    | some d => (i.sems.take n).all (fun e => d.core != e.core || decide (d.sem + semSpan d ≤ e.sem) || decide (e.sem + semSpan e ≤ d.sem))
    | none => true)

/-- Checks 8 and 9: SCHEDULE and PORT_PLAN. -/
def checkSched (i : Image) : Chk Unit := do
  let res := (i.parts.map (·.resSlots)).foldl (· + ·) 0
  chk (decide (res ≤ 896) && decide (8 ≤ i.obsSlots) && decide (i.obsSlots ≤ 64) && decide (res + i.obsSlots ≤ 960)) 5 9 0
  chkAll 6 4 i.sched (fun e => decide (e.inBytes ≤ 37500) && decide (e.outBytes ≤ 37500))

/-- Check 10: PROTECTION. -/
def checkProt (i : Image) : Chk Unit := do
  let share := fun (rid : Nat) => match i.regions.find? (fun r => r.id == rid) with | some r => regionShare i r | none => 0
  chkAll 9 3 i.regions (fun r => (i.prots.filter (fun p => p.region == r.id)).length == (if r.list.contains i.hid then 1 else 0))
  chkAll 9 8 i.prots (fun p => i.regions.any (fun r => r.id == p.region && r.list.contains i.hid))
  chkAll 9 8 i.prots (fun p => i.prots.all (fun q => p.region == q.region ||
    decide (p.rowBase + p.nRows ≤ q.rowBase) || decide (q.rowBase + q.nRows ≤ p.rowBase)))
  chkAll 9 8 i.prots (fun p => decide (p.scheme ≤ 5) && (!i.sp2 || p.scheme == 0 || p.scheme == 2) && (p.tier != 3 || p.nRows == 0) &&
    (p.tier == 1 || p.tier == 2 || p.quota == 0) && (decide (3 ≤ p.scheme) || (p.member == 0 && p.group == 0)))
  chk (!i.sp2 || ((List.range 14).all (fun q => (i.portmap.filter (· == q)).length == 1) &&
    (let n := (i.portmap.filter (· == 0xFE)).length; n == 1 || n == 2) &&
    i.portmap.all (fun v => decide (v < 14) || v == 0xFE || v == 0xFF))) 9 8 0
  let frames := (i.prots.map (fun p => if p.tier = 0 ∨ p.tier = 3 then ceilDiv (share p.region) 65536 else p.quota)).foldl (· + ·) 0
  chk (decide (frames + i.traceFrames + i.sampleFrames + (i.rings.map (·.2)).foldl (· + ·) 0 ≤ nFrames)) 9 8 0
  chkAll 9 8 i.prots (fun p => p.scheme < 3 || ((p.tier == 0 || p.tier == 1) && i.groups.any (fun g =>
    g.num == p.group && decide (p.member < 10) && g.members.getD p.member 512 == i.hid &&
    (if p.scheme = 3 then decide (p.member < 8) && i.regions.any (fun r => r.id == p.region && r.list == g.members.take 8)
     else p.member == p.scheme + 4))))

/-- Checks 1 to 4 (R418). -/
def checkWritten (s : State) (b : List Byte) : Chk Unit := do
  checkFormat b
  chk (imageSigned s.sec b) 1 15 0
  checkTarget s.toBody (parseImage b)

/-- Every check of R416, in order. -/
def checkImage (s : State) (b : List Byte) : Chk Unit := do
  checkWritten s b
  let i := parseImage b
  checkLinks i
  checkIlv i
  checkShares i
  checkSched i
  checkProt i

end Sys2Proof.Machine
end

