-- ==== Sys2Proof/Machine/Part.lean ====
section
/-!
DEFINITION. Partitions, hitches and composition (R370 to R392): hitches and grants, the staged composition and its commit,
session-key rollover, halyards, and taking an extent, a grant or a hitch back in three phases.
-/

namespace Sys2Proof.Machine

/-- A PRT command is refused (PRT_CMD_STATUS): 1 BUSY, 2 EXISTS, 3 NO_ENTRY, 4 FULL, 5 NOT_OWNED, 6 LATE, 7 GEN,
8 UNFENCED_DROP, 9 OVERLAP, 10 NO_PART. -/
def prtErr (s : Body) (cause : Nat) : Body := (s.set R.PRT_CMD_STATUS.ERR 1).set R.PRT_CMD_STATUS.CAUSE cause

/-- An image touches a partition (R422, R423): the partition differs between it and the image in effect. -/
def imageTouches (s : Body) (i : Image) (pid : Nat) : Bool :=
  i.parts.find? (fun p => p.pid == pid) != partDef s pid ||
  i.cores.find? (fun p => p.pid == pid) != s.img.cores.find? (fun p => p.pid == pid) ||
  i.hitches.filter (fun h => h.pid == pid) != s.img.hitches.filter (fun h => h.pid == pid) ||
  i.sems.filter (fun h => h.pid == pid) != s.img.sems.filter (fun h => h.pid == pid) ||
  i.chans.filter (fun c => c.owner == pid) != s.img.chans.filter (fun c => c.owner == pid) ||
  i.regions.filter (fun r => r.pids.contains pid) != s.img.regions.filter (fun r => r.pids.contains pid)

/-- A pending PARTIAL touches the partition (R423). -/
def partialTouches (s : Body) (pid : Nat) : Bool :=
  match s.cfg.partialRec with
  | some (_, _, some i) => imageTouches s i pid
  | some (n, _, none) => imageTouches s (parseImage (AMap.get {} s.cfg.profiles n).bytes) pid
  | _ => false

/-! ### Requests in the scope of a revocation (R389) -/

/-- An address range of a request meets an extent. -/
def reqInExtent (r : Req) (e : Extent) : Bool :=
  !r.m.space && decide (r.m.addr < e.base + e.len) && decide (e.base < r.m.addr + max 1 (reqLen r.op r.m))

/-- A request is in the scope of a revocation. -/
def inScope (s : Body) (op : RevOp) (r : Req) : Bool :=
  match op with
  | .hitch cid pid => r.m.cid == cid && r.m.pid == pid
  | .grant cid pid x =>
    r.m.cid == cid && r.m.pid == pid && (s.part pid).cur.exts.any (fun e => e.idx == x && reqInExtent r e)
  | .extent pid x _ => r.m.pid == pid && (s.part pid).cur.exts.any (fun e => e.idx == x && reqInExtent r e)

/-- Answers with a status every admitted request that `ok` picks and whose service has not begun: it waits for a round, a
lock, a way or a walk. Their rounds go on. -/
def refuseWaiting (s : Body) (ok : Req → Bool) (status : Nat) : Body :=
  (s.olp.reqs.filter (fun r => ok r && r.stage != .waiting && !r.farStarted)).foldl (fun s r =>
    match reqNow s r.id with
    | some q => refuse s q status 0
    | none => s) s

/-- A partition's requests, or those of a CID, that were admitted before `k` and are still in service. -/
def stillServed (s : Body) (k : Nat) (ok : Req → Bool) : Bool :=
  s.olp.reqs.any (fun r => ok r && r.stage != .waiting && decide (r.admitted < k))

/-! ### Hitches and grants (R376, R377, R380) -/

/-- The lowest free index of the hitch table. -/
def hitchFree (s : Body) : Nat :=
  ((List.range (s.prt.hitches.length + 1)).find? (fun i => !s.prt.hitches.any (fun h => h.idx == i))).getD 0

/-- Adds an ACTIVE hitch. -/
def hitchAdd (s : Body) (cid pid stages : Nat) (sga : Bool) : Body :=
  let h : Hitch := { idx := hitchFree s, cid := cid, pid := pid, stages := stages, sgaOk := sga, state := 1 }
  { s with prt := { s.prt with hitches := s.prt.hitches ++ [h] } }

/-- The extents that a revocation takes, in the current table. -/
def revExtents (s : Body) : RevOp → List Extent
  | .grant _ pid x => (s.part pid).cur.exts.filter (fun e => e.idx == x)
  | .extent pid x _ => (s.part pid).cur.exts.filter (fun e => e.idx == x)
  | .hitch cid pid =>
    (s.part pid).cur.exts.filter (fun e => s.prt.grants.any (fun g => g.cid == cid && g.pid == pid && g.ext == e.idx))

def RevOp.pid : RevOp → Nat
  | .grant _ p _ => p
  | .extent p _ _ => p
  | .hitch _ p => p

/-- A structure at this SGA routes through the extent's region (log entry 24: rings are named by SGA, extents by CVA). -/
def ringInExtent (s : Body) (e : Extent) (sga : Nat) : Bool :=
  match regionOfSga s sga with | some r => r.id == e.region | none => false

/-- What the fence of REVOKE_EXTENT does to queues, the hot ring and halyards of the partition (R392). -/
def fenceStructures (s : Body) (e : Extent) (pid : Nat) : Body :=
  let nq := match partDef s pid with | some p => p.nq | none => 0
  let s := (List.range nq).foldl (fun s q =>
    let key := queKey pid q
    let placed := s.get R.QUE_STATUS.STATE 0 key != 0
    if placed && (ringInExtent s e (s.get R.QUE_DRING.BASE 0 key * 4096) || ringInExtent s e (s.get R.QUE_CRING.BASE 0 key * 4096))
    then queError s key 4 0 0 (s.get R.QUE_IDX.FI 0 key) else s) s
  let s := if s.on R.XLT_PART_HOT.EN 0 pid && ringInExtent s e (s.get R.XLT_PART_HOT.RING 0 pid * 4096) then
      s.set R.XLT_PART_HOT.EN 0 0 pid else s
  (List.range 4).foldl (fun s h =>
    let j := pid * 4 + h
    let w := s.get R.PRT_HAL_LIST.ADDR 0 j
    let inside := if bitAt w 62 then ringInExtent s e (w % 2 ^ 60) else decide (e.base ≤ w % 2 ^ 57) && decide (w % 2 ^ 57 < e.base + e.len)
    if s.on R.PRT_HAL_CTRL.EN 0 j && inside then s.set R.PRT_HAL_CTRL.EN 0 0 j else s) s

/-- Marks an extent of the current and the staged table fenced, or not. -/
def setFenced (s : Body) (pid x : Nat) (v : Bool) : Body :=
  let p := s.part pid
  let f := fun (c : Compo) => { c with exts := c.exts.map (fun (e : Extent) => if e.idx = x then { e with fenced := v } else e) }
  s.setPart pid { p with cur := f p.cur, staged := f p.staged }

/-- REVOCATION_FENCE (R389): F is this boundary. An engine step that is issued from now on meets the fence as it is translated
(`engExtent`). -/
def revokeFence (s : Body) (op : RevOp) : Body :=
  let exts := revExtents s op
  let s := { s with prt := { s.prt with rev := some (op, s.now) }, dir := { s.dir with revSweep := none } }
  let s := (s.set R.PRT_CMD_STATUS.BUSY 1).set R.PRT_CMD_STATUS.PHASE 1
  let s := s.set R.PRT_CMD_STATUS.FENCE_KNOT s.now
  let hit := s.olp.reqs.filter (fun r => inScope s op r && r.stage != .waiting && !r.farStarted)
  let s := match op with
    | .extent pid x _ =>
      let s := setFenced s pid x true
      exts.foldl (fun s e => fenceStructures s e pid) s
    | .grant cid pid x =>
      let f := fun (g : Grant) => if g.cid = cid ∧ g.pid = pid ∧ g.ext = x then { g with fenced := true } else g
      { s with prt := { s.prt with grants := s.prt.grants.map f } }
    | .hitch cid pid =>
      let f := fun (h : Hitch) => if h.cid = cid ∧ h.pid = pid then { h with state := 2 } else h
      { s with prt := { s.prt with hitches := s.prt.hitches.map f } }
  let s := exts.foldl (fun s e =>
    invEffect s { scope := 1, pid := op.pid, size := 0, count := e.len / 65536, cva := e.base }) s
  refuseWaiting s (fun r => hit.any (fun h => h.id == r.id)) stREVOKED

/-- PRT_HITCH_CMD takes effect (R377). -/
def hitchNow (s : Body) (op cid pid stages : Nat) (sga : Bool) : Body :=
  if op = 1 then
    if (partDef s pid).isNone then prtErr s 10
    else if (hitchOf s cid pid).isSome then prtErr s 2
    else if 16384 ≤ s.prt.hitches.length then prtErr s 4
    else (hitchAdd s cid pid stages sga).count R.PRT_HITCH_OPS.COUNT
  else
    match hitchOf s cid pid with
    | none => prtErr s 3
    | some h =>
      if h.state ≠ 1 then prtErr s 3
      else if op = 3 then
        let f := fun (x : Hitch) => if x.idx = h.idx then { x with stages := stages, sgaOk := sga } else x
        { s with prt := { s.prt with hitches := s.prt.hitches.map f } }.count R.PRT_HITCH_OPS.COUNT
      else if s.prt.rev.isSome then prtErr s 1
      else (revokeFence s (.hitch cid pid)).count R.PRT_HITCH_OPS.COUNT

/-- GRANT takes effect (R380). -/
def grantNow (s : Body) (cid pid ext rights : Nat) : Body :=
  match hitchOf s cid pid, (s.part pid).cur.exts.find? (fun e => e.idx == ext) with
  | some h, some e =>
    if e.fenced ∨ h.state ≠ 1 then prtErr s 1
    else match grantOf s cid pid ext with
      | some g =>
        if g.fenced then prtErr s 1
        else
          let f := fun (x : Grant) => if x.cid = cid ∧ x.pid = pid ∧ x.ext = ext then { x with rights := rights } else x
          { s with prt := { s.prt with grants := s.prt.grants.map f } }
      | none =>
        if 65536 ≤ s.prt.grants.length then prtErr s 4
        else
          let g : Grant := { cid := cid, pid := pid, ext := ext, rights := rights, fenced := false }
          { s with prt := { s.prt with grants := s.prt.grants ++ [g] } }
  | _, _ => prtErr s 3

/-- REVOKE_GRANT and REVOKE_EXTENT take effect (R388): refused while a revocation runs, or where there is nothing to
take. -/
def revokeNow (s : Body) (op : RevOp) : Body :=
  let there := match op with
    | .grant cid pid x => (grantOf s cid pid x).isSome
    | .extent pid x _ => (s.part pid).cur.exts.any (fun e => e.idx == x)
    | .hitch cid pid => (hitchOf s cid pid).isSome
  if s.prt.rev.isSome then prtErr s 1
  else if !there then prtErr s 3
  else revokeFence s op

/-- REOPEN takes effect (R391). -/
def reopenNow (s : Body) (pid ext : Nat) : Body :=
  let running := match s.prt.rev with | some (.extent p x _, _) => p == pid && x == ext | _ => false
  if running then prtErr s 1
  else if !(s.part pid).cur.exts.any (fun e => e.idx == ext) then prtErr s 3
  else setFenced s pid ext false

/-- A write of PRT_HITCH_CMD or PRT_GRANT_CMD that starts a revocation while one runs is ignored at once (R388). -/
def revokeArm (s : Body) (a : Act) : Body := if s.on R.PRT_CMD_STATUS.BUSY then prtErr s 1 else s.arm a

/-! ### DRAIN and SCRUB (R390, R391) -/

/-- REVOCATION_DRAIN_END (R390). -/
def revocationDrainEnd (s : Body) : Body :=
  match s.prt.rev with
  | none => s
  | some (op, f) =>
    if s.get R.PRT_CMD_STATUS.PHASE ≠ 1 ∨ !s.on R.MGT_READY.DIR ∨ s.now ≤ f ∨ stillServed s f (inScope s op) = true then s
    else { s.set R.PRT_CMD_STATUS.PHASE 2 with dir := { s.dir with revSweep := some 0 } }

/-- The revocation takes this entry's holders (R391): with a CID, only that one. -/
def revTakes (s : Body) (op : RevOp) (e : DirEntry) : Bool :=
  let inExt := fun (pid x : Nat) => e.pid == pid && !e.space &&
    (s.part pid).cur.exts.any (fun t => t.idx == x && decide (t.base ≤ e.raddr) && decide (e.raddr < t.base + t.len))
  match op with
  | .extent pid x _ => e.st != .l && inExt pid x
  | .grant cid pid x => (e.st == .s || e.st == .x) && inExt pid x && e.ptrs.any (fun p => p.1 == cid)
  | .hitch cid pid => (e.st == .s || e.st == .x) && e.pid == pid && e.ptrs.any (fun p => p.1 == cid)

/-- One line of the SCRUB sweep. -/
def scrubLine (s : Body) (op : RevOp) (line : Nat) : Body :=
  match entryOf s line with
  | none => s
  | some e =>
    if !revTakes s op e ∨ (roundOn s line).isSome then s
    else
      let s := s.count R.PRT_SCRUB_LINES.COUNT
      match op with
      | .extent .. => invalidateLine s line
      | .grant cid _ _ => dropHolder s line cid
      | .hitch cid _ => dropHolder s line cid

/-- 64 sets of the SCRUB sweep in every knot (R391). -/
def scrubBoundary (s : Body) : Body :=
  match s.prt.rev, s.dir.revSweep with
  | some (op, _), some n =>
    if 2 ^ 22 ≤ n ∨ !s.on R.MGT_READY.DIR then s
    else
      let s := (linesInSets s n (n + 64)).foldl (fun s l => scrubLine s op l) s
      { s with dir := { s.dir with revSweep := some (n + 64) } }
  | _, _ => s

/-- The pages of an extent that lie in this home slice: SGA and local offset of 64 KiB each. -/
def extentPages (s : Body) (pid : Nat) (e : Extent) : List (Nat × Nat) :=
  (List.range (e.len / 65536)).filterMap (fun i =>
    let cva := e.base + i * 65536
    match walkPage s false [] pid cva with
    | .leaf l _ =>
      let sga := l.sga + cva % 2 ^ pageLog l.size
      (sgaHere s sga).map (fun loc => (sga, loc))
    | _ => none)

/-- MODE ZERO (R391): zeros over every page of the extent that lies in this home slice, as engine writes of whole lines through the
directory. Context 19 of core 0 waits for the answers. Holders that remain are snooped first: false while a round is on. -/
def zeroExtent (s : Body) (pid : Nat) (e : Extent) : Bool × Body :=
  let ps := extentPages s pid e
  let held := ps.flatMap (fun p => (linesOf p.2 65536).filter (fun l => (entryOf s l).isSome && !lineLost s l))
  let (ok, s) := clearForWrite s held
  if !ok then (false, s)
  else (true, ps.foldl (fun s p =>
    (engPut s 0 p.1 p.2 (List.replicate 65536 0) (some (0, 19))).count R.PRT_SCRUB_LINES.COUNT 512) s)

/-- The zero writes of a revocation with MODE ZERO, once; then whether all have been answered. The sweep stands one past its end
from then on. -/
def scrubZeros (s : Body) (op : RevOp) : Bool × Body :=
  match op, s.dir.revSweep with
  | .extent pid _ true, some n =>
    if 2 ^ 22 < n then ((s.ctx 0 19).farOps.isEmpty, s)
    else
      let (ok, s) := (revExtents s op).foldl (fun (a : Bool × Body) e =>
        let (ok, s) := zeroExtent a.2 pid e
        (a.1 && ok, s)) (true, s)
      if ok then ((s.ctx 0 19).farOps.isEmpty, { s with dir := { s.dir with revSweep := some (2 ^ 22 + 1) } }) else (false, s)
  | _, _ => (true, s)

/-- SCRUB_END (R391): the sweep is done, and every round and zero write answered. -/
def scrubEnd (s : Body) : Body :=
  match s.prt.rev, s.dir.revSweep with
  | some (op, _), some n =>
    let left := (s.dir.entries.filter (fun e => match e.2 with | some d => revTakes s op d | none => false)).map (·.1)
    if n < 2 ^ 22 then s
    else if !left.isEmpty then left.foldl (fun s l => scrubLine s op l) s
    else
      let (ok, s) := scrubZeros s op
      if !ok then s
      else
      let s := match op with
        | .extent .. => s
        | .grant cid pid x =>
          { s with prt := { s.prt with grants := s.prt.grants.filter (fun (g : Grant) => !(g.cid == cid && g.pid == pid && g.ext == x)) } }
        | .hitch cid pid =>
          let gs := s.prt.grants.filter (fun (g : Grant) => !(g.cid == cid && g.pid == pid))
          { s with prt := { s.prt with grants := gs, hitches := s.prt.hitches.filter (fun (h : Hitch) => !(h.cid == cid && h.pid == pid)) } }
      let s := { s with prt := { s.prt with rev := none }, dir := { s.dir with revSweep := none } }
      (s.set R.PRT_CMD_STATUS.BUSY 0).set R.PRT_CMD_STATUS.PHASE 0
  | _, _ => s

/-! ### Composition (R384, R385) -/

/-- A page whose staged copy equals the current one. -/
def restage (p : PartSt) : PartSt := { p with staged := p.cur }

/-- The staged extent of a number: an undefined one where none has been written. -/
def stagedExt (p : PartSt) (x : Nat) : Extent :=
  (p.staged.exts.find? (fun e => e.idx == x)).getD
    { idx := x, base := 0, len := 0, region := 0, rights := 0, fenced := false, valid := false }

/-- Replaces a staged extent. -/
def putStaged (p : PartSt) (e : Extent) : PartSt :=
  { p with staged := { p.staged with exts := p.staged.exts.filter (fun x => x.idx != e.idx) ++ [e] } }

/-- STAGED_WRITE of PRT_EXT_BASE (R384). -/
def stageBase (pid x : Nat) (v : Bool) (base : Nat) (s : Body) : Body :=
  let p := s.part pid
  if p.commit.isSome then prtErr s 1
  else s.setPart pid (putStaged p { stagedExt p x with valid := v, base := base % 2 ^ 41 * 65536 })

/-- STAGED_WRITE of PRT_EXT_LEN (R384). -/
def stageLen (pid x rights len region : Nat) (s : Body) : Body :=
  let p := s.part pid
  if p.commit.isSome then prtErr s 1
  else s.setPart pid (putStaged p { stagedExt p x with rights := rights % 16, len := len % 2 ^ 41 * 65536, region := region % 256 })

/-- STAGED_WRITE of PRT_STG_LIST (R384). -/
def stageList (pid region entry hid : Nat) (s : Body) : Body :=
  let p := s.part pid
  match s.img.regions.find? (fun r => r.id == region) with
  | none => prtErr s 3
  | some r =>
    if r.list.length ≤ entry then prtErr s 3
    else if r.pids ≠ [pid] then prtErr s 5
    else if p.commit.isSome then prtErr s 1
    else
      let l := match p.staged.lists.find? (fun e => e.1 == region) with | some (_, l) => l | none => r.list
      s.setPart pid { p with staged := { p.staged with
        lists := p.staged.lists.filter (fun e => e.1 != region) ++ [(region, l.set entry (hid % 512))] } }

/-- Valid staged extents overlap. -/
def stagedOverlap (es : List Extent) : Bool :=
  es.any (fun a => es.any (fun b => decide (a.idx < b.idx) && decide (a.base < b.base + b.len) && decide (b.base < a.base + a.len)))

/-- An extent that is not fenced is dropped or moved (R385). -/
def unfencedDrop (cur new : List Extent) : Bool :=
  cur.any (fun e => !e.fenced && !new.any (fun n => n.idx == e.idx && n.base == e.base && n.len == e.len && n.region == e.region))

/-- COMMIT (R385), with T of PRT_GEN_T. -/
def commit (pid newgen : Nat) (s : Body) : Body :=
  let p := s.part pid
  let t := s.get R.PRT_GEN_T.T
  let new := p.staged.exts.filter (·.valid)
  if (partDef s pid).isNone then prtErr s 10
  else if newgen % 65536 ≠ (p.gen + 1) % 65536 then prtErr s 7
  else if t < s.now + 2 ∨ s.now + 2 ^ 24 < t then prtErr s 6
  else if p.commit.isSome ∨ partialTouches s pid = true then prtErr s 1
  else if stagedOverlap new then prtErr s 9
  else if unfencedDrop p.cur.exts new then prtErr s 8
  else s.setPart pid { p with commit := some (newgen % 65536, t) }

/-- COMMIT_CANCEL (R384, R385): a pending commit is withdrawn, and the staged copy equals the current one. -/
def commitCancel (pid : Nat) (s : Body) : Body := s.setPart pid (restage { s.part pid with commit := none })

/-- GENERATION_EFFECT (R385): T has come. -/
def generationEffect (pid : Nat) (s : Body) : Body :=
  let p := s.part pid
  match p.commit with
  | none => s
  | some (g, t) =>
    if s.now < t then s
    else
      let exts := (p.staged.exts.filter (·.valid)).map (fun e => { e with
        fenced := p.cur.exts.any (fun o => o.idx == e.idx && o.fenced && o.base == e.base && o.len == e.len && o.region == e.region) })
      let cur : Compo := { exts := exts, lists := p.staged.lists }
      let p := restage { p with cur := cur, prev := p.cur, gen := g, genKnot := t, hasPrev := true, commit := none }
      (s.setPart pid p).count R.PRT_GEN_COMMITS.COUNT

/-! ### Session keys (R374) -/

/-- ROLL (R374), with R of PRT_KEY_T. -/
def roll (pid : Nat) (s : Body) : Body :=
  let p := s.part pid
  let r := s.get R.PRT_KEY_T.R 0 pid
  if r < s.now + 2 then prtErr s 6
  else if p.keys.staged.isNone then prtErr s 3
  else s.setPart pid { p with keys := { p.keys with roll := some r } }

/-- KEY_ROLLOVER (R374): R has come, or HOME has been set after it. -/
def keyRollover (pid : Nat) (s : Body) : Body :=
  let p := s.part pid
  let k := p.keys
  match k.roll with
  | none => s
  | some r =>
    if s.now < r ∨ !s.on R.MGT_READY.HOME then s
    else
      let k := { k with prev := k.sess, sess := k.staged, staged := none, roll := none, rolled := some r, gen := (k.gen + 1) % 65536 }
      (s.setPart pid { p with keys := k }).set R.PRT_KEY_KNOT.KNOT r 0 pid

/-- PREVIOUS_KEY_DESTROY (R374). -/
def previousKeyDestroy (pid : Nat) (s : Body) : Body :=
  let p := s.part pid
  match p.keys.rolled with
  | none => s
  | some r =>
    if s.now < r + 256 ∨ !s.on R.MGT_READY.HOME then s
    else s.setPart pid { p with keys := { p.keys with prev := none, rolled := none } }

/-! ### Halyards (R382, R383) -/

/-- HALYARD_ENABLE (R382): a write of EN := 1, with LEAD and LEN. -/
def halyardEnable (pid h lead len : Nat) (s : Body) : Body :=
  let j := pid * 4 + h
  let p := s.part pid
  let s := s.setPart pid { p with halRead := p.halRead.filter (fun e => e.1 != h), halUnits := p.halUnits.filter (fun e => e.1 != h) }
  let s := (s.set R.PRT_HAL_CTRL.LEAD lead 0 j).set R.PRT_HAL_CTRL.LEN len 0 j
  let s := s.set R.PRT_HAL_CUR.CUR 0 0 j
  s.set R.PRT_HAL_CTRL.EN (b2n (len != 0)) 0 j

/-- The unit that a halyard's word names at this home (R382): none for another home, or a translation that fails. -/
def halFind (cva : Nat) : Eng (Option Nat) := do
  let e ← get
  let at_ := fun (sga : Nat) => (sgaHere e.s sga).map unitOf
  if cva % 65536 ≠ 0 ∨ 2 ^ 57 ≤ cva then return none
  else match tlbFind e.s e.pid cva with
    | some t => return at_ (t.sga + cva % 2 ^ pageLog t.size)
    | none =>
      let known := e.walked.contains (cva >>> 16) && !e.s.xlt.walks.any (fun w => w.pid == e.pid && w.page == cva >>> 16)
      match walkPage e.s false (keptLocal e.kept) e.pid cva, known with
      | .leaf l _, true => return at_ (l.sga + cva % 2 ^ pageLog l.size)
      | .err _ _, true => return none
      | _, _ => engWantNow (fun w => { w with walks := cva :: w.walks })

/-- The context of core 0 that reads a halyard's list: beyond those of commands. -/
def halCtx (pid h : Nat) : Nat := 32 + 4 * pid + h

/-- Entry `i` of a halyard is read and translated: none of its unit where it is skipped. -/
def halRun (s : Body) (pid h i : Nat) : Except Stop (Option Nat) × Ev :=
  ((do
    let g ← engRng (s.get R.PRT_HAL_LIST.ADDR 0 (pid * 4 + h)) (8 * (i + 1)) false 0
    halFind (le (← engRead g (8 * i) 8) 0 8) : Eng (Option Nat)).run).run { evOf s 0 (halCtx pid h) .issue 1 [] with pid := pid }

/-- One entry of a halyard (R382): its unit is queued ahead of the others where that makes sense. An entry whose word or
translation has to be fetched is read when that has come. -/
def halEntry (s : Body) (pid h i : Nat) : Body :=
  let x := halCtx pid h
  let v := s.ctx 0 x
  let (r, e) := halRun s pid h i
  let s := e.late.foldr (fun g s => g s) s
  let seen := let p := s.part pid; s.setPart pid { p with halRead := p.halRead ++ [(h, i)] }
  if e.wants ≠ {} then engFetch (s.setCtx 0 x { v with pid := pid }) 0 x e.wants
  else match r with
  | .error _ => seen
  | .ok none => seen
  | .ok (some u) =>
    let p := seen.part pid
    let s := seen.setPart pid { p with halUnits := p.halUnits ++ [(h, i, u)] }
    let t := tierOf s (u * 65536)
    let swap := match unitRegion s u with | some g => (match protOf s g.id with | some p => p.swap | none => false) | none => true
    if isResident s (u * 65536) ∨ (t ≠ 1 ∧ t ≠ 2) ∨ swap = true then s
    else
      let t := promoteWant s u true
      if t.sto.ahead.length = s.sto.ahead.length then t else t.count R.PRT_HAL_PROMOTE.COUNT

/-- HALYARD_READ (R382): the entries that have come into the lead of each enabled halyard. -/
def halyardBoundary (s : Body) : Body :=
  if quiet s then s
  else s.img.parts.foldl (fun s d => (List.range 4).foldl (fun s h =>
    let j := d.pid * 4 + h
    if !s.on R.PRT_HAL_CTRL.EN 0 j then s
    else
      let cur := s.get R.PRT_HAL_CUR.CUR 0 j
      let lead := max 1 (s.get R.PRT_HAL_CTRL.LEAD 0 j)
      let is := ((List.range lead).map (cur + ·)).filter (fun i =>
        decide (i < s.get R.PRT_HAL_CTRL.LEN 0 j) && !(s.part d.pid).halRead.contains (h, i))
      let x := halCtx d.pid h
      if is.isEmpty then (if s.ctx 0 x = {} then s else s.setCtx 0 x {})
      else if ctxWaits s (s.ctx 0 x) then s
      else is.foldl (fun s i => halEntry s d.pid h i) s) s) s

/-! ### What ends with a partition's commands (R179, R198, R240, R269, R312, R375) -/

/-- The effects of a PARTITION reset on the partition's semaphores, contexts, queues, table and sequence slots and merges;
its commands end with `status`, with a record each or without. -/
def partitionClear (s : Body) (pid status : Nat) (record : Bool := true) : Body :=
  let s := abortCtxs s none (some pid) status record
  let s := (s.merges.filter (fun m => m.pid == pid)).foldl mergeAbandon s
  let s := s.img.sems.foldl (fun s d =>
    if d.pid ≠ pid then s
    else (List.range (if d.barrier then 2 else d.num)).foldl (fun s i => setSem s d.core (d.sem + i) 0) s) s
  let s := (List.range 16).foldl (fun s c => waysInvalidate s c false pid) s
  let nq := match partDef s pid with | some p => p.nq | none => 0
  let s := (List.range nq).foldl (fun s q =>
    let key := queKey pid q
    (s.set R.QUE_STATUS.STATE 0 0 key).set R.QUE_STATUS.CAUSE 0 0 key) s
  let s := (List.range 4).foldl (fun s k => { s with tables := AMap.put {} s.tables (pid * 4 + k) {} }) s
  let slots := match partDef s pid with | some p => p.seqSlots | none => 0
  (List.range 64).foldl (fun s k => if bitAt slots k then { s with seqs := AMap.put {} s.seqs k {} } else s) s

end Sys2Proof.Machine
end

