-- ==== Sys2Proof/Machine/Fail.lean ====
section
/-!
DEFINITION. Failure and teardown (R395 to R406): the answers of other Helaks and those that never come, verdicts on clients
and Helaks, fences, the teardown of a partition and its end.
-/

namespace Sys2Proof.Machine

/-! ### Answers of other Helaks (R80, R162, R366) -/

/-- A delta was answered with a status that is not good (R366): it is sent again from the intent log; once the bound of
R88 has passed, the writes that wait for it are done and answered with that status. -/
def deltaBad (s : Body) (p : PeerOut) (id hid status : Nat) : Body :=
  match s.sto.ops.find? (fun o => o.id == id) with
  | none => s
  | some o =>
    let s := if s.now < o.knot + 2048 then s
      else
        let t := o.reqs.foldl (fun s i => match reqNow s i with
          | some r => let (_, _, _, _, t) := effect s r; finish t r status 0 0 0 []
          | none => s) s
        putOp t { o with reqs := [] }
    peerSend s p.hid p.op p.addr p.arg p.pid p.payload (.delta id hid)

/-- What an answer to a peer request does, by the request's purpose. -/
def peerGot (s : Body) (p : PeerOut) (status sub : Nat) (data : List Byte) : Body :=
  let s := peerDone s p
  match p.purpose with
  | .load c x l =>
    ctxPeerAnswer s c x (some l) status sub data
  | .store c x => ctxPeerAnswer s c x none status sub []
  | .delta op hid => if status = stOK ∨ status = stBUDGETMISS then deltaDone s op hid else deltaBad s p op hid status
  | .vote => s
  | .inquire => s
  | .decide ocid sid i =>
    if goodEnd status then
      match txnRec s ocid sid with
      | some t => txnPut s { t with acked := t.acked ++ [i] }
      | none => s
    else s
  | .prepare c x => seizeAnswer s true c x status sub data
  | .finish c x => seizeAnswer s false c x status sub data
  | .shadow loc m => shadowAnswer s loc m status data

/-- The payload that an answer must have: a line for a LOAD of a line, the bytes asked for in shadowing. -/
def peerPayOk (s : Body) (p : PeerOut) (status n : Nat) : Bool :=
  if !goodEnd status then true
  else match p.purpose with
    | .load _ _ _ => p.op != opLOAD || n == 128
    | .shadow loc _ => n == (match regionOfLoc s loc with
        | some r => if s.get R.STO_SHADOW.MODE = 2 then fillUnit s r.id else 128
        | none => 128)
    | _ => true

/-- PEER_RESPONSE (R86, R162, R405): the response to an outstanding peer request; any other is discarded. -/
def peerResponse (m : RespMsg) (s : Body) : Body :=
  match peerMatch s m with
  | none => s
  | some p =>
    let hdr := respHdr m.op m.enc m.tag m.pid m.hid m.cid m.len m.cls m.serve m.hint m.rsvd m.sub m.status m.mapgen m.issue m.arg
    match verify s hdr m.enc m.pid (nonce p.knot m.cid true true m.tag) m.check m.payload with
    | none => (fabErr s 0 m.op m.link m.cid m.tag true).count R.FAB_AUTH_FAIL.COUNT
    | some (pay, prev) =>
      let s := oldKey s prev
      if m.hid ≠ p.hid ∨ m.pid ≠ p.pid ∨ !peerPayOk s p m.status pay.length then fabErr s 0 m.op m.link m.cid m.tag true
      else
        let s := if m.status = stFENCED then
            ((s.set R.FLT_SELF.FENCED_SEEN 1).set R.FLT_SELF.ISOLATED 1).set R.FLT_EVENT.ISOLATED 1
          else s
        settle (peerGot s p m.status m.sub pay)

/-- PEER_REQUEST_LOST (R88, R395): no answer 4,096 knots after the issue knot. The spec does not say what becomes of what
waited for it: the request is sent again, or counts as answered with another status (log entry 26). -/
def peerLost (link tag : Nat) (s : Body) : Body :=
  match s.peers.find? (fun p => !p.waits && p.link == link && p.tag == tag) with
  | none => s
  | some p =>
    if s.now < p.knot + 4096 then s
    else
      let s := suspicion s 3 0x3F true p.hid false
      match p.purpose with
      | .vote => peerDone s p
      | .inquire => peerDone s p
      | .decide _ _ _ => peerDone s p
      | .delta _ _ => peerSend (peerDone s p) p.hid p.op p.addr p.arg p.pid p.payload p.purpose
      | _ =>
        let (st, s) := s.free 8
        if goodEnd st then peerSend (peerDone s p) p.hid p.op p.addr p.arg p.pid p.payload p.purpose 128
        else settle (peerGot s p st 0 [])

/-- Requests outstanding to a fenced HID, and those that were to be sent to it, count as answered ST_FENCED (R399). -/
def peersFenced (s : Body) : Body :=
  (s.peers.filter (fun p => s.fences.any (fun f => f.isHid && f.id == p.hid))).foldl (fun s p =>
    match p.purpose with
    | .delta op hid => deltaDone ((peerDone s p).count R.FLT_EC_SKIP.COUNT) op hid
    | _ => peerGot s p stFENCED 0 []) s

/-! ### Verdicts (R397 to R399, R404, R406) -/

/-- An order is ignored (FLT_CMD_STATUS): 1 BUSY, 2 SELF, 3 NOT_FENCED, 4 SWEEP, 5 ALREADY, 6 LOST, 7 NO_PART. -/
def fltErr (s : Body) (cause : Nat) : Body := (s.set R.FLT_CMD_STATUS.ERR 1).set R.FLT_CMD_STATUS.CAUSE cause

/-- An order takes effect at this boundary. -/
def fltOk (s : Body) : Body := s.set R.FLT_CMD_STATUS.LAST_KNOT s.now

/-- Fences a CID at V (R398): waiting requests and prepares are answered ST_FENCED, snoops count as answered, hitches and
grants are freed, and the reclaim sweep is asked for. -/
def fenceCid (s : Body) (c : Nat) : Body :=
  let s := { s with fences := s.fences ++ [{ isHid := false, id := c, knot := s.now }] }
  let s := refuseWaiting s (fun r => r.m.cid == c) stFENCED
  let s := s.txn.recs.foldl (fun s t =>
    if t.ocid = c ∧ t.preparing ∧ !t.writing ∧ t.outcome.isNone then txnFail s t stFENCED 0 else s) s
  let s := snoopDead s c
  let s := { s with
    prt := { s.prt with hitches := s.prt.hitches.filter (fun (h : Hitch) => h.cid != c),
                        grants := s.prt.grants.filter (fun (g : Grant) => g.cid != c) }
    dir := { s.dir with nextCids := s.dir.nextCids ++ [c] } }
  sweepStart s

/-- DEAD_CLIENT takes effect (R397, R398). -/
def deadClient (s : Body) (c : Nat) : Body :=
  if cidFenced s c then fltErr s 5
  else fltOk (fenceCid (s.count R.FLT_VERDICTS.COUNT) c)

/-- DEAD_HELAK takes effect (R397, R399). -/
def deadHelak (s : Body) (h c : Nat) : Body :=
  if h = s.hid then fltErr s 2
  else if s.fences.any (fun f => f.isHid && f.id == h) then fltErr s 5
  else
    let s := s.count R.FLT_VERDICTS.COUNT
    let s := if cidFenced s c then s else fenceCid s c
    let s := { s with fences := s.fences ++ [{ isHid := true, id := h, knot := s.now, peerCid := c }] }
    fltOk (settle (peersFenced (txnHidFenced s h)))

/-- ADMIT_SHADOW takes effect (R406). -/
def admitShadow (s : Body) (h : Nat) : Body :=
  if !s.fences.any (fun f => f.isHid && f.id == h) then fltErr s 3
  else fltOk { s with fences := s.fences.map (fun (f : Fence) => if f.isHid && f.id == h then { f with shadow := true } else f) }

/-- RELEASE_CLIENT takes effect (R404). -/
def releaseClient (s : Body) (c : Nat) : Body :=
  if !cidFenced s c then fltErr s 3
  else if !s.fences.any (fun f => !f.isHid && f.id == c && f.swept) then fltErr s 4
  else fltOk { s with fences := (s.fences.filter (fun (f : Fence) => f.isHid || f.id != c)).map (fun (f : Fence) =>
    if f.isHid && f.peerCid == c then { f with peerCid := 8192 } else f) }

/-- RELEASE_HELAK takes effect (R406). -/
def releaseHelak (s : Body) (h : Nat) : Body :=
  match s.fences.find? (fun f => f.isHid && f.id == h) with
  | none => fltErr s 3
  | some f => fltOk { s with fences := s.fences.filter (fun (g : Fence) =>
      !((g.isHid && g.id == h) || (!g.isHid && g.id == f.peerCid))) }

/-! ### Teardown (R401, R402) -/

/-- The seizings of a partition that is torn down (R401): prepares are answered, and this controller decides ABORT for
those that it coordinates. -/
def tearSeizings (s : Body) (pid : Nat) : Body :=
  s.txn.recs.foldl (fun s t =>
    if t.pid ≠ pid ∨ !t.isOpen ∨ t.outcome.isSome then s
    else
      let s := if t.preparing then txnFail s t stJOBTORN 0 else s
      match txnRec s t.ocid t.sid with
      | some u => if isCoord s u && u.outcome.isNone then txnDecideAs s u stJOBTORN 0 else s
      | none => s) s

/-- TEAR takes effect (R397, R401): T is this boundary. -/
def tear (s : Body) (pid : Nat) : Body :=
  if (partDef s pid).isNone then fltErr s 7
  else if (s.part pid).flt ≠ 0 then fltErr s 1
  else
    let s := s.setPart pid { s.part pid with flt := 1, fltKnot := s.now, tearPhase := 1 }
    let s := refuseWaiting s (fun r => r.m.pid == pid) stJOBTORN
    let s := partitionClear s pid stJOBTORN
    fltOk (tearSeizings s pid)

/-- TEAR_DRAIN_END (R401): no request of p admitted before T remains in service, and the sweep starts at set 0. -/
def tearDrainEnd (pid : Nat) (s : Body) : Body :=
  let p := s.part pid
  if p.tearPhase ≠ 1 ∨ !s.on R.MGT_READY.DIR ∨ stillServed s p.fltKnot (fun r => r.m.pid == pid) = true then s
  else { s.setPart pid { p with tearPhase := 2 } with dir := { s.dir with tearSweeps := AMap.put 0 s.dir.tearSweeps pid 1 } }

/-- One line of a teardown sweep: its entry becomes I after a SNOOP_INV round in CLASS 0; L stays. -/
def tearLine (pid : Nat) (s : Body) (line : Nat) : Body :=
  match entryOf s line with
  | none => s
  | some e =>
    if e.pid ≠ pid ∨ e.st = .l ∨ (roundOn s line).isSome then s
    else invalidateLine (s.count R.FLT_TEAR_LINES.COUNT) line

/-- 64 sets of every teardown sweep in every knot (R401). -/
def tearBoundary (s : Body) : Body :=
  if !s.on R.MGT_READY.DIR then s
  else s.dir.tearSweeps.foldl (fun s e =>
    let n := e.2 - 1
    if 2 ^ 22 ≤ n then s
    else
      let s := (linesInSets s n (n + 64)).foldl (tearLine e.1) s
      { s with dir := { s.dir with tearSweeps := AMap.put 0 s.dir.tearSweeps e.1 (n + 65) } }) s

/-- TEAR_SWEEP_END (R401): every set has been visited and the last round has completed. -/
def tearSweepEnd (pid : Nat) (s : Body) : Body :=
  let p := s.part pid
  let n := AMap.get 0 s.dir.tearSweeps pid
  let left := (s.dir.entries.filter (fun e => match e.2 with | some d => d.pid == pid && d.st != .l | none => false)).map (·.1)
  if p.flt ≠ 1 ∨ n ≤ 2 ^ 22 then s
  else if !left.isEmpty then left.foldl (tearLine pid) s
  else
    let s := { s with dir := { s.dir with tearSweeps := AMap.put 0 s.dir.tearSweeps pid 0 } }
    (s.setPart pid { p with flt := 2, tearPhase := 0 }).set R.FLT_EVENT.TORN 1

/-- MEND takes effect (R397, R402, R423). -/
def mend (s : Body) (pid : Nat) : Body :=
  let p := s.part pid
  if (partDef s pid).isNone then fltErr s 7
  else if p.flt = 1 then fltErr s 1
  else if p.flt = 0 then fltErr s 7
  else if partialTouches s pid then fltErr s 1
  else if p.cur.exts.any (fun e => s.sto.lost.contains e.region) then fltErr s 6
  else fltOk (s.setPart pid { p with flt := 0 })

/-- An order of FLT_CMD takes effect (R397); other values of OP are ignored. -/
def fltNow (s : Body) (op pid hid cid : Nat) : Body :=
  if op = 1 then deadClient s cid
  else if op = 2 then deadHelak s hid cid
  else if op = 3 then admitShadow s hid
  else if op = 4 then releaseClient s cid
  else if op = 5 then releaseHelak s hid
  else if op = 6 then tear s pid
  else if op = 7 then mend s pid
  else s

/-- ISOLATED_WRITE (R405). -/
def isolatedWrite (v : Bool) (s : Body) : Body := s.set R.FLT_SELF.ISOLATED (b2n v)

end Sys2Proof.Machine
end

