-- ==== Sys2Proof/Machine/Cfg.lean ====
section
/-!
DEFINITION. Profiles and reconfiguration (R418 to R424), and the tamper log that the checks of signatures write (R464, R466).
-/

namespace Sys2Proof.Machine

/-! ### The tamper log (R466, R467) -/

/-- A new entry: `powered` says whether the 24 V input is present. -/
def tlogAdd (s : State) (kind detail arg : Nat) (powered : Bool := true) : State :=
  let tb := if powered then stampBlk s.toBody 0 false else (leBytes 9 0 ++ leBytes 1 2 ++ leBytes 2 0, s.toBody)
  let chain := match s.sec.tlog with
    | e :: _ => (sha384 e).take 8
    | [] => leBytes 8 0
  let e := tb.1 ++ leBytes 4 (s.get R.CAL_TIME.SEC) ++ leBytes 1 kind ++ leBytes 1 detail ++ leBytes 2 s.sec.tseq ++
    leBytes 4 arg ++ chain
  { s with
    toBody := tb.2
    sec := { s.sec with tlog := (e :: s.sec.tlog).take 256, tseq := (s.sec.tseq + 1) % 65536 } }

/-- A signature failed (R464): every failure counts, and at most one entry in 4,000,000 knots is logged. -/
def sigFail (s : State) (keyId : Nat) : State :=
  let s := s.upd (fun s => (s.count R.SEC_SIG_FAIL.COUNT).set R.SEC_EVENT.SIG_FAIL 1)
  let due := match s.sec.sigFailAt with | some k => decide (k + 4000000 ≤ s.tick) | none => true
  if due then
    let s := tlogAdd s 0x15 0 (keyId % 2 ^ 32)
    { s with sec := { s.sec with sigFailAt := some s.tick } }
  else s

/-- A check of an image has ended: its signatures count as verified or as failed (SEC_SIG_OK, SEC_SIG_FAIL). -/
def judge (s : State) (b : List Byte) (r : Chk Unit) : State :=
  match r with
  | .error (1, _, _) => sigFail s (le (sect b 15) 0 8)
  | .error (2, _, _) => s
  | _ => s.upd (fun s => s.count R.SEC_SIG_OK.COUNT)

/-! ### Refusals and loads (R416, R419, R420) -/

/-- A refusal (R416): `op` 0 load at reset, 1 SWITCH, 2 PARTIAL, 3 profile write. -/
def cfgRefuse (s : Body) (op prof : Nat) (c : Nat × Nat × Nat) : Body :=
  let s := s.set R.CFG_STATUS.CAUSE c.1
  let s := s.set R.CFG_ERR_LOG.CAUSE c.1
  let s := s.set R.CFG_ERR_LOG.OP op
  let s := s.set R.CFG_ERR_LOG.PROFILE prof
  let s := s.set R.CFG_ERR_LOG.SECTION c.2.1
  let s := s.set R.CFG_ERR_LOG.ENTRY c.2.2
  (s.set R.CFG_ERR_KNOT.KNOT s.now).set R.CFG_EVENT.REFUSED 1

/-- The bytes of a profile slot. -/
def profBytes (s : Body) (n : Nat) : List Byte := (AMap.get {} s.cfg.profiles n).bytes

/-- A profile slot is VALID. -/
def profValid (s : Body) (n : Nat) : Bool := (AMap.get {} s.cfg.profiles n).valid

/-- A load fails (R419). -/
def loadFail (s : Body) (prof : Nat) (switch : Bool) (c : Nat × Nat × Nat) : Body :=
  let s := cfgRefuse s (b2n switch) prof c
  { s.set R.CFG_STATUS.STATE 0 with cfg := { s.cfg with loading := none } }

/-- A load starts (R419): a slot that is not VALID fails it at once. -/
def loadStart (s : Body) (prof : Nat) (switch : Bool) : Body :=
  let s := { s.set R.CFG_STATUS.STATE 1 with cfg := { s.cfg with loading := some (prof, switch) } }
  if profValid s prof then s else loadFail s prof switch (0xD, 0, 0)

/-- KNT_SCHED under the image in effect (R29). -/
def schedTake (s : Body) : Body :=
  let res := (s.img.parts.map (·.resSlots)).foldl (· + ·) 0
  let s := s.set R.KNT_SCHED.RES_SLOTS res
  let s := s.set R.KNT_SCHED.OBS_SLOTS s.img.obsSlots
  let s := s.set R.KNT_SCHED.BE_SLOTS (1024 - res - s.img.obsSlots)
  s.set R.KNT_SCHED.SCHED_GEN (s.get R.KNT_SCHED.SCHED_GEN + 1)

/-- The registers that name the image in effect. -/
def imageRegs (s : Body) (prof : Nat) : Body :=
  let s := (s.set R.CFG_STATUS.STATE 2).set R.CFG_STATUS.ACTIVE prof
  let s := (s.set R.CFG_STATUS.BOOT prof).set R.CFG_STATUS.HID s.img.hid
  let s := (s.set R.CFG_LOAD_KNOT.KNOT s.now).set R.CFG_IMG_ID.BUILD_ID s.img.buildId
  let s := s.img.parts.foldl (fun s p => s.set R.XLT_PART_ROOT.SGA_OK (b2n p.sgaOk) 0 p.pid) s
  s.set R.CFG_EVENT.APPLIED 1

/-- The image's HITCH entries that are not hitched become ACTIVE (R420, R424); `ok` picks partitions. -/
def hitchesTake (s : Body) (ok : Nat → Bool) : Body :=
  s.img.hitches.foldl (fun s h => if ok h.pid && (hitchOf s h.cid h.pid).isNone then hitchAdd s h.cid h.pid h.stages h.sgaOk else s) s

/-- A partition that is gone (R375): keys, composition, hitches, grants, table and sequence slots, semaphores and directory
entries, under the image that defined it. Its commands end without a record and its queues are OFF (log entry 142). -/
def partitionRemove (s : Body) (pid : Nat) : Body :=
  let s := partitionClear s pid stRESETABORT false
  let s := { s with
    parts := AMap.put {} s.parts pid {}
    prt := { s.prt with hitches := s.prt.hitches.filter (fun (h : Hitch) => h.pid != pid),
                        grants := s.prt.grants.filter (fun (g : Grant) => g.pid != pid) }
    dir := { s.dir with
      rounds := s.dir.rounds.filter (fun (r : Round) => match entryOf s r.line with | some e => e.pid != pid | none => true),
      entries := s.dir.entries.filter (fun (e : Nat × Option DirEntry) => match e.2 with | some d => d.pid != pid | none => true),
      tearSweeps := AMap.put 0 s.dir.tearSweeps pid 0 }
    xlt := { s.xlt with tlb := s.xlt.tlb.filter (fun (t : TlbEntry) => t.pid != pid),
                        walks := s.xlt.walks.filter (fun (w : Walk) => w.pid != pid) } }
  ((s.set R.XLT_PART_ROOT.V 0 0 pid).set R.XLT_PART_ROOT.ROOT 0 0 pid).set R.XLT_PART_ROOT.SGA_OK 0 0 pid

/-- A region's frames are zeroed and freed (R375, R424). -/
def regionFree (s : Body) (i : Image) (r : Region) : Body :=
  let n := regionShare i r
  let mine := fun (u : Nat) => decide (r.localBase ≤ u * 65536) && decide (u * 65536 < r.localBase + n)
  { s with
    near := AMap.clear s.near r.localBase (r.localBase + n)
    sto := { s.sto with
      resident := s.sto.resident.filter (fun (x : Resident) => !mine x.unit),
      queue := s.sto.queue.filter (fun u => !mine u), ahead := s.sto.ahead.filter (fun u => !mine u),
      migrations := s.sto.migrations.filter (fun m => match m with | .promote u _ => !mine u | .writeback u _ _ _ => !mine u),
      lost := s.sto.lost.filter (· != r.id) } }

/-- The header arrays of coded regions that an image creates at this home read as zero (R219); `old` had those regions before. -/
def headersZero (s : Body) (i : Image) (old : List Region) : Body :=
  (i.regions.filter (fun r => r.coded && r.list.contains i.hid && !old.contains r)).foldl
    (fun s r => zeroLoc s r.hdrBase (64 * ceilDiv (regionShare i r) 65536)) s

/-- An image takes effect at the end of a load (R419, R420). -/
def imageTake (s : Body) (prof : Nat) (i : Image) : Body :=
  let power := s.cfg.afterPower
  let s := if power then s else headersZero s i s.cfg.was
  let s := { s with cfg := { s.cfg with img := some i, loading := none, afterPower := false, was := i.regions } }
  let s := schedTake (imageRegs s prof)
  if power then
    let s := { s with prt := {}, sto := { s.sto with
      refill := ((i.prots.filter (fun p => p.tier = 0 ∧ p.nRows ≠ 0)).map (·.region)) } }
    let s := hitchesTake s (fun _ => true)
    -- the near tier was lost: WB and NEAR regions are LOST (R344, R369)
    i.prots.foldl (fun s p => if 2 ≤ p.tier then regionLost s p.region else s) s
  else
    let pids := s.parts.map (fun (e : Nat × PartSt) => e.1) ++ s.prt.hitches.map (fun (h : Hitch) => h.pid)
    let gone := pids.filter (fun (p : Nat) => !i.parts.any (fun d => d.pid == p))
    let s := gone.foldl (fun s p => partitionRemove s p) s
    let s := s.sto.lost.foldl (fun s r => s.set R.STO_RGN.LOST 1 0 r) s
    hitchesTake s (fun _ => true)

/-- At the boundary after its load has passed, an image takes effect (R23, R419). -/
def imageNow (s : Body) (prof : Nat) (i : Image) : Body :=
  if s.cfg.loading.any (fun l => l.1 == prof) ∧ s.get R.CFG_STATUS.STATE = 1 then imageTake s prof i else s

/-- IMAGE_LOAD_DONE (R419): the load in progress ends; an image that passes takes effect at the next boundary. -/
def imageLoadDone (s : State) : State :=
  match s.cfg.loading with
  | none => s
  | some (prof, switch) =>
    if s.get R.CFG_STATUS.STATE ≠ 1 ∨ !s.on R.MGT_READY.SEC ∨ s.acts.any (fun a => match a with | .image .. => true | _ => false) then s
    else
      let b := profBytes s.toBody prof
      let r := checkImage s b
      (judge s b r).upd (fun s => match r with
        | .error c => loadFail s prof switch c
        | .ok _ => s.arm (.image prof (parseImage b)))

/-- BOOT_WRITE (R419): ignored while STATE is LOADING or PENDING. -/
def bootWrite (prof : Nat) (s : Body) : Body :=
  if s.get R.CFG_STATUS.STATE = 1 ∨ s.get R.CFG_STATUS.STATE = 3 then s else s.set R.CFG_STATUS.BOOT prof

/-- FLOOR_WRITE: a write below the current value is ignored. -/
def floorWrite (v : Nat) (s : Body) : Body :=
  if v % 2 ^ 64 < s.cfg.floor then s else { s with cfg := { s.cfg with floor := v % 2 ^ 64 } }

/-! ### Profile writes (R418) -/

/-- A SWITCH that has been accepted and waits for its reset, or for the start of its load. -/
def switchPending (s : Body) : Bool := s.acts.any (fun a => match a with | .reset 3 6 => true | .load _ true => true | _ => false)

/-- A profile that is in effect, or that a pending SWITCH or PARTIAL names: one that waits, or whose load runs (R418). -/
def profBusy (s : Body) (n : Nat) : Bool :=
  (s.cfg.img.isSome && s.get R.CFG_STATUS.ACTIVE == n) ||
    (match s.cfg.partialRec with | some (p, _, _) => p == n | none => false) || s.cfg.loading == some (n, true) ||
    s.acts.any (fun a => match a with | .load p true => p == n | .reset 3 6 => s.get R.CFG_STATUS.BOOT == n | _ => false)

/-- PROFILE_WRITE_START. -/
def profileWriteStart (n : Nat) (s : Body) : Body :=
  if profBusy s n then cfgRefuse s 3 n (0xE, 0, 0)
  else { s with cfg := { s.cfg with profiles := AMap.put {} s.cfg.profiles n { writing := true } } }

/-- PROFILE_WRITE_END: checks 1 to 4 decide VALID. -/
def profileWriteEnd (n : Nat) (b : List Byte) (s : State) : State :=
  if !(AMap.get {} s.cfg.profiles n).writing then s
  else
    let r := checkWritten s b
    let ok := match r with | .ok _ => true | .error _ => false
    (judge s b r).upd (fun s =>
      let s := { s with cfg := { s.cfg with profiles := AMap.put {} s.cfg.profiles n { valid := ok, bytes := b } } }
      match r with
      | .ok _ => s
      | .error c => cfgRefuse s 3 n c)

/-! ### SWITCH and PARTIAL (R419, R421 to R424) -/

/-- SWITCH (R419, R421). -/
def switch (n : Nat) (s : State) : State :=
  let st := s.get R.CFG_STATUS.STATE
  if st = 1 ∨ st = 3 then s.upd (fun s => cfgRefuse s 1 n (0xE, 0, 0))
  else if st = 0 then s.upd (fun s => s.arm (.load n true))
  else if !profValid s.toBody n then s.upd (fun s => cfgRefuse s 1 n (0xD, 0, 0))
  else
    let b := profBytes s.toBody n
    let r := checkImage s b
    (judge s b r).upd (fun s =>
      match r with
      | .error c => cfgRefuse s 1 n c
      | .ok _ =>
        let i := parseImage b
        if i.prots ≠ s.img.prots ∨ i.portmap ≠ s.img.portmap ∨ i.plan ≠ s.img.plan then cfgRefuse s 1 n (9, 8, 0)
        else (s.set R.CFG_STATUS.BOOT n).arm (.reset 3 6))

/-- PARTIAL (R422), with T of CFG_PARTIAL_T. -/
def partialStart (n : Nat) (s : Body) : Body :=
  let t := s.get R.CFG_PARTIAL_T.T
  let st := s.get R.CFG_STATUS.STATE
  let i := parseImage (profBytes s n)
  let pids := (s.img.parts ++ i.parts).map (·.pid)
  if (s.cfg.img.isSome ∧ n = s.get R.CFG_STATUS.ACTIVE) ∨ !profValid s n then cfgRefuse s 2 n (0xD, 0, 0)
  else if t < s.now + 2000000 ∨ s.now + 2 ^ 24 < t then cfgRefuse s 2 n (0xC, 0, 0)
  else if st = 1 ∨ st = 3 ∨ switchPending s ∨ pids.any (fun p => imageTouches s i p && (s.part p).commit.isSome) then
    cfgRefuse s 2 n (0xE, 0, 0)
  else { s.set R.CFG_STATUS.STATE 3 with cfg := { s.cfg with partialRec := some (n, t, none) } }

/-- STATE after a PARTIAL that does not go on. -/
def partialDrop (s : Body) : Body :=
  { s.set R.CFG_STATUS.STATE (if s.cfg.img.isSome then 2 else 0) with cfg := { s.cfg with partialRec := none } }

/-- PARTIAL_CANCEL (R422): ignored while STATE is not PENDING. -/
def partialCancel (s : Body) : Body := if s.get R.CFG_STATUS.STATE = 3 then partialDrop s else s

/-- A partition is free (R423): TORN here, or absent from one of the two images. -/
def partFree (s : Body) (i : Image) (pid : Nat) : Bool :=
  (s.part pid).flt == 2 || !s.img.parts.any (fun p => p.pid == pid) || !i.parts.any (fun p => p.pid == pid)

/-- Two lists hold the same entries. -/
def sameEntries {α : Type} [DecidableEq α] (a b : List α) : Bool := a.all (fun x => b.contains x) && b.all (fun x => a.contains x)

/-- The PROT entry of a region, its quota set aside where the tier is WT or WB. -/
def protSans (i : Image) (rid : Nat) : Option ProtDef :=
  (i.prots.find? (fun p => p.region == rid)).map (fun p => if p.tier = 1 ∨ p.tier = 2 then { p with quota := 0 } else p)

/-- A port's partner forbids a change of its role (R423). -/
def partnerBinds (s : Body) (i : Image) (n : Nat) : Bool :=
  let id := s.get R.LNK_PEER.PEER_ID n
  if !linkUp s n then false
  else if s.get R.LNK_STATUS.ROLE n = 1 then s.prt.hitches.any (fun h => h.cid == id && !partFree s i h.pid)
  else if s.get R.LNK_STATUS.ROLE n = 3 then s.img.peers.any (fun p => p.hid == id)
  else false

/-- What a PARTIAL may change (R423); any other difference fails with cause PARTIAL. -/
def partialRules (s : Body) (i : Image) : Chk Unit := do
  let o := s.img
  chk s.cfg.img.isSome 0xB 0 0
  chk (o.hid == i.hid && o.sp2 == i.sp2 && o.length == i.length) 0xB 0 0
  let bound := ((o.parts ++ i.parts).map (·.pid)).filter (fun p => !partFree s i p)
  chkAll 0xB 1 bound (fun p => o.parts.find? (fun d => d.pid == p) == i.parts.find? (fun d => d.pid == p))
  chkAll 0xB 6 bound (fun p => o.cores.find? (fun d => d.pid == p) == i.cores.find? (fun d => d.pid == p))
  chkAll 0xB 2 bound (fun p => sameEntries (o.hitches.filter (fun h => h.pid == p)) (i.hitches.filter (fun h => h.pid == p)))
  chkAll 0xB 12 bound (fun p => sameEntries (o.sems.filter (fun h => h.pid == p)) (i.sems.filter (fun h => h.pid == p)))
  let chanFree := fun (w : Nat) => w == 0xFFFF || partFree s i w
  chkAll 0xB 5 o.chans (fun c => match i.chans.find? (fun d => d.engine == c.engine && d.chan == c.chan) with
    | some d => c == d || (chanFree c.owner && chanFree d.owner)
    | none => false)
  chkAll 0xB 3 o.regions (fun r => match i.regions.find? (fun q => q.id == r.id) with
    | some q => (r == q && protSans o r.id == protSans i r.id) || (r.pids ++ q.pids).all (partFree s i)
    | none => true)
  chkAll 0xB 7 (List.range 48) (fun n => o.links.getD n 0 == i.links.getD n 0 || (decide (n < 32) && !partnerBinds s i n))
  chk (sameEntries o.peers i.peers) 0xB 10 0
  chk (sameEntries o.groups i.groups) 0xB 11 0
  chk (o.obsSlots == i.obsSlots && o.traceFrames == i.traceFrames && o.sampleFrames == i.sampleFrames && sameEntries o.rings i.rings) 0xB 9 0
  chk (o.portmap == i.portmap) 0xB 8 0

/-- PARTIAL_CHECKED (R422, R423). -/
def partialChecked (s : State) : State :=
  match s.cfg.partialRec with
  | some (n, t, none) =>
    let b := profBytes s.toBody n
    let r := checkImage s b
    let i := parseImage b
    let q := r >>= fun _ => partialRules s.toBody i
    (judge s b r).upd (fun s => match q with
      | .error c => partialDrop (cfgRefuse s 2 n c)
      | .ok _ => { s with cfg := { s.cfg with partialRec := some (n, t, some i) } })
  | _ => s

/-- A partition that is added or removed: its eight counters return to zero and its sample programs restart (R469). -/
def partCounters (s : Body) (pid : Nat) : Body :=
  let s := (List.range 8).foldl (fun s k => (s.set R.OBS_PART_CTR.COUNT 0 k pid).set R.OBS_PART_CTR.OVF 0 k pid) s
  smpRestart s pid

/-- Every difference of a PARTIAL takes effect at T (R424). -/
def partialApply (s : Body) (n : Nat) (i : Image) : Body :=
  let o := s.img
  let removed := (o.parts.map (·.pid)).filter (fun p => !i.parts.any (fun d => d.pid == p))
  let added := (i.parts.map (·.pid)).filter (fun p => !o.parts.any (fun d => d.pid == p))
  let changed := (i.parts.map (·.pid)).filter (fun p => o.parts.any (fun d => d.pid == p) && imageTouches s i p)
  let differs := fun (r : Region) => match i.regions.find? (fun q => q.id == r.id) with
    | some q => !(r == q && protSans o r.id == protSans i r.id)
    | none => true
  let fresh := i.regions.filter (fun q => match o.regions.find? (fun r => r.id == q.id) with
    | some r => !(r == q && protSans o r.id == protSans i r.id)
    | none => true)
  let s := removed.foldl (fun s p => partCounters (partitionRemove s p) p) s
  let s := (o.regions.filter differs).foldl (fun s r => if r.list.contains o.hid then regionFree s o r else s) s
  let s := changed.foldl (fun s p => o.sems.foldl (fun s d =>
    if d.pid = p then (List.range (semSpan d)).foldl (fun s k => setSem s d.core (d.sem + k) 0) s else s) s) s
  let sched := o.parts.map (fun p => (p.pid, p.resSlots)) ≠ i.parts.map (fun p => (p.pid, p.resSlots)) ∨ o.sched ≠ i.sched
  let s := headersZero s i o.regions
  let s := { s with cfg := { s.cfg with img := some i, partialRec := none, was := i.regions } }
  let zero := (fresh.filter (fun r => i.prots.any (fun p => p.region == r.id && p.nRows != 0))).map (·.id)
  let s := { s with cfg := { s.cfg with zeroing := s.cfg.zeroing ++ zero } }
  let s := changed.foldl (fun s p => i.sems.foldl (fun s d =>
    if d.pid = p then (List.range (semSpan d)).foldl (fun s k => setSem s d.core (d.sem + k) 0) s else s) s) s
  let s := added.foldl (fun s p => partCounters (s.setPart p {}) p) s
  let s := hitchesTake s (fun p => added.contains p || changed.contains p)
  let s := if o.plan = i.plan then s
    else relabel { s with sto := { s.sto with sleds := s.sto.sleds.map (fun (e : Nat × Sled) =>
      (e.1, { e.2 with label := e.2.label.map (fun l => { l with plan := i.plan, knot := s.now }) })) } }
  let s := if sched then schedTake s else s
  let s := (List.range 32).foldl (fun s k =>
    let r := i.links.getD k 0
    if r = s.get R.LNK_STATUS.ROLE k then s
    else
      roleChange s k r) s
  imageRegs s n

/-- PARTIAL_EFFECT (R423, R424): at T, unless a partition of the change has stopped being free. -/
def partialEffect (s : Body) : Body :=
  match s.cfg.partialRec with
  | some (n, t, some i) =>
    if s.now < t then s
    else match partialRules s i with
      | .error c => partialDrop (cfgRefuse s 2 n c)
      | .ok _ => partialApply s n i
  | _ => s

end Sys2Proof.Machine
end

