-- ==== Sys2Proof/Machine/Reset.lean ====
section
/-!
DEFINITION. Power, reset and bring-up (R428 to R445): the input's conditions, throttle and quiesce, the reset input, the
four resets and the readiness bits.
-/

namespace Sys2Proof.Machine

/-! ### The input (R429, R431) -/

/-- `PWR_LIMIT.LIMIT_W` in effect. -/
def limitW (s : Body) : Nat := min 1500 (max 800 (s.get R.PWR_LIMIT.LIMIT_W))

/-- `PWR_THR.THROTTLE_MV` in effect. -/
def throttleMv (s : Body) : Nat := min 0x5DC0 (max 0x5208 (s.get R.PWR_THR.THROTTLE_MV))

/-- `PWR_THR.QUIESCE_MV` in effect. -/
def quiesceMv (s : Body) : Nat := min (throttleMv s - 500) (max 0x4C2C (s.get R.PWR_THR.QUIESCE_MV))

/-- What the package measured of the knot that ends: PWR_IN, PWR_EXT, the conditions of R431 and the counters. -/
def pwrBoundary (b : BoundaryIn) (s : Body) : Body :=
  let s := s.set R.CAL_STATUS.CELL_LOW (b2n b.cellLow)
  let s := ((s.set R.PWR_IN.VIN_MV b.vinMv).set R.PWR_IN.IIN b.iin).set R.PWR_IN.PKG_W b.pkgW
  let s := s.set R.PWR_EXT.VIN_MIN_MV (if s.pwr.extClr then b.vinMv else min (s.get R.PWR_EXT.VIN_MIN_MV) b.vinMv)
  let s := s.set R.PWR_EXT.VIN_MAX_MV (if s.pwr.extClr then b.vinMv else max (s.get R.PWR_EXT.VIN_MAX_MV) b.vinMv)
  let s := if s.get R.PWR_STATUS.LEVEL ≠ 0 then s.count R.PWR_THROTTLE_KNOTS.COUNT else s
  let s := if quiet s then s.count R.PWR_QUIESCE_KNOTS.COUNT else s
  let s := if 28000 < b.vinMv then s.count R.PWR_SURGE_KNOTS.COUNT else s
  let s := if 28000 < b.vinMv ∧ !s.on R.PWR_STATUS.SURGE then s.set R.PWR_EVENT.SURGE_EV 1 else s
  let s := s.set R.PWR_STATUS.SURGE (b2n (28000 < b.vinMv))
  let s := (if !b.pgood && s.on R.PWR_STATUS.PG then s.set R.PWR_EVENT.PG_LOSS 1 else s).set R.PWR_STATUS.PG (b2n b.pgood)
  let volt := if throttleMv s + 500 ≤ b.vinMv then s.pwr.okVolt + 1 else 0
  let power := if b.pkgW + 50 ≤ limitW s then s.pwr.okPower + 1 else 0
  let quiesce := if s.on R.PWR_STATUS.PG ∧ quiesceMv s + 500 ≤ b.vinMv then s.pwr.okQuiesce + 1 else 0
  let s := { s with pwr := { s.pwr with
    extClr := false, okVolt := volt, okPower := power, okQuiesce := quiesce, levelFor := s.pwr.levelFor + 1,
    pin := s.pwr.pin.map (· + 1) } }
  let s := if b.vinMv < throttleMv s then s.set R.PWR_STATUS.BY_VOLT 1
    else if 4000 ≤ volt then s.set R.PWR_STATUS.BY_VOLT 0 else s
  if limitW s < b.pkgW then s.set R.PWR_STATUS.BY_POWER 1
  else if 4000 ≤ power then s.set R.PWR_STATUS.BY_POWER 0 else s

/-- A throttle condition holds: it has begun, and has not ended (R431). -/
def throttleHolds (s : Body) : Bool := s.on R.PWR_STATUS.BY_VOLT || s.on R.PWR_STATUS.BY_POWER

/-- Throttle begins (R431). -/
def throttleNow (s : Body) : Body :=
  if throttleHolds s ∧ s.get R.PWR_STATUS.STATE = 0 then (s.set R.PWR_STATUS.STATE 1).set R.PWR_EVENT.THROTTLE_EV 1 else s

/-- THROTTLE_ENTER: at the next boundary. -/
def throttleEnter (s : Body) : Body :=
  if throttleHolds s ∧ s.get R.PWR_STATUS.STATE = 0 then s.arm (.pwr .throttle) else s

/-- Cycles of regions 1 and 2 in a knot at a stretch level (R432). -/
def levelCycles (level : Nat) : Nat := 500 - 50 * level

/-- STRETCH_CHANGE (R432, R45): regions 1 and 2 take a level, and each writes its REGION record (R471). -/
def setLevel (s : Body) (level : Nat) : Body :=
  let s := s.set R.PWR_STATUS.LEVEL level
  let s := { s with pwr := { s.pwr with levelFor := 0 } }
  [1, 2].foldl (fun s r => regionRec (s.set R.KNT_RGN.STATE (b2n (level != 0)) r) r (b2n (level != 0)) (levelCycles level)) s

/-- The level may rise: a throttle condition holds, and the last change is 16 knots before (R432); `k` knots are still to come. -/
def mayStep (s : Body) (k : Nat) : Bool :=
  throttleHolds s && s.get R.PWR_STATUS.STATE == 1 && decide (s.get R.PWR_STATUS.LEVEL < 5) && decide (16 ≤ s.pwr.levelFor + k)

/-- The level may fall, or the state end: the condition has ended, and the last change is 4,000 knots before (R432). -/
def mayRelax (s : Body) (k : Nat) : Bool :=
  !throttleHolds s && s.get R.PWR_STATUS.STATE == 1 &&
  (s.get R.PWR_STATUS.LEVEL == 0 || decide (4000 ≤ s.pwr.levelFor + k))

/-- THROTTLE_STEP (R45, R432): at the next boundary. -/
def throttleStep (s : Body) : Body := if mayStep s 1 then s.arm (.level true) else s

/-- THROTTLE_RELAX (R45, R432): at the next boundary. -/
def throttleRelax (s : Body) : Body := if mayRelax s 1 then s.arm (.level false) else s

/-- The level changes at a boundary (R45, R432): the last level, and a throttle that reached none, end the state. -/
def levelNow (s : Body) (up : Bool) : Body :=
  let l := s.get R.PWR_STATUS.LEVEL
  if up then (if mayStep s 0 then setLevel s (l + 1) else s)
  else if !mayRelax s 0 then s
  else if l = 0 then s.set R.PWR_STATUS.STATE 0
  else
    let s := setLevel s (l - 1)
    if l = 1 then s.set R.PWR_STATUS.STATE 0 else s

/-- Quiesce takes effect (R433). -/
def quiesceNow (s : Body) : Body :=
  if quiet s then s
  else
    let s := (s.set R.PWR_STATUS.STATE 2).set R.PWR_EVENT.QUIESCE_EV 1
    { s with pwr := { s.pwr with okQuiesce := 0, stopped := none, ended := none } }

/-- QUIESCE_ENTER: at boundary Q, the next, whatever the input does until then. -/
def quiesceEnter (s : Body) : Body :=
  if !quiet s ∧ (s.get R.PWR_IN.VIN_MV < quiesceMv s ∨ !s.on R.PWR_STATUS.PG) then s.arm (.pwr .quiesce) else s

/-- PGOOD_DEASSERT: the sample is shown, and quiesce follows at the next boundary. -/
def pgoodLost (s : Body) : Body :=
  let s := (if s.on R.PWR_STATUS.PG then s.set R.PWR_EVENT.PG_LOSS 1 else s).set R.PWR_STATUS.PG 0
  if quiet s then s else s.arm (.pwr .quiesce)

/-- The engine regions and the stacks. -/
def powerRegions : List Nat := [1, 2, 8, 9, 10, 11, 12, 13, 14, 15]

/-- Nothing remains in service (R433): no admitted request, no issued step, no access of the far store. -/
def drained (s : Body) : Bool :=
  s.olp.reqs.all (fun r => r.stage == .waiting) && s.sto.ops.isEmpty &&
  s.cores.all (fun (k : Nat × CoreSt) => k.2.ctxs.all (fun (v : Nat × Ctx) => !v.2.issued))

/-- The engine regions and the stacks stop, if nothing remains in service (REGION_STOP). -/
def stopNow (s : Body) : Body :=
  if quiet s ∧ s.pwr.stopped = none ∧ s.pwr.ended = none ∧ drained s then
    let s := powerRegions.foldl (fun s r => if s.get R.KNT_RGN.STATE r = 2 then s else regionStop s r s.now) s
    { s with pwr := { s.pwr with stopped := some s.now } }
  else s

/-- QUIESCE_DRAINED: at the next boundary. -/
def quiesceDrained (s : Body) : Body :=
  if quiet s ∧ s.pwr.stopped = none ∧ s.pwr.ended = none then s.arm (.pwr .drained) else s

/-- The stacks begin to leave self-refresh. -/
def endNow (s : Body) : Body :=
  if quiet s ∧ s.pwr.ended = none ∧ 4000 ≤ s.pwr.okQuiesce then { s with pwr := { s.pwr with ended := some s.now } } else s

/-- QUIESCE_END: at the next boundary, with which the condition has held for 4,000 knots. -/
def quiesceEnd (s : Body) : Body :=
  if quiet s ∧ s.pwr.ended = none ∧ 3999 ≤ s.pwr.okQuiesce then s.arm (.pwr .ended) else s

/-- What quiesce stopped runs again; a stack that failed does not. -/
def restartNow (s : Body) : Body :=
  if !quiet s ∨ s.pwr.ended = none then s
  else
    let l := s.get R.PWR_STATUS.LEVEL
    let back := powerRegions.filter (fun r =>
      s.get R.KNT_RGN.STATE r == 2 && (decide (r < 8) || bitAt (s.get R.STO_NEAR.STACK_UP) (r - 8)))
    let s := gapsRestart s (fun r => back.contains r)
    let s := back.foldl (fun s r =>
      let st := b2n (r < 8 && l != 0)
      regionRec (s.set R.KNT_RGN.STATE st r) r st (if r < 8 then levelCycles l else 400)) s
    let s := s.set R.PWR_STATUS.STATE (b2n (l != 0 || throttleHolds s))
    { s with pwr := { s.pwr with stopped := none } }

/-- QUIESCE_RESTART: at the next boundary. -/
def quiesceRestart (s : Body) : Body := if quiet s ∧ s.pwr.ended.isSome then s.arm (.pwr .restart) else s

/-- What the input asks for takes effect. -/
def pwrNow (s : Body) : PwrEv → Body
  | .throttle => throttleNow s
  | .quiesce => quiesceNow s
  | .drained => stopNow s
  | .ended => endNow s
  | .restart => restartNow s

/-- SURGE. -/
def surge (s : Body) : Body := (s.set R.PWR_STATUS.SURGE 1).set R.PWR_EVENT.SURGE_EV 1

/-- PWR_EXT_CLEAR. -/
def pwrExtClear (s : Body) : Body := { s with pwr := { s.pwr with extClr := true } }

/-! ### Resets (R437 to R440) -/

/-- The field that a key of the register map stands for. -/
def fldOfKey (k : Nat) : Option Fld :=
  let a := k / 64 % windowSize
  R.regTable.findSome? (fun (r : RegInfo) => r.fields.find? (fun f =>
    f.lo == k % 64 && decide (f.off ≤ a) &&
      (f.off == a || (f.stride != 0 && (a - f.off) % f.stride == 0 && decide ((a - f.off) / f.stride < r.mul * r.count + r.add)))))

/-- What CHIP reset keeps (R7): RWS fields, fields kept by their own rule, and the present state of the straps and the cell, and
ZEROISED (R465). -/
def keptByChip (k : Nat) : Bool :=
  k == R.CFG_STATUS.PSEL.key 0 0 || k == R.CAL_STATUS.VALID.key 0 0 || k == R.SEC_STATUS.ZEROISED.key 0 0 ||
  match fldOfKey k with
  | some f => f.acc == .rws || f.kept
  | none => false

/-- What POWER reset keeps: what the backup cell keeps. -/
def keptByPower (k : Nat) : Bool :=
  k == R.RST_CAUSE.KIND.key 0 0 || k == R.RST_CAUSE.CAUSE.key 0 0 || k == R.RST_CAUSE.COUNT.key 0 0 ||
  k == R.RST_KNOT.KNOT.key 0 0 || k == R.CAL_TIME.SEC.key 0 0 || k == R.CAL_TIME.FRAC.key 0 0 ||
  k == R.CAL_STATUS.VALID.key 0 0

/-- RST_CAUSE and RST_KNOT record a POWER or CHIP reset. -/
def rstRecord (s : Body) (kind cause : Nat) : Body :=
  let s := (s.set R.RST_CAUSE.KIND kind).set R.RST_CAUSE.CAUSE cause
  (s.sat R.RST_CAUSE.COUNT 1).set R.RST_KNOT.KNOT s.now

/-- What a reset stopped: every region but the reserved one (R46, R473). -/
def resetGaps (stop : Nat) : List (Nat × Nat × Nat) :=
  ((List.range 16).filter (fun r => r != 7)).map (fun r => (r, stop, 0))

/-- The life-cycle fuses after a loss of power during a burn: either the old code or the new one (R460). -/
def burnCut (s : State) : State :=
  match s.sec.burn with
  | none => s
  | some (t, _) =>
    let f := s.toBody.free 1
    if f.1 = 1 then
      { s with toBody := f.2, sec := { s.sec with burn := none, lcs := t, destroy := s.sec.destroy || t == 0x0F } }
    else { s with toBody := f.2, sec := { s.sec with burn := none } }

/-- What a POWER reset leaves of the body. -/
def powerBody (s : Body) : Body :=
  { regs := s.regs.filter (fun (e : Nat × Nat) => keptByPower e.1)
    cfg := { profiles := s.cfg.profiles.map (fun (e : Nat × Profile) => (e.1, if e.2.writing then {} else e.2)), floor := s.cfg.floor }
    far := s.far
    sto := { sleds := s.sto.sleds, rebuild := s.sto.rebuild }
    merges := s.merges.map (fun (m : MergeRec) => { m with ctx := none })
    pwr := { pin := s.pwr.pin, cellLost := s.pwr.cellLost }
    out := s.out
    tick := s.tick
    launched := s.out.length
    drawn := s.drawn }

/-- What a POWER reset leaves of the security root: the fuses and what the backup cell keeps. -/
def powerSec (k : SecSt) : SecSt :=
  { slots := k.slots, lcs := k.lcs, serial := k.serial, kemMade := k.kemMade, destroy := k.destroy, tlog := k.tlog, tseq := k.tseq }

/-- A POWER reset (R438): the package is then held until POWER_ON. -/
def powerReset (s : State) (cause : Nat) : State :=
  let s := burnCut (s.upd (fun s => rstRecord s 4 cause))
  { toBody := powerBody s.toBody, sec := powerSec s.sec, pending := s.pending }

/-- A write in service at a CHIP reset (R358): one whose parity round is logged is completed, one still in its first round
is not, and any other may have reached its sled. -/
def chipWrite (s : Body) (r : Req) : Body :=
  if !isWrite r.op ∨ !r.farStarted then s
  else
    let ops := s.sto.ops.filter (fun o => r.farOps.contains o.id)
    let now := fun (s : Body) => (effect s r).2.2.2.2
    if ops.any (fun o => o.parity && o.phase == 1) then s
    else if ops.isEmpty || ops.any (fun o => o.parity) then now s
    else
      let (b, s) := s.free 1
      if b = 1 then now s else s

/-- A seizing's record after a CHIP reset (R337): prepared and decided records come back from their near-tier copies. -/
def chipSeizing (s : Body) (t : Seizing) : Option Seizing :=
  let decided := t.outcome.isSome && !t.deciding
  let back : Seizing := { t with reply := none, commitReply := none, cmd := none, preparedAt := 0, lastSend := 0, deciding := false }
  if decided then some back
  else if t.vote != some (stOK, 0) || t.preparing || t.writing then none
  else if isCoord s t then some { back with outcome := none, cause := some (stSEIZEABORT, 3) }
  else some { back with outcome := none }

/-- What has to be sent again of a round that a CHIP reset cuts short (R154). -/
def redoOf (r : Round) : Redo :=
  let (share, keep) := r.purpose.snoop
  match r.purpose with
  | .reissue q => q
  | .drop c => { only := some c }
  | _ => { share := share, keep := keep, without := r.without }

/-- What a CHIP reset leaves of the body. -/
def chipBody (s : Body) (cause : Nat) : Body :=
  let s := s.olp.reqs.foldl chipWrite s
  let s := rstRecord s 3 cause
  let stop := s.now + 1
  let busy := fun (line : Nat) => (s.dir.rounds.find? (fun (r : Round) => r.line == line)).map redoOf
  let s : Body := {
    regs := s.regs.filter (fun (e : Nat × Nat) => keptByChip e.1)
    knot := { gaps := resetGaps stop }
    cfg := { s.cfg with
      profiles := s.cfg.profiles.map (fun (e : Nat × Profile) => (e.1, if e.2.writing then {} else e.2))
      img := none, loading := none, partialRec := none }
    parts := s.parts.map (fun (e : Nat × PartSt) => (e.1, { e.2 with halRead := [], halUnits := [] }))
    prt := s.prt
    xlt := { acc := s.xlt.acc }
    sto := {
      resident := s.sto.resident
      bad := s.sto.bad
      lost := s.sto.lost
      sleds := s.sto.sleds
      rebuild := s.sto.rebuild
      refill := s.sto.refill
      holdNext := s.sto.holdNext }
    dir := {
      entries := s.dir.entries.map (fun (e : Nat × Option DirEntry) =>
        (e.1, match busy e.1 with | some q => e.2.map (fun (d : DirEntry) => { d with reissue := some q }) | none => e.2))
      clock := s.dir.clock
      sweep := s.dir.sweep.map (fun (w : Sweep) => { w with next := 0 })
      nextCids := s.dir.nextCids
      nextAccept := s.dir.nextAccept
      revSweep := if s.get R.PRT_CMD_STATUS.PHASE = 2 then some 0 else none
      tearSweeps := s.dir.tearSweeps.map (fun (e : Nat × Nat) => (e.1, 1)) }
    fences := s.fences
    near := s.near
    far := s.far
    txn := { recs := s.txn.recs.filterMap (chipSeizing s) , nextId := s.txn.nextId }
    obs := { trace := s.obs.trace, smp := s.obs.smp, ringProd := s.obs.ringProd, tracing := s.obs.tracing }
    merges := (s.merges.filter (fun (m : MergeRec) => match m.ctx with | some x => (s.ctx m.core x).steps != 0 | none => true)).map
      (fun (m : MergeRec) => { m with ctx := none })
    pwr := { off := false, pin := s.pwr.pin, homeSeen := s.pwr.homeSeen }
    out := s.out
    tick := s.tick
    launched := s.out.length
    drawn := s.drawn }
  let s := provisional s
  let s := if s.on R.CAL_STATUS.VALID then s.set R.MGT_READY.CAL 1 else s
  s.arm (.load (s.get R.CFG_STATUS.BOOT) false)

/-- A CHIP reset at X (R438, R445): steps 1 and 2 of R445 are taken at X. -/
def chipReset (s : State) (cause : Nat) : State :=
  { toBody := chipBody s.toBody cause
    sec := { s.sec with nonce := [], kem := 0, transcript := [], signedHash := none }
    pending := s.pending }

/-- A PARTITION reset at P (R179, R198, R240, R269, R315, R337, R440). -/
def partitionReset (s : Body) (pid : Nat) : Body :=
  let s := refuseWaiting s (fun r => r.m.pid == pid) stRESETABORT
  let s := txnPartReset s pid stRESETABORT stSEIZEABORT 3
  partitionClear s pid stRESETABORT

/-- An ENGINE reset at E (R179, R198, R438, R439). -/
def engineReset (s : Body) (c : Nat) : Body :=
  let trial := s.get R.STO_SHADOW.STATE == 3 && (s.ctx c 17).phase != .idle
  let s := abortCtxs s (some c) none stRESETABORT true
  let s := if trial then shadowFail s stRESETABORT 3 0 s.sto.trialNext else s
  let s := waysInvalidate s c true 0
  let s := s.set R.MGT_READY.CORE (clrBit (s.get R.MGT_READY.CORE) c)
  let s := s.setB R.RST_STATUS.CORE_RST c
  if s.on R.STO_REBUILD.ACTIVE ∧ s.get R.STO_REBUILD.CHAN = c then { s with sto := { s.sto with rebuildPaused := true } } else s

/-- The resets that take effect at this boundary (R439): the widest governs; PARTITION and ENGINE both apply. -/
def resetsNow (s : State) (rs : List (Nat × Nat)) : State :=
  match rs.find? (fun r => r.1 == 4), rs.find? (fun r => r.1 == 3) with
  | some (_, c), _ => powerReset s c
  | none, some (_, c) => chipReset s c
  | none, none => s.upd (fun s => rs.foldl (fun s r => if r.1 = 1 then engineReset s r.2 else partitionReset s r.2) s)

/-- CHIP_RESET: RST_CMD CHIP, or a home-die error that cannot be attributed to one request (cause INTERNAL). -/
def chipCmd (internal : Bool) (s : Body) : Body := s.arm (.reset 3 (if internal then 7 else 5))

/-- POWER_RESET: RST_CMD POWER. -/
def powerCmd (s : Body) : Body := s.arm (.reset 4 5)

/-- ENGINE_RESET: RST_CMD ENGINE. -/
def engineCmd (c : Nat) (s : Body) : Body := s.arm (.reset 1 (c % 16))

/-- PARTITION_RESET: RST_CMD PARTITION. -/
def partitionCmd (pid : Nat) (s : Body) : Body := s.arm (.reset 2 (pid % 1024))

/-! ### Power-on and the reset input (R434 to R436) -/

/-- CALENDAR_CELL_LOSS (R47, R467): without the input, the calendar stops and the tamper log is lost. -/
def cellLoss (s : Body) : Body := if s.pwr.off then { s with pwr := { s.pwr with cellLost := true } } else s

/-- POWER_ON: B0. `psel` are the straps, and `fresh` says that the package comes from no input at all (cause POWER_ON).
A lost tamper log begins anew with LOG_LOST. -/
def powerOn (psel : Nat) (fresh : Bool) (s : State) : State :=
  let s := if fresh then powerReset s 1 else s
  if !s.pwr.off ∨ s.pwr.pin.isSome then s
  else
    let lost := s.pwr.cellLost
    let s := s.upd (fun s => { s with
      pwr := { s.pwr with off := false, cellLost := false }, knot := { gaps := resetGaps (s.get R.RST_KNOT.KNOT + 1) } })
    let s := if lost then
        let s := { s with sec := { s.sec with tlog := [], tseq := 0 } }
        tlogAdd (s.upd (fun s => ((s.set R.CAL_STATUS.VALID 0).set R.CAL_STATUS.CELL_FAIL 1).set R.SEC_EVENT.LOG_LOST 1)) 0x05 0 0
      else s
    s.upd (fun s =>
      let s := provisional ((s.set R.CFG_STATUS.PSEL psel).set R.CFG_STATUS.BOOT psel)
      let s := if s.on R.CAL_STATUS.VALID then s.set R.MGT_READY.CAL 1 else s
      s.arm (.load (psel % 4) false))

/-- RESET_PIN_ASSERT, as recognised (R435). -/
def pinAssert (s : Body) : Body :=
  if s.pwr.pin.isSome then s
  else
    let s := { s with pwr := { s.pwr with pin := some 0 } }
    if s.pwr.homeSeen then s.arm (.reset 3 4) else if s.pwr.off then s else s.arm (.reset 4 4)

/-- RESET_PIN_RELEASE, as recognised: bring-up goes on (R435). -/
def pinRelease (s : Body) : Body := { s with pwr := { s.pwr with pin := none } }

/-- RESET_PIN_HOLD_TIMEOUT (R435). -/
def pinHold (s : Body) : Body :=
  match s.pwr.pin with
  | some n => if 4000000 ≤ n ∧ !s.pwr.off then s.arm (.reset 4 4) else s
  | none => s

/-! ### Readiness (R441, R442) -/

/-- OWNER_DESTROY (R461). -/
def ownerDestroy (s : State) : State :=
  let s := s.upd (fun s =>
    let s := s.parts.foldl (fun s (e : Nat × PartSt) => s.setPart e.1 { s.part e.1 with keys := {} }) s
    { s with cfg := { s.cfg with profiles := [], floor := 0 } })
  let s := { s with
    sec := { s.sec with
      destroy := false
      slots := s.sec.slots.zipIdx.map (fun (e : SecSlot × Nat) =>
        if e.2 = 0 then e.1 else { e.1 with revoked := true, record := [] }) } }
  tlogAdd s 0x16 0 0

/-- A fresh ML-KEM key pair (R455). -/
def kemNew (s : State) : State :=
  { s with
    toBody := s.toBody.set R.SEC_STATUS.KEM_GEN (s.get R.SEC_STATUS.KEM_GEN + 1)
    sec := { s.sec with kemMade := s.sec.kemMade + 1, kem := s.sec.kemMade + 1 } }

/-- Thirty-two free bytes: what the DRBG gives (R449). -/
def free32 (s : Body) : List Byte × Body :=
  let (a, s) := s.free 64
  let (b, s) := s.free 64
  let (c, s) := s.free 64
  let (d, s) := s.free 64
  (leBytes 8 a ++ leBytes 8 b ++ leBytes 8 c ++ leBytes 8 d, s)

/-- A fresh request nonce: 32 bytes from the DRBG (R449). -/
def nonceNew (s : State) : State :=
  let f := free32 s.toBody
  { s with toBody := f.2, sec := { s.sec with nonce := f.1 } }

/-- SEC is set: R461 first where it is not done, then a key pair and a nonce. -/
def secReady (s : State) : State :=
  let s := if s.sec.destroy ∧ s.sec.lcs = 0x0F then ownerDestroy s else s
  (kemNew (nonceNew s)).upd (fun s => s.set R.MGT_READY.SEC 1)

/-- HOME is set: the ports take their roles (R62). -/
def homeReady (s : Body) : Body :=
  let s := (List.range 48).foldl (fun s n => s.set R.LNK_STATUS.ROLE (s.img.links.getD n 0) n) s
  { s.set R.MGT_READY.HOME 1 with pwr := { s.pwr with homeSeen := true } }

/-- The SP bit of a position's port. -/
def posReady (s : Body) (q : Nat) : Bool :=
  (List.range 16).any (fun p => posOfPort s p == some q && bitAt (s.get R.MGT_READY.SP) p)

/-- Bit `b` of MGT_READY, but for SEC, where its conditions hold; MGT_READY.SEC is set already for HOME. -/
def readyBit (b : Nat) (s : Body) : Body :=
  let home := s.on R.MGT_READY.HOME
  let one := fun (f : Fld) (ok : Bool) => if ok then s.set f 1 else s
  if b = 0 then readyKnot s
  else if b = 1 then one R.MGT_READY.CAL (s.on R.CAL_STATUS.VALID)
  else if b = 2 then s
  else if b = 3 then (if home ∨ !s.on R.MGT_READY.SEC ∨ s.cfg.img = none then s else homeReady s)
  else if b = 4 then one R.MGT_READY.XLT (home && s.get R.MGT_READY.STK == 255)
  else if b = 5 then one R.MGT_READY.DIR (home && s.get R.MGT_READY.STK == 255)
  else if b = 6 then one R.MGT_READY.CDC (home && !quiet s)
  else if b = 7 then one R.MGT_READY.MTX (home && !quiet s)
  else if b = 8 then one R.MGT_READY.EMB (home && !quiet s)
  else if b = 9 then one R.MGT_READY.SRH (home && !quiet s)
  else if b = 10 then one R.MGT_READY.POOL (home && !quiet s)
  else if b = 11 then one R.MGT_READY.TXN (home && s.on R.MGT_READY.DIR && ((positionsIn s).take 2).all (posReady s))
  else if b < 16 then dieReady s (b - 12)
  else if b < 20 then groupReady s false (b - 16)
  else if b < 24 then groupReady s true (b - 20)
  else if b < 32 then
    (if quiet s ∨ s.get R.KNT_RGN.STATE (8 + (b - 24)) = 2 then s else (s.setB R.MGT_READY.STK (b - 24)).setB R.STO_NEAR.STACK_UP (b - 24))
  else if b < 48 then (if bitAt (s.get R.MGT_READY.SG) ((b - 32) / 4) then s.setB R.MGT_READY.SP (b - 32) else s)
  else if b < 64 ∧ home then
    (s.setB R.MGT_READY.CORE (b - 48)).set R.RST_STATUS.CORE_RST (clrBit (s.get R.RST_STATUS.CORE_RST) (b - 48))
  else s

/-- READINESS_SET: bit `b` of MGT_READY, where its conditions hold. While the reset input is held, bring-up does not go on
(R435). -/
def readinessSet (b : Nat) (s : State) : State :=
  if s.pwr.off ∨ s.pwr.pin.isSome then s
  else if b = 2 then (if s.on R.MGT_READY.SEC then s else secReady s)
  else s.upd (readyBit b)

end Sys2Proof.Machine
end

