-- ==== Sys2Proof/Machine/Sec.lean ====
section
/-!
DEFINITION. The security root (R446 to R467): signed requests, attestation, partition keys, the life cycle, debug access
and tamper events. The bytes of SPDM's own messages are those of DSP0274 1.3 (log entry 30).
-/

namespace Sys2Proof.Machine

/-! ### Results and answers (R450) -/

def rsOK : Nat := 0
def rsSIGNATURE : Nat := 1
def rsNONCE : Nat := 2
def rsSERIAL : Nat := 3
def rsROLE : Nat := 4
def rsSTATE : Nat := 5
def rsNOPART : Nat := 6
def rsALREADY : Nat := 7
def rsBUSY : Nat := 8
def rsFORMAT : Nat := 9
def rsPRECOND : Nat := 10

/-- The life-cycle state in effect: an unknown code is SCRAPPED (R458). -/
def lcsNow (s : State) : Nat := if [1, 3, 7, 0x0F].contains s.sec.lcs then s.sec.lcs else 0x1F

/-- Key slot `n`. -/
def slotAt (s : State) (n : Nat) : SecSlot := s.sec.slots.getD n {}

/-- Changes key slot `n`. -/
def setSlot (s : State) (n : Nat) (k : SecSlot) : State := { s with sec := { s.sec with slots := s.sec.slots.set n k } }

/-- An SPDM answer to an EID: its code, two parameters and its body (R452). -/
def spdmSend (s : State) (eid code p1 p2 : Nat) (body : List Byte) : State :=
  (s.count R.SEC_SPDM_REQ.COUNT).send (.mgmt eid 5 code (leBytes 1 0x13 ++ leBytes 1 code ++ leBytes 1 p1 ++ leBytes 1 p2 ++ body))

/-- A vendor response: the result code and what follows it. -/
def vendorSend (s : State) (eid result : Nat) (body : List Byte) : State :=
  (s.count R.SEC_SPDM_REQ.COUNT).send (.mgmt eid 5 0x7E (leBytes 1 result ++ body))

/-- A refused request (SEC_ERR_LOG). -/
def secRefuse (s : State) (signed : Bool) (req result slot pid : Nat) : State :=
  let s := (s.set R.SEC_ERR_LOG.REQ req).set R.SEC_ERR_LOG.RESULT result
  let s := (s.set R.SEC_ERR_LOG.SLOT slot).set R.SEC_ERR_LOG.PID pid
  let s := s.set R.SEC_ERR_KNOT.KNOT s.now
  if signed then s.set R.SEC_EVENT.REFUSED 1 else s

/-! ### Signed requests (R447 to R450) -/

/-- The parts of a request payload (R448). -/
def reqNsig (b : List Byte) : Nat := le b 1 1
def reqBlen (b : List Byte) : Nat := le b 2 2
def reqBody (b : List Byte) : List Byte := slice b 44 (reqBlen b)
def signerAt (b : List Byte) (i : Nat) : List Byte := slice b (44 + reqBlen b + 4731 * i) 4731

/-- The slot that a KEY_ID names: valid and not revoked. -/
def slotOfKey (s : State) (id : Nat) : Option Nat :=
  (List.range 8).find? (fun n => let k := slotAt s n; k.valid && !k.revoked && le k.digest 0 8 == id)

/-- A signer block verifies: the record still matches the fuses, and both signatures verify (R447, R448). -/
def signerOk (s : State) (b g : List Byte) : Bool :=
  match slotOfKey s (le g 0 8) with
  | none => false
  | some n =>
    let k := slotAt s n
    let h := sha384 (b.take (44 + reqBlen b))
    sha384 k.record == k.digest && Config.ecdsaVerify (k.record.take 96) h (slice g 8 96) &&
    Config.mldsaVerify (k.record.drop 96) h (slice g 104 4627)

/-- The slots of the signers. -/
def signerSlots (s : State) (b : List Byte) : List Nat :=
  (List.range (reqNsig b)).filterMap (fun i => slotOfKey s (le (signerAt b i) 0 8))

/-- A payload is well formed: its code, its lengths, and for an unsigned request no signer, no body and no nonce. -/
def reqShape (req : Nat) (signed : Bool) (b : List Byte) : Bool :=
  decide (44 ≤ b.length) && le b 0 1 == req && b.length == 44 + reqBlen b + 4731 * reqNsig b &&
  (if signed then reqNsig b == 1 || reqNsig b == 2 else reqNsig b == 0 && reqBlen b == 0 && allZero (slice b 12 32))

/-- What every signed request is checked for first: FORMAT, SERIAL, NONCE, SIGNATURE. -/
def signedCheck (s : State) (req : Nat) (b : List Byte) : Nat :=
  if !reqShape req true b then rsFORMAT
  else if le b 4 8 ≠ s.sec.serial then rsSERIAL
  else if slice b 12 32 ≠ s.sec.nonce then rsNONCE
  else if !(List.range (reqNsig b)).all (fun i => signerOk s b (signerAt b i)) ∨ !(signerSlots s b).Nodup then rsSIGNATURE
  else rsOK

/-- A signed request is decided (R448, R449): the checks, then `f`, which gives the result and the effect; the nonce is
replaced whatever the result. -/
def decideSigned (req : Nat) (eid : Nat) (b : List Byte) (pid : Nat) (f : List Nat → State → Nat × State) (s : State) : State :=
  let r := signedCheck s req b
  let ss := signerSlots s b
  let s := if r = rsSIGNATURE then sigFail s (le (signerAt b 0) 0 8) else if r = rsOK then s.count R.SEC_SIG_OK.COUNT else s
  let (r, s) := if r = rsOK then f ss s else (r, s)
  let s := if r = rsOK then s else secRefuse s true req r (ss.headD 0) pid
  vendorSend (nonceNew s) eid r []

/-- Some signer's slot holds the role. -/
def hasRole (s : State) (n role : Nat) : Bool := bitAt (slotAt s n).roles role

/-! ### Attestation (R452 to R454) -/

/-- A request or response joins the transcript. -/
def transcribe (s : State) (b : List Byte) : State := { s with sec := { s.sec with transcript := s.sec.transcript ++ b } }

/-- An SPDM answer that joins the transcript. -/
def spdmAnswer (s : State) (eid : Nat) (request : List Byte) (code p1 p2 : Nat) (body : List Byte) : State :=
  transcribe (spdmSend s eid code p1 p2 body) (request ++ [BitVec.ofNat 8 code] ++ body)

/-- GET_VERSION: a new connection. -/
def getVersion (eid : Nat) (s : State) : State :=
  let s := { s with sec := { s.sec with transcript := [], signedHash := none } }
  spdmAnswer s eid (leBytes 1 0x84) 0x04 0 0 (leBytes 1 0 ++ leBytes 1 1 ++ leBytes 2 0x1300)

/-- GET_CAPABILITIES: CERT_CAP, CHAL_CAP and MEAS_CAP with signature; messages of at most 4,096 B (R491). -/
def getCapabilities (eid : Nat) (s : State) : State :=
  let (ct, s) := s.free 8
  spdmAnswer s eid (leBytes 1 0xE1) 0x61 0 0
    (leBytes 1 0 ++ leBytes 1 ct ++ leBytes 2 0 ++ leBytes 4 0x16 ++ leBytes 4 4096 ++ leBytes 4 4096)

/-- NEGOTIATE_ALGORITHMS: SHA-384, ECDSA P-384 and DMTF, where the requester offers them. -/
def negotiateAlgorithms (eid spec asym hash : Nat) (s : State) : State :=
  let body := leBytes 2 36 ++ leBytes 1 (spec % 2) ++ leBytes 1 0 ++ leBytes 4 4 ++ leBytes 4 (asym &&& 0x80) ++
    leBytes 4 (hash &&& 2) ++ List.replicate 16 0
  spdmAnswer s eid (leBytes 1 0xE3 ++ leBytes 1 spec ++ leBytes 4 asym ++ leBytes 4 hash) 0x63 0 0 body

/-- GET_DIGESTS: slot 0. -/
def getDigests (eid : Nat) (s : State) : State :=
  spdmAnswer s eid (leBytes 1 0x81) 0x01 0 1 (sha384 Config.certChain)

/-- An SPDM error. -/
def spdmError (s : State) (eid code data : Nat) : State := spdmSend s eid 0x7F code data []

/-- GET_CERTIFICATE: bytes of the chain of slot 0. -/
def getCertificate (eid slot off len : Nat) (s : State) : State :=
  if slot ≠ 0 ∨ Config.certChain.length < off then spdmError s eid 1 0
  else
    let part := (Config.certChain.drop off).take len
    let rest := Config.certChain.length - off - part.length
    spdmAnswer s eid (leBytes 1 0x82 ++ leBytes 1 slot ++ leBytes 2 off ++ leBytes 2 len) 0x02 0 0
      (leBytes 2 part.length ++ leBytes 2 rest ++ part)

/-- Six free values: 48 bytes. -/
def free48 (s : State) : List Byte × State :=
  (List.range 6).foldl (fun (a : List Byte × State) _ => let (v, s) := a.2.free 64; (a.1 ++ leBytes 8 v, s)) ([], s)

/-- DIGEST of the SIG section of an image. -/
def sigDigest (b : List Byte) : List Byte := slice (sect b 15) 8 48

/-- The masks of SEC_STATUS. -/
def slotMask (s : State) (f : SecSlot → Bool) : Nat := ((List.range 8).filter (fun n => f (slotAt s n))).foldl (fun m n => m + 2 ^ n) 0

/-- The value of measurement block `i`, and whether it is a raw bit stream (R453). Without an image in effect block 0x03 is
not stated: a free value. -/
def measurement (s : State) (i : Nat) : List Byte × Bool × State :=
  if i ≤ 2 then (Config.fwDigest i, false, s)
  else if i = 3 then
    (if s.cfg.img.isSome then (sigDigest (profBytes s.toBody (s.get R.CFG_STATUS.ACTIVE)), false, s)
     else let (v, s) := free48 s; (v, false, s))
  else if i = 4 then
    (leBytes 8 (lcsNow s + slotMask s (·.valid) * 2 ^ 8 + slotMask s (·.revoked) * 2 ^ 16 + s.get R.SEC_STATUS.DEBUG_OPEN * 2 ^ 32), true, s)
  else if i = 5 then (leBytes 8 s.cfg.floor, true, s)
  else if i ≤ 9 then
    (if profValid s.toBody (i - 6) then sigDigest (profBytes s.toBody (i - 6)) else List.replicate 48 0, false, s)
  else (match s.sec.tlog with | e :: _ => slice e 24 8 ++ slice e 18 2 | [] => List.replicate 10 0, true, s)

/-- One measurement block, in DMTF form. -/
def measBlock (s : State) (i : Nat) : List Byte × State :=
  let (v, raw, s) := measurement s i
  let dmtf := leBytes 1 (b2n raw * 128) ++ leBytes 2 v.length ++ v
  (leBytes 1 i ++ leBytes 1 1 ++ leBytes 2 dmtf.length ++ dmtf, s)

/-- The blocks that a request asks for: 0 the number only, 0xFF all. -/
def measBlocks (s : State) (index : Nat) : List Byte × Nat × State :=
  let is := if index = 0xFF then (List.range 10).map (· + 1) else if index = 0 then [] else [index]
  is.foldl (fun a i => let (b, s) := measBlock a.2.2 i; (a.1 ++ b, a.2.1 + 1, s)) ([], 0, s)

/-- The signature of the messages of the connection (R454): the hash it covers is what MLDSA_SIG then signs. -/
def spdmSign (s : State) (b : List Byte) : List Byte × State :=
  let h := sha384 (s.sec.transcript ++ b)
  (Config.ecdsaSign h, { s with sec := { s.sec with signedHash := some h, transcript := [] } })

/-- A fresh nonce of a response. -/
def respNonce (s : State) : List Byte × State := ((free32 s.toBody).1, s.upd (fun b => (free32 b).2))

/-- CHALLENGE: CHALLENGE_AUTH, signed. -/
def challenge (eid slot meas : Nat) (nonce : List Byte) (s : State) : State :=
  if slot ≠ 0 ∨ nonce.length ≠ 32 then spdmError s eid 1 0
  else
    let (n, s) := respNonce s
    let (m, _, s) := measBlocks s (if meas = 0 then 0 else 0xFF)
    let sum := if meas = 0 then [] else sha384 m
    let body := sha384 Config.certChain ++ n ++ sum ++ leBytes 2 0
    let (g, s) := spdmSign s (leBytes 1 0x83 ++ leBytes 1 slot ++ leBytes 1 meas ++ nonce ++ body)
    spdmSend s eid 0x03 0 1 (body ++ g)

/-- GET_MEASUREMENTS: the blocks asked for, signed where asked. -/
def getMeasurements (eid : Nat) (sig : Bool) (index : Nat) (nonce : List Byte) (s : State) : State :=
  if (10 < index ∧ index ≠ 0xFF) ∨ (sig ∧ nonce.length ≠ 32) then spdmError s eid 1 0
  else
    let (m, k, s) := measBlocks s index
    let (n, s) := respNonce s
    let body := leBytes 1 k ++ leBytes 3 m.length ++ m ++ n ++ leBytes 2 0
    let request := leBytes 1 0xE0 ++ leBytes 1 (b2n sig) ++ leBytes 1 index ++ nonce
    let p1 := if index = 0 then 10 else 0
    if sig then
      let (g, s) := spdmSign s (request ++ body)
      spdmSend s eid 0x60 p1 0 (body ++ g)
    else spdmAnswer s eid request 0x60 p1 0 body

/-- SPDM_UNSUPPORTED: ERROR, UnsupportedRequest (R452). -/
def spdmUnsupported (eid code : Nat) (s : State) : State := spdmError s eid 7 code

/-! ### Unsigned vendor requests (R450, R454) -/

/-- An unsigned request: FORMAT and SERIAL, then `f`. -/
def unsignedReq (req eid : Nat) (b : List Byte) (f : State → Nat × List Byte) (s : State) : State :=
  let r := if !reqShape req false b then (rsFORMAT, []) else if le b 4 8 ≠ s.sec.serial then (rsSERIAL, []) else f s
  vendorSend (if r.1 = rsOK then s else secRefuse s false req r.1 0 0) eid r.1 r.2

/-- GET_NONCE. -/
def getNonce (eid : Nat) (b : List Byte) (s : State) : State := unsignedReq 0 eid b (fun s => (rsOK, s.sec.nonce)) s

/-- KEM_GET: the encapsulation key and the nonce, signed; BUSY while a tamper event has taken the pair (R465). -/
def kemGet (eid : Nat) (b : List Byte) (s : State) : State :=
  unsignedReq 1 eid b (fun s =>
    if s.sec.kem = 0 then (rsBUSY, [])
    else
      let ek := Config.kemPublic s.sec.kem
      let h := sha384 (s.sec.nonce ++ ek)
      (rsOK, ek ++ s.sec.nonce ++ Config.ecdsaSign h ++ Config.mldsaSign h)) s

/-- MLDSA_SIG (R454). -/
def mldsaSig (eid : Nat) (b : List Byte) (s : State) : State :=
  unsignedReq 7 eid b (fun s => match s.sec.signedHash with
    | some h => (rsOK, Config.mldsaSign h)
    | none => (rsSTATE, [])) s

/-! ### Partition keys (R455, R456) -/

/-- The key of a KEY_DELIVER body, unwrapped. -/
def unwrapped (s : State) (b : List Byte) : Option (List Byte) :=
  let secret := Config.kemDecaps s.sec.kem (slice (reqBody b) 4 1568)
  Config.keyUnwrap (slice b 12 32 ++ secret ++ slice b 4 8 ++ b.take 48) ((reqBody b).drop 1572)

/-- What a KEY_DELIVER does once its signer is known. -/
def deliver (b : List Byte) (ss : List Nat) (s : State) : Nat × State :=
  let body := reqBody b
  let kind := le body 2 1
  let size := if kind = 1 then 64 else 32
  let pid := le body 0 2
  let p := s.part pid
  if !ss.any (fun n => hasRole s n 1) then (rsROLE, s)
  else if body.length ≠ 1572 + size + 16 ∨ 1024 ≤ pid ∨ !(kind == 1 || kind == 2) ∨ le body 3 1 ≠ 0 then (rsFORMAT, s)
  else if (partDef s.toBody pid).isNone then (rsNOPART, s)
  else if s.sec.kem = 0 then (rsBUSY, s)
  else match unwrapped s b with
    | none => (rsFORMAT, s)
    | some k =>
      let put := fun (ks : PartKeys) => (rsOK, s.upd (fun s => (s.setPart pid { p with keys := ks }).count R.SEC_KEY_DELIVER.COUNT))
      if kind = 1 then (if p.keys.rest.isSome then (rsALREADY, s) else put { p.keys with rest := some k })
      else if p.keys.sess.isNone then put { p.keys with sess := some k }
      else if p.keys.roll.isSome then (rsBUSY, s)
      else put { p.keys with staged := some k }

/-- KEY_DELIVER (R456): a fresh ML-KEM pair follows every decision (R455). -/
def keyDeliver (eid : Nat) (b : List Byte) (s : State) : State :=
  kemNew (decideSigned 2 eid b (le (reqBody b) 0 2 % 1024) (deliver b) s)

/-! ### Life cycle (R458 to R461) -/

/-- The signers of a transition to `t`, all with role LC (R459). -/
def lcSigners (s : State) (t : Nat) (ss : List Nat) : Bool :=
  ss.all (fun n => hasRole s n 2) &&
  (if t = 0x07 then ss.length == 1 && ss.all (· != 0)
   else if t = 0x0F then ss.length == 2 && ss.contains 0
   else ss == [0])

/-- The preconditions of a transition to `t`. -/
def lcPrecond (s : State) (t : Nat) : Bool :=
  let owner := fun (role : Nat) => (List.range 8).any (fun n => n != 0 && (slotAt s n).valid && !(slotAt s n).revoked && hasRole s n role)
  if t = 0x03 then !Config.certChain.isEmpty
  else if t = 0x07 then owner 0 && owner 1
  else if t = 0x0F then s.img.parts.all (fun p => (s.part p.pid).flt == 2)
  else true

/-- The target of the one transition out of a state. -/
def lcNext (l : Nat) : Nat := if l = 1 then 3 else if l = 3 then 7 else if l = 7 then 0x0F else if l = 0x0F then 0x1F else 0

/-- LC_REQUEST (R459, R460): accepted, the burn starts. -/
def lcRequest (eid : Nat) (b : List Byte) (s : State) : State :=
  decideSigned 3 eid b 0 (fun ss s =>
    let t := le (reqBody b) 0 1
    if reqBlen b ≠ 1 then (rsFORMAT, s)
    else if t = 0 ∨ t ≠ lcNext (lcsNow s) then (rsSTATE, s)
    else if s.get R.CFG_STATUS.STATE = 3 ∨ s.sec.burn.isSome then (rsBUSY, s)
    else if !lcSigners s t ss then (rsROLE, s)
    else if !lcPrecond s t then (rsPRECOND, s)
    else
      let s := tlogAdd (s.set R.LCS_STATE.PENDING 1) 0x10 t 0
      (rsOK, { s with sec := { s.sec with burn := some (t, s.now) } })) s

/-- LC_BURN_DONE (R460, R461): the fuses read the target; for RETURN the owner's hold goes; a POWER reset follows. -/
def lcBurnDone (s : State) : State :=
  match s.sec.burn with
  | none => s
  | some (t, _) =>
    let s := { s with sec := { s.sec with lcs := t, burn := none } }
    (if t = 0x0F then ownerDestroy s else s).arm (.reset 4 5)

/-! ### Debug access (R462, R463) -/

/-- The capabilities that a signer's slot may unlock in a state. -/
def unlockable (l n : Nat) : Nat :=
  if l = 3 then (if n = 0 then 1 else 2) else if l = 0x0F then (if n = 0 then 4 else 0) else 0

/-- DEBUG_UNLOCK. -/
def debugUnlock (eid : Nat) (b : List Byte) (s : State) : State :=
  decideSigned 4 eid b 0 (fun ss s =>
    let m := le (reqBody b) 0 1
    let may := ss.foldl (fun a n => a ||| (if hasRole s n 3 then unlockable (lcsNow s) n else 0)) 0
    if reqBlen b ≠ 1 then (rsFORMAT, s)
    else if !ss.any (fun n => hasRole s n 3) ∨ m &&& may ≠ m then (rsROLE, s)
    else
      let s := s.set R.SEC_STATUS.DEBUG_OPEN (s.get R.SEC_STATUS.DEBUG_OPEN ||| m)
      (rsOK, (tlogAdd s 0x11 m 0).set R.SEC_EVENT.DEBUG_UNLOCK 1)) s

/-- A debug capability is available (R462): 0 SRAM_RD, 1 MEM_RD, 2 TEST. -/
def debugOpen (s : State) (k : Nat) : Bool :=
  let l := lcsNow s
  l == 1 || (l == 0x0F && decide (k < 2)) || ((l == 3 || l == 0x0F) && bitAt (s.get R.SEC_STATUS.DEBUG_OPEN) k)

/-- SEC_DBG_ADDR is open. -/
def dbgAddrOpen (s : State) : Bool := debugOpen s 0 || debugOpen s 1

/-- SEC_DBG_DATA is open: the capability of the selected unit is. -/
def dbgDataOpen (s : State) : Bool :=
  let u := s.get R.SEC_DBG_ADDR.UNIT
  if u = 1 ∨ u = 2 then debugOpen s 0 else if u = 3 ∨ u = 4 then debugOpen s 1 else false

/-- DEBUG_READ_SELECT: the word is read at the next boundary. -/
def dbgSelect (unit addr : Nat) (s : State) : State :=
  if dbgAddrOpen s then ((s.set R.SEC_DBG_ADDR.UNIT unit).set R.SEC_DBG_ADDR.ADDR addr).arm .dbgRead else s

/-- The word that SEC_DBG_ADDR selects: a near-tier frame that holds a unit shows the unit's bytes; how the SRAMs, the
caches, the other frames and the sled rows lie by physical address is not stated: a free value. -/
def dbgReadNow (s : State) : State :=
  if !dbgDataOpen s then s
  else
    let a := s.get R.SEC_DBG_ADDR.ADDR / 8 * 8
    match (if s.get R.SEC_DBG_ADDR.UNIT = 3 then s.sto.resident.find? (fun x => x.frame == a / 65536) else none) with
    | some x => s.set R.SEC_DBG_DATA.DATA (leNat (s.rd (x.unit * 65536 + a % 65536) 8))
    | none => let (v, s) := s.free 64; s.set R.SEC_DBG_DATA.DATA v

/-! ### Key slots (R450) -/

/-- KEY_INSTALL. A revoke fuse that is blown stays blown. -/
def keyInstall (eid : Nat) (b : List Byte) (s : State) : State :=
  decideSigned 5 eid b 0 (fun ss s =>
    let n := le (reqBody b) 0 1
    let roles := le (reqBody b) 1 1
    let record := (reqBody b).drop 2
    if reqBlen b ≠ 2690 ∨ n = 0 ∨ 8 ≤ n ∨ 32 ≤ roles then (rsFORMAT, s)
    else if !ss.any (fun k => hasRole s k 4 || (k == 0 && n == 1 && lcsNow s == 3)) then (rsROLE, s)
    else if (slotAt s n).valid then (rsALREADY, s)
    else
      let s := setSlot s n { valid := true, revoked := (slotAt s n).revoked, roles := roles, digest := sha384 record, record := record }
      (rsOK, tlogAdd s 0x12 n (le (sha384 record) 0 4))) s

/-- KEY_REVOKE. -/
def keyRevoke (eid : Nat) (b : List Byte) (s : State) : State :=
  decideSigned 6 eid b 0 (fun ss s =>
    let n := le (reqBody b) 0 1
    let k := slotAt s n
    let others := (List.range 8).any (fun m => m != 0 && m != n && (slotAt s m).valid && !(slotAt s m).revoked && hasRole s m 0)
    if reqBlen b ≠ 1 ∨ 8 ≤ n then (rsFORMAT, s)
    else if !ss.any (fun m => m != n && hasRole s m 4) then (rsROLE, s)
    else if n = 0 ∨ !k.valid then (rsPRECOND, s)
    else if k.revoked then (rsALREADY, s)
    else if hasRole s n 0 ∧ !others then (rsPRECOND, s)
    else (rsOK, tlogAdd (setSlot s n { k with revoked := true }) 0x13 n (le k.digest 0 4))) s

/-- The root decides a signed request at a boundary (R449). -/
def secNow (s : State) : Act → State
  | .signed req eid b =>
    if req = 2 then keyDeliver eid b s else if req = 3 then lcRequest eid b s else if req = 4 then debugUnlock eid b s
    else if req = 5 then keyInstall eid b s else if req = 6 then keyRevoke eid b s else s
  | _ => s

/-- A signed request has been verified: it is decided at the next boundary, in order of arrival (R449). -/
def signedArm (req eid : Nat) (b : List Byte) (s : State) : State := s.arm (.signed req eid b)

/-! ### Tamper events (R464, R465) -/

/-- ZEROISE: the key store and the ML-KEM pair. -/
def zeroise (s : State) : State :=
  let s := s.upd (fun s => s.parts.foldl (fun s (e : Nat × PartSt) =>
    let p := s.part e.1
    s.setPart e.1 { p with keys := { gen := p.keys.gen } }) s)
  { (s.set R.SEC_STATUS.DEBUG_OPEN 0).set R.SEC_STATUS.ZEROISED 1 with sec := { s.sec with kem := 0 } }

/-- TAMPER_EVENT: kind 1 to 4, with the 24 V input present or not. -/
def tamperEvent (kind : Nat) (powered : Bool) (s : State) : State :=
  if kind = 0 ∨ 4 < kind ∨ (kind = 4 ∧ powered = false) then s
  else
    let s := tlogAdd s kind 0 0 powered
    if powered then
      let s := zeroise s
      tlogAdd ((s.set R.SEC_EVENT.TAMPER 1).set R.SEC_EVENT.ZEROISE 1) 0x14 0 0
    else s

end Sys2Proof.Machine
end

