-- ==== Sys2Proof/Machine/Views.lean ====
section
/-!
DEFINITION. Reading the management window (R489, R490, R493, R499, R500): the fields that registers show from the
structured state, the selectors of views, the registers that the life cycle closes, and the word of a register.
-/

namespace Sys2Proof.Machine

/-! ### Registers, gates and views -/

/-- The register at a window offset, and which instance of it. -/
def regAt (off : Nat) : Option (RegInfo × Nat) :=
  R.regTable.findSome? (fun (r : RegInfo) =>
    if r.off ≤ off ∧ (off - r.off) % r.stride = 0 ∧ (off - r.off) / r.stride < r.count then some (r, (off - r.off) / r.stride) else none)

/-- A register that the life cycle closes (R462, R499). -/
def regClosed (s : State) (off : Nat) : Bool :=
  (lcsNow s == 0x1F && !([0x0, 0x20, 0x28, 0x30, 0x1D0000] : List Nat).contains off) ||
  (off == 0x1C0058 && !dbgAddrOpen s) || (off == 0x1C0060 && !dbgDataOpen s)

/-- A register is live: neither closed nor gated. -/
def regOpen (s : State) (off : Nat) : Bool := !regClosed s off && gateOpen s.toBody off

/-- The image defines the partition. -/
def pidOk (s : Body) (pid : Nat) : Bool := (partDef s pid).isSome

/-- The item that a selector names for instance `n` of a view: none where it names something that does not exist (R500). -/
def selItem (s : State) (sel : Sel) (n : Nat) : Option Nat :=
  let pid := fun (p : Nat) => if pidOk s.toBody p then some p else none
  let chan := fun (e c : Nat) => (chanOf s.toBody e c).map (fun _ => c)
  match sel with
  | .none => some 0
  | .xltPsel => pid (s.get R.XLT_PSEL.PID)
  | .dirPsel => pid (s.get R.DIR_PSEL.PID)
  | .cdcPsel => pid (s.get R.CDC_PSEL.PID)
  | .srhPsel => pid (s.get R.SRH_PSEL.PID)
  | .prtSel => pid (s.get R.PRT_SEL.PID)
  | .fltPart => pid (s.get R.FLT_PART_SEL.PID)
  | .obsPsel => pid (s.get R.OBS_PSEL.PID)
  | .stpCtx => some (s.get R.STP_CTX_SEL.CTX n)
  | .queSel =>
    let p := s.get R.QUE_SEL.PID
    let q := s.get R.QUE_SEL.QUEUE
    match partDef s.toBody p with
    | some d => if q < d.nq then some (queKey p q) else none
    | none => none
  | .mtxSlot =>
    let k := s.get R.MTX_SLOT_SEL.SLOT
    if s.img.parts.any (fun p => bitAt p.seqSlots k) then some k else none
  | .mtxChan => chan 2 (s.get R.MTX_CHAN_SEL.CHAN)
  | .embChan => chan 3 (s.get R.EMB_CHAN_SEL.CHAN)
  | .srhChan => chan 4 (s.get R.SRH_CHAN_SEL.CHAN)
  | .poolChan => chan 5 (s.get R.POOL_CHAN_SEL.CHAN)
  | .stoRgn => (protOf s.toBody (s.get R.STO_RGN_SEL.REGION)).map (·.region)
  | .prtExt => (pid (s.get R.PRT_SEL.PID)).map (fun p => p * 512 + s.get R.PRT_EXT_SEL.STAGED * 256 + s.get R.PRT_EXT_SEL.EXT)
  | .prtHal => (pid (s.get R.PRT_SEL.PID)).map (fun p => p * 4 + s.get R.PRT_HAL_SEL.HAL)
  | .prtHitch =>
    let x := s.get R.PRT_HITCH_SEL.INDEX
    if s.prt.hitches.any (fun h => h.idx == x) then some x else none
  | .fltFence => some (s.get R.FLT_FENCE_SEL.KIND * 8192 + s.get R.FLT_FENCE_SEL.ID % (if s.on R.FLT_FENCE_SEL.KIND then 512 else 8192))
  | .secSlot => let n := s.get R.SEC_SLOT_SEL.SLOT; if (slotAt s n).valid then some n else none
  | .secTlog => let n := s.get R.SEC_TLOG_SEL.AGE; if n < s.sec.tlog.length then some n else none

/-- The selected interleave region (XLT_ILV_SEL). -/
def ilvRegion (s : State) : Option Region := s.img.regions.find? (fun r => r.id == s.get R.XLT_ILV_SEL.REGION)

/-- The interleave registers and their list entry name something that exists. -/
def ilvShown (s : State) (off : Nat) : Bool :=
  if off < 0x60050 ∨ 0x60068 < off then true
  else match ilvRegion s with
    | some r => off != 0x60068 || decide (s.get R.XLT_ILV_SEL.ENTRY < (homeList s.toBody (s.on R.XLT_ILV_SEL.PREV) r).length)
    | none => false

/-! ### Fields shown from the structured state: (lowest bit, value) -/

/-- Cycles of a region in the current knot (R44). -/
def regionCycles (s : State) (r : Nat) : Nat :=
  if s.get R.KNT_RGN.STATE r = 2 ∨ r = 7 then 0
  else if r = 1 ∨ r = 2 then levelCycles (s.get R.PWR_STATUS.LEVEL)
  else if 3 ≤ r ∧ r ≤ 6 then 250 else 400

/-- What a context waits for: semaphore and target. -/
def ctxTarget (v : Ctx) : Nat × Nat :=
  match v.arrivals with
  | a :: _ => a
  | [] =>
    let y := if v.waits 0 then v.wait 0 else v.wait 1
    (y.sem, y.operand)

/-- STP_STATUS, STP_CTX and STP_CTX_KNOT of a core. -/
def stpView (s : State) (off c x : Nat) : List (Nat × Nat) :=
  let mask := fun (p : Ctx → Bool) => ((List.range 16).filter (fun y => p (s.ctx c y))).foldl (fun m y => m + 2 ^ y) 0
  let v := s.ctx c x
  let st := ctxState s.toBody v
  let t := if st = 2 ∨ st = 3 ∨ st = 4 then ctxTarget v else (0, 0)
  if off = 0x80008 then
    [(32, mask (fun v => v.phase != .idle)), (16, mask (fun v => let n := ctxState s.toBody v; decide (2 ≤ n) && decide (n ≤ 4)))]
  else if off = 0x80018 then
    [(63, b2n (v.phase != .idle)), (60, st), (50, v.pid), (44, v.queue), (32, t.1), (0, t.2)]
  else [(0, v.since)]

/-- The context with the oldest command of a queue that has not completed: core and number. -/
def queOldest (s : State) (key : Nat) : Option (Nat × Nat) :=
  let idx := fun (e : Nat × Nat) => (s.ctx e.1 e.2).idx
  ((queCtxs s.toBody key).filter (fun e => (s.ctx e.1 e.2).phase != .stalled)).foldl (fun a e => match a with
    | some w => if idxBefore (idx e) (idx w) then some e else a
    | none => some e) none

/-- The steps planned for a command (R192): none before its release; 0xFFFF_FFFF where its step count depends on data (R301, R311). -/
def planned (s : State) (c x : Nat) : Nat :=
  let v := s.ctx c x
  match v.planned with
  | some n => n
  | none =>
    if v.phase ≠ .running then 0
    else if v.dyn ∨ (v.engine = 4 ∧ (v.opcode = 2 ∨ v.opcode = 5)) then 0xFFFFFFFF
    else match progOf v with
      | none => 0
      | some f => ((((f v).run).run (evOf s.toBody c x .peek (2 ^ 64) v.tape)).2.step - 1) % 2 ^ 32

/-- QUE_CFG, QUE_STATUS, QUE_DONE and QUE_PROG of a queue. -/
def queView (s : State) (off key : Nat) : List (Nat × Nat) :=
  if off = 0x90008 then
    [(63, b2n (queCore s.toBody key).isSome), (32, (queCore s.toBody key).getD 0), (0, match partDef s.toBody (key / 64) with | some d => d.nq | none => 0)]
  else if off = 0x90028 then [(16, (queCtxs s.toBody key).length)]
  else if off = 0x90038 then [(32, match queOldest s key with | some e => (s.ctx e.1 e.2).idx | none => s.get R.QUE_IDX.FI 0 key)]
  else match queOldest s key with
    | some e => [(32, planned s e.1 e.2), (0, (s.ctx e.1 e.2).steps)]
    | none => [(32, 0), (0, 0)]

/-- The engine shares of a channel. -/
def chanView (s : State) (engine c : Nat) : List (Nat × Nat) :=
  match chanOf s.toBody engine c with
  | some k => [(32, k.units), (22, if engine = 2 then k.aux else 0), (0, k.sramKib)]
  | none => []

/-- SRH_MRG, SRH_MRG_IDX and SRH_MRG_EPOCH of a channel. -/
def mergeView (s : State) (off c : Nat) : List (Nat × Nat) :=
  match s.merges.find? (fun m => m.core == c && m.ctx.isSome) with
  | none => []
  | some m =>
    if off = 0xD0028 then [(63, 1), (62, b2n m.resumed), (59, m.phase), (45, m.pid), (0, m.next)]
    else if off = 0xD0030 then [(0, m.hdr)] else [(0, m.erel)]

/-- SEM words (R167). -/
def semView (s : State) (k : Nat) : List (Nat × Nat) :=
  let c := k / 4096
  let n := k % 4096
  let w := min 255 (((openWaits s.toBody c).filter (fun w => ((s.ctx c w.2.1).wait w.2.2).sem == n)).map (·.2.1)).eraseDups.length
  match semDef s.toBody c n with
  | some d => [(63, 1), (61, semKind d n), (50, d.pid), (40, if d.barrier ∧ n = d.sem then d.num else 0), (32, w), (0, semVal s.toBody c n)]
  | none => [(0, semVal s.toBody c n)]

/-- XLT and DIR. -/
def xltDirView (s : State) (off pid : Nat) : List (Nat × Nat) :=
  let mine := s.xlt.tlb.filter (fun t => t.pid == pid)
  if off = 0x60018 then
    match partDef s.toBody pid with
    | some d => [(41, (mine.filter (·.pinned)).length), (24, mine.length), (11, d.walkMax), (0, d.xltShare)]
    | none => []
  else if off = 0x60040 then
    match sgaLoc s.toBody (s.get R.XLT_ACC_ADDR.UNIT * 65536) with
    | some (_, loc) => let v := AMap.get 0 s.xlt.acc (loc / 65536); [(7, v / 128 % 2), (0, v % 128)]
    | none => []
  else if off = 0x70008 then
    [(63, b2n s.dir.sweep.isSome), (22, match s.dir.sweep with | some w => w.next % 2 ^ 22 | none => 0), (0, s.dir.nextCids.length)]
  else if off = 0x70018 then
    let lost := (s.dir.entries.filter (fun e => match e.2 with | some d => d.pid == pid && d.st == .l | none => false)).length
    [(27, dirHeld s.toBody pid), (11, min 65535 lost), (0, match partDef s.toBody pid with | some d => d.dirShare | none => 0)]
  else match ilvRegion s with
    | some r =>
      if off = 0x60050 then [(63, 1), (12, r.base / 4096)]
      else if off = 0x60058 then [(12, r.size / 4096)]
      else if off = 0x60060 then [(12, r.localBase / 4096), (9, b2n r.shared), (5, r.lLog), (0, r.gLog)]
      else [(0, (homeList s.toBody (s.on R.XLT_ILV_SEL.PREV) r).getD (s.get R.XLT_ILV_SEL.ENTRY) 0)]
    | none => []

/-- STO. -/
def stoView (s : State) (off rid : Nat) : List (Nat × Nat) :=
  if off = 0x180000 then [(2, b2n s.img.sp2)]
  else if off = 0x180010 then [(16, if s.cfg.img.isSome then freeFrames s.toBody else 0)]
  else if off = 0x180018 then [(0, s.sto.ahead.length + s.sto.queue.length)]
  else match protOf s.toBody rid with
    | none => []
    | some p =>
      if off = 0x180028 then
        [(63, b2n (p.nRows != 0 || p.tier == 3)), (60, p.tier), (57, p.scheme), (56, b2n p.swap), (52, p.member), (26, p.nRows), (0, p.rowBase)]
      else
        let whole := match s.img.regions.find? (fun r => r.id == rid) with | some r => regionUnits s.toBody r | none => 0
        let pin := p.tier = 0 ∨ p.tier = 3
        [(40, if pin then whole else p.quota), (16, if pin then whole else framesHeld s.toBody rid)]

/-- PRT and FLT_PART. -/
def prtView (s : State) (off j : Nat) : List (Nat × Nat) :=
  if off = 0x190008 then
    match partDef s.toBody j with
    | some d => [(63, 1), (62, b2n d.sess), (61, b2n d.owner), (60, b2n d.sgaOk),
        (42, (s.prt.hitches.filter (fun h => h.pid == j)).length), (32, d.resSlots), (23, (s.part j).cur.exts.length), (0, (s.part j).gen)]
    | none => []
  else if off = 0x190010 then
    let p := s.part j
    [(63, b2n p.commit.isSome), (32, match p.commit with | some (g, _) => g | none => 0),
     (16, if p.hasPrev then (p.gen + 65535) % 65536 else 0), (0, p.gen)]
  else if off = 0x190018 then [(0, (s.part j).genKnot)]
  else if off = 0x190038 ∨ off = 0x190040 then
    let p := s.part (j / 512)
    match (if 256 ≤ j % 512 then some (stagedExt p (j % 256)) else p.cur.exts.find? (fun e => e.idx == j % 256)) with
    | some e =>
      if off = 0x190038 then [(63, b2n e.valid), (62, b2n e.fenced), (16, e.base / 65536)]
      else [(60, e.rights), (16, e.len / 65536), (0, e.region)]
    | none => []
  else if off = 0x190058 then
    match s.prt.hitches.find? (fun h => h.idx == j) with
    | some h => [(62, h.state), (61, b2n h.sgaOk), (57, h.stages), (13, h.pid), (0, h.cid)]
    | none => []
  else
    let k := (s.part j).keys
    [(63, b2n k.rest.isSome), (62, b2n k.sess.isSome), (61, b2n k.prev.isSome), (60, b2n k.staged.isSome), (59, b2n k.roll.isSome), (32, k.gen)]

/-- CFG, SEC, LCS and OBS; `n` is the instance. -/
def restView (s : State) (off n j : Nat) : List (Nat × Nat) :=
  if off = 0x1A0028 then
    match s.fences.find? (fun f => f.isHid == decide (8192 ≤ j) && f.id == j % 8192) with
    | some f => [(63, 1), (62, b2n f.shadow), (0, f.knot)]
    | none => []
  else if off = 0x1A0038 then [(62, (s.part j).flt), (0, (s.part j).fltKnot)]
  else if off = 0x1B0010 then
    let p := AMap.get {} s.cfg.profiles n
    [(63, b2n p.valid), (62, b2n p.writing), (32, p.bytes.length / 4096), (0, (parseImage p.bytes).ver)]
  else if off = 0x1B0030 then [(0, s.cfg.floor)]
  else if off = 0x1C0000 then [(16, slotMask s (·.revoked)), (8, slotMask s (·.valid))]
  else if off = 0x1C0010 then let k := slotAt s j; [(63, b2n k.valid), (62, b2n k.revoked), (56, k.roles)]
  else if off = 0x1C0018 then [(0, le (slotAt s j).digest 0 8)]
  else if 0x1C0030 ≤ off ∧ off ≤ 0x1C0048 then [(0, le (s.sec.tlog.getD j []) (off - 0x1C0030) 8)]
  else if off = 0x1C0050 then [(16, s.sec.tlog.length), (0, if s.sec.tlog.isEmpty then 0 else (s.sec.tseq + 65535) % 65536)]
  else if off = 0x1D0000 then [(0, s.sec.lcs)]
  else if off = 0x1D0008 then [(0, s.sec.serial)]
  else if off = 0x1E0018 then [(32, obsLines s.toBody), (0, obsStagedBytes s.toBody)]
  else
    let b := s.get R.OBS_APER_SEL.BUF
    let a := s.get R.OBS_APER_SEL.PAGE * 4096 + 8 * n
    let m := if b = 0 then s.obs.trace else s.obs.smp
    [(0, if a < bufSize s.toBody b then leNat ((List.range 8).map (fun k => AMap.get 0 m (a + k))) else 0)]

/-- The fields that a register shows from the structured state: the register's base offset, the instance of its fields, the
selected item. -/
def viewWord (s : State) (off i j : Nat) : List (Nat × Nat) :=
  if off = 0x0 then [(20, b2n Config.variantAX)]
  else if off = 0x10 then (List.range 12).map (fun k => (k, alertBits s.toBody / 2 ^ k % 2))
  else if off = 0x30100 then [(10, regionCycles s i)]
  else if 0x60000 ≤ off ∧ off < 0x80000 then xltDirView s off j
  else if off = 0x80008 ∨ off = 0x80018 ∨ off = 0x80020 then stpView s off i j
  else if 0x90008 ≤ off ∧ off ≤ 0x90040 then queView s off j
  else if off = 0xA0010 then let t := AMap.get {} s.tables (j * 4 + i); [(32, t.tableId), (0, t.tag)]
  else if off = 0xA0018 then let t := AMap.get {} s.tables (j * 4 + i); [(62, t.state), (56, t.nctx), (48, t.gen), (0, t.refs)]
  else if off = 0xB0008 then
    let q := AMap.get {} s.seqs j
    let o := s.img.parts.find? (fun p => bitAt p.seqSlots j)
    [(62, q.state), (61, b2n o.isSome), (51, match o with | some p => p.pid | none => 0), (32, q.refs), (0, q.len)]
  else if off = 0xB0010 then [(0, (AMap.get {} s.seqs j).record)]
  else if off = 0xB0020 then chanView s 2 j
  else if off = 0xC0008 then chanView s 3 j
  else if off = 0xD0008 then chanView s 4 j
  else if off = 0xD0018 then [(63, match partDef s.toBody j with | some d => b2n d.owner | none => 0)]
  else if 0xD0028 ≤ off ∧ off ≤ 0xD0038 then mergeView s off j
  else if off = 0xE0008 then chanView s 5 j
  else if off = 0xF0008 then
    [(32, (s.txn.recs.filter (fun t => t.isOpen && isCoord s.toBody t)).length), (0, (s.txn.recs.filter (·.isOpen)).length)]
  else if off = 0x100000 then semView s i
  else if 0x180000 ≤ off ∧ off < 0x190000 then stoView s off j
  else if 0x190000 ≤ off ∧ off < 0x1A0000 then prtView s off j
  else if 0x1A0028 ≤ off then restView s off i j
  else []

/-! ### Reading (R493) -/

/-- A field as a read shows it: WO fields read zero (R5). -/
def readFld (s : State) (shown : List (Nat × Nat)) (f : Fld) (i j : Nat) : Nat :=
  if f.acc = .wo then 0
  else if f.view then
    match shown.find? (fun x => x.1 == f.lo) with
    | some (_, v) => v % 2 ^ f.w
    | none => f.reset
  else s.get f i j

/-- The word of a register at its Reset values. -/
def resetWord (r : RegInfo) : Nat := r.fields.foldl (fun v f => v + (if f.acc = .wo then 0 else f.reset) * 2 ^ f.lo) 0

/-- A register as REG_READ shows it, and its NOTE bit (R499, R500). -/
def readReg (s : State) (off : Nat) : Nat × Bool :=
  match regAt off with
  | none => (0, true)
  | some (r, n) =>
    if regClosed s off then (0, true)
    else if !gateOpen s.toBody off ∨ !ilvShown s off then (resetWord r, true)
    else match selItem s r.sel n with
      | none => (resetWord r, true)
      | some j =>
        let i := r.mul * n + r.add
        let shown := viewWord s r.off i j
        (r.fields.foldl (fun v f => v + readFld s shown f i j * 2 ^ f.lo) 0, false)

end Sys2Proof.Machine
end

