-- ==== Sys2Proof/Machine/Write.lean ====
section
/-!
DEFINITION. Writing the management window (R5, R6, R489, R490, R494, R499, R500): what each field does with the bits that
a write names, and the registers whose write starts an operation of its own.
-/

namespace Sys2Proof.Machine

/-- The bits of a write: data and mask. -/
structure Wr where
  data : Nat
  mask : Nat
  deriving DecidableEq, Repr

/-- What a write's masked bits make of a field that holds `old` (R494). -/
def Wr.merge (w : Wr) (f : Fld) (old : Nat) : Nat :=
  let m := w.mask / 2 ^ f.lo % 2 ^ f.w
  let d := w.data / 2 ^ f.lo % 2 ^ f.w
  (old &&& (2 ^ f.w - 1 - m)) ||| (d &&& m)

/-- The masked bits of a WO field; bits outside the mask are not written. -/
def Wr.wo (w : Wr) (f : Fld) : Nat := w.merge f 0

/-- The mask covers a bit of the field. -/
def Wr.hits (w : Wr) (f : Fld) : Bool := w.mask / 2 ^ f.lo % 2 ^ f.w != 0

/-- The masked value of a field of the state. -/
def Wr.fld (w : Wr) (s : Body) (f : Fld) (i : Nat := 0) (j : Nat := 0) : Nat := w.merge f (s.get f i j)

/-- A field that acts as its access type alone states (R5). -/
def wrField (w : Wr) (i j : Nat) (s : Body) (f : Fld) : Body :=
  match f.acc with
  | .rw => if f.view then s else s.set f (w.fld s f i j) i j
  | .rws => if f.view then s else s.set f (w.fld s f i j) i j
  | .w1c => s.set f (s.get f i j &&& (2 ^ f.w - 1 - w.wo f)) i j
  | _ => s

/-- Every field of a register acts as its access type states. -/
def wrFields (w : Wr) (i j : Nat) (fs : List Fld) (s : Body) : Body := fs.foldl (wrField w i j) s

/-! ### Registers whose write starts something -/

/-- MGT, PWR, RST, CAL, CFG. -/
def wrSystem (w : Wr) (off : Nat) (s : Body) : Option Body :=
  if off = 0x40 then
    let op := w.wo R.MGT_PROFILE.OP
    let n := w.wo R.MGT_PROFILE.PROFILE
    some (if op = 2 then partialStart n s else if op = 3 then partialCancel s else s)
  else if off = 0x10028 then some (if w.wo R.PWR_EXT.CLR = 1 then pwrExtClear s else s)
  else if off = 0x20000 then
    let op := w.wo R.RST_CMD.OP
    some (if op = 1 then engineCmd (w.wo R.RST_CMD.CORE) s
      else if op = 2 then partitionCmd (w.wo R.RST_CMD.PID) s
      else if op = 3 then chipCmd false s else if op = 4 then powerCmd s else s)
  else if off = 0x38000 then some (calWrite s (w.fld s R.CAL_TIME.SEC) (w.fld s R.CAL_TIME.FRAC))
  else if off = 0x1B0000 then some (if w.hits R.CFG_STATUS.BOOT then bootWrite (w.fld s R.CFG_STATUS.BOOT) s else s)
  else if off = 0x1B0030 then some (floorWrite (w.merge R.CFG_FLOOR.VER s.cfg.floor) s)
  else none

/-- LNK_CTRL: ENABLE and LANE_DISABLE are stored; RETRAIN is armed, and newly disabled wavelengths are dropped (R54). -/
def laneDisable (n mask : Nat) (s : Body) : Body := startDrop (s.set R.LNK_CTRL.LANE_DISABLE mask n) n mask

/-- LNK_CTRL.ENABLE. -/
def linkEnable (n : Nat) (en : Bool) (s : Body) : Body := s.set R.LNK_CTRL.ENABLE (b2n en) n

/-- LNK_CTRL.RETRAIN. -/
def linkRetrain (n : Nat) (s : Body) : Body := s.arm (.linkRetrain n)

/-- LNK_CTRL of port `n`. -/
def wrLink (w : Wr) (n : Nat) (s : Body) : Body :=
  let s := if w.hits R.LNK_CTRL.ENABLE then linkEnable n (w.fld s R.LNK_CTRL.ENABLE n != 0) s else s
  let s := if w.hits R.LNK_CTRL.LANE_DISABLE then laneDisable n (w.fld s R.LNK_CTRL.LANE_DISABLE n) s else s
  if w.wo R.LNK_CTRL.RETRAIN = 1 then linkRetrain n s else s

/-- DIR_LOOK_LINE. -/
def dirLook (line : Nat) (s : Body) : Body :=
  let s := (s.set R.DIR_LOOK_LINE.LINE line).set R.DIR_LOOK_LINE.DONE 0
  s.arm (.dirLook (line % 2 ^ 38))

/-- A new root of a partition (R119). -/
def rootArm (pid root : Nat) (s : Body) : Body := s.arm (.root pid root)

/-- XLT and DIR; `j` is the selected partition. -/
def wrXltDir (w : Wr) (off n j : Nat) (s : Body) : Option Body :=
  if off = 0x60010 then
    some (if w.hits R.XLT_PART_ROOT.ROOT then rootArm j (w.fld s R.XLT_PART_ROOT.ROOT 0 j) s else s)
  else if off = 0x60020 then
    some (invStart s {
      scope := w.wo R.XLT_INV_CMD.SCOPE, pid := w.wo R.XLT_INV_CMD.PID, size := w.wo R.XLT_INV_CMD.SIZE,
      count := w.wo R.XLT_INV_CMD.COUNT, cva := s.get R.XLT_INV_ADDR.CVA * 65536 })
  else if off = 0x60070 then
    some (hotRingWrite s j (w.fld s R.XLT_PART_HOT.EN 0 j != 0) (w.fld s R.XLT_PART_HOT.RING 0 j) (w.fld s R.XLT_PART_HOT.SIZE_LOG 0 j))
  else if off = 0x61000 then
    some (rebaseArm j n (w.fld s R.XLT_WIN_BASE.V n j != 0) (w.fld s R.XLT_WIN_BASE.WR n j != 0) (w.fld s R.XLT_WIN_BASE.BASE n j) s)
  else if off = 0x70020 then some (dirLook (w.fld s R.DIR_LOOK_LINE.LINE) s)
  else if off = 0x70060 then
    let op := w.wo R.DIR_LOST_CMD.OP
    some (if op = 1 then s.arm (.acceptLine (w.wo R.DIR_LOST_CMD.LINE))
      else if op = 2 then s.arm (.acceptPid (w.wo R.DIR_LOST_CMD.PID)) else s)
  else none

/-- QUE_CTRL.ENABLE. -/
def queEnable (pid q : Nat) (en : Bool) (s : Body) : Body :=
  let s := s.set R.QUE_CTRL.ENABLE (b2n en) 0 (queKey pid q)
  s.arm (if en then .queEnable (queKey pid q) else .queDisable (queKey pid q))

/-- QUE_CTRL.RESUME. -/
def queResume (pid q : Nat) (s : Body) : Body := s.arm (.queResume (queKey pid q))

/-- STP, QUE and SEM; `n` is the core, or the semaphore, `j` the selected queue. -/
def wrStep (w : Wr) (off n j : Nat) (s : Body) : Option Body :=
  if off = 0x80038 then
    let op := w.wo R.STP_SEM_FORCE.OP
    some (if op = 1 ∨ op = 2 then forceArm s n (w.wo R.STP_SEM_FORCE.SEM) (op == 2) (w.wo R.STP_SEM_FORCE.VALUE) else s)
  else if off = 0x80058 then some (s.arm (.cacheInv n (w.wo R.STP_CACHE_INV.ALL == 1) (w.wo R.STP_CACHE_INV.PID)))
  else if off = 0x100000 then
    some (if w.hits R.SEM.VALUE then forceArm s (n / 4096) (n % 4096) false (w.fld s R.SEM.VALUE n) else s)
  else if off = 0x90010 then some (ringPlace (j / 64) (j % 64) false (w.fld s R.QUE_DRING.BASE 0 j) (w.fld s R.QUE_DRING.LOG2N 0 j) s)
  else if off = 0x90018 then some (ringPlace (j / 64) (j % 64) true (w.fld s R.QUE_CRING.BASE 0 j) 0 s)
  else if off = 0x90020 then
    let s := if w.wo R.QUE_CTRL.RESUME = 1 then queResume (j / 64) (j % 64) s else s
    some (if w.hits R.QUE_CTRL.ENABLE then queEnable (j / 64) (j % 64) (w.wo R.QUE_CTRL.ENABLE == 1) s else s)
  else if off = 0x90030 then some (queueIndexWrite (j / 64) (j % 64) (w.fld s R.QUE_IDX.PI 0 j) (w.fld s R.QUE_IDX.FI 0 j) s)
  else none

/-- STO_CMD FAIL and REBUILD (R360, R362). -/
def stoFail (q : Nat) (s : Body) : Body := s.arm (.posFail (q % 16) 4)

/-- STO_CMD REBUILD. -/
def stoRebuild (q : Nat) (s : Body) : Body := { s with sto := { s.sto with rebuildNamed := (s.sto.rebuildNamed ++ [q % 16]).eraseDups } }

/-- STO_SHADOW: the fields that go with a MODE, and the MODE itself (R367). -/
def shadowWrite (mode src pid ntrial : Nat) (s : Body) : Body :=
  let s := (s.set R.STO_SHADOW.SRC_HID src).set R.STO_SHADOW.PID pid
  (s.set R.STO_SHADOW.NTRIAL ntrial).arm (.shadowMode (mode % 4))

/-- TXN_SEL. -/
def txnSel (ocid sid : Nat) (s : Body) : Body :=
  ((s.set R.TXN_SEL.OCID ocid).set R.TXN_SEL.ID sid).arm (.txnLook (ocid % 8192) (sid % 2 ^ 24))

/-- STO and TXN. -/
def wrStore (w : Wr) (off : Nat) (s : Body) : Option Body :=
  if off = 0xF0010 then some (txnSel (w.fld s R.TXN_SEL.OCID) (w.fld s R.TXN_SEL.ID) s)
  else if off = 0xF0028 then
    let op := w.wo R.TXN_FORCE.OP
    some (if op = 1 ∨ op = 2 then s.arm (.txnForce (op == 1) (w.wo R.TXN_FORCE.OCID) (w.wo R.TXN_FORCE.ID)) else s)
  else if off = 0x180038 then
    let op := w.wo R.STO_CMD.OP
    some (if op = 1 then stoFail (w.wo R.STO_CMD.POS) s
      else if op = 2 then stoRebuild (w.wo R.STO_CMD.POS) s
      else if op = 3 then s.arm (.stoAccept (w.wo R.STO_CMD.REGION))
      else if op = 4 then s.arm (.stoFlush (w.wo R.STO_CMD.REGION)) else s)
  else if off = 0x180050 then
    let src := w.fld s R.STO_SHADOW.SRC_HID
    let pid := w.fld s R.STO_SHADOW.PID
    let nt := w.fld s R.STO_SHADOW.NTRIAL
    some (if w.hits R.STO_SHADOW.MODE then shadowWrite (w.fld s R.STO_SHADOW.MODE) src pid nt s
      else ((s.set R.STO_SHADOW.SRC_HID src).set R.STO_SHADOW.PID pid).set R.STO_SHADOW.NTRIAL nt)
  else none

/-- FLT_CMD (R397). -/
def fltCmd (op pid hid cid : Nat) (s : Body) : Body := if op = 0 ∨ 7 < op then s else s.arm (.fltOrder op pid hid cid)

/-- PRT_HITCH_CMD (R377). -/
def hitchCmd (op cid pid stages : Nat) (sga : Bool) (s : Body) : Body :=
  if op = 1 ∨ op = 3 then s.arm (.hitch op cid pid stages sga)
  else if op = 2 then revokeArm s (.revoke (.hitch cid pid)) else s

/-- PRT_GRANT_CMD (R380, R388, R389). -/
def grantCmd (op cid pid ext rights : Nat) (zero : Bool) (s : Body) : Body :=
  if op = 1 then s.arm (.grant cid pid ext rights)
  else if op = 2 then revokeArm s (.revoke (.grant cid pid ext))
  else if op = 3 then revokeArm s (.revoke (.extent pid ext zero))
  else if op = 4 then s.arm (.reopen pid ext) else s

/-- PRT and FLT; `j` is the selected item. -/
def wrPart (w : Wr) (off j : Nat) (s : Body) : Option Body :=
  let pid := s.get R.PRT_SEL.PID
  if off = 0x1A0008 then
    some (fltCmd (w.wo R.FLT_CMD.OP) (w.wo R.FLT_CMD.PID) (w.wo R.FLT_CMD.HID) (w.wo R.FLT_CMD.CID) s)
  else if off = 0x190020 then
    let op := w.wo R.PRT_GEN_CMD.OP
    some (if !pidOk s pid then s
      else if op = 1 then commit pid (w.wo R.PRT_GEN_CMD.NEWGEN) s else if op = 2 then commitCancel pid s else s)
  else if off = 0x190038 ∨ off = 0x190040 then
    if j % 512 < 256 then some s
    else
      let e := stagedExt (s.part (j / 512)) (j % 256)
      some (if off = 0x190038 then
          stageBase (j / 512) (j % 256) (w.merge R.PRT_EXT_BASE.V (b2n e.valid) != 0) (w.merge R.PRT_EXT_BASE.BASE (e.base / 65536)) s
        else
          stageLen (j / 512) (j % 256) (w.merge R.PRT_EXT_LEN.RIGHTS e.rights) (w.merge R.PRT_EXT_LEN.LEN (e.len / 65536))
            (w.merge R.PRT_EXT_LEN.REGION e.region) s)
  else if off = 0x190048 then
    some (if pidOk s pid then
        stageList pid (w.wo R.PRT_STG_LIST.REGION) (w.wo R.PRT_STG_LIST.ENTRY) (w.wo R.PRT_STG_LIST.HID) s
      else s)
  else if off = 0x190060 then
    some (hitchCmd (w.wo R.PRT_HITCH_CMD.OP) (w.wo R.PRT_HITCH_CMD.CID) (w.wo R.PRT_HITCH_CMD.PID)
      (w.wo R.PRT_HITCH_CMD.STAGES) (w.wo R.PRT_HITCH_CMD.SGA_OK == 1) s)
  else if off = 0x190068 then
    some (grantCmd (w.wo R.PRT_GRANT_CMD.OP) (w.wo R.PRT_GRANT_CMD.CID) (w.wo R.PRT_GRANT_CMD.PID) (w.wo R.PRT_GRANT_CMD.EXT)
      (w.wo R.PRT_GRANT_CMD.RIGHTS) (w.wo R.PRT_GRANT_CMD.MODE == 1) s)
  else if off = 0x190088 then some (if w.wo R.PRT_KEY_CMD.OP = 1 ∧ pidOk s pid then roll pid s else s)
  else if off = 0x1900A8 then
    let lead := w.fld s R.PRT_HAL_CTRL.LEAD 0 j
    let len := w.fld s R.PRT_HAL_CTRL.LEN 0 j
    some (if w.hits R.PRT_HAL_CTRL.EN ∧ w.wo R.PRT_HAL_CTRL.EN = 1 then halyardEnable (j / 4) (j % 4) lead len s
      else wrFields w 0 j [R.PRT_HAL_CTRL.EN, R.PRT_HAL_CTRL.LEAD, R.PRT_HAL_CTRL.LEN] s)
  else none

/-- OBS_SMP_CTL.EN (R474). -/
def sampleEnable (n : Nat) (en : Bool) (s : Body) : Body := if en then s.arm (.smpEnable n) else s.set R.OBS_SMP_CTL.EN 0 n

/-- OBS and the debug window; `n` is the instance, `j` the selected partition. -/
def wrObs (w : Wr) (off n j : Nat) (s : Body) : Option Body :=
  if off = 0x1E0000 then
    let en := w.fld s R.OBS_TRACE_CTL.EN
    let s := wrFields w 0 0 [R.OBS_TRACE_CTL.STOP_FULL, R.OBS_TRACE_CTL.FROZEN, R.OBS_TRACE_CTL.TYPES, R.OBS_TRACE_CTL.PC_LOG,
      R.OBS_TRACE_CTL.CORES, R.OBS_TRACE_CTL.ALLPID, R.OBS_TRACE_CTL.PID] s
    some (if w.hits R.OBS_TRACE_CTL.EN then traceEnable s (en != 0) else s)
  else if off = 0x1E0020 then some (s.arm (.obsMark (w.wo R.OBS_MARK.VALUE)))
  else if off = 0x1E0038 then some (if w.wo R.OBS_FLUSH.FLUSH = 1 then s.arm .obsFlush else s)
  else if off = 0x1E0100 then
    let s := wrFields w n 0 [R.OBS_SMP_CTL.DEST, R.OBS_SMP_CTL.SET, R.OBS_SMP_CTL.SEL, R.OBS_SMP_CTL.IVL] s
    some (if w.hits R.OBS_SMP_CTL.EN then sampleEnable n (w.wo R.OBS_SMP_CTL.EN == 1) s else s)
  else if off = 0x1E0200 then
    let en := w.fld s R.OBS_WP_CTL.EN n
    let s := wrFields w n 0 [R.OBS_WP_CTL.SPACE, R.OBS_WP_CTL.ALLPID, R.OBS_WP_CTL.KINDS, R.OBS_WP_CTL.ACTIONS, R.OBS_WP_CTL.MAX,
      R.OBS_WP_CTL.PID] s
    some (watchEnable s n (en != 0))
  else if off = 0x1E0448 then
    some (ringWrite s j (w.fld s R.OBS_RING.EN 0 j != 0) (w.fld s R.OBS_RING.SYNC 0 j != 0) (w.fld s R.OBS_RING.PC 0 j != 0)
      (w.fld s R.OBS_RING.RING 0 j) (w.fld s R.OBS_RING.SIZE_LOG 0 j))
  else none

/-- The write of a live register that changes the body alone: `r.off` is its base offset, `n` its instance, `j` the selected
item. -/
def wrBody (w : Wr) (r : RegInfo) (n j : Nat) (s : Body) : Body :=
  let off := r.off
  if off = 0x40000 then wrLink w n s
  else match (wrSystem w off s <|> wrXltDir w off n j s <|> wrStep w off n j s <|> wrStore w off s <|> wrPart w off j s <|> wrObs w off n j s) with
    | some t => t
    | none => wrFields w (r.mul * n + r.add) j (r.fields.filter (fun f => f.acc != .w1c)) s

/-- What a write clears by its 1s (R5): that comes first in a home cycle, so that a bit set in the cycle stays set (R6). -/
def wrClear (w : Wr) (r : RegInfo) (n j : Nat) (s : State) : State :=
  s.upd (wrFields w (r.mul * n + r.add) j (r.fields.filter (fun f => f.acc == .w1c)))

/-- The write of a live register, but for its W1C fields. A SWITCH has signatures checked, and SEC_DBG_ADDR obeys the life
cycle. -/
def wrRest (w : Wr) (r : RegInfo) (n j : Nat) (s : State) : State :=
  if r.off = 0x40 ∧ w.wo R.MGT_PROFILE.OP = 1 then switch (w.wo R.MGT_PROFILE.PROFILE) s
  else if r.off = 0x1C0058 then dbgSelect (w.fld s.toBody R.SEC_DBG_ADDR.UNIT) (w.fld s.toBody R.SEC_DBG_ADDR.ADDR) s
  else s.upd (wrBody w r n j)

/-- The write of a live register. -/
def wrReg (w : Wr) (r : RegInfo) (n j : Nat) (s : State) : State := wrRest w r n j (wrClear w r n j s)

/-- What a register request does to the register at an offset, and its NOTE bit (R499, R500). -/
def atReg (off : Nat) (w : Wr) (f : RegInfo → Nat → Nat → State → State) (s : State) : Bool × State :=
  match regAt off with
  | none => (true, s)
  | some (r, n) =>
    if !regOpen s off ∨ !ilvShown s off then (true, s)
    else match selItem s r.sel n with
      | none => (true, s)
      | some j => (false, if w.mask = 0 then s else f r n j s)

/-- The write of one register, and its NOTE bit (R494). -/
def writeReg (off : Nat) (w : Wr) (s : State) : Bool × State := atReg off w (wrReg w) s

/-- The two parts of a REG_WRITE of several registers (R6, R496): the W1C bits of all of them are cleared, and then the writes apply.
A register that a selector of the same request selects is wholly written in its turn. -/
def clearFirst (w : Wr) (r : RegInfo) (n j : Nat) (s : State) : State := if r.sel = .none then wrClear w r n j s else s
def writeAfter (w : Wr) (r : RegInfo) (n j : Nat) (s : State) : State := if r.sel = .none then wrRest w r n j s else wrReg w r n j s

/-- A command that writes the register at `off`: ignored where the register is closed or gated (R490, R499). -/
def via (off : Nat) (f : State → State) (s : State) : State := if regOpen s off then f s else s

/-- A command that writes a view of a partition: ignored, too, where the image does not define it (R500). -/
def viaPid (off pid : Nat) (f : State → State) (s : State) : State := if regOpen s off ∧ pidOk s.toBody pid then f s else s

end Sys2Proof.Machine
end

