-- ==== Sys2Proof/Machine/Mgt.lean ====
section
/-!
DEFINITION. The MCTP endpoint of the management port (R491 to R500): endpoint identifiers, PLDM, register access and
platform events. The bytes of MCTP control and PLDM Type 0 and 2 answers are those of DSP0236, DSP0240 and DSP0248 (log
entry 30).
-/

namespace Sys2Proof.Machine

/-- An answer of the endpoint: protocol 0 MCTP control, 1 PLDM; completion code and data. -/
def mgmtSend (s : State) (eid proto cc : Nat) (data : List Byte) : State := s.send (.mgmt eid proto cc data)

/-! ### MCTP control (R491, R492) -/

/-- SET_ENDPOINT_ID from `src`: the first one accepted makes its sender the owner; later ones only from the owner. -/
def setEid (src eid : Nat) (s : State) : State :=
  if eid = 0 ∨ 255 ≤ eid then mgmtSend s src 0 2 []
  else if s.on R.MGT_EID.OWNER_V ∧ s.get R.MGT_EID.OWNER ≠ src % 256 then
    mgmtSend s src 0 0 (leBytes 1 0x10 ++ leBytes 1 (s.get R.MGT_EID.EID) ++ leBytes 1 0)
  else
    let s := (s.set R.MGT_EID.EID eid).set R.MGT_EID.OWNER src
    mgmtSend (s.set R.MGT_EID.OWNER_V 1) src 0 0 (leBytes 1 0 ++ leBytes 1 eid ++ leBytes 1 0)

/-- GET_ENDPOINT_ID. -/
def getEid (src : Nat) (s : State) : State := mgmtSend s src 0 0 (leBytes 1 (s.get R.MGT_EID.EID) ++ leBytes 2 0)

/-- GET_MCTP_VERSION_SUPPORT of a message type: the version number is not stated, a free value. -/
def getMctpVersion (src ty : Nat) (s : State) : State :=
  if ty = 0 ∨ ty = 1 ∨ ty = 5 ∨ ty = 0xFF then
    let (v, s) := s.free 32
    mgmtSend s src 0 0 (leBytes 1 1 ++ leBytes 4 v)
  else mgmtSend s src 0 0x80 []

/-- GET_MESSAGE_TYPE_SUPPORT: PLDM and SPDM beside MCTP control. -/
def getMessageTypes (src : Nat) (s : State) : State := mgmtSend s src 0 0 (leBytes 1 2 ++ leBytes 1 1 ++ leBytes 1 5)

/-! ### PLDM (R491, R498) -/

/-- PLDM_BASE_DISCOVERY: SetTID, GetTID, GetPLDMVersion, GetPLDMTypes and GetPLDMCommands. -/
def pldmBase (src cmd arg : Nat) (s : State) : State :=
  if cmd = 1 then mgmtSend { s with mgt := { s.mgt with tid := arg % 256 } } src 1 0 []
  else if cmd = 2 then mgmtSend s src 1 0 (leBytes 1 s.mgt.tid)
  else if cmd = 3 then
    let (v, s) := s.free 32
    mgmtSend s src 1 0 (leBytes 4 v)
  else if cmd = 4 then mgmtSend s src 1 0 (leBytes 8 (2 ^ 0 + 2 ^ 2 + 2 ^ 5 + 2 ^ 63))
  else if cmd = 5 then
    (if arg = 0 then mgmtSend s src 1 0 (leBytes 32 0x3E)
     else if arg = 63 then mgmtSend s src 1 0 (leBytes 32 6)
     else
       let (v, s) := s.free 64
       mgmtSend s src 1 0 (leBytes 32 v))
  else mgmtSend s src 1 5 []

/-- The source of a sensor (R498). -/
def sensor (s : State) (id : Nat) : Option Nat :=
  if id = 1 then some (s.get R.PWR_IN.VIN_MV)
  else if id = 2 then some (s.get R.PWR_IN.IIN)
  else if id = 3 then some (s.get R.PWR_IN.PKG_W)
  else if id = 0x10 then some (alertBits s.toBody)
  else if id = 0x11 then some (s.get R.PWR_STATUS.STATE)
  else if id = 0x12 then some (s.get R.KNT_STATUS.STATE)
  else none

/-- PLDM_SENSOR_READ. -/
def sensorRead (src id : Nat) (s : State) : State :=
  match sensor s id with
  | some v => mgmtSend s src 1 0 (leBytes 2 v)
  | none => mgmtSend s src 1 0x80 []

/-- PLATFORM_EVENT_SEND: the alert output has asserted and the owner has not been told, and 4,000 knots have passed since
the last message. -/
def platformEvent (s : State) : State :=
  let due : Bool := match s.mgt.alertAt with | some k => decide (k + 4000 ≤ s.tick) | none => true
  if alertOn s.toBody ∧ !s.mgt.alertTold ∧ s.on R.MGT_EID.OWNER_V ∧ due then
    let s := { s with mgt := { s.mgt with alertTold := true, alertAt := some s.tick } }
    mgmtSend s (s.get R.MGT_EID.OWNER) 1 0 (leBytes 2 0x10 ++ leBytes 2 (alertBits s.toBody))
  else s

/-- At a boundary: an alert that has been released may be reported anew. -/
def alertBoundary (s : State) : State :=
  if alertOn s.toBody then s else { s with mgt := { s.mgt with alertTold := false } }

/-! ### Register access (R493 to R497) -/

/-- A request that is refused, or has notes (MGT_WIN_ERR). -/
def winErr (s : State) (cc cmd eid off : Nat) : State :=
  let s := (s.set R.MGT_WIN_ERR.CODE cc).set R.MGT_WIN_ERR.CMD cmd
  let s := (s.set R.MGT_WIN_ERR.SRC_EID eid).set R.MGT_WIN_ERR.OFFSET off
  s.set R.MGT_WIN_KNOT.KNOT s.now

/-- The completion code of a register request (R495). -/
def winCode (s : State) (eid cmd : Nat) (b : List Byte) : Nat :=
  let n := le b 8 1
  let off := le b 4 4
  let write := cmd = 2
  if !s.on R.MGT_EID.OWNER_V ∨ s.get R.MGT_EID.OWNER ≠ eid then 0x82
  else if cmd ≠ 1 ∧ cmd ≠ 2 then 5
  else if n = 0 ∨ (if write then 32 else 64) < n ∨ b.length ≠ (if write then 16 + 16 * n else 12) then 3
  else if le b 0 4 ≠ 0x1E7A3 ∨ !allZero (slice b 9 (if write then 7 else 3)) then 2
  else if off % 8 ≠ 0 then 0x81
  else if windowSize < off + 8 * n then 0x80
  else 0

/-- NOTE of a list of note bits, and the offset of the first noted register. -/
def noteBits (ns : List Bool) : Nat := ((List.range ns.length).filter (fun i => ns.getD i false)).foldl (fun m i => m + 2 ^ i) 0

/-- Records the notes of a request. -/
def winNotes (s : State) (cmd eid off : Nat) (ns : List Bool) : State :=
  match (List.range ns.length).find? (fun i => ns.getD i false) with
  | some i => winErr s 0 cmd eid (off + 8 * i)
  | none => s

/-- REG_READ: every register is latched in one home cycle, with no side effect on any field. -/
def regRead (eid : Nat) (b : List Byte) (s : State) : State :=
  let off := le b 4 4
  let vs := (List.range (le b 8 1)).map (fun i => readReg s (off + 8 * i))
  let ns := vs.map (·.2)
  let t := (stampBlk s.toBody 0 false).1
  let s := winNotes (s.upd (fun b => (stampBlk b 0 false).2)) 1 eid off ns
  mgmtSend s eid 1 0 (List.replicate 3 0 ++ t ++ leBytes 8 (noteBits ns) ++ vs.flatMap (fun v => leBytes 8 v.1))

/-- Register `i` of a REG_WRITE: data and mask. -/
def wrAt (b : List Byte) (i : Nat) : Wr := { data := le b (16 + 16 * i) 8, mask := le b (24 + 16 * i) 8 }

/-- The writes of a REG_WRITE, in ascending offset order (R496), and their NOTE bits. -/
def regWritesFrom (off : Nat) (b : List Byte) : List Nat → State → List Bool × State
  | [], s => ([], s)
  | i :: t, s =>
    let (n, s) := atReg (off + 8 * i) (wrAt b i) (writeAfter (wrAt b i)) s
    let (ns, s) := regWritesFrom off b t s
    (n :: ns, s)

/-- A REG_WRITE is one home cycle (R6, R496). -/
def regWrites (off : Nat) (b : List Byte) (is : List Nat) (s : State) : List Bool × State :=
  regWritesFrom off b is (is.foldl (fun s i => (atReg (off + 8 * i) (wrAt b i) (clearFirst (wrAt b i)) s).2) s)

/-- REG_WRITE; the last one applied, repeated within 400,000 knots, is answered again and not applied (R497). -/
def regWrite (eid inst : Nat) (b : List Byte) (s : State) : State :=
  let again := match s.mgt.lastWrite with
    | some (i, c, k, r) => if i = inst ∧ c = b ∧ s.tick ≤ k + 400000 then some r else none
    | none => none
  match again with
  | some r => mgmtSend s eid 1 0 r
  | none =>
    let off := le b 4 4
    let k := s.tick
    let t := (stampBlk s.toBody 0 false).1
    let (ns, s) := regWrites off b (List.range (le b 8 1)) (s.upd (fun b => (stampBlk b 0 false).2))
    let r := List.replicate 3 0 ++ t ++ leBytes 8 (noteBits ns)
    let s := winNotes s 2 eid off ns
    mgmtSend { s with mgt := { s.mgt with lastWrite := some (inst, b, k, r) } } eid 1 0 r

/-- A PLDM Type 63 request: command, instance ID and request data (R492 to R497). -/
def regAccess (eid inst cmd : Nat) (b : List Byte) (s : State) : State :=
  let cc := winCode s eid cmd b
  if cc ≠ 0 then mgmtSend (winErr s cc cmd eid (le b 4 4)) eid 1 cc []
  else if cmd = 1 then regRead eid b s else regWrite eid inst b s

end Sys2Proof.Machine
end

