-- ==== Sys2Proof/Machine/Boundary.lean ====
section
/-!
DEFINITION. The knot boundary (R22, R23): the knot that ends is closed, the log line advances, and every boundary action
of the new knot runs, in the order in which the chapters let one depend on another.
-/

namespace Sys2Proof.Machine

/-- The resets among the armed actions: kind, and core, PID or cause (R438). -/
def armedResets (as : List Act) : List (Nat × Nat) :=
  as.filterMap (fun a => match a with | .reset k c => some (k, c) | _ => none)

/-- One armed action takes effect (R23). The resets come after every other action (`resetsNow`), DEBUG_READ_SELECT's
read obeys the life cycle (`knotActs`), and signed requests are decided after a PARTIAL has taken effect (`signedNow`). -/
def actNow (s : Body) : Act → Body
  | .sto ev => stoNow s ev
  | .pwr ev => pwrNow s ev
  | .signed _ _ _ => s
  | .linkRetrain n => retrainNow s n
  | .train n ev => trainNow s n ev
  | .level up => levelNow s up
  | .traceEn v => traceEnNow s v
  | .laserSpare n lane => spareNow s n lane
  | .laneDrop n mask => startDrop s n mask
  | .disc st => discNow s st
  | .portFailed p => match posOfPort s p with | some q => positionFailed s q 1 | none => s
  | .root pid root => rootEffect s pid root
  | .rebase pid w win => rebaseEffect s pid w win
  | .dirLook line => dirLookNow s line
  | .acceptLine line => acceptLineNow s line
  | .acceptPid pid => acceptPidNow s pid
  | .cacheInv c all pid => waysInvalidate s c all pid
  | .queEnable key => queEnableNow s key
  | .queDisable key => queDisableNow s key
  | .queResume key => queResumeNow s key
  | .txnForce commit ocid sid => txnForceNow s commit ocid sid
  | .txnLook ocid sid => txnLookNow s ocid sid
  | .posFail q c => positionFailed s q c
  | .hitch op cid pid stages sga => hitchNow s op cid pid stages sga
  | .grant cid pid ext rights => grantNow s cid pid ext rights
  | .revoke op => revokeNow s op
  | .reopen pid ext => reopenNow s pid ext
  | .fltOrder op pid hid cid => fltNow s op pid hid cid
  | .reset _ _ => s
  | .image prof i => imageNow s prof i
  | .load prof switch => loadStart s prof switch
  | .stoAccept rid => acceptNow s rid
  | .stoFlush rid => flushNow s rid
  | .shadowMode mode => shadowMode s mode
  | .stackDead => { s with sto := { s.sto with stackDead := true } }
  | .obsMark v => markRec s v
  | .obsFlush => s
  | .smpEnable n => smpStart s n
  | .dbgRead => s

/-- The end of the knot: what the waits of the step cores have come to, what the near tier read badly, and what the hits of
watchpoints stop (R482). -/
def knotClose (b : BoundaryIn) (s : Body) : Body := watchBoundary (b.nearBad.foldl nearFix (stpClose s))

/-- The first part of a boundary: the log line, the package's measurements, the steps of the knot before (STEP_COMMIT,
SEMAPHORE_UPDATE), and the latching of counters, which comes before any reset (R474). -/
def knotCommit (b : BoundaryIn) (s : Body) : Body :=
  runsStart (sampleAll (seizeProgress (stpBoundary (peersFenced (pwrBoundary b (tickKnot s))) b.overrun)))

/-- The armed actions, then the resets. -/
def knotActs (s : State) : State :=
  let as := s.acts
  let s := if as.contains .dbgRead then dbgReadNow s else s
  resetsNow (s.upd (fun s => as.foldl actNow { s with acts := [] })) (armedResets as)

/-- Changes whose boundary has come: generations, session keys and a PARTIAL, before the boundary admits anything (R29, R374, R385,
R424). -/
def knotDue (s : Body) : Body :=
  partialEffect (s.parts.foldl (fun s e => previousKeyDestroy e.1 (keyRollover e.1 (generationEffect e.1 s))) s)

/-- The signed requests that the boundary decides, once a PARTIAL of the same boundary has removed its partitions (R449, R456). A
CHIP reset, in which the root starts again, loses them. -/
def signedNow (as : List Act) (s : State) : State :=
  if (armedResets as).any (fun r => r.1 == 3) then s else as.foldl secNow s

/-- Discipline, ports and their messages (R37, R57, R62 to R64, R519); `n0` messages had been sent before the boundary. -/
def knotLinks (n0 : Nat) (s : Body) : Body :=
  let s := groupStart (discBoundary s)
  let s := (List.range nLinks).foldl (fun s n => missBoundary (linkBoundary s n) n) s
  sendDelayAnswers (heartbeats n0 s)

/-- Invalidations and the sweeps of the directory (R118, R151, R391, R401). -/
def knotSweeps (s : Body) : Body :=
  settle (tearBoundary (scrubBoundary (sweepBoundary (sweepStart (invBoundary (rootsComplete s))))))

/-- Messages of the controller that waited for a place go out (R87, R359). -/
def knotPumps (s : Body) : Body := sledPump (peerPump (snoopPump s))

/-- The tiers, halyards, walks and seizings, then ADMISSION and the service of what is admitted, with the record lines of step 2, and
last the decisions that the messages admitted now allow (R27, R113, R125, R331, R349, R382). -/
def knotServe (flush : Bool) (s : Body) : Body :=
  settle (seizeProgress (txnDecisions (olpBoundary flush (seizeProgress (txnBoundary (walkBoundary
    (halyardBoundary (storeBoundary (accessDecay (knotPumps s))))))))))

/-- Hot records, and what the step cores do once the boundary's requests have been served (R147, R158); last, the ports take
what there is to send (R52). -/
def knotIssue (s : Body) : Body := portsSend (stpServe (hotDrain s))

/-- What a PC record shows of a context: its PID, and bits [63:32] of its entry (R480). -/
def pcWord (s : State) (c x : Nat) : Nat × Nat :=
  ((s.ctx c x).pid, ((stpView s 0x80018 c x).map (fun e => if 32 ≤ e.1 then e.2 * 2 ^ (e.1 - 32) else 0)).foldl (· + ·) 0)

/-- PC_RECORD of core `c`. -/
def pcRecord (c : Nat) (s : State) : State := s.upd (fun b => pcOne b c (pcWord s c))

/-- The records of the boundary in their order (R472): samples, SYNC and ROUND, PC. -/
def knotRecords (s : State) : State :=
  (List.range 16).foldl (fun s c => pcRecord c s) (s.upd (fun s => syncFlush ((List.range 16).foldl (fun s n => sampleTake n s) s)))

/-- KNOT_BOUNDARY. With the package off or held in POWER reset only the calendar runs, and without its backup cell not even
that (R47). -/
def knotBoundary (b : BoundaryIn) (s : State) : State :=
  if s.pwr.off then (if s.pwr.cellLost then s else s.upd calTick)
  else
    let n0 := s.out.length
    let s := s.upd (fun s => knotCommit b (knotClose b s))
    let as := s.acts
    let s := knotActs s
    if s.pwr.off then s
    else
      let s := signedNow as (s.upd knotDue)
      alertBoundary (knotRecords (s.upd (fun s => knotIssue (knotServe (as.contains .obsFlush) (knotSweeps (knotLinks n0 s))))))

end Sys2Proof.Machine
end

