-- ==== Sys2Proof/Machine/Operands.lean ====
section
/-!
DEFINITION. What a command's operands name, and when a command that comes from the package, a partner or the management
port can act at all: the power state, a port, a step core's context, a register of the management window.
-/

namespace Sys2Proof.Machine

/-- A command that acts on the body alone. -/
def low (f : Body → Body) (s : State) : State := s.upd f

/-- A command that may make sync records: they are written in their order (R472). -/
def synced (f : Body → Body) (s : State) : State := s.upd (fun s => syncFlush (f s))

/-- With the package off, or held in POWER reset, nothing acts (R434, R438). -/
def live (f : State → State) (s : State) : State := if s.pwr.off then s else f s

/-- Bring-up does not go on while the reset input is held (R435). -/
def bringUp (f : State → State) (s : State) : State := if s.pwr.off ∨ s.pwr.pin.isSome then s else f s

/-- A command on data port `n` (R14). -/
def onLink (n : Nat) (f : State → State) (s : State) : State := if s.pwr.off ∨ nLinks ≤ n then s else f s

/-- A command on context `x` of step core `c` (R157): a queue's contexts are 0 to 15; those above hold what runs outside
every queue (log entry 25). -/
def onCtx (c x : Nat) (f : State → State) (s : State) : State := if s.pwr.off ∨ 16 ≤ c ∨ 19 ≤ x then s else f s

/-- A command on one of `k` like things, numbered from 0. -/
def onOne (k n : Nat) (f : State → State) (s : State) : State := if s.pwr.off ∨ k ≤ n then s else f s

/-- The window offset of a field's register, instance `n`. -/
def Fld.at (f : Fld) (n : Nat) : Nat := f.off + f.stride * n

/-- A write of a register of the management window by its own command: ignored where the register is closed or gated. -/
def onReg (f : Fld) (n : Nat) (g : State → State) (s : State) : State := live (via (f.at n) g) s

/-- A write of a view of partition `pid`: ignored, too, where the image does not define the partition (R500). -/
def onPid (f : Fld) (pid : Nat) (g : State → State) (s : State) : State := live (viaPid (f.at 0) pid g) s

/-- The write of a queue's register: ignored, too, where the image does not define the queue (R500). -/
def onQue (f : Fld) (pid q : Nat) (g : State → State) (s : State) : State :=
  let known := match partDef s.toBody pid with
    | some d => decide (q < d.nq)
    | none => false
  live (via (f.at 0) (fun s => if known then g s else s)) s

end Sys2Proof.Machine
end

