-- ==== Sys2Proof/Machine/RowsConfig.lean ====
section
/-!
DEFINITION. The meanings of the commands of profiles and images, one for each constructor.
-/

namespace Sys2Proof.Machine

/-- PROFILE_WRITE_START (R418). -/
def execProfileWriteStart (n : Nat) (s : State) : Host.Outcome State Fault Refusal :=
  .next (onOne 4 n (low (profileWriteStart n)) s)

/-- PROFILE_WRITE_END (R418). -/
def execProfileWriteEnd (n : Nat) (bytes : List Byte) (s : State) : Host.Outcome State Fault Refusal :=
  .next (onOne 4 n (profileWriteEnd n bytes) s)

/-- SWITCH (R421). -/
def execSwitch (n : Nat) (s : State) : Host.Outcome State Fault Refusal :=
  .next (onReg R.MGT_PROFILE.OP 0 (switch (n % 4)) s)

/-- PARTIAL (R422). -/
def execPartialConfig (n : Nat) (s : State) : Host.Outcome State Fault Refusal :=
  .next (onReg R.MGT_PROFILE.OP 0 (low (partialStart (n % 4))) s)

/-- PARTIAL_CANCEL (R422). -/
def execPartialCancel (s : State) : Host.Outcome State Fault Refusal :=
  .next (onReg R.MGT_PROFILE.OP 0 (low partialCancel) s)

/-- PARTIAL_CHECKED (R422). -/
def execPartialChecked (s : State) : Host.Outcome State Fault Refusal := .next (live partialChecked s)

/-- PARTIAL_EFFECT (R424). -/
def execPartialEffect (s : State) : Host.Outcome State Fault Refusal :=
  .next (live (low (fun s => settle (partialEffect s))) s)

/-- IMAGE_LOAD_DONE (R419). -/
def execImageLoadDone (s : State) : Host.Outcome State Fault Refusal := .next (live imageLoadDone s)

/-- BOOT_WRITE (R419). -/
def execBootWrite (n : Nat) (s : State) : Host.Outcome State Fault Refusal :=
  .next (onReg R.CFG_STATUS.BOOT 0 (low (bootWrite (n % 4))) s)

/-- FLOOR_WRITE (R416). -/
def execFloorWrite (v : Nat) (s : State) : Host.Outcome State Fault Refusal :=
  .next (onReg R.CFG_FLOOR.VER 0 (low (floorWrite v)) s)

end Sys2Proof.Machine
end

