-- ==== Sys2Proof/Machine/RowsEngine.lean ====
section
/-!
DEFINITION. The meanings of the commands of the engines, one for each constructor.
-/

namespace Sys2Proof.Machine

/-- DECODE (R238). -/
def execDecode (c : Nat) (x : Nat) (s : State) : Host.Outcome State Fault Refusal :=
  .next (onCtx c x (low (decodeRow c x)) s)

/-- ENCODE (R238). -/
def execEncode (c : Nat) (x : Nat) (s : State) : Host.Outcome State Fault Refusal :=
  .next (onCtx c x (low (encodeRow c x)) s)

/-- CHECK (R238). -/
def execCheck (c : Nat) (x : Nat) (s : State) : Host.Outcome State Fault Refusal :=
  .next (onCtx c x (low (checkRow c x)) s)

/-- LOAD_TABLE (R230). -/
def execLoadTable (c : Nat) (x : Nat) (s : State) : Host.Outcome State Fault Refusal :=
  .next (onCtx c x (low (loadTable c x)) s)

/-- DROP_TABLE (R230). -/
def execDropTable (c : Nat) (x : Nat) (s : State) : Host.Outcome State Fault Refusal :=
  .next (onCtx c x (low (dropTable c x)) s)

/-- TABLE_SLOT_RETIRED (R230). -/
def execTableSlotRetired (pid : Nat) (slot : Nat) (s : State) : Host.Outcome State Fault Refusal :=
  .next (live (low (slotRetired pid slot)) s)

/-- SEQ_OPEN (R250). -/
def execSeqOpen (c : Nat) (x : Nat) (s : State) : Host.Outcome State Fault Refusal :=
  .next (onCtx c x (low (matrixRow 0x01 c x)) s)

/-- SEQ_CLOSE (R250). -/
def execSeqClose (c : Nat) (x : Nat) (s : State) : Host.Outcome State Fault Refusal :=
  .next (onCtx c x (low (seqCloseRow c x)) s)

/-- SEQ_ADVANCE (R250). -/
def execSeqAdvance (c : Nat) (x : Nat) (s : State) : Host.Outcome State Fault Refusal :=
  .next (onCtx c x (low (matrixRow 0x03 c x)) s)

/-- GEMV (R254). -/
def execGemv (c : Nat) (x : Nat) (s : State) : Host.Outcome State Fault Refusal :=
  .next (onCtx c x (low (matrixRow 0x10 c x)) s)

/-- KV_APPEND (R256). -/
def execKvAppend (c : Nat) (x : Nat) (s : State) : Host.Outcome State Fault Refusal :=
  .next (onCtx c x (low (matrixRow 0x11 c x)) s)

/-- ATTEND (R257). -/
def execAttend (c : Nat) (x : Nat) (s : State) : Host.Outcome State Fault Refusal :=
  .next (onCtx c x (low (matrixRow 0x12 c x)) s)

/-- SOFTMAX (R262). -/
def execSoftmax (c : Nat) (x : Nat) (s : State) : Host.Outcome State Fault Refusal :=
  .next (onCtx c x (low (matrixRow 0x20 c x)) s)

/-- ELEMWISE (R261). -/
def execElemwise (c : Nat) (x : Nat) (s : State) : Host.Outcome State Fault Refusal :=
  .next (onCtx c x (low (matrixRow 0x21 c x)) s)

/-- RMSNORM (R263). -/
def execRmsnorm (c : Nat) (x : Nat) (s : State) : Host.Outcome State Fault Refusal :=
  .next (onCtx c x (low (matrixRow 0x22 c x)) s)

/-- GATHER (R276). -/
def execGather (c : Nat) (x : Nat) (s : State) : Host.Outcome State Fault Refusal :=
  .next (onCtx c x (low (embedRow 1 c x)) s)

/-- SCATTER_ADD (R280). -/
def execScatterAdd (c : Nat) (x : Nat) (s : State) : Host.Outcome State Fault Refusal :=
  .next (onCtx c x (low (embedRow 2 c x)) s)

/-- SCATTER_WRITE (R282). -/
def execScatterWrite (c : Nat) (x : Nat) (s : State) : Host.Outcome State Fault Refusal :=
  .next (onCtx c x (low (embedRow 3 c x)) s)

/-- ROW_REPLACE (R285). -/
def execRowReplace (c : Nat) (x : Nat) (s : State) : Host.Outcome State Fault Refusal :=
  .next (onCtx c x (low (embedRow 4 c x)) s)

/-- SCAN (R301). -/
def execScan (c : Nat) (x : Nat) (s : State) : Host.Outcome State Fault Refusal :=
  .next (onCtx c x (low (searchRow 1 c x)) s)

/-- TRAVERSE (R305). -/
def execTraverse (c : Nat) (x : Nat) (s : State) : Host.Outcome State Fault Refusal :=
  .next (onCtx c x (low (searchRow 2 c x)) s)

/-- INSERT (R309). -/
def execInsert (c : Nat) (x : Nat) (s : State) : Host.Outcome State Fault Refusal :=
  .next (onCtx c x (low (searchRow 3 c x)) s)

/-- DELETE (R310). -/
def execDelete (c : Nat) (x : Nat) (s : State) : Host.Outcome State Fault Refusal :=
  .next (onCtx c x (low (searchRow 4 c x)) s)

/-- MERGE (R311). -/
def execMerge (c : Nat) (x : Nat) (s : State) : Host.Outcome State Fault Refusal :=
  .next (onCtx c x (low (mergeRow c x)) s)

/-- MERGE_RESUME (R312). -/
def execMergeResume (c : Nat) (s : State) : Host.Outcome State Fault Refusal :=
  .next (onOne 16 c (low (mergeResume c)) s)

/-- FILL (R317). -/
def execFill (c : Nat) (x : Nat) (s : State) : Host.Outcome State Fault Refusal :=
  .next (onCtx c x (low (poolRow 1 c x)) s)

/-- COPY (R318). -/
def execCopy (c : Nat) (x : Nat) (s : State) : Host.Outcome State Fault Refusal :=
  .next (onCtx c x (low (poolRow 2 c x)) s)

/-- COMPARE (R320). -/
def execCompare (c : Nat) (x : Nat) (s : State) : Host.Outcome State Fault Refusal :=
  .next (onCtx c x (low (poolRow 3 c x)) s)

/-- DIGEST (R320). -/
def execDigest (c : Nat) (x : Nat) (s : State) : Host.Outcome State Fault Refusal :=
  .next (onCtx c x (low (poolRow 4 c x)) s)

/-- REDUCE (R321). -/
def execReduce (c : Nat) (x : Nat) (s : State) : Host.Outcome State Fault Refusal :=
  .next (onCtx c x (low (poolRow 5 c x)) s)

/-- SEIZE (R339). -/
def execSeize (c : Nat) (x : Nat) (s : State) : Host.Outcome State Fault Refusal :=
  .next (onCtx c x (low (seizeRow c x)) s)

end Sys2Proof.Machine
end

