-- ==== Sys2Proof/Machine/RowsFault.lean ====
section
/-!
DEFINITION. The meanings of the commands of verdicts and teardown, one for each constructor.
-/

namespace Sys2Proof.Machine

/-- DEAD_CLIENT (R398). -/
def execDeadClient (cid : Nat) (s : State) : Host.Outcome State Fault Refusal :=
  .next (onReg R.FLT_CMD.OP 0 (low (fltCmd 1 0 0 (cid % 8192))) s)

/-- DEAD_HELAK (R399). -/
def execDeadHelak (hid : Nat) (cid : Nat) (s : State) : Host.Outcome State Fault Refusal :=
  .next (onReg R.FLT_CMD.OP 0 (low (fltCmd 2 0 (hid % 512) (cid % 8192))) s)

/-- ADMIT_SHADOW (R406). -/
def execAdmitShadow (hid : Nat) (s : State) : Host.Outcome State Fault Refusal :=
  .next (onReg R.FLT_CMD.OP 0 (low (fltCmd 3 0 (hid % 512) 0)) s)

/-- RELEASE_CLIENT (R404). -/
def execReleaseClient (cid : Nat) (s : State) : Host.Outcome State Fault Refusal :=
  .next (onReg R.FLT_CMD.OP 0 (low (fltCmd 4 0 0 (cid % 8192))) s)

/-- RELEASE_HELAK (R406). -/
def execReleaseHelak (hid : Nat) (s : State) : Host.Outcome State Fault Refusal :=
  .next (onReg R.FLT_CMD.OP 0 (low (fltCmd 5 0 (hid % 512) 0)) s)

/-- TEAR (R401). -/
def execTear (pid : Nat) (s : State) : Host.Outcome State Fault Refusal :=
  .next (onReg R.FLT_CMD.OP 0 (low (fltCmd 6 (pid % 1024) 0 0)) s)

/-- TEAR_DRAIN_END (R401). -/
def execTearDrainEnd (pid : Nat) (s : State) : Host.Outcome State Fault Refusal :=
  .next (live (low (tearDrainEnd pid)) s)

/-- TEAR_SWEEP_END (R401). -/
def execTearSweepEnd (pid : Nat) (s : State) : Host.Outcome State Fault Refusal :=
  .next (live (low (tearSweepEnd pid)) s)

/-- MEND (R402). -/
def execMend (pid : Nat) (s : State) : Host.Outcome State Fault Refusal :=
  .next (onReg R.FLT_CMD.OP 0 (low (fltCmd 7 (pid % 1024) 0 0)) s)

/-- ISOLATED_WRITE (R405). -/
def execIsolatedWrite (v : Bool) (s : State) : Host.Outcome State Fault Refusal :=
  .next (onReg R.FLT_SELF.ISOLATED 0 (low (isolatedWrite v)) s)

end Sys2Proof.Machine
end

