-- ==== Sys2Proof/Machine/RowsKnot.lean ====
section
/-!
DEFINITION. The meanings of the commands of the discipline of the log line, one for each constructor.
-/

namespace Sys2Proof.Machine

/-- KNOT_BOUNDARY (R22). -/
def execKnotBoundary (b : BoundaryIn) (s : State) : Host.Outcome State Fault Refusal := .next (knotBoundary b s)

/-- KNOT_SYNC_SEND (R34). -/
def execKnotSyncSend (sendPs : Nat) (s : State) : Host.Outcome State Fault Refusal :=
  .next (live (low (fun s => sendSync s sendPs)) s)

/-- DELAY_REQUEST_SEND (R35). -/
def execDelayRequestSend (sendPs : Nat) (s : State) : Host.Outcome State Fault Refusal :=
  .next (live (low (fun s => sendDelayRequest s sendPs)) s)

/-- SYNC (R35). -/
def execSync (m : TimedMsg) (s : State) : Host.Outcome State Fault Refusal :=
  .next (onLink m.msg.link (low (knotSync m.msg m.atPs)) s)

/-- DELAY_REQUEST (R519). -/
def execDelayRequest (m : TimedMsg) (s : State) : Host.Outcome State Fault Refusal :=
  .next (onLink m.msg.link (low (knotSync m.msg m.atPs)) s)

/-- DELAY_ANSWER (R519). -/
def execDelayAnswer (m : TimedMsg) (s : State) : Host.Outcome State Fault Refusal :=
  .next (onLink m.msg.link (low (knotSync m.msg m.atPs)) s)

/-- SYNC_LOSS_TIMEOUT (R36). -/
def execSyncLossTimeout (s : State) : Host.Outcome State Fault Refusal := .next (live (low syncLoss) s)

/-- HOLDOVER_EXHAUSTED (R36). -/
def execHoldoverExhausted (s : State) : Host.Outcome State Fault Refusal := .next (live (low holdoverEnd) s)

/-- DISCIPLINE_ENABLE (R36). -/
def execDisciplineEnable (s : State) : Host.Outcome State Fault Refusal :=
  .next (onReg R.KNT_DISC.ENABLE 0 (low (fun s => s.set R.KNT_DISC.ENABLE 1)) s)

/-- DISCIPLINE_DISABLE (R37). -/
def execDisciplineDisable (s : State) : Host.Outcome State Fault Refusal :=
  .next (onReg R.KNT_DISC.ENABLE 0 (low (fun s => s.set R.KNT_DISC.ENABLE 0)) s)

/-- ROLE_MASTER (R36). -/
def execRoleMaster (s : State) : Host.Outcome State Fault Refusal :=
  .next (onReg R.KNT_DISC.ROLE 0 (low (fun s => s.set R.KNT_DISC.ROLE 1)) s)

/-- ROLE_FOLLOWER (R36). -/
def execRoleFollower (s : State) : Host.Outcome State Fault Refusal :=
  .next (onReg R.KNT_DISC.ROLE 0 (low (fun s => s.set R.KNT_DISC.ROLE 0)) s)

/-- CAL_TIME_WRITE (R47). -/
def execCalTimeWrite (sec : Nat) (frac : Nat) (s : State) : Host.Outcome State Fault Refusal :=
  .next (onReg R.CAL_TIME.SEC 0 (low (fun s => calWrite s sec frac)) s)

/-- CALENDAR_CELL_LOSS (R467). -/
def execCalendarCellLoss (s : State) : Host.Outcome State Fault Refusal := .next (low cellLoss s)

end Sys2Proof.Machine
end

