-- ==== Sys2Proof/Machine/RowsLink.lean ====
section
/-!
DEFINITION. The meanings of the commands of the optical ports, one for each constructor.
-/

namespace Sys2Proof.Machine

/-- CODEWORD_RECEIVE (R52). -/
def execCodewordReceive (n : Nat) (c : Codeword) (s : State) : Host.Outcome State Fault Refusal :=
  .next (onLink n (low (fun s => codeword s n c)) s)

/-- LASER_SPARE_SWAP (R53). -/
def execLaserSpareSwap (n : Nat) (lane : Nat) (s : State) : Host.Outcome State Fault Refusal :=
  .next (onLink n (low (fun s => laserSwap s n lane)) s)

/-- LANE_SYMBOL_LIMIT (R54). -/
def execLaneSymbolLimit (n : Nat) (lane : Nat) (s : State) : Host.Outcome State Fault Refusal :=
  .next (onLink n (low (fun s => laneLimit s n lane)) s)

/-- LOSS_OF_LIGHT (R54). -/
def execLossOfLight (n : Nat) (mask : Nat) (s : State) : Host.Outcome State Fault Refusal :=
  .next (onLink n (low (fun s => lossOfLight s n mask)) s)

/-- LANE_CHG_RECEIVED (R54). -/
def execLaneChgReceived (n : Nat) (mask : Nat) (atPs : Nat) (s : State) : Host.Outcome State Fault Refusal :=
  .next (onLink n (low (fun s => laneChg s n mask atPs)) s)

/-- LANE_CHANGE_EFFECT (R54). -/
def execLaneChangeEffect (n : Nat) (s : State) : Host.Outcome State Fault Refusal :=
  .next (onLink n (low (fun s => laneEffect s n)) s)

/-- ERROR_WINDOW_END (R54). -/
def execErrorWindowEnd (n : Nat) (s : State) : Host.Outcome State Fault Refusal :=
  .next (onLink n (low (fun s => windowEnd s n)) s)

/-- UNCORR_LIMIT (R57). -/
def execUncorrLimit (n : Nat) (s : State) : Host.Outcome State Fault Refusal :=
  .next (onLink n (low (fun s => uncorrLimit s n)) s)

/-- LANE_DISABLE (R54). -/
def execLaneDisable (n : Nat) (mask : Nat) (s : State) : Host.Outcome State Fault Refusal :=
  .next (onLink n (onReg R.LNK_CTRL.LANE_DISABLE n (low (laneDisable n mask))) s)

/-- LINK_ENABLE (R57). -/
def execLinkEnable (n : Nat) (s : State) : Host.Outcome State Fault Refusal :=
  .next (onLink n (onReg R.LNK_CTRL.ENABLE n (low (linkEnable n true))) s)

/-- LINK_DISABLE (R57). -/
def execLinkDisable (n : Nat) (s : State) : Host.Outcome State Fault Refusal :=
  .next (onLink n (onReg R.LNK_CTRL.ENABLE n (low (linkEnable n false))) s)

/-- RETRAIN (R58). -/
def execRetrain (n : Nat) (s : State) : Host.Outcome State Fault Refusal :=
  .next (onLink n (onReg R.LNK_CTRL.RETRAIN n (low (linkRetrain n))) s)

/-- LIGHT_FOUND (R57). -/
def execLightFound (n : Nat) (mask : Nat) (s : State) : Host.Outcome State Fault Refusal :=
  .next (onLink n (low (fun s => lightFound s n mask)) s)

/-- EQUALISE_DONE (R57). -/
def execEqualiseDone (n : Nat) (s : State) : Host.Outcome State Fault Refusal :=
  .next (onLink n (low (fun s => equaliseDone s n)) s)

/-- ALIGN_DONE (R57). -/
def execAlignDone (n : Nat) (s : State) : Host.Outcome State Fault Refusal :=
  .next (onLink n (low (fun s => alignDone s n)) s)

/-- MEASURE_DONE (R60). -/
def execMeasureDone (n : Nat) (dPs : Nat) (s : State) : Host.Outcome State Fault Refusal :=
  .next (onLink n (low (fun s => measureDone s n dPs)) s)

/-- IDENTIFY_EXCHANGE (R59). -/
def execIdentifyExchange (n : Nat) (kind : Nat) (id : Nat) (port : Nat) (s : State) : Host.Outcome State Fault Refusal :=
  .next (onLink n (low (fun s => identify s n kind id port)) s)

/-- TRAIN_TIMEOUT (R57). -/
def execTrainTimeout (n : Nat) (s : State) : Host.Outcome State Fault Refusal :=
  .next (onLink n (low (fun s => trainTimeout s n)) s)

/-- LANES_TIMEOUT (R57). -/
def execLanesTimeout (n : Nat) (s : State) : Host.Outcome State Fault Refusal :=
  .next (onLink n (low (fun s => lanesTimeout s n)) s)

/-- FAULT_RECOVERY_TIMEOUT (R58). -/
def execFaultRecoveryTimeout (n : Nat) (s : State) : Host.Outcome State Fault Refusal :=
  .next (onLink n (low (fun s => faultRecovery s n)) s)

/-- PHOTONIC_DIE_READY (R62). -/
def execPhotonicDieReady (d : Nat) (s : State) : Host.Outcome State Fault Refusal :=
  .next (onOne 4 d (bringUp (low (fun s => dieReady s d))) s)

/-- PORT_GROUP_READY (R62). -/
def execPortGroupReady (store : Bool) (d : Nat) (s : State) : Host.Outcome State Fault Refusal :=
  .next (onOne 4 d (bringUp (low (fun s => groupReady s store d))) s)

/-- HEARTBEAT (R64), which came in on port `n` with the CHECK `check`. -/
def execHeartbeat (n : Nat) (check : BitVec 64) (m : ReqMsg) (s : State) : Host.Outcome State Fault Refusal :=
  .next (onLink n (low (heartbeat { m with link := n, check := check })) s)

/-- HEARTBEAT_SUSPECT (R64). -/
def execHeartbeatSuspect (n : Nat) (s : State) : Host.Outcome State Fault Refusal :=
  .next (onLink n (low (fun s => heartbeatSuspect s n)) s)

/-- MGMT_PORT_UP (R65). -/
def execMgmtPortUp (s : State) : Host.Outcome State Fault Refusal := .next (live (low mgmtUp) s)

end Sys2Proof.Machine
end

