-- ==== Sys2Proof/Machine/RowsManage.lean ====
section
/-!
DEFINITION. The meanings of the commands of the management endpoint and its register window, one for each constructor.
-/

namespace Sys2Proof.Machine

/-- A message of a type that the endpoint does not support is discarded without a response (R491). -/
def mctpDiscard (_src _ty : Nat) (s : State) : State := s

/-- SET_ENDPOINT_ID (R492). -/
def execSetEndpointId (src : Nat) (eid : Nat) (s : State) : Host.Outcome State Fault Refusal :=
  .next (live (setEid src eid) s)

/-- GET_ENDPOINT_ID (R491). -/
def execGetEndpointId (src : Nat) (s : State) : Host.Outcome State Fault Refusal := .next (live (getEid src) s)

/-- GET_MCTP_VERSION_SUPPORT (R491). -/
def execGetMctpVersionSupport (src : Nat) (ty : Nat) (s : State) : Host.Outcome State Fault Refusal :=
  .next (live (getMctpVersion src ty) s)

/-- GET_MESSAGE_TYPE_SUPPORT (R491). -/
def execGetMessageTypeSupport (src : Nat) (s : State) : Host.Outcome State Fault Refusal :=
  .next (live (getMessageTypes src) s)

/-- MCTP_UNSUPPORTED_TYPE (R491). -/
def execMctpUnsupportedType (src : Nat) (ty : Nat) (s : State) : Host.Outcome State Fault Refusal :=
  .next (mctpDiscard src ty s)

/-- PLDM_BASE_DISCOVERY (R491). -/
def execPldmBaseDiscovery (src : Nat) (cmd : Nat) (arg : Nat) (s : State) : Host.Outcome State Fault Refusal :=
  .next (live (pldmBase src cmd arg) s)

/-- PLDM_SENSOR_READ (R498). -/
def execPldmSensorRead (src : Nat) (id : Nat) (s : State) : Host.Outcome State Fault Refusal :=
  .next (live (sensorRead src id) s)

/-- PLATFORM_EVENT_SEND (R498). -/
def execPlatformEventSend (s : State) : Host.Outcome State Fault Refusal := .next (live platformEvent s)

/-- REG_READ (R493). -/
def execRegRead (eid : Nat) (inst : Nat) (cmd : Nat) (b : List Byte) (s : State) : Host.Outcome State Fault Refusal :=
  .next (live (regAccess eid inst cmd b) s)

/-- REG_WRITE (R494). -/
def execRegWrite (eid : Nat) (inst : Nat) (b : List Byte) (s : State) : Host.Outcome State Fault Refusal :=
  .next (live (regAccess eid inst 2 b) s)

/-- REGISTER_WRITE (R5). -/
def execRegisterWrite (off : Nat) (data : Nat) (mask : Nat) (s : State) : Host.Outcome State Fault Refusal :=
  .next (live (fun s => (writeReg off { data := data, mask := mask } s).2) s)

/-- MGMT_PORT_DOWN (R65). -/
def execMgmtPortDown (s : State) : Host.Outcome State Fault Refusal := .next (live (low mgmtDown) s)

end Sys2Proof.Machine
end

