-- ==== Sys2Proof/Machine/RowsObserve.lean ====
section
/-!
DEFINITION. The meanings of the commands of observation, one for each constructor.
-/

namespace Sys2Proof.Machine

/-- SAMPLE_TAKE (R474). -/
def execSampleTake (n : Nat) (s : State) : Host.Outcome State Fault Refusal :=
  .next (onOne 16 n (low (sampleTake n)) s)

/-- PC_RECORD (R480). -/
def execPcRecord (c : Nat) (s : State) : Host.Outcome State Fault Refusal := .next (onOne 16 c (pcRecord c) s)

/-- PARTIAL_LINE_FLUSH (R486). -/
def execPartialLineFlush (dest : Nat) (s : State) : Host.Outcome State Fault Refusal :=
  .next (live (low (partialFlush dest)) s)

/-- MARK (R471). -/
def execMark (v : Nat) (s : State) : Host.Outcome State Fault Refusal :=
  .next (onReg R.OBS_MARK.VALUE 0 (low (fun s => s.arm (.obsMark (v % 2 ^ 64)))) s)

/-- OBS_FLUSH (R486). -/
def execObsFlush (s : State) : Host.Outcome State Fault Refusal :=
  .next (onReg R.OBS_FLUSH.FLUSH 0 (low (fun s => s.arm .obsFlush)) s)

/-- TRACE_ENABLE (R483). -/
def execTraceEnable (s : State) : Host.Outcome State Fault Refusal :=
  .next (onReg R.OBS_TRACE_CTL.EN 0 (low (fun s => traceEnable s true)) s)

/-- SAMPLE_ENABLE (R474). -/
def execSampleEnable (n : Nat) (s : State) : Host.Outcome State Fault Refusal :=
  .next (onOne 16 n (onReg R.OBS_SMP_CTL.EN n (low (sampleEnable n true))) s)

/-- WATCHPOINT_ENABLE (R481). -/
def execWatchpointEnable (w : Nat) (s : State) : Host.Outcome State Fault Refusal :=
  .next (onOne 16 w (onReg R.OBS_WP_CTL.EN w (low (fun s => watchEnable s w true))) s)

/-- RING_ENABLE (R484). -/
def execRingEnable (pid : Nat) (sync : Bool) (pc : Bool) (ring : Nat) (sizeLog : Nat) (s : State) : Host.Outcome State Fault Refusal :=
  .next (onPid R.OBS_RING.EN pid (low (fun s => ringWrite s pid true sync pc ring sizeLog)) s)

end Sys2Proof.Machine
end

