-- ==== Sys2Proof/Machine/RowsOlp.lean ====
section
/-!
DEFINITION. The meanings of the commands of requests, answers and their timers, one for each constructor.
-/

namespace Sys2Proof.Machine

/-- A round whose last answer has come in is over: its data and its entry are settled, and those that waited for it go on
(R522). -/
def roundComplete (rid : Nat) (s : Body) : Body :=
  if s.dir.rounds.any (fun r => r.id == rid && r.waiting.isEmpty) then settle s else s

/-- LOAD (R75). -/
def execLoad (m : ReqMsg) (s : State) : Host.Outcome State Fault Refusal := .next (live (low (receive opLOAD m)) s)

/-- LOAD_SHARED (R143). -/
def execLoadShared (m : ReqMsg) (s : State) : Host.Outcome State Fault Refusal :=
  .next (live (low (receive opLOADSHARED m)) s)

/-- LOAD_OWN (R143). -/
def execLoadOwn (m : ReqMsg) (s : State) : Host.Outcome State Fault Refusal :=
  .next (live (low (receive opLOADOWN m)) s)

/-- LOAD_NA (R143). -/
def execLoadNa (m : ReqMsg) (s : State) : Host.Outcome State Fault Refusal :=
  .next (live (low (receive opLOADNA m)) s)

/-- STORE (R143). -/
def execStore (m : ReqMsg) (s : State) : Host.Outcome State Fault Refusal := .next (live (low (receive opSTORE m)) s)

/-- STORE_MASKED (R75). -/
def execStoreMasked (m : ReqMsg) (s : State) : Host.Outcome State Fault Refusal :=
  .next (live (low (receive opSTOREMASKED m)) s)

/-- WRITEBACK (R144). -/
def execWriteback (m : ReqMsg) (s : State) : Host.Outcome State Fault Refusal :=
  .next (live (low (fun s => settle (receive opWRITEBACK m s))) s)

/-- EVICT_CLEAN (R144). -/
def execEvictClean (m : ReqMsg) (s : State) : Host.Outcome State Fault Refusal :=
  .next (live (low (fun s => settle (receive opEVICTCLEAN m s))) s)

/-- CODED_STORE (R233). -/
def execCodedStore (m : ReqMsg) (s : State) : Host.Outcome State Fault Refusal :=
  .next (live (low (receive opCODEDSTORE m)) s)

/-- CODED_LOAD (R235). -/
def execCodedLoad (m : ReqMsg) (s : State) : Host.Outcome State Fault Refusal :=
  .next (live (low (receive opCODEDLOAD m)) s)

/-- ATOMIC_ADD_EXACT (R77). -/
def execAtomicAddExact (m : ReqMsg) (s : State) : Host.Outcome State Fault Refusal :=
  .next (live (low (receive opADDEXACT m)) s)

/-- ATOMIC_FADD_EXACT_VEC (R77). -/
def execAtomicFaddExactVec (m : ReqMsg) (s : State) : Host.Outcome State Fault Refusal :=
  .next (live (low (receive opFADDVEC m)) s)

/-- ATOMIC_CAS (R75). -/
def execAtomicCas (m : ReqMsg) (s : State) : Host.Outcome State Fault Refusal :=
  .next (live (low (receive opCAS m)) s)

/-- ATOMIC_SWAP (R75). -/
def execAtomicSwap (m : ReqMsg) (s : State) : Host.Outcome State Fault Refusal :=
  .next (live (low (receive opSWAP m)) s)

/-- ATOMIC_MIN (R217). -/
def execAtomicMin (m : ReqMsg) (s : State) : Host.Outcome State Fault Refusal :=
  .next (live (low (receive opMIN m)) s)

/-- ATOMIC_MAX (R217). -/
def execAtomicMax (m : ReqMsg) (s : State) : Host.Outcome State Fault Refusal :=
  .next (live (low (receive opMAX m)) s)

/-- ATOMIC_AND (R76). -/
def execAtomicAnd (m : ReqMsg) (s : State) : Host.Outcome State Fault Refusal :=
  .next (live (low (receive opAND m)) s)

/-- ATOMIC_OR (R76). -/
def execAtomicOr (m : ReqMsg) (s : State) : Host.Outcome State Fault Refusal := .next (live (low (receive opOR m)) s)

/-- ATOMIC_XOR (R76). -/
def execAtomicXor (m : ReqMsg) (s : State) : Host.Outcome State Fault Refusal :=
  .next (live (low (receive opXOR m)) s)

/-- SNOOP_RESP (R131). -/
def execSnoopResp (m : RespMsg) (s : State) : Host.Outcome State Fault Refusal :=
  .next (live (low (fun s => snoopResp s m)) s)

/-- SNOOP_ROUND_COMPLETE (R522). -/
def execSnoopRoundComplete (rid : Nat) (s : State) : Host.Outcome State Fault Refusal :=
  .next (live (low (roundComplete rid)) s)

/-- SNOOP_RESEND (R142). -/
def execSnoopResend (rid : Nat) (cid : Nat) (s : State) : Host.Outcome State Fault Refusal :=
  .next (live (low (fun s => snoopResend s rid cid)) s)

/-- PUBLISH (R342). -/
def execPublish (m : ReqMsg) (s : State) : Host.Outcome State Fault Refusal :=
  .next (live (low (receive opPUBLISH m)) s)

/-- DOORBELL (R184). -/
def execDoorbell (m : ReqMsg) (s : State) : Host.Outcome State Fault Refusal :=
  .next (live (low (receive opDOORBELL m)) s)

/-- SPLICED (R96). -/
def execSpliced (x : SpliceMsg) (s : State) : Host.Outcome State Fault Refusal :=
  .next (live (low (receiveSplice x)) s)

/-- BURST_SEGMENT (R90). -/
def execBurstSegment (g : SegMsg) (s : State) : Host.Outcome State Fault Refusal :=
  .next (live (low (fun s => burstSeg s g)) s)

/-- BURST_TIMEOUT (R93). -/
def execBurstTimeout (s : State) : Host.Outcome State Fault Refusal := .next (live (low burstTimeout) s)

/-- ADMISSION_TIMEOUT (R88). -/
def execAdmissionTimeout (s : State) : Host.Outcome State Fault Refusal := .next (live (low admissionTimeout) s)

/-- SERVICE_TIMEOUT (R88). -/
def execServiceTimeout (s : State) : Host.Outcome State Fault Refusal :=
  .next (live (low (fun s => settle (serviceTimeout s))) s)

/-- PEER_RESPONSE (R162). -/
def execPeerResponse (m : RespMsg) (s : State) : Host.Outcome State Fault Refusal :=
  .next (live (low (fun s => settle (seizeProgress (peerResponse m s)))) s)

/-- PEER_REQUEST_LOST (R395). -/
def execPeerRequestLost (link : Nat) (tag : Nat) (s : State) : Host.Outcome State Fault Refusal :=
  .next (live (low (fun s => settle (seizeProgress (peerLost link tag s)))) s)

/-- SLED_RESPONSE (R359), which came in on port `n`. -/
def execSledResponse (n : Nat) (m : RespMsg) (s : State) : Host.Outcome State Fault Refusal :=
  .next (live (low (fun s => settle (sledAnswer s { m with link := n }))) s)

end Sys2Proof.Machine
end

