-- ==== Sys2Proof/Machine/RowsPart.lean ====
section
/-!
DEFINITION. The meanings of the commands of partitions and composition, one for each constructor.
-/

namespace Sys2Proof.Machine

/-- A write of the staged composition: PRT_EXT_BASE, PRT_EXT_LEN or PRT_STG_LIST (R384). -/
def stagedWrite (w : StagedWrite) (s : State) : State :=
  match w with
  | .base pid x v base => onPid R.PRT_EXT_BASE.BASE pid (low (stageBase pid (x % 256) v base)) s
  | .len pid x rights len region => onPid R.PRT_EXT_LEN.LEN pid (low (stageLen pid (x % 256) (rights % 16) len (region % 256))) s
  | .list pid region entry hid => onPid R.PRT_STG_LIST.HID pid (low (stageList pid (region % 256) entry (hid % 512))) s

/-- ROLL (R374). -/
def execRoll (pid : Nat) (s : State) : Host.Outcome State Fault Refusal :=
  .next (onPid R.PRT_KEY_CMD.OP pid (low (roll pid)) s)

/-- KEY_ROLLOVER (R374). -/
def execKeyRollover (pid : Nat) (s : State) : Host.Outcome State Fault Refusal :=
  .next (live (low (keyRollover pid)) s)

/-- PREVIOUS_KEY_DESTROY (R374). -/
def execPreviousKeyDestroy (pid : Nat) (s : State) : Host.Outcome State Fault Refusal :=
  .next (live (low (previousKeyDestroy pid)) s)

/-- HITCH (R377). -/
def execHitch (cid : Nat) (pid : Nat) (stages : Nat) (sga : Bool) (s : State) : Host.Outcome State Fault Refusal :=
  .next (onReg R.PRT_HITCH_CMD.OP 0 (low (hitchCmd 1 (cid % 8192) (pid % 1024) (stages % 16) sga)) s)

/-- MODIFY (R377). -/
def execModify (cid : Nat) (pid : Nat) (stages : Nat) (sga : Bool) (s : State) : Host.Outcome State Fault Refusal :=
  .next (onReg R.PRT_HITCH_CMD.OP 0 (low (hitchCmd 3 (cid % 8192) (pid % 1024) (stages % 16) sga)) s)

/-- UNHITCH (R377). -/
def execUnhitch (cid : Nat) (pid : Nat) (s : State) : Host.Outcome State Fault Refusal :=
  .next (onReg R.PRT_HITCH_CMD.OP 0 (low (hitchCmd 2 (cid % 8192) (pid % 1024) 0 false)) s)

/-- GRANT (R380). -/
def execGrant (cid : Nat) (pid : Nat) (ext : Nat) (rights : Nat) (s : State) : Host.Outcome State Fault Refusal :=
  .next (onReg R.PRT_GRANT_CMD.OP 0 (low (grantCmd 1 (cid % 8192) (pid % 1024) (ext % 256) (rights % 8) false)) s)

/-- REVOKE_GRANT (R388). -/
def execRevokeGrant (cid : Nat) (pid : Nat) (ext : Nat) (s : State) : Host.Outcome State Fault Refusal :=
  .next (onReg R.PRT_GRANT_CMD.OP 0 (low (grantCmd 2 (cid % 8192) (pid % 1024) (ext % 256) 0 false)) s)

/-- REVOKE_EXTENT (R388). -/
def execRevokeExtent (pid : Nat) (ext : Nat) (zero : Bool) (s : State) : Host.Outcome State Fault Refusal :=
  .next (onReg R.PRT_GRANT_CMD.OP 0 (low (grantCmd 3 0 (pid % 1024) (ext % 256) 0 zero)) s)

/-- REOPEN (R391). -/
def execReopen (pid : Nat) (ext : Nat) (s : State) : Host.Outcome State Fault Refusal :=
  .next (onReg R.PRT_GRANT_CMD.OP 0 (low (grantCmd 4 0 (pid % 1024) (ext % 256) 0 false)) s)

/-- REVOCATION_DRAIN_END (R390). -/
def execRevocationDrainEnd (s : State) : Host.Outcome State Fault Refusal := .next (live (low revocationDrainEnd) s)

/-- SCRUB_END (R391). -/
def execScrubEnd (s : State) : Host.Outcome State Fault Refusal := .next (live (low scrubEnd) s)

/-- HALYARD_ENABLE (R382). -/
def execHalyardEnable (pid : Nat) (hal : Nat) (lead : Nat) (len : Nat) (s : State) : Host.Outcome State Fault Refusal :=
  .next (onPid R.PRT_HAL_CTRL.EN pid (onOne 4 hal (low (halyardEnable pid hal lead len))) s)

/-- STAGED_WRITE (R384). -/
def execStagedWrite (w : StagedWrite) (s : State) : Host.Outcome State Fault Refusal := .next (stagedWrite w s)

/-- COMMIT (R385). -/
def execCommit (pid : Nat) (newgen : Nat) (s : State) : Host.Outcome State Fault Refusal :=
  .next (onPid R.PRT_GEN_CMD.OP pid (low (commit pid newgen)) s)

/-- COMMIT_CANCEL (R385). -/
def execCommitCancel (pid : Nat) (s : State) : Host.Outcome State Fault Refusal :=
  .next (onPid R.PRT_GEN_CMD.OP pid (low (commitCancel pid)) s)

/-- GENERATION_EFFECT (R385). -/
def execGenerationEffect (pid : Nat) (s : State) : Host.Outcome State Fault Refusal :=
  .next (live (low (fun s => settle (generationEffect pid s))) s)

end Sys2Proof.Machine
end

