-- ==== Sys2Proof/Machine/RowsPower.lean ====
section
/-!
DEFINITION. The meanings of the commands of power, reset and bring-up, one for each constructor.
-/

namespace Sys2Proof.Machine

/-- THROTTLE_ENTER (R431). -/
def execThrottleEnter (s : State) : Host.Outcome State Fault Refusal := .next (live (low throttleEnter) s)

/-- THROTTLE_STEP (R432). -/
def execThrottleStep (s : State) : Host.Outcome State Fault Refusal := .next (live (low throttleStep) s)

/-- THROTTLE_RELAX (R432). -/
def execThrottleRelax (s : State) : Host.Outcome State Fault Refusal := .next (live (low throttleRelax) s)

/-- QUIESCE_ENTER (R433). -/
def execQuiesceEnter (s : State) : Host.Outcome State Fault Refusal := .next (live (low quiesceEnter) s)

/-- PGOOD_DEASSERT (R431). -/
def execPgoodDeassert (s : State) : Host.Outcome State Fault Refusal := .next (live (low pgoodLost) s)

/-- QUIESCE_DRAINED (R433). -/
def execQuiesceDrained (s : State) : Host.Outcome State Fault Refusal := .next (live (low quiesceDrained) s)

/-- QUIESCE_END (R433). -/
def execQuiesceEnd (s : State) : Host.Outcome State Fault Refusal := .next (live (low quiesceEnd) s)

/-- QUIESCE_RESTART (R433). -/
def execQuiesceRestart (s : State) : Host.Outcome State Fault Refusal := .next (live (low quiesceRestart) s)

/-- SURGE (R431). -/
def execSurge (s : State) : Host.Outcome State Fault Refusal := .next (live (low surge) s)

/-- UNDERVOLT (R431). -/
def execUndervolt (s : State) : Host.Outcome State Fault Refusal := .next (live (low (fun s => s.arm (.reset 4 2))) s)

/-- OVERVOLT (R431). -/
def execOvervolt (s : State) : Host.Outcome State Fault Refusal := .next (live (low (fun s => s.arm (.reset 4 3))) s)

/-- POWER_ON (R434). -/
def execPowerOn (psel : Nat) (fresh : Bool) (s : State) : Host.Outcome State Fault Refusal :=
  .next (powerOn (psel % 4) fresh s)

/-- RESET_PIN_ASSERT (R435). -/
def execResetPinAssert (s : State) : Host.Outcome State Fault Refusal := .next (low pinAssert s)

/-- RESET_PIN_RELEASE (R435). -/
def execResetPinRelease (s : State) : Host.Outcome State Fault Refusal := .next (low pinRelease s)

/-- RESET_PIN_HOLD_TIMEOUT (R435). -/
def execResetPinHoldTimeout (s : State) : Host.Outcome State Fault Refusal := .next (low pinHold s)

/-- THERMAL_TRIP (R511). -/
def execThermalTrip (s : State) : Host.Outcome State Fault Refusal :=
  .next (live (low (fun s => s.arm (.reset 4 8))) s)

/-- ENGINE_RESET (R438). -/
def execEngineReset (c : Nat) (s : State) : Host.Outcome State Fault Refusal :=
  .next (onReg R.RST_CMD.OP 0 (low (engineCmd c)) s)

/-- PARTITION_RESET (R440). -/
def execPartitionReset (pid : Nat) (s : State) : Host.Outcome State Fault Refusal :=
  .next (onReg R.RST_CMD.OP 0 (low (partitionCmd pid)) s)

/-- CHIP_RESET (R438). -/
def execChipReset (internal : Bool) (s : State) : Host.Outcome State Fault Refusal :=
  .next (if internal then live (low (chipCmd true)) s else onReg R.RST_CMD.OP 0 (low (chipCmd false)) s)

/-- POWER_RESET (R438). -/
def execPowerReset (s : State) : Host.Outcome State Fault Refusal := .next (onReg R.RST_CMD.OP 0 (low powerCmd) s)

/-- READINESS_SET (R441). -/
def execReadinessSet (bit : Nat) (s : State) : Host.Outcome State Fault Refusal := .next (readinessSet bit s)

/-- PWR_EXT_CLEAR (R429). -/
def execPwrExtClear (s : State) : Host.Outcome State Fault Refusal :=
  .next (onReg R.PWR_EXT.CLR 0 (low pwrExtClear) s)

end Sys2Proof.Machine
end

