-- ==== Sys2Proof/Machine/RowsSecurity.lean ====
section
/-!
DEFINITION. The meanings of the commands of the security root, one for each constructor.
-/

namespace Sys2Proof.Machine

/-- GET_VERSION (R452). -/
def execGetVersion (eid : Nat) (s : State) : Host.Outcome State Fault Refusal := .next (live (getVersion eid) s)

/-- GET_CAPABILITIES (R452). -/
def execGetCapabilities (eid : Nat) (s : State) : Host.Outcome State Fault Refusal :=
  .next (live (getCapabilities eid) s)

/-- NEGOTIATE_ALGORITHMS (R452). -/
def execNegotiateAlgorithms (eid : Nat) (spec : Nat) (asym : Nat) (hash : Nat) (s : State) : Host.Outcome State Fault Refusal :=
  .next (live (negotiateAlgorithms eid spec asym hash) s)

/-- GET_DIGESTS (R452). -/
def execGetDigests (eid : Nat) (s : State) : Host.Outcome State Fault Refusal := .next (live (getDigests eid) s)

/-- GET_CERTIFICATE (R452). -/
def execGetCertificate (eid : Nat) (slot : Nat) (off : Nat) (len : Nat) (s : State) : Host.Outcome State Fault Refusal :=
  .next (live (getCertificate eid slot off len) s)

/-- CHALLENGE (R454). -/
def execChallenge (eid : Nat) (slot : Nat) (meas : Nat) (nonce : List Byte) (s : State) : Host.Outcome State Fault Refusal :=
  .next (live (challenge eid slot meas nonce) s)

/-- GET_MEASUREMENTS (R453). -/
def execGetMeasurements (eid : Nat) (sig : Bool) (index : Nat) (nonce : List Byte) (s : State) : Host.Outcome State Fault Refusal :=
  .next (live (getMeasurements eid sig index nonce) s)

/-- SPDM_UNSUPPORTED (R452). -/
def execSpdmUnsupported (eid : Nat) (code : Nat) (s : State) : Host.Outcome State Fault Refusal :=
  .next (live (spdmUnsupported eid code) s)

/-- GET_NONCE (R450). -/
def execGetNonce (eid : Nat) (b : List Byte) (s : State) : Host.Outcome State Fault Refusal :=
  .next (live (getNonce eid b) s)

/-- KEM_GET (R454). -/
def execKemGet (eid : Nat) (b : List Byte) (s : State) : Host.Outcome State Fault Refusal :=
  .next (live (kemGet eid b) s)

/-- KEY_DELIVER (R456). -/
def execKeyDeliver (eid : Nat) (b : List Byte) (s : State) : Host.Outcome State Fault Refusal :=
  .next (live (signedArm 2 eid b) s)

/-- LC_REQUEST (R459). -/
def execLcRequest (eid : Nat) (b : List Byte) (s : State) : Host.Outcome State Fault Refusal :=
  .next (live (signedArm 3 eid b) s)

/-- LC_BURN_DONE (R460). -/
def execLcBurnDone (s : State) : Host.Outcome State Fault Refusal := .next (live lcBurnDone s)

/-- DEBUG_UNLOCK (R463). -/
def execDebugUnlock (eid : Nat) (b : List Byte) (s : State) : Host.Outcome State Fault Refusal :=
  .next (live (signedArm 4 eid b) s)

/-- KEY_INSTALL (R450). -/
def execKeyInstall (eid : Nat) (b : List Byte) (s : State) : Host.Outcome State Fault Refusal :=
  .next (live (signedArm 5 eid b) s)

/-- KEY_REVOKE (R450). -/
def execKeyRevoke (eid : Nat) (b : List Byte) (s : State) : Host.Outcome State Fault Refusal :=
  .next (live (signedArm 6 eid b) s)

/-- MLDSA_SIG (R454). -/
def execMldsaSig (eid : Nat) (b : List Byte) (s : State) : Host.Outcome State Fault Refusal :=
  .next (live (mldsaSig eid b) s)

/-- TAMPER_EVENT (R465). -/
def execTamperEvent (kind : Nat) (powered : Bool) (s : State) : Host.Outcome State Fault Refusal :=
  .next (tamperEvent kind powered s)

/-- DEBUG_READ_SELECT (R462). -/
def execDebugReadSelect (unit : Nat) (addr : Nat) (s : State) : Host.Outcome State Fault Refusal :=
  .next (onReg R.SEC_DBG_ADDR.UNIT 0 (dbgSelect unit addr) s)

end Sys2Proof.Machine
end

