-- ==== Sys2Proof/Machine/RowsStep.lean ====
section
/-!
DEFINITION. The meanings of the commands of step cores, semaphores and work queues, one for each constructor.
-/

namespace Sys2Proof.Machine

/-- SET (R178). -/
def execSet (c : Nat) (sem : Nat) (v : Nat) (s : State) : Host.Outcome State Fault Refusal :=
  .next (onOne 16 c (onReg R.STP_SEM_FORCE.OP c (low (fun s => forceArm s c sem false v))) s)

/-- ADD (R178). -/
def execAdd (c : Nat) (sem : Nat) (v : Nat) (s : State) : Host.Outcome State Fault Refusal :=
  .next (onOne 16 c (onReg R.STP_SEM_FORCE.OP c (low (fun s => forceArm s c sem true v))) s)

/-- SEM_VALUE_WRITE (R178). -/
def execSemValueWrite (c : Nat) (sem : Nat) (v : Nat) (s : State) : Host.Outcome State Fault Refusal :=
  .next (onOne 16 c (onReg R.SEM.VALUE (4096 * c + sem) (low (fun s => forceArm s c sem false v))) s)

/-- WAIT_LIMIT_REACHED (R177). -/
def execWaitLimitReached (c : Nat) (x : Nat) (s : State) : Host.Outcome State Fault Refusal :=
  .next (onCtx c x (synced (waitLimit c x)) s)

/-- CACHE_INVALIDATE (R165). -/
def execCacheInvalidate (c : Nat) (all : Bool) (pid : Nat) (s : State) : Host.Outcome State Fault Refusal :=
  .next (onOne 16 c (onReg R.STP_CACHE_INV.ALL c (low (fun s => s.arm (.cacheInv c all (pid % 1024))))) s)

/-- CACHE_MISS_FILL (R164). -/
def execCacheMissFill (c : Nat) (x : Nat) (s : State) : Host.Outcome State Fault Refusal :=
  .next (onCtx c x (low (cacheMissFill c x)) s)

/-- DESCRIPTOR_FETCH (R189). -/
def execDescriptorFetch (c : Nat) (pid : Nat) (q : Nat) (s : State) : Host.Outcome State Fault Refusal :=
  .next (onOne 16 c (low (descriptorFetch c pid q)) s)

/-- DESCRIPTOR_USABLE (R190). -/
def execDescriptorUsable (c : Nat) (x : Nat) (s : State) : Host.Outcome State Fault Refusal :=
  .next (onCtx c x (synced (usableRow c x)) s)

/-- OPERAND_BLOCK_READ (R188). -/
def execOperandBlockRead (c : Nat) (x : Nat) (s : State) : Host.Outcome State Fault Refusal :=
  .next (onCtx c x (synced (blockRow c x)) s)

/-- COMMAND_RELEASE (R191). -/
def execCommandRelease (c : Nat) (x : Nat) (s : State) : Host.Outcome State Fault Refusal :=
  .next (onCtx c x (synced (commandRelease c x)) s)

/-- COMMAND_COMPLETE (R194). -/
def execCommandComplete (c : Nat) (x : Nat) (s : State) : Host.Outcome State Fault Refusal :=
  .next (onCtx c x (synced (fun s => kicksApply (commandComplete c x s))) s)

/-- NOP (R187). -/
def execNop (c : Nat) (x : Nat) (s : State) : Host.Outcome State Fault Refusal :=
  .next (onCtx c x (low (nopRow c x)) s)

/-- INVALIDATE (R187). -/
def execInvalidate (c : Nat) (x : Nat) (s : State) : Host.Outcome State Fault Refusal :=
  .next (onCtx c x (low (invalidateRow c x)) s)

/-- RING_PLACE (R181). -/
def execRingPlace (pid : Nat) (q : Nat) (cring : Bool) (base : Nat) (log2n : Nat) (s : State) : Host.Outcome State Fault Refusal :=
  .next (onQue (if cring then R.QUE_CRING.BASE else R.QUE_DRING.BASE) pid q (low (ringPlace pid q cring base log2n)) s)

/-- QUEUE_INDEX_WRITE (R196). -/
def execQueueIndexWrite (pid : Nat) (q : Nat) (pi : Nat) (fi : Nat) (s : State) : Host.Outcome State Fault Refusal :=
  .next (onQue R.QUE_IDX.PI pid q (low (queueIndexWrite pid q pi fi)) s)

/-- QUEUE_ENABLE (R196). -/
def execQueueEnable (pid : Nat) (q : Nat) (s : State) : Host.Outcome State Fault Refusal :=
  .next (onQue R.QUE_CTRL.ENABLE pid q (low (queEnable pid q true)) s)

/-- QUEUE_DISABLE (R196). -/
def execQueueDisable (pid : Nat) (q : Nat) (s : State) : Host.Outcome State Fault Refusal :=
  .next (onQue R.QUE_CTRL.ENABLE pid q (low (queEnable pid q false)) s)

/-- RESUME (R196). -/
def execResume (pid : Nat) (q : Nat) (s : State) : Host.Outcome State Fault Refusal :=
  .next (onQue R.QUE_CTRL.RESUME pid q (low (queResume pid q)) s)

/-- DRAIN_DONE (R196). -/
def execDrainDone (pid : Nat) (q : Nat) (s : State) : Host.Outcome State Fault Refusal :=
  .next (live (low (drainDone pid q)) s)

end Sys2Proof.Machine
end

