-- ==== Sys2Proof/Machine/RowsStore.lean ====
section
/-!
DEFINITION. The meanings of the commands of the tiers of the store, sleds and shadowing, one for each constructor.
-/

namespace Sys2Proof.Machine

/-- What the store has come to takes effect at the next boundary (R350, R351, R360 to R363, R367). -/
def stoArm (ev : StoEv) : State → State := low (fun s => s.arm (.sto ev))

/-- PROMOTION_SWITCH (R350). -/
def execPromotionSwitch (unit : Nat) (s : State) : Host.Outcome State Fault Refusal :=
  .next (live (stoArm (.promoted unit)) s)

/-- DEMOTION_DONE (R351). -/
def execDemotionDone (unit : Nat) (s : State) : Host.Outcome State Fault Refusal :=
  .next (live (stoArm (.demoted unit)) s)

/-- FLUSH (R351). -/
def execFlush (region : Nat) (s : State) : Host.Outcome State Fault Refusal :=
  .next (onReg R.STO_CMD.OP 0 (low (fun s => s.arm (.stoFlush (region % 256)))) s)

/-- FLUSH_COMPLETE (R351). -/
def execFlushComplete (s : State) : Host.Outcome State Fault Refusal := .next (live (stoArm .flushed) s)

/-- STACK_FAIL (R352). -/
def execStackFail (k : Nat) (s : State) : Host.Outcome State Fault Refusal := .next (onOne 8 k (low (stackFail k)) s)

/-- ZERO_FILL_DONE (R356). -/
def execZeroFillDone (region : Nat) (s : State) : Host.Outcome State Fault Refusal :=
  .next (live (stoArm (.zeroed region)) s)

/-- SLED_RECOVER (R360). -/
def execSledRecover (q : Nat) (s : State) : Host.Outcome State Fault Refusal :=
  .next (onOne 16 q (stoArm (.recovered q)) s)

/-- SLED_SUSPECT_TIMEOUT (R360). -/
def execSledSuspectTimeout (q : Nat) (s : State) : Host.Outcome State Fault Refusal :=
  .next (onOne 16 q (stoArm (.timeout q)) s)

/-- SLED_FAILED (R360). -/
def execSledFailed (q : Nat) (s : State) : Host.Outcome State Fault Refusal :=
  .next (onOne 16 q (low (sledFailedRow q)) s)

/-- SLED_IDENTIFIED (R360). -/
def execSledIdentified (port : Nat) (serial : Nat) (rows : Nat) (label : Option SledLabel) (s : State) : Host.Outcome State Fault Refusal :=
  .next (onOne 16 port (stoArm (.identified port { serial := serial, rows := rows, label := label })) s)

/-- FAIL (R360). -/
def execFail (q : Nat) (s : State) : Host.Outcome State Fault Refusal :=
  .next (onReg R.STO_CMD.OP 0 (low (stoFail q)) s)

/-- REBUILD (R362). -/
def execRebuild (q : Nat) (s : State) : Host.Outcome State Fault Refusal :=
  .next (onReg R.STO_CMD.OP 0 (low (stoRebuild q)) s)

/-- ACCEPT (R361). -/
def execAccept (region : Nat) (s : State) : Host.Outcome State Fault Refusal :=
  .next (onReg R.STO_CMD.OP 0 (low (fun s => s.arm (.stoAccept (region % 256)))) s)

/-- REBUILD_START (R362). -/
def execRebuildStart (q : Nat) (s : State) : Host.Outcome State Fault Refusal :=
  .next (onOne 16 q (stoArm (.rebuild q)) s)

/-- REBUILD_STEP (R362). -/
def execRebuildStep (s : State) : Host.Outcome State Fault Refusal := .next (live (stoArm .rebuildRow) s)

/-- REBUILD_RESUME (R363). -/
def execRebuildResume (s : State) : Host.Outcome State Fault Refusal := .next (live (stoArm .rebuildOn) s)

/-- SHADOW_KEEP (R367). -/
def execShadowKeep (src : Nat) (pid : Nat) (ntrial : Nat) (s : State) : Host.Outcome State Fault Refusal :=
  .next (onReg R.STO_SHADOW.MODE 0 (low (shadowWrite 1 src pid ntrial)) s)

/-- SHADOW_COPY (R367). -/
def execShadowCopy (src : Nat) (pid : Nat) (ntrial : Nat) (s : State) : Host.Outcome State Fault Refusal :=
  .next (onReg R.STO_SHADOW.MODE 0 (low (shadowWrite 2 src pid ntrial)) s)

/-- SHADOW_RECON (R367). -/
def execShadowRecon (src : Nat) (pid : Nat) (ntrial : Nat) (s : State) : Host.Outcome State Fault Refusal :=
  .next (onReg R.STO_SHADOW.MODE 0 (low (shadowWrite 3 src pid ntrial)) s)

/-- SHADOW_IDLE (R367). -/
def execShadowIdle (src : Nat) (pid : Nat) (ntrial : Nat) (s : State) : Host.Outcome State Fault Refusal :=
  .next (onReg R.STO_SHADOW.MODE 0 (low (shadowWrite 0 src pid ntrial)) s)

/-- SHADOW_FILL_DONE (R367). -/
def execShadowFillDone (s : State) : Host.Outcome State Fault Refusal := .next (live (stoArm .fillDone) s)

/-- SHADOW_VERIFY_DONE (R367). -/
def execShadowVerifyDone (rows : List Nat) (digests : List (Nat × List Byte)) (s : State) : Host.Outcome State Fault Refusal :=
  .next (live (stoArm (.verified rows digests)) s)

/-- SHADOW_TRIAL_ENTRY (R368). -/
def execShadowTrialEntry (s : State) : Host.Outcome State Fault Refusal := .next (live (stoArm .trial) s)

/-- PIN_REFILL_DONE (R369). -/
def execPinRefillDone (region : Nat) (s : State) : Host.Outcome State Fault Refusal :=
  .next (live (stoArm (.refilled region)) s)

/-- ACCEPT_COMPLETE (R361). -/
def execAcceptComplete (s : State) : Host.Outcome State Fault Refusal :=
  .next (live (stoArm .accepted) s)

end Sys2Proof.Machine
end

