-- ==== Sys2Proof/Machine/RowsTxn.lean ====
section
/-!
DEFINITION. The meanings of the commands of seizings, one for each constructor.
-/

namespace Sys2Proof.Machine

/-- What follows a change of a seizing's record: the SEIZE command that formed it learns of it, and what waited for a lock
goes on. -/
def txnThen (f : Body → Body) (s : Body) : Body := settle (seizeProgress (f s))

/-- A write of TXN_FORCE (R338). -/
def forceWrite (commit : Bool) (ocid sid : Nat) (s : Body) : Body := s.arm (.txnForce commit (ocid % 8192) (sid % 2 ^ 24))

/-- SEIZE_PREPARE_ORIGIN (R329). -/
def execSeizePrepareOrigin (m : ReqMsg) (s : State) : Host.Outcome State Fault Refusal :=
  .next (live (low (receive opSEIZEPREPARE m)) s)

/-- PREPARED_RECORD_DONE (R329). -/
def execPreparedRecordDone (ocid : Nat) (sid : Nat) (ok : Bool) (s : State) : Host.Outcome State Fault Refusal :=
  .next (live (low (txnThen (fun s => txnPrepared s ocid sid ok))) s)

/-- SEIZE_VOTE (R331). -/
def execSeizeVote (m : ReqMsg) (s : State) : Host.Outcome State Fault Refusal :=
  .next (live (low (receive opSEIZEPREPARE m)) s)

/-- DECISION_RECORD_DONE (R331). -/
def execDecisionRecordDone (ocid : Nat) (sid : Nat) (s : State) : Host.Outcome State Fault Refusal :=
  .next (live (low (txnThen (fun s => txnDecided s ocid sid))) s)

/-- SEIZE_COMMIT (R333). -/
def execSeizeCommit (m : ReqMsg) (s : State) : Host.Outcome State Fault Refusal :=
  .next (live (low (receive opSEIZECOMMIT m)) s)

/-- SEIZE_ABORT (R333). -/
def execSeizeAbort (m : ReqMsg) (s : State) : Host.Outcome State Fault Refusal :=
  .next (live (low (receive opSEIZEABORT m)) s)

/-- SEIZE_DECIDE (R332). -/
def execSeizeDecide (commit : Bool) (m : ReqMsg) (s : State) : Host.Outcome State Fault Refusal :=
  .next (live (low (receive (if commit then opSEIZECOMMIT else opSEIZEABORT) m)) s)

/-- SEIZE_INQUIRE (R335). -/
def execSeizeInquire (m : ReqMsg) (s : State) : Host.Outcome State Fault Refusal :=
  .next (live (low (receive opSEIZEPREPARE m)) s)

/-- SEIZE_APPLY (R332). -/
def execSeizeApply (ocid : Nat) (sid : Nat) (s : State) : Host.Outcome State Fault Refusal :=
  .next (live (low (txnThen (fun s => txnApply s ocid sid))) s)

/-- SEIZE_HOLD_TIMEOUT (R335). -/
def execSeizeHoldTimeout (ocid : Nat) (sid : Nat) (s : State) : Host.Outcome State Fault Refusal :=
  .next (live (low (txnThen (fun s => txnHold s ocid sid))) s)

/-- SEIZE_INQUIRE_TIMER (R335). -/
def execSeizeInquireTimer (ocid : Nat) (sid : Nat) (s : State) : Host.Outcome State Fault Refusal :=
  .next (live (low (txnThen (fun s => txnInquireTimer s ocid sid))) s)

/-- SEIZE_DECIDE_RESEND (R335). -/
def execSeizeDecideResend (ocid : Nat) (sid : Nat) (s : State) : Host.Outcome State Fault Refusal :=
  .next (live (low (txnThen (fun s => txnResend s ocid sid))) s)

/-- SEIZE_VOTE_DISCARD (R331). -/
def execSeizeVoteDiscard (s : State) : Host.Outcome State Fault Refusal := .next (live (low txnDropVotes) s)

/-- FORCE_COMMIT (R338). -/
def execForceCommit (ocid : Nat) (sid : Nat) (s : State) : Host.Outcome State Fault Refusal :=
  .next (onReg R.TXN_FORCE.OP 0 (low (forceWrite true ocid sid)) s)

/-- FORCE_ABORT (R338). -/
def execForceAbort (ocid : Nat) (sid : Nat) (s : State) : Host.Outcome State Fault Refusal :=
  .next (onReg R.TXN_FORCE.OP 0 (low (forceWrite false ocid sid)) s)

/-- TXN_LOOKUP (R338). -/
def execTxnLookup (ocid : Nat) (sid : Nat) (s : State) : Host.Outcome State Fault Refusal :=
  .next (onReg R.TXN_SEL.OCID 0 (low (txnSel ocid sid)) s)

end Sys2Proof.Machine
end

