-- ==== Sys2Proof/Machine/RowsXlt.lean ====
section
/-!
DEFINITION. The meanings of the commands of address translation and the directory, one for each constructor.
-/

namespace Sys2Proof.Machine

/-- A write of XLT_INV_CMD (R117): the address of a page or run stands in XLT_INV_ADDR. -/
def invWrite (scope pid size count : Nat) (s : Body) : Body :=
  invStart s {
    scope := scope, pid := pid % 1024, size := size % 4, count := count % 2 ^ 26, cva := s.get R.XLT_INV_ADDR.CVA * 65536 }

/-- WALK_COMPLETE (R113). -/
def execWalkComplete (pid : Nat) (page : Nat) (s : State) : Host.Outcome State Fault Refusal :=
  .next (live (low (fun s => walkComplete s pid page)) s)

/-- INVALIDATE_PAGE (R117). -/
def execInvalidatePage (pid : Nat) (size : Nat) (s : State) : Host.Outcome State Fault Refusal :=
  .next (onReg R.XLT_INV_CMD.SCOPE 0 (low (invWrite 0 pid size 0)) s)

/-- INVALIDATE_RUN (R117). -/
def execInvalidateRun (pid : Nat) (size : Nat) (count : Nat) (s : State) : Host.Outcome State Fault Refusal :=
  .next (onReg R.XLT_INV_CMD.SCOPE 0 (low (invWrite 1 pid size count)) s)

/-- INVALIDATE_PARTITION (R117). -/
def execInvalidatePartition (pid : Nat) (s : State) : Host.Outcome State Fault Refusal :=
  .next (onReg R.XLT_INV_CMD.SCOPE 0 (low (invWrite 2 pid 0 0)) s)

/-- INVALIDATE_ALL (R117). -/
def execInvalidateAll (s : State) : Host.Outcome State Fault Refusal :=
  .next (onReg R.XLT_INV_CMD.SCOPE 0 (low (invWrite 3 0 0 0)) s)

/-- INVALIDATION_COMPLETE (R118). -/
def execInvalidationComplete (s : State) : Host.Outcome State Fault Refusal := .next (live (low invComplete) s)

/-- ROOT_WRITE (R119). -/
def execRootWrite (pid : Nat) (root : Nat) (s : State) : Host.Outcome State Fault Refusal :=
  .next (onPid R.XLT_PART_ROOT.ROOT pid (low (rootArm pid root)) s)

/-- REBASE (R106). -/
def execRebase (pid : Nat) (win : Nat) (v : Bool) (wr : Bool) (base : Nat) (s : State) : Host.Outcome State Fault Refusal :=
  .next (onPid R.XLT_WIN_BASE.BASE pid (onOne 64 win (low (rebaseArm pid win v wr base))) s)

/-- HOT_RING_ENABLE (R127). -/
def execHotRingEnable (pid : Nat) (ring : Nat) (sizeLog : Nat) (s : State) : Host.Outcome State Fault Refusal :=
  .next (onPid R.XLT_PART_HOT.EN pid (low (fun s => hotRingWrite s pid true ring sizeLog)) s)

/-- ACCESS_DECAY (R125). -/
def execAccessDecay (s : State) : Host.Outcome State Fault Refusal := .next (live (low accessDecay) s)

/-- DIR_LOOKUP (R134). -/
def execDirLookup (line : Nat) (s : State) : Host.Outcome State Fault Refusal :=
  .next (onReg R.DIR_LOOK_LINE.LINE 0 (low (dirLook line)) s)

/-- BACKGROUND_EVICT (R150). -/
def execBackgroundEvict (setNo : Nat) (s : State) : Host.Outcome State Fault Refusal :=
  .next (live (low (fun s => bgEvict s setNo)) s)

/-- RECLAIM_SWEEP_END (R151). -/
def execReclaimSweepEnd (s : State) : Host.Outcome State Fault Refusal := .next (live (low sweepEnd) s)

/-- ACCEPT_LINE (R153). -/
def execAcceptLine (line : Nat) (s : State) : Host.Outcome State Fault Refusal :=
  .next (onReg R.DIR_LOST_CMD.OP 0 (low (fun s => s.arm (.acceptLine (line % 2 ^ 38)))) s)

/-- ACCEPT_PID (R153). -/
def execAcceptPid (pid : Nat) (s : State) : Host.Outcome State Fault Refusal :=
  .next (onReg R.DIR_LOST_CMD.OP 0 (low (fun s => s.arm (.acceptPid (pid % 1024)))) s)

end Sys2Proof.Machine
end

