-- ==== Sys2Proof/Machine/Dispatch.lean ====
section
/-!
DEFINITION. One arm for each command, in the order of spec/opcode_table.json.
-/

namespace Sys2Proof.Machine

def exec (i : Instr) (s : State) : Host.Outcome State Fault Refusal :=
  match i with
  | .knotBoundary b => Sys2Proof.Machine.execKnotBoundary b s
  | .knotSyncSend sendPs => Sys2Proof.Machine.execKnotSyncSend sendPs s
  | .delayRequestSend sendPs => Sys2Proof.Machine.execDelayRequestSend sendPs s
  | .sync m => Sys2Proof.Machine.execSync m s
  | .delayRequest m => Sys2Proof.Machine.execDelayRequest m s
  | .delayAnswer m => Sys2Proof.Machine.execDelayAnswer m s
  | .syncLossTimeout => Sys2Proof.Machine.execSyncLossTimeout s
  | .holdoverExhausted => Sys2Proof.Machine.execHoldoverExhausted s
  | .disciplineEnable => Sys2Proof.Machine.execDisciplineEnable s
  | .disciplineDisable => Sys2Proof.Machine.execDisciplineDisable s
  | .roleMaster => Sys2Proof.Machine.execRoleMaster s
  | .roleFollower => Sys2Proof.Machine.execRoleFollower s
  | .calTimeWrite sec frac => Sys2Proof.Machine.execCalTimeWrite sec frac s
  | .calendarCellLoss => Sys2Proof.Machine.execCalendarCellLoss s
  | .codewordReceive n c => Sys2Proof.Machine.execCodewordReceive n c s
  | .laserSpareSwap n lane => Sys2Proof.Machine.execLaserSpareSwap n lane s
  | .laneSymbolLimit n lane => Sys2Proof.Machine.execLaneSymbolLimit n lane s
  | .lossOfLight n mask => Sys2Proof.Machine.execLossOfLight n mask s
  | .laneChgReceived n mask atPs => Sys2Proof.Machine.execLaneChgReceived n mask atPs s
  | .laneChangeEffect n => Sys2Proof.Machine.execLaneChangeEffect n s
  | .errorWindowEnd n => Sys2Proof.Machine.execErrorWindowEnd n s
  | .uncorrLimit n => Sys2Proof.Machine.execUncorrLimit n s
  | .laneDisable n mask => Sys2Proof.Machine.execLaneDisable n mask s
  | .linkEnable n => Sys2Proof.Machine.execLinkEnable n s
  | .linkDisable n => Sys2Proof.Machine.execLinkDisable n s
  | .retrain n => Sys2Proof.Machine.execRetrain n s
  | .lightFound n mask => Sys2Proof.Machine.execLightFound n mask s
  | .equaliseDone n => Sys2Proof.Machine.execEqualiseDone n s
  | .alignDone n => Sys2Proof.Machine.execAlignDone n s
  | .measureDone n dPs => Sys2Proof.Machine.execMeasureDone n dPs s
  | .identifyExchange n kind id port => Sys2Proof.Machine.execIdentifyExchange n kind id port s
  | .trainTimeout n => Sys2Proof.Machine.execTrainTimeout n s
  | .lanesTimeout n => Sys2Proof.Machine.execLanesTimeout n s
  | .faultRecoveryTimeout n => Sys2Proof.Machine.execFaultRecoveryTimeout n s
  | .photonicDieReady d => Sys2Proof.Machine.execPhotonicDieReady d s
  | .portGroupReady store d => Sys2Proof.Machine.execPortGroupReady store d s
  | .heartbeat n check m => Sys2Proof.Machine.execHeartbeat n check m s
  | .heartbeatSuspect n => Sys2Proof.Machine.execHeartbeatSuspect n s
  | .mgmtPortUp => Sys2Proof.Machine.execMgmtPortUp s
  | .load m => Sys2Proof.Machine.execLoad m s
  | .loadShared m => Sys2Proof.Machine.execLoadShared m s
  | .loadOwn m => Sys2Proof.Machine.execLoadOwn m s
  | .loadNa m => Sys2Proof.Machine.execLoadNa m s
  | .store m => Sys2Proof.Machine.execStore m s
  | .storeMasked m => Sys2Proof.Machine.execStoreMasked m s
  | .writeback m => Sys2Proof.Machine.execWriteback m s
  | .evictClean m => Sys2Proof.Machine.execEvictClean m s
  | .codedStore m => Sys2Proof.Machine.execCodedStore m s
  | .codedLoad m => Sys2Proof.Machine.execCodedLoad m s
  | .atomicAddExact m => Sys2Proof.Machine.execAtomicAddExact m s
  | .atomicFaddExactVec m => Sys2Proof.Machine.execAtomicFaddExactVec m s
  | .atomicCas m => Sys2Proof.Machine.execAtomicCas m s
  | .atomicSwap m => Sys2Proof.Machine.execAtomicSwap m s
  | .atomicMin m => Sys2Proof.Machine.execAtomicMin m s
  | .atomicMax m => Sys2Proof.Machine.execAtomicMax m s
  | .atomicAnd m => Sys2Proof.Machine.execAtomicAnd m s
  | .atomicOr m => Sys2Proof.Machine.execAtomicOr m s
  | .atomicXor m => Sys2Proof.Machine.execAtomicXor m s
  | .snoopResp m => Sys2Proof.Machine.execSnoopResp m s
  | .snoopRoundComplete rid => Sys2Proof.Machine.execSnoopRoundComplete rid s
  | .snoopResend rid cid => Sys2Proof.Machine.execSnoopResend rid cid s
  | .publish m => Sys2Proof.Machine.execPublish m s
  | .doorbell m => Sys2Proof.Machine.execDoorbell m s
  | .spliced x => Sys2Proof.Machine.execSpliced x s
  | .burstSegment g => Sys2Proof.Machine.execBurstSegment g s
  | .burstTimeout => Sys2Proof.Machine.execBurstTimeout s
  | .admissionTimeout => Sys2Proof.Machine.execAdmissionTimeout s
  | .serviceTimeout => Sys2Proof.Machine.execServiceTimeout s
  | .peerResponse m => Sys2Proof.Machine.execPeerResponse m s
  | .peerRequestLost link tag => Sys2Proof.Machine.execPeerRequestLost link tag s
  | .sledResponse n m => Sys2Proof.Machine.execSledResponse n m s
  | .walkComplete pid page => Sys2Proof.Machine.execWalkComplete pid page s
  | .invalidatePage pid size => Sys2Proof.Machine.execInvalidatePage pid size s
  | .invalidateRun pid size count => Sys2Proof.Machine.execInvalidateRun pid size count s
  | .invalidatePartition pid => Sys2Proof.Machine.execInvalidatePartition pid s
  | .invalidateAll => Sys2Proof.Machine.execInvalidateAll s
  | .invalidationComplete => Sys2Proof.Machine.execInvalidationComplete s
  | .rootWrite pid root => Sys2Proof.Machine.execRootWrite pid root s
  | .rebase pid win v wr base => Sys2Proof.Machine.execRebase pid win v wr base s
  | .hotRingEnable pid ring sizeLog => Sys2Proof.Machine.execHotRingEnable pid ring sizeLog s
  | .accessDecay => Sys2Proof.Machine.execAccessDecay s
  | .dirLookup line => Sys2Proof.Machine.execDirLookup line s
  | .backgroundEvict setNo => Sys2Proof.Machine.execBackgroundEvict setNo s
  | .reclaimSweepEnd => Sys2Proof.Machine.execReclaimSweepEnd s
  | .acceptLine line => Sys2Proof.Machine.execAcceptLine line s
  | .acceptPid pid => Sys2Proof.Machine.execAcceptPid pid s
  | .set c sem v => Sys2Proof.Machine.execSet c sem v s
  | .add c sem v => Sys2Proof.Machine.execAdd c sem v s
  | .semValueWrite c sem v => Sys2Proof.Machine.execSemValueWrite c sem v s
  | .waitLimitReached c x => Sys2Proof.Machine.execWaitLimitReached c x s
  | .cacheInvalidate c all pid => Sys2Proof.Machine.execCacheInvalidate c all pid s
  | .cacheMissFill c x => Sys2Proof.Machine.execCacheMissFill c x s
  | .descriptorFetch c pid q => Sys2Proof.Machine.execDescriptorFetch c pid q s
  | .descriptorUsable c x => Sys2Proof.Machine.execDescriptorUsable c x s
  | .operandBlockRead c x => Sys2Proof.Machine.execOperandBlockRead c x s
  | .commandRelease c x => Sys2Proof.Machine.execCommandRelease c x s
  | .commandComplete c x => Sys2Proof.Machine.execCommandComplete c x s
  | .nop c x => Sys2Proof.Machine.execNop c x s
  | .invalidate c x => Sys2Proof.Machine.execInvalidate c x s
  | .ringPlace pid q cring base log2n => Sys2Proof.Machine.execRingPlace pid q cring base log2n s
  | .queueIndexWrite pid q pi fi => Sys2Proof.Machine.execQueueIndexWrite pid q pi fi s
  | .queueEnable pid q => Sys2Proof.Machine.execQueueEnable pid q s
  | .queueDisable pid q => Sys2Proof.Machine.execQueueDisable pid q s
  | .resume pid q => Sys2Proof.Machine.execResume pid q s
  | .drainDone pid q => Sys2Proof.Machine.execDrainDone pid q s
  | .decode c x => Sys2Proof.Machine.execDecode c x s
  | .encode c x => Sys2Proof.Machine.execEncode c x s
  | .check c x => Sys2Proof.Machine.execCheck c x s
  | .loadTable c x => Sys2Proof.Machine.execLoadTable c x s
  | .dropTable c x => Sys2Proof.Machine.execDropTable c x s
  | .tableSlotRetired pid slot => Sys2Proof.Machine.execTableSlotRetired pid slot s
  | .seqOpen c x => Sys2Proof.Machine.execSeqOpen c x s
  | .seqClose c x => Sys2Proof.Machine.execSeqClose c x s
  | .seqAdvance c x => Sys2Proof.Machine.execSeqAdvance c x s
  | .gemv c x => Sys2Proof.Machine.execGemv c x s
  | .kvAppend c x => Sys2Proof.Machine.execKvAppend c x s
  | .attend c x => Sys2Proof.Machine.execAttend c x s
  | .softmax c x => Sys2Proof.Machine.execSoftmax c x s
  | .elemwise c x => Sys2Proof.Machine.execElemwise c x s
  | .rmsnorm c x => Sys2Proof.Machine.execRmsnorm c x s
  | .gather c x => Sys2Proof.Machine.execGather c x s
  | .scatterAdd c x => Sys2Proof.Machine.execScatterAdd c x s
  | .scatterWrite c x => Sys2Proof.Machine.execScatterWrite c x s
  | .rowReplace c x => Sys2Proof.Machine.execRowReplace c x s
  | .scan c x => Sys2Proof.Machine.execScan c x s
  | .traverse c x => Sys2Proof.Machine.execTraverse c x s
  | .insert c x => Sys2Proof.Machine.execInsert c x s
  | .delete c x => Sys2Proof.Machine.execDelete c x s
  | .merge c x => Sys2Proof.Machine.execMerge c x s
  | .mergeResume c => Sys2Proof.Machine.execMergeResume c s
  | .fill c x => Sys2Proof.Machine.execFill c x s
  | .copy c x => Sys2Proof.Machine.execCopy c x s
  | .compare c x => Sys2Proof.Machine.execCompare c x s
  | .digest c x => Sys2Proof.Machine.execDigest c x s
  | .reduce c x => Sys2Proof.Machine.execReduce c x s
  | .seize c x => Sys2Proof.Machine.execSeize c x s
  | .seizePrepareOrigin m => Sys2Proof.Machine.execSeizePrepareOrigin m s
  | .preparedRecordDone ocid sid ok => Sys2Proof.Machine.execPreparedRecordDone ocid sid ok s
  | .seizeVote m => Sys2Proof.Machine.execSeizeVote m s
  | .decisionRecordDone ocid sid => Sys2Proof.Machine.execDecisionRecordDone ocid sid s
  | .seizeCommit m => Sys2Proof.Machine.execSeizeCommit m s
  | .seizeAbort m => Sys2Proof.Machine.execSeizeAbort m s
  | .seizeDecide commit m => Sys2Proof.Machine.execSeizeDecide commit m s
  | .seizeInquire m => Sys2Proof.Machine.execSeizeInquire m s
  | .seizeApply ocid sid => Sys2Proof.Machine.execSeizeApply ocid sid s
  | .seizeHoldTimeout ocid sid => Sys2Proof.Machine.execSeizeHoldTimeout ocid sid s
  | .seizeInquireTimer ocid sid => Sys2Proof.Machine.execSeizeInquireTimer ocid sid s
  | .seizeDecideResend ocid sid => Sys2Proof.Machine.execSeizeDecideResend ocid sid s
  | .seizeVoteDiscard => Sys2Proof.Machine.execSeizeVoteDiscard s
  | .forceCommit ocid sid => Sys2Proof.Machine.execForceCommit ocid sid s
  | .forceAbort ocid sid => Sys2Proof.Machine.execForceAbort ocid sid s
  | .txnLookup ocid sid => Sys2Proof.Machine.execTxnLookup ocid sid s
  | .promotionSwitch unit => Sys2Proof.Machine.execPromotionSwitch unit s
  | .demotionDone unit => Sys2Proof.Machine.execDemotionDone unit s
  | .flush region => Sys2Proof.Machine.execFlush region s
  | .flushComplete => Sys2Proof.Machine.execFlushComplete s
  | .stackFail k => Sys2Proof.Machine.execStackFail k s
  | .zeroFillDone region => Sys2Proof.Machine.execZeroFillDone region s
  | .sledRecover q => Sys2Proof.Machine.execSledRecover q s
  | .sledSuspectTimeout q => Sys2Proof.Machine.execSledSuspectTimeout q s
  | .sledFailed q => Sys2Proof.Machine.execSledFailed q s
  | .sledIdentified port serial rows label => Sys2Proof.Machine.execSledIdentified port serial rows label s
  | .fail q => Sys2Proof.Machine.execFail q s
  | .rebuild q => Sys2Proof.Machine.execRebuild q s
  | .accept region => Sys2Proof.Machine.execAccept region s
  | .rebuildStart q => Sys2Proof.Machine.execRebuildStart q s
  | .rebuildStep => Sys2Proof.Machine.execRebuildStep s
  | .rebuildResume => Sys2Proof.Machine.execRebuildResume s
  | .shadowKeep src pid ntrial => Sys2Proof.Machine.execShadowKeep src pid ntrial s
  | .shadowCopy src pid ntrial => Sys2Proof.Machine.execShadowCopy src pid ntrial s
  | .shadowRecon src pid ntrial => Sys2Proof.Machine.execShadowRecon src pid ntrial s
  | .shadowIdle src pid ntrial => Sys2Proof.Machine.execShadowIdle src pid ntrial s
  | .shadowFillDone => Sys2Proof.Machine.execShadowFillDone s
  | .shadowVerifyDone rows digests => Sys2Proof.Machine.execShadowVerifyDone rows digests s
  | .shadowTrialEntry => Sys2Proof.Machine.execShadowTrialEntry s
  | .roll pid => Sys2Proof.Machine.execRoll pid s
  | .keyRollover pid => Sys2Proof.Machine.execKeyRollover pid s
  | .previousKeyDestroy pid => Sys2Proof.Machine.execPreviousKeyDestroy pid s
  | .hitch cid pid stages sga => Sys2Proof.Machine.execHitch cid pid stages sga s
  | .modify cid pid stages sga => Sys2Proof.Machine.execModify cid pid stages sga s
  | .unhitch cid pid => Sys2Proof.Machine.execUnhitch cid pid s
  | .grant cid pid ext rights => Sys2Proof.Machine.execGrant cid pid ext rights s
  | .revokeGrant cid pid ext => Sys2Proof.Machine.execRevokeGrant cid pid ext s
  | .revokeExtent pid ext zero => Sys2Proof.Machine.execRevokeExtent pid ext zero s
  | .reopen pid ext => Sys2Proof.Machine.execReopen pid ext s
  | .revocationDrainEnd => Sys2Proof.Machine.execRevocationDrainEnd s
  | .scrubEnd => Sys2Proof.Machine.execScrubEnd s
  | .halyardEnable pid hal lead len => Sys2Proof.Machine.execHalyardEnable pid hal lead len s
  | .stagedWrite w => Sys2Proof.Machine.execStagedWrite w s
  | .commit pid newgen => Sys2Proof.Machine.execCommit pid newgen s
  | .commitCancel pid => Sys2Proof.Machine.execCommitCancel pid s
  | .generationEffect pid => Sys2Proof.Machine.execGenerationEffect pid s
  | .deadClient cid => Sys2Proof.Machine.execDeadClient cid s
  | .deadHelak hid cid => Sys2Proof.Machine.execDeadHelak hid cid s
  | .admitShadow hid => Sys2Proof.Machine.execAdmitShadow hid s
  | .releaseClient cid => Sys2Proof.Machine.execReleaseClient cid s
  | .releaseHelak hid => Sys2Proof.Machine.execReleaseHelak hid s
  | .tear pid => Sys2Proof.Machine.execTear pid s
  | .tearDrainEnd pid => Sys2Proof.Machine.execTearDrainEnd pid s
  | .tearSweepEnd pid => Sys2Proof.Machine.execTearSweepEnd pid s
  | .mend pid => Sys2Proof.Machine.execMend pid s
  | .isolatedWrite v => Sys2Proof.Machine.execIsolatedWrite v s
  | .profileWriteStart n => Sys2Proof.Machine.execProfileWriteStart n s
  | .profileWriteEnd n bytes => Sys2Proof.Machine.execProfileWriteEnd n bytes s
  | .switch n => Sys2Proof.Machine.execSwitch n s
  | .partialConfig n => Sys2Proof.Machine.execPartialConfig n s
  | .partialCancel => Sys2Proof.Machine.execPartialCancel s
  | .partialChecked => Sys2Proof.Machine.execPartialChecked s
  | .partialEffect => Sys2Proof.Machine.execPartialEffect s
  | .imageLoadDone => Sys2Proof.Machine.execImageLoadDone s
  | .bootWrite n => Sys2Proof.Machine.execBootWrite n s
  | .floorWrite v => Sys2Proof.Machine.execFloorWrite v s
  | .throttleEnter => Sys2Proof.Machine.execThrottleEnter s
  | .throttleStep => Sys2Proof.Machine.execThrottleStep s
  | .throttleRelax => Sys2Proof.Machine.execThrottleRelax s
  | .quiesceEnter => Sys2Proof.Machine.execQuiesceEnter s
  | .pgoodDeassert => Sys2Proof.Machine.execPgoodDeassert s
  | .quiesceDrained => Sys2Proof.Machine.execQuiesceDrained s
  | .quiesceEnd => Sys2Proof.Machine.execQuiesceEnd s
  | .quiesceRestart => Sys2Proof.Machine.execQuiesceRestart s
  | .surge => Sys2Proof.Machine.execSurge s
  | .undervolt => Sys2Proof.Machine.execUndervolt s
  | .overvolt => Sys2Proof.Machine.execOvervolt s
  | .powerOn psel fresh => Sys2Proof.Machine.execPowerOn psel fresh s
  | .resetPinAssert => Sys2Proof.Machine.execResetPinAssert s
  | .resetPinRelease => Sys2Proof.Machine.execResetPinRelease s
  | .resetPinHoldTimeout => Sys2Proof.Machine.execResetPinHoldTimeout s
  | .thermalTrip => Sys2Proof.Machine.execThermalTrip s
  | .engineReset c => Sys2Proof.Machine.execEngineReset c s
  | .partitionReset pid => Sys2Proof.Machine.execPartitionReset pid s
  | .chipReset internal => Sys2Proof.Machine.execChipReset internal s
  | .powerReset => Sys2Proof.Machine.execPowerReset s
  | .readinessSet bit => Sys2Proof.Machine.execReadinessSet bit s
  | .pwrExtClear => Sys2Proof.Machine.execPwrExtClear s
  | .getVersion eid => Sys2Proof.Machine.execGetVersion eid s
  | .getCapabilities eid => Sys2Proof.Machine.execGetCapabilities eid s
  | .negotiateAlgorithms eid spec asym hash => Sys2Proof.Machine.execNegotiateAlgorithms eid spec asym hash s
  | .getDigests eid => Sys2Proof.Machine.execGetDigests eid s
  | .getCertificate eid slot off len => Sys2Proof.Machine.execGetCertificate eid slot off len s
  | .challenge eid slot meas nonce => Sys2Proof.Machine.execChallenge eid slot meas nonce s
  | .getMeasurements eid sig index nonce => Sys2Proof.Machine.execGetMeasurements eid sig index nonce s
  | .spdmUnsupported eid code => Sys2Proof.Machine.execSpdmUnsupported eid code s
  | .getNonce eid b => Sys2Proof.Machine.execGetNonce eid b s
  | .kemGet eid b => Sys2Proof.Machine.execKemGet eid b s
  | .keyDeliver eid b => Sys2Proof.Machine.execKeyDeliver eid b s
  | .lcRequest eid b => Sys2Proof.Machine.execLcRequest eid b s
  | .lcBurnDone => Sys2Proof.Machine.execLcBurnDone s
  | .debugUnlock eid b => Sys2Proof.Machine.execDebugUnlock eid b s
  | .keyInstall eid b => Sys2Proof.Machine.execKeyInstall eid b s
  | .keyRevoke eid b => Sys2Proof.Machine.execKeyRevoke eid b s
  | .mldsaSig eid b => Sys2Proof.Machine.execMldsaSig eid b s
  | .tamperEvent kind powered => Sys2Proof.Machine.execTamperEvent kind powered s
  | .debugReadSelect unit addr => Sys2Proof.Machine.execDebugReadSelect unit addr s
  | .sampleTake n => Sys2Proof.Machine.execSampleTake n s
  | .pcRecord c => Sys2Proof.Machine.execPcRecord c s
  | .partialLineFlush dest => Sys2Proof.Machine.execPartialLineFlush dest s
  | .mark v => Sys2Proof.Machine.execMark v s
  | .obsFlush => Sys2Proof.Machine.execObsFlush s
  | .traceEnable => Sys2Proof.Machine.execTraceEnable s
  | .sampleEnable n => Sys2Proof.Machine.execSampleEnable n s
  | .watchpointEnable w => Sys2Proof.Machine.execWatchpointEnable w s
  | .ringEnable pid sync pc ring sizeLog => Sys2Proof.Machine.execRingEnable pid sync pc ring sizeLog s
  | .setEndpointId src eid => Sys2Proof.Machine.execSetEndpointId src eid s
  | .getEndpointId src => Sys2Proof.Machine.execGetEndpointId src s
  | .getMctpVersionSupport src ty => Sys2Proof.Machine.execGetMctpVersionSupport src ty s
  | .getMessageTypeSupport src => Sys2Proof.Machine.execGetMessageTypeSupport src s
  | .mctpUnsupportedType src ty => Sys2Proof.Machine.execMctpUnsupportedType src ty s
  | .pldmBaseDiscovery src cmd arg => Sys2Proof.Machine.execPldmBaseDiscovery src cmd arg s
  | .pldmSensorRead src id => Sys2Proof.Machine.execPldmSensorRead src id s
  | .platformEventSend => Sys2Proof.Machine.execPlatformEventSend s
  | .regRead eid inst cmd b => Sys2Proof.Machine.execRegRead eid inst cmd b s
  | .regWrite eid inst b => Sys2Proof.Machine.execRegWrite eid inst b s
  | .registerWrite off data mask => Sys2Proof.Machine.execRegisterWrite off data mask s
  | .mgmtPortDown => Sys2Proof.Machine.execMgmtPortDown s
  | .pinRefillDone region => Sys2Proof.Machine.execPinRefillDone region s
  | .acceptComplete => Sys2Proof.Machine.execAcceptComplete s

end Sys2Proof.Machine
end

