-- ==== Sys2Proof/Safety.lean ====
section
/-!
DEFINITION. What the statements say about a state: the invariants of the security root and of the store, and the names that
several statements share.
-/

namespace Sys2Proof.Machine

/-! ### The security root -/

/-- How far a life-cycle code stands: the fuses only ever burn towards the right (R458). -/
def lcRank (l : Nat) : Nat := if l = 1 then 0 else if l = 3 then 1 else if l = 7 then 2 else if l = 0x0F then 3 else 4

/-- What holds of the security root in every state that a run reaches: eight key slots (R447), a life-cycle code of R458, a
burn that goes to the next code (R459), a tamper log of at most 256 entries (R466), and a key pair in use that has been
generated (R455). -/
def SecInv (s : State) : Prop :=
  s.sec.slots.length = 8 ∧
  s.sec.lcs ∈ [0x01, 0x03, 0x07, 0x0F, 0x1F] ∧
  (∀ b, s.sec.burn = some b → b.1 ≠ 0 ∧ b.1 = lcNext s.sec.lcs) ∧
  s.sec.tlog.length ≤ 256 ∧
  s.sec.kem ≤ s.sec.kemMade

/-- Fuses do not go back: the life cycle only goes forward, and by one transition; a slot that is programmed stays so, with
its digest and roles; a revoked one stays revoked (R447, R458, R459). -/
def FusesHold (s t : State) : Prop :=
  (t.sec.lcs = s.sec.lcs ∨ t.sec.lcs = lcNext s.sec.lcs) ∧ lcRank s.sec.lcs ≤ lcRank t.sec.lcs ∧
  ∀ n, ((slotAt s n).revoked = true → (slotAt t n).revoked = true) ∧
    ((slotAt s n).valid = true →
      (slotAt t n).valid = true ∧ (slotAt t n).digest = (slotAt s n).digest ∧ (slotAt t n).roles = (slotAt s n).roles)

/-! ### The store -/

/-- The bytes of both tiers are in canonical form: offsets strictly rising, and no entry for a byte that is zero. -/
def Memory.wf (s : Body) : Bool := AMap.wf 0 s.near && AMap.wf 0 s.far

/-- Every byte of the home slice outside `n` bytes from `loc` reads as before. -/
def bytesKept (s t : Body) (loc n : Nat) : Prop := ∀ a, a < loc ∨ loc + n ≤ a → t.rdB a = s.rdB a

/-! ### Registers -/

/-- Every field of every register reads as before. -/
def regsKept (s t : Body) : Prop := ∀ f i j, t.get f i j = s.get f i j

/-! ### Requests -/

/-- The request that a command brings: its opcode and its message. SEIZE_DECIDE carries the opcode of its outcome. -/
def reqRow : Instr → Option (Nat × ReqMsg)
  | .load m => some (opLOAD, m)
  | .loadShared m => some (opLOADSHARED, m)
  | .loadOwn m => some (opLOADOWN, m)
  | .loadNa m => some (opLOADNA, m)
  | .store m => some (opSTORE, m)
  | .storeMasked m => some (opSTOREMASKED, m)
  | .writeback m => some (opWRITEBACK, m)
  | .evictClean m => some (opEVICTCLEAN, m)
  | .codedStore m => some (opCODEDSTORE, m)
  | .codedLoad m => some (opCODEDLOAD, m)
  | .atomicAddExact m => some (opADDEXACT, m)
  | .atomicFaddExactVec m => some (opFADDVEC, m)
  | .atomicCas m => some (opCAS, m)
  | .atomicSwap m => some (opSWAP, m)
  | .atomicMin m => some (opMIN, m)
  | .atomicMax m => some (opMAX, m)
  | .atomicAnd m => some (opAND, m)
  | .atomicOr m => some (opOR, m)
  | .atomicXor m => some (opXOR, m)
  | .publish m => some (opPUBLISH, m)
  | .doorbell m => some (opDOORBELL, m)
  | .seizePrepareOrigin m => some (opSEIZEPREPARE, m)
  | .seizeVote m => some (opSEIZEPREPARE, m)
  | .seizeInquire m => some (opSEIZEPREPARE, m)
  | .seizeCommit m => some (opSEIZECOMMIT, m)
  | .seizeAbort m => some (opSEIZEABORT, m)
  | .seizeDecide c m => some (if c then opSEIZECOMMIT else opSEIZEABORT, m)
  | _ => none

/-- A request that a WRITEBACK or an EVICT_CLEAN brings: its line is given up at once where it crosses a snoop (R146). -/
def givesUp (op : Nat) : Bool := op == opWRITEBACK || op == opEVICTCLEAN

/-- The message of a whole request, or of a burst's head (R89). -/
def isBurst (op : Nat) (m : ReqMsg) : Bool := (op == opSTORE || op == opCODEDSTORE) && decide (16 ≤ m.len)

/-- CHECK of a request, reckoned as for a message taken in during the present knot: the plaintext, and whether the previous
session key has verified it (R71, R72, R374). -/
def verified (s : Body) (op : Nat) (m : ReqMsg) : Option (List Byte × Bool) :=
  verify s (reqHdr op m) m.enc m.pid (nonce (fullIssue (s.now + 1) m.issue) m.cid false false m.tag) m.check m.payload

/-- A segment belongs to a burst that is held and not malformed (R90). -/
def segOf (g : SegMsg) (b : Burst) : Bool :=
  b.m.link == g.link && b.m.cid == g.cid && b.m.tag == g.tag && b.m.issue == g.issue && !b.bad

/-- A segment's triple was refused or answered on its port less than 64 knots ago (R91, R93). -/
def segRecent (s : Body) (g : SegMsg) (e : Nat × Nat × Nat × Nat × Nat) : Bool :=
  e.1 == g.link && e.2.1 == g.cid && e.2.2.1 == g.tag && e.2.2.2.1 == g.issue && decide (s.tick < e.2.2.2.2 + 64)

/-- The header words of a response, for its CHECK (R71). -/
def respWords (m : RespMsg) : List Byte :=
  respHdr m.op m.enc m.tag m.pid m.hid m.cid m.len m.cls m.serve m.hint m.rsvd m.sub m.status m.mapgen m.issue m.arg

/-! ### Engine commands -/

/-- The commands of the engines that work in steps: context, engine, opcode and what the engine computes (R238, R248, R273,
R296, R315). -/
def engineRow : Instr → Option (Nat × Nat × Nat × Nat × (Ctx → Eng (Nat × Nat × Nat)))
  | .decode c x => some (c, x, 1, 1, codecDecode true)
  | .encode c x => some (c, x, 1, 2, codecEncode)
  | .check c x => some (c, x, 1, 3, codecDecode false)
  | .seqOpen c x => some (c, x, 2, 0x01, matrixRun)
  | .seqAdvance c x => some (c, x, 2, 0x03, matrixRun)
  | .gemv c x => some (c, x, 2, 0x10, matrixRun)
  | .kvAppend c x => some (c, x, 2, 0x11, matrixRun)
  | .attend c x => some (c, x, 2, 0x12, matrixRun)
  | .softmax c x => some (c, x, 2, 0x20, matrixRun)
  | .elemwise c x => some (c, x, 2, 0x21, matrixRun)
  | .rmsnorm c x => some (c, x, 2, 0x22, matrixRun)
  | .gather c x => some (c, x, 3, 1, embRun)
  | .scatterAdd c x => some (c, x, 3, 2, embRun)
  | .scatterWrite c x => some (c, x, 3, 3, embRun)
  | .rowReplace c x => some (c, x, 3, 4, embRun)
  | .scan c x => some (c, x, 4, 1, srhRun)
  | .traverse c x => some (c, x, 4, 2, srhRun)
  | .insert c x => some (c, x, 4, 3, srhRun)
  | .delete c x => some (c, x, 4, 4, srhRun)
  | .merge c x => some (c, x, 4, 5, srhRun)
  | .fill c x => some (c, x, 5, 1, poolRun)
  | .copy c x => some (c, x, 5, 2, poolRun)
  | .compare c x => some (c, x, 5, 3, poolRun)
  | .digest c x => some (c, x, 5, 4, poolRun)
  | .reduce c x => some (c, x, 5, 5, poolRun)
  | .seize c x => some (c, x, 5, 0x10, seizeRun)
  | _ => none

/-- A step of a released command of this engine and opcode is due in a context: the command waits for nothing, and no step of
it has been tried at this boundary. -/
def Due (s : Body) (c x engine opcode : Nat) (v : Ctx) : Prop := s.ctx c x = v ∧ engDue s c x engine opcode = true

/-! ### Orders -/

/-- What a command orders that does nothing but arm an action for the next boundary (R23): whether its operands name
something that exists, the registers through which it is given, and the action. -/
def orderRow (s : Body) : Instr → Option (Bool × List Nat × Act)
  | .retrain n => some (decide (n < 48), [R.LNK_CTRL.RETRAIN.at n], .linkRetrain n)
  | .rootWrite pid root => some (pidOk s pid, [R.XLT_PART_ROOT.ROOT.at 0], .root pid root)
  | .acceptLine line => some (true, [R.DIR_LOST_CMD.OP.at 0], .acceptLine (line % 2 ^ 38))
  | .acceptPid pid => some (true, [R.DIR_LOST_CMD.OP.at 0], .acceptPid (pid % 1024))
  | .cacheInvalidate c all pid => some (decide (c < 16), [R.STP_CACHE_INV.ALL.at c], .cacheInv c all (pid % 1024))
  | .resume pid q => some ((match partDef s pid with | some d => decide (q < d.nq) | none => false),
      [R.QUE_CTRL.RESUME.at 0], .queResume (pid * 64 + q))
  | .forceCommit o i => some (true, [R.TXN_FORCE.OP.at 0], .txnForce true (o % 8192) (i % 2 ^ 24))
  | .forceAbort o i => some (true, [R.TXN_FORCE.OP.at 0], .txnForce false (o % 8192) (i % 2 ^ 24))
  | .flush r => some (true, [R.STO_CMD.OP.at 0], .stoFlush (r % 256))
  | .accept r => some (true, [R.STO_CMD.OP.at 0], .stoAccept (r % 256))
  | .fail q => some (true, [R.STO_CMD.OP.at 0], .posFail (q % 16) 4)
  | .hitch c p st sga => some (true, [R.PRT_HITCH_CMD.OP.at 0], .hitch 1 (c % 8192) (p % 1024) (st % 16) sga)
  | .modify c p st sga => some (true, [R.PRT_HITCH_CMD.OP.at 0], .hitch 3 (c % 8192) (p % 1024) (st % 16) sga)
  | .unhitch c p => some (!s.on R.PRT_CMD_STATUS.BUSY, [R.PRT_HITCH_CMD.OP.at 0], .revoke (.hitch (c % 8192) (p % 1024)))
  | .grant c p x r => some (true, [R.PRT_GRANT_CMD.OP.at 0], .grant (c % 8192) (p % 1024) (x % 256) (r % 8))
  | .revokeGrant c p x =>
    some (!s.on R.PRT_CMD_STATUS.BUSY, [R.PRT_GRANT_CMD.OP.at 0], .revoke (.grant (c % 8192) (p % 1024) (x % 256)))
  | .revokeExtent p x z =>
    some (!s.on R.PRT_CMD_STATUS.BUSY, [R.PRT_GRANT_CMD.OP.at 0], .revoke (.extent (p % 1024) (x % 256) z))
  | .reopen p x => some (true, [R.PRT_GRANT_CMD.OP.at 0], .reopen (p % 1024) (x % 256))
  | .deadClient c => some (true, [R.FLT_CMD.OP.at 0], .fltOrder 1 0 0 (c % 8192))
  | .deadHelak h c => some (true, [R.FLT_CMD.OP.at 0], .fltOrder 2 0 (h % 512) (c % 8192))
  | .admitShadow h => some (true, [R.FLT_CMD.OP.at 0], .fltOrder 3 0 (h % 512) 0)
  | .releaseClient c => some (true, [R.FLT_CMD.OP.at 0], .fltOrder 4 0 0 (c % 8192))
  | .releaseHelak h => some (true, [R.FLT_CMD.OP.at 0], .fltOrder 5 0 (h % 512) 0)
  | .tear p => some (true, [R.FLT_CMD.OP.at 0], .fltOrder 6 (p % 1024) 0 0)
  | .mend p => some (true, [R.FLT_CMD.OP.at 0], .fltOrder 7 (p % 1024) 0 0)
  | .engineReset c => some (true, [R.RST_CMD.OP.at 0], .reset 1 (c % 16))
  | .partitionReset p => some (true, [R.RST_CMD.OP.at 0], .reset 2 (p % 1024))
  | .chipReset internal => some (true, if internal then [] else [R.RST_CMD.OP.at 0], .reset 3 (if internal then 7 else 5))
  | .powerReset => some (true, [R.RST_CMD.OP.at 0], .reset 4 5)
  | .undervolt => some (true, [], .reset 4 2)
  | .overvolt => some (true, [], .reset 4 3)
  | .thermalTrip => some (true, [], .reset 4 8)
  | .mark v => some (true, [R.OBS_MARK.VALUE.at 0], .obsMark (v % 2 ^ 64))
  | .obsFlush => some (true, [R.OBS_FLUSH.FLUSH.at 0], .obsFlush)
  | .sampleEnable n => some (decide (n < 16), [R.OBS_SMP_CTL.EN.at n], .smpEnable n)
  | _ => none

/-! ### Ports -/

/-- Nothing but registers and the ports' own state differs, and no other port's own state does. -/
def onlyPort (s t : State) (n : Nat) : Prop :=
  t = s.upd (fun b => { b with regs := t.regs, links := t.links }) ∧ ∀ m, m ≠ n → t.link m = s.link m

/-- Port `n` of `s` has entered FAULT with a cause (R58): lasers dark, the retry buffer discarded and counted in DROPPED (R61),
and for a store port the failure of its position armed (R360). -/
def Faulted (s t : Body) (n cause : Nat) : Prop :=
  lstate t n = lsFAULT ∧ t.get R.LNK_STATUS.CAUSE n = cause ∧ t.get R.LNK_EVENT.FAULT_EV n = 1 ∧
  t.get R.LNK_STATUS.LANES n = 0 ∧ t.get R.LNK_STATUS.LANE_MAP n = 0 ∧
  t.get R.LNK_REPLAY.DROPPED n = min (s.get R.LNK_REPLAY.DROPPED n + (s.link n).unacked.length) (2 ^ 15 - 1) ∧
  t.link n = { s.link n with
    unacked := [], held := 0, resent := 0, txSeq := 0, rxSeq := 0, nak := false, drops := [], faultAt := s.tick,
    leftDark := none, light := 0, noAdmit := false } ∧
  (∀ m, m ≠ n → t.link m = s.link m) ∧
  t = { s with
    regs := t.regs, links := t.links, acts := (if n < 32 then s.acts else s.acts ++ [.portFailed (n - 32)]) }

/-- Port `n` of `s` has entered RETRAIN (R57): the sequence numbers and the retry buffer are kept (R61), what its lanes were
about to change is forgotten, and training begins with its first phase. -/
def Retrains (s t : Body) (n : Nat) : Prop :=
  lstate t n = lsRETRAIN ∧ t.get R.LNK_EVENT.RETRAIN_EV n = 1 ∧
  t.link n = { s.link n with
    phase := 0, drops := [], fewLight := if popcount (s.link n).light 8 < 4 then some s.tick else none } ∧
  (∀ m, m ≠ n → t.link m = s.link m) ∧ t = { s with regs := t.regs, links := t.links, suspectAt := t.suspectAt }

/-- A drop of the wavelengths `m` that this side starts in the present knot (R54): the codewords of this knot and the next carry
its LANE_CHG. -/
def dropStarted (n m : Nat) (b : Body) : Body :=
  b.setLink n { b.link n with
    drops := (b.link n).drops ++ [{ k := b.tick, mask := m, mine := true, answered := false }] }

/-- The wavelengths of port `n` that remain when those of `mask` go (R54). -/
def lanesLeft (s : Body) (n mask : Nat) : Nat :=
  popcount (s.get R.LNK_STATUS.LANE_MAP n - (s.get R.LNK_STATUS.LANE_MAP n &&& mask)) 8

/-- A link message as it has to come in (R71, R79): CHECK covers it, and its length is the given one. -/
def linkMsgOk (op len : Nat) (m : ReqMsg) : Prop :=
  m.enc = false ∧ crc64 (reqHdr op m ++ m.payload) = m.check.toNat ∧ m.len = len ∧ m.payload.length = lenBytes len

/-- What an accepted KNOT_SYNC arms (R36): ACQUIRE, from HOLDOVER and UNLOCKED. -/
def heardActs (s : Body) : List Act := if disc s = discHOLDOVER ∨ disc s = discUNLOCKED then [.disc discACQUIRE] else []

/-- The message that the controller sends now on a port, with ISSUE of this knot and a CHECK that covers it (R70, R71). -/
def sentNow (s t : Body) (op link len arg : Nat) (pay : List Byte) : Prop :=
  ∃ m : ReqMsg, .req op m ∈ t.out ∧ m.link = link ∧ m.len = len ∧ m.arg = arg ∧ m.payload = pay ∧ m.enc = false ∧
    m.issue = s.now % 2 ^ 24 ∧ m.check.toNat = crc64 (reqHdr op m ++ pay)

/-! ### Requests of the security root -/

/-- The signed requests of the vendor protocol: request code, requester and payload (R450). -/
def signedRow : Instr → Option (Nat × Nat × List Byte)
  | .keyDeliver e b => some (2, e, b)
  | .lcRequest e b => some (3, e, b)
  | .debugUnlock e b => some (4, e, b)
  | .keyInstall e b => some (5, e, b)
  | .keyRevoke e b => some (6, e, b)
  | _ => none

/-- Answer `o` has gone out, and nothing of the body has changed but registers and the free values drawn. -/
def Answered (s t : State) (o : Out) : Prop :=
  t.out = o :: s.out ∧ t = { s with regs := t.regs, out := t.out, drawn := t.drawn, sec := t.sec }

/-- A vendor answer: a result code, and what follows it (R450). -/
def vendorOut (eid result : Nat) (body : List Byte) : Out := .mgmt eid 5 0x7E (leBytes 1 result ++ body)

/-- An SPDM error (R452). -/
def spdmErrorOut (eid code data : Nat) : Out :=
  .mgmt eid 5 0x7F (leBytes 1 0x13 ++ leBytes 1 0x7F ++ leBytes 1 code ++ leBytes 1 data)

end Sys2Proof.Machine
end

