-- ==== Sys2Proof/Certificates/Slice0/Obligations.lean ====
section
/-!
DEFINITION. The statements about the model.
-/

open Sys2Proof Sys2Proof.Machine

/-! ### The machine as a whole -/

/-- A step takes the command at the front of the queue and runs it on the state with the queue's rest; an empty queue idles
(log entry 7). No command touches the queue, and every command answers a next state. -/
def Obligations.StepRunsFrontCommand : Prop :=
  (∀ (c : Instr) (rest : List Instr) (s : State),
    step { s with pending := c :: rest } = exec c { s with pending := rest }) ∧
  (∀ s : State, s.pending = [] → step s = .next s) ∧
  ∀ (i : Instr) (s : State), ∃ t, exec i s = .next t ∧ t.pending = s.pending

/-- With the package off or held in POWER reset (R434, R438), a command of a partner, a timer or the management port changes
nothing: what acts is the calendar on its cell, the loss of the cell, POWER_ON, the reset input, a tamper event and a
discarded message. -/
def Obligations.UnpoweredPackageInert : Prop :=
  ∀ (i : Instr) (s : State), s.pwr.off = true →
    (match i with
      | .knotBoundary _ | .calendarCellLoss | .powerOn _ _ | .resetPinAssert | .resetPinRelease | .resetPinHoldTimeout
      | .tamperEvent _ _ | .mctpUnsupportedType _ _ => False
      | _ => True) →
    exec i s = .next s

/-- The state after reset: every register field at its reset value but RST_CAUSE, which records the POWER reset (R438, R501);
no byte of the store, no message and no command; as shipped (R514), the life cycle PROVISION (R458) with slot 0 alone valid
(R447), no profile and no version floor, and no backup cell (R467). -/
def Obligations.ResetState : Prop :=
  State.reset.get R.RST_CAUSE.KIND = 4 ∧ State.reset.get R.RST_CAUSE.CAUSE = 1 ∧ State.reset.get R.RST_CAUSE.COUNT = 1 ∧
  (∀ f i j, f.key i j ∉ [R.RST_CAUSE.KIND.key 0 0, R.RST_CAUSE.CAUSE.key 0 0, R.RST_CAUSE.COUNT.key 0 0] →
    State.reset.get f i j = f.reset) ∧
  State.reset.near = [] ∧ State.reset.far = [] ∧ State.reset.out = [] ∧ State.reset.acts = [] ∧ State.reset.pending = [] ∧
  State.reset.sec.lcs = 0x03 ∧ (slotAt State.reset 0).valid = true ∧
  (∀ n, n ≠ 0 → (slotAt State.reset n).valid = false) ∧
  State.reset.cfg.profiles = [] ∧ State.reset.cfg.floor = 0 ∧ State.reset.pwr.cellLost = true ∧ State.reset.pwr.off = true

/-- The reset state meets the invariant of the security root. -/
def Obligations.ResetMeetsSecurityInvariant : Prop := SecInv State.reset

/-- Every step keeps the invariant of the security root, from every state that meets it. -/
def Obligations.StepKeepsSecurityInvariant : Prop :=
  ∀ s t : State, SecInv s → step s = .next t → SecInv t

/-- No step takes a fuse back: the life cycle goes forward by one transition at most, and no key slot is unprogrammed,
reprogrammed or restored after its revocation (R447, R458, R459). -/
def Obligations.StepNeverTakesFusesBack : Prop :=
  ∀ s t : State, SecInv s → step s = .next t → FusesHold s t

/-- The security root changes by its own commands alone: by those of the vendor protocol and SPDM, by a tamper event, by
checks of profiles (the log of failed signatures), by power-on, by the bit SEC of MGT_READY, by a register write that
orders such a check, and by a boundary, where a reset acts and signed requests are decided. -/
def Obligations.SecurityRootOnlyByItsCommands : Prop :=
  ∀ (i : Instr) (s t : State), exec i s = .next t →
    (match i with
      | .knotBoundary _ | .powerOn _ _ | .readinessSet _ | .profileWriteEnd _ _ | .switch _ | .partialChecked
      | .imageLoadDone | .registerWrite _ _ _ | .regWrite _ _ _ | .regRead _ _ _ _ | .tamperEvent _ _
      | .getVersion _ | .getCapabilities _ | .negotiateAlgorithms _ _ _ _ | .getDigests _ | .getCertificate _ _ _ _
      | .challenge _ _ _ _ | .getMeasurements _ _ _ _ | .lcBurnDone => False
      | _ => True) →
    t.sec = s.sec

/-- A byte of the home slice reads as it was last written, every other byte as before, and the bytes keep their canonical
form. A write lies in one unit of 64 KiB; a partial write-back that it overtakes moves bytes to the far copy of a unit that
is read from its frame, and so changes none of them (R344, R350, R351). -/
def Obligations.StoreReadsAsWritten : Prop :=
  ∀ (s : Body) (loc : Nat) (b : List Byte), loc % 65536 + b.length ≤ 65536 →
    (∀ i, i < b.length → isResident s (loc + i) = isResident s loc ∧ writesFar s (loc + i) = writesFar s loc) →
    (∀ i, (h : i < b.length) → (s.wr loc b).rdB (loc + i) = b[i]) ∧
    bytesKept s (s.wr loc b) loc b.length ∧ (Memory.wf s = true → Memory.wf (s.wr loc b) = true)

/-! ### The knot timebase -/

/-- Messages of the discipline, of those whose CHECK and length are right (parts of R34 to R36, R40, R71 and R519). A SYNC of
KIND 0 from the source port and master of a running follower supplies t1, c1 and t2; in HOLDOVER and UNLOCKED it arms the entry
into ACQUIRE, and elsewhere it makes an exchange where a delay answer stands by. An exchange puts the phase error into
KNT_PHASE, counts the run, arms the lock of an ACQUIRE at 256, and refuses an error of more than 4,096 ps on a line that is not
provisional. Any other KIND 0, and a reserved KIND, sets SYNC_REJ alone. A delay request is kept for an answer by a master that
it names, and by a locked Helak on a client-facing port; elsewhere it sets SYNC_REJ. An accepted delay answer restarts the
count of R36 and supplies t4 and c3 of the request of its SEQ. One whose CHECK fails is discarded and recorded. A sender whose
interval has passed sends: a master or a locked Helak one sync on each port of its kind, each with the next SEQ, a follower one
delay request on the port of its last sync. -/
def Obligations.DisciplineMessages : Prop :=
  (∀ s : State, s.pwr.off = false →
    (∀ (m : ReqMsg) (p : Nat), m.link < 48 → linkMsgOk opKNOTSYNC 3 m →
      let x := syncOf m p
      let heard := fun (b : Body) => { b with
        acts := b.acts ++ heardActs b
        knot := { b.knot with
          t1 := (x.knot : Int) * 250000 + x.sendPs, c1 := toSigned 32 x.corrPs, t2 := takenPs b x, lastSync := b.tick,
          lastPort := m.link } }
      (x.kind = 0 → syncAccepts s.toBody x = true →
        (disc s.toBody = discHOLDOVER ∨ disc s.toBody = discUNLOCKED ∨ s.knot.answered = false) →
        exec (.sync ⟨m, p⟩) s = .next (s.upd heard)) ∧
      (x.kind = 0 → syncAccepts s.toBody x = true → disc s.toBody ≠ discHOLDOVER → disc s.toBody ≠ discUNLOCKED →
        s.knot.answered = true → exec (.sync ⟨m, p⟩) s = .next (s.upd (fun b => exchange (heard b)))) ∧
      ((x.kind = 0 ∧ syncAccepts s.toBody x = false) ∨ 2 < x.kind →
        exec (.sync ⟨m, p⟩) s = .next (s.set R.KNT_STATUS.SYNC_REJ 1)) ∧
      (let answered := s.knot.running = true ∧
          (disc s.toBody = discMASTER ∧ s.toBody.hid = x.masterHid ∨
            disc s.toBody = discLOCKED ∧ s.get R.KNT_STATUS.PROV = 0 ∧ s.get R.LNK_STATUS.ROLE m.link = 1 ∧
              x.masterHid = s.get R.KNT_DISC.MASTER_HID);
        (x.kind = 1 → answered → exec (.delayRequest ⟨m, p⟩) s = .next (s.upd (fun b => { b with knot := { b.knot with
          answers := b.knot.answers ++ [(m.link, b.now, p, x.corrPs, x.masterHid, x.seq)] } }))) ∧
        (x.kind = 1 → ¬ answered → exec (.delayRequest ⟨m, p⟩) s = .next (s.set R.KNT_STATUS.SYNC_REJ 1))) ∧
      (x.kind = 2 → syncAccepts s.toBody x = true →
        exec (.delayAnswer ⟨m, p⟩) s = .next (s.upd (fun b => { b with
          acts := b.acts ++ heardActs b
          knot := (match b.knot.asked.find? (fun a => a.1 == x.seq) with
            | none => { b.knot with lastSync := b.tick }
            | some (_, t3) => { b.knot with
                lastSync := b.tick, t3 := t3, t4 := (x.knot : Int) * 250000 + x.sendPs, c3 := toSigned 32 x.corrPs,
                answered := true, asked := b.knot.asked.filter (fun a => decide (t3 < a.2)) }) }))) ∧
      (x.kind = 2 → syncAccepts s.toBody x = false →
        exec (.delayAnswer ⟨m, p⟩) s = .next (s.set R.KNT_STATUS.SYNC_REJ 1))) ∧
    (∀ (m : ReqMsg) (p : Nat), m.link < 48 → crc64 (reqHdr opKNOTSYNC m ++ m.payload) ≠ m.check.toNat →
      let t := s.upd (fun b => fabDiscard b R.FAB_AUTH_FAIL.COUNT opKNOTSYNC m)
      exec (.sync ⟨m, p⟩) s = .next t ∧ exec (.delayRequest ⟨m, p⟩) s = .next t ∧ exec (.delayAnswer ⟨m, p⟩) s = .next t) ∧
    (∀ p : Nat, s.knot.running = true → discGood s.toBody = true → syncDue s.toBody s.knot.syncAt = true →
      ∃ t, exec (.knotSyncSend p) s = .next t ∧
        t.knot = { s.knot with
          seq := if syncPorts s.toBody = [] then s.knot.seq else (s.knot.seq + (syncPorts s.toBody).length) % 65536
          syncAt := s.tick + 1 } ∧
        t.out.length = s.out.length + (syncPorts s.toBody).length ∧
        (∀ (i : Nat) (h : i < (syncPorts s.toBody).length),
          sentNow s.toBody t.toBody opKNOTSYNC (syncPorts s.toBody)[i] 3 0 (syncPayload s.now p 0
            (if disc s.toBody = discMASTER then s.toBody.hid else s.get R.KNT_DISC.MASTER_HID) (s.knot.seq + i) 0)) ∧
        t = s.upd (fun b => { b with out := t.out, knot := t.knot, drawn := t.drawn })) ∧
    (∀ p : Nat, s.knot.running = true → disc s.toBody ≠ discMASTER → disc s.toBody ≠ discINIT →
      syncDue s.toBody s.knot.askAt = true →
      ∃ t, exec (.delayRequestSend p) s = .next t ∧
        t.knot = { s.knot with
          seq := (s.knot.seq + 1) % 65536, askAt := s.tick + 1,
          asked := s.knot.asked.filter (fun a => a.1 != s.knot.seq) ++ [(s.knot.seq, (s.now : Int) * 250000 + p)] } ∧
        t.out.length = s.out.length + 1 ∧
        sentNow s.toBody t.toBody opKNOTSYNC s.knot.lastPort 3 0
          (syncPayload s.now p 0 (s.get R.KNT_DISC.MASTER_HID) s.knot.seq 1) ∧
        t = s.upd (fun b => { b with out := t.out, knot := t.knot, drawn := t.drawn }))) ∧
  ∀ b : Body,
    let k := b.knot
    let prov := decide (b.get R.KNT_STATUS.PROV ≠ 0)
    let d := ((k.t2 - k.t1 - k.c1) + (k.t4 - k.t3 - k.c3)) / 2
    let e := (splitPhase prov (k.t2 - k.t1 - k.c1 - d)).1
    let run := if e.natAbs ≤ 2000 then k.run + 1 else 0
    let t := exchange b
    t.get R.KNT_PHASE.PHASE_ERR = ofSigned 32 e ∧
    t.knot = { k with run := run, ahead := (splitPhase prov (k.t2 - k.t1 - k.c1 - d)).2 } ∧
    t.acts = b.acts ++ (if prov = false ∧ 4096 < e.natAbs then [.disc discACQUIRE]
      else if disc b = discACQUIRE ∧ 256 ≤ run then [.disc discLOCKED] else []) ∧
    t.get R.KNT_STATUS.STEP_REFUSED = (if prov = false ∧ 4096 < e.natAbs then 1 else b.get R.KNT_STATUS.STEP_REFUSED) ∧
    t = { b with regs := t.regs, knot := t.knot, acts := t.acts, drawn := t.drawn }

/-- The timers and the control registers of the timebase (parts of R36, R37, R41 and R47). LOCKED with no accepted sync for 1,024
boundaries arms the entry into HOLDOVER, and HOLDOVER whose HOLD_KNOTS reaches 2^23 at the next boundary arms that into
UNLOCKED; the boundary makes each where its cause still holds, with its event bit. An entry into ACQUIRE starts the run of
exchanges anew. ENABLE and ROLE are stored; a calendar write outside MASTER and LOCKED sets the time, VALID and the readiness
bit CAL, and is ignored in those two. -/
def Obligations.DisciplineTimersAndControls : Prop :=
  (∀ s : State, s.pwr.off = false →
    (disc s.toBody = discLOCKED → s.knot.lastSync + 1024 ≤ s.tick →
      exec .syncLossTimeout s = .next (s.upd (fun b => { b with acts := b.acts ++ [.disc discHOLDOVER] }))) ∧
    (disc s.toBody = discHOLDOVER → 2 ^ 23 ≤ s.get R.KNT_HOLD.HOLD_KNOTS + 1 →
      exec .holdoverExhausted s = .next (s.upd (fun b => { b with acts := b.acts ++ [.disc discUNLOCKED] }))) ∧
    (regOpen s (R.KNT_DISC.ENABLE.at 0) = true →
      exec .disciplineEnable s = .next (s.set R.KNT_DISC.ENABLE 1) ∧
      exec .disciplineDisable s = .next (s.set R.KNT_DISC.ENABLE 0) ∧
      exec .roleMaster s = .next (s.set R.KNT_DISC.ROLE 1) ∧
      exec .roleFollower s = .next (s.set R.KNT_DISC.ROLE 0)) ∧
    (regOpen s (R.CAL_TIME.SEC.at 0) = true → ∀ sec frac : Nat, sec < 2 ^ 48 → frac < 65536 →
      (disc s.toBody ≠ discMASTER → disc s.toBody ≠ discLOCKED →
        ∃ t, exec (.calTimeWrite sec frac) s = .next t ∧ t.get R.CAL_TIME.SEC = sec ∧ t.get R.CAL_TIME.FRAC = frac ∧
          t.get R.CAL_STATUS.VALID = 1 ∧ t.get R.MGT_READY.CAL = 1 ∧
          t = s.upd (fun b => { b with regs := t.regs, knot := { b.knot with calRem := 0 } })) ∧
      (disc s.toBody = discMASTER ∨ disc s.toBody = discLOCKED → exec (.calTimeWrite sec frac) s = .next s))) ∧
  ∀ b : Body,
    (disc b = discLOCKED → b.knot.lastSync + 1024 ≤ b.tick →
      actNow b (.disc discHOLDOVER) =
        ((b.set R.KNT_STATUS.STATE discHOLDOVER).set R.KNT_HOLD.HOLD_KNOTS 0).set R.KNT_STATUS.HOLD_EV 1) ∧
    (disc b = discHOLDOVER → 2 ^ 23 ≤ b.get R.KNT_HOLD.HOLD_KNOTS →
      actNow b (.disc discUNLOCKED) = (b.set R.KNT_STATUS.STATE discUNLOCKED).set R.KNT_STATUS.UNLOCK_EV 1) ∧
    (disc b ≠ discMASTER → disc b ≠ discINIT →
      actNow b (.disc discACQUIRE) = { b.set R.KNT_STATUS.STATE discACQUIRE with knot := { b.knot with
        run := 0, answered := false, asked := [] } })

/-- One knot (parts of R20, R36, R47 and R467): the log line goes up by 1 modulo 2^64, and HOLD_KNOTS by 1 in HOLDOVER, up to its
largest value. In MASTER and LOCKED the calendar takes the time that the log line stands for, and STEERED reads 1; elsewhere
STEERED reads 0, and a valid calendar goes on by 16,384 millionths of 1/65,536 s, of which it keeps the remainder, while one that
is not valid stands still (the model's choice, log entry 105). The cell is lost where the package is without its input, and only
there. -/
def Obligations.LogLineAndCalendar : Prop :=
  (∀ s : Body,
    let t := tickKnot s
    t.now = (s.now + 1) % 2 ^ 64 ∧ t.tick = s.tick + 1 ∧
    (disc s = discHOLDOVER →
      t.get R.KNT_HOLD.HOLD_KNOTS = min (s.get R.KNT_HOLD.HOLD_KNOTS + 1) (2 ^ R.KNT_HOLD.HOLD_KNOTS.w - 1)) ∧
    (disc s = discMASTER ∨ disc s = discLOCKED →
      calUnits t = (epochUnits s + (s.now + 1) % 2 ^ 64 * 16384 / 1000000) % 2 ^ 64 ∧ t.get R.CAL_STATUS.STEERED = 1) ∧
    (disc s ≠ discMASTER → disc s ≠ discLOCKED → s.get R.CAL_STATUS.VALID ≠ 0 →
      calUnits t = (calUnits s + (s.knot.calRem + 16384) / 1000000) % 2 ^ 64 ∧
      t.knot = { s.knot with calRem := (s.knot.calRem + 16384) % 1000000 } ∧ t.get R.CAL_STATUS.STEERED = 0) ∧
    (disc s ≠ discMASTER → disc s ≠ discLOCKED → s.get R.CAL_STATUS.VALID = 0 →
      calUnits t = calUnits s ∧ t.get R.CAL_STATUS.STEERED = 0) ∧
    t = { s with regs := t.regs, knot := t.knot, tick := t.tick }) ∧
  ∀ s : State,
    (s.pwr.off = true → exec .calendarCellLoss s = .next (s.upd (fun b => { b with pwr := { b.pwr with cellLost := true } }))) ∧
    (s.pwr.off = false → exec .calendarCellLoss s = .next s)

/-- A boundary of a powered package (parts of R22, R23, R438 and R439) closes the knot that ends, advances the log line, and then
performs the armed actions in the order in which they were armed. With no reset and no debug read among them, the rest of the
boundary follows: what is due at it, signed requests, ports, sweeps, the tiers with admission and service, the issue of steps, and the records.
A POWER reset that is armed acts in place of all that follows, and leaves the package off. With the package off, the calendar
alone goes on, while its cell lasts. -/
def Obligations.BoundaryRunsArmedActions : Prop :=
  ∀ (b : BoundaryIn) (s : State),
    (s.pwr.off = true → exec (.knotBoundary b) s = .next (if s.pwr.cellLost then s else s.upd calTick)) ∧
    (s.pwr.off = false →
      let u := s.upd (fun s => knotCommit b (knotClose b s))
      u.acts.contains .dbgRead = false →
      let v := u.upd (fun s => s.acts.foldl actNow { s with acts := [] })
      (armedResets u.acts = [] → v.pwr.off = false → exec (.knotBoundary b) s =
        .next (alertBoundary (knotRecords ((signedNow u.acts (v.upd knotDue)).upd (fun x => knotIssue
          (knotServe (u.acts.contains .obsFlush) (knotSweeps (knotLinks s.out.length x)))))))) ∧
      (∀ c, (armedResets u.acts).find? (fun r => r.1 == 4) = some (4, c) →
        exec (.knotBoundary b) s = .next (powerReset v c) ∧ (powerReset v c).pwr.off = true))

/-! ### The optical ports -/

/-- Training (parts of R57 and R60). Light on at least 4 wavelengths in DARK, and the end of each later phase, arm the next phase,
which the boundary enters: EQUALISE, ALIGN, MEASURE, and IDENTIFY once MEASURE has lasted 256 boundaries; the phases of a
retraining port follow each other in the same way. A measured delay goes into DELAY_PS and ADD_KNOTS, the own identification
block goes out, and one of more than 300 ns faults with cause TOO_LONG. -/
def Obligations.LinkTraining : Prop :=
  (∀ (s : State) (n : Nat), s.pwr.off = false → n < 48 →
    (∀ mask, lstate s.toBody n = lsDARK → 4 ≤ popcount (((s.link n).light ||| mask) % 256) 8 →
      exec (.lightFound n mask) s = .next (s.upd (fun b => { b.setLink n { b.link n with
        light := ((b.link n).light ||| mask) % 256, fewLight := none } with acts := b.acts ++ [.train n .light] }))) ∧
    (lstate s.toBody n = lsEQUALISE ∨ lstate s.toBody n = lsRETRAIN ∧ (s.link n).phase = 0 →
      exec (.equaliseDone n) s = .next (s.upd (fun b => { b with acts := b.acts ++ [.train n .equalised] }))) ∧
    (lstate s.toBody n = lsALIGN ∨ lstate s.toBody n = lsRETRAIN ∧ (s.link n).phase = 1 →
      exec (.alignDone n) s = .next (s.upd (fun b => { b with acts := b.acts ++ [.train n .aligned] }))) ∧
    (∀ d, lstate s.toBody n = lsMEASURE ∨ lstate s.toBody n = lsRETRAIN ∧ (s.link n).phase = 2 →
      (s.link n).measureAt + 256 ≤ s.tick + 1 →
      exec (.measureDone n d) s = .next (s.upd (fun b => { b with acts := b.acts ++ [.train n (.measured d)] })))) ∧
  ∀ (b : Body) (n : Nat), n < 48 →
    (lstate b n = lsDARK → 4 ≤ popcount (b.link n).light 8 → actNow b (.train n .light) =
      (b.set R.LNK_STATUS.STATE lsEQUALISE n).setLink n { b.link n with leftDark := some b.tick }) ∧
    (lstate b n = lsEQUALISE → actNow b (.train n .equalised) = b.set R.LNK_STATUS.STATE lsALIGN n) ∧
    (lstate b n = lsALIGN → actNow b (.train n .aligned) =
      (b.set R.LNK_STATUS.STATE lsMEASURE n).setLink n { b.link n with measureAt := b.tick }) ∧
    (lstate b n = lsRETRAIN → (b.link n).phase = 0 →
      actNow b (.train n .equalised) = b.setLink n { b.link n with phase := 1 }) ∧
    (lstate b n = lsRETRAIN → (b.link n).phase = 1 →
      actNow b (.train n .aligned) = b.setLink n { b.link n with phase := 2, measureAt := b.tick }) ∧
    (∀ d, lstate b n = lsMEASURE ∨ lstate b n = lsRETRAIN ∧ (b.link n).phase = 2 → (b.link n).measureAt + 256 ≤ b.tick →
      let t := actNow b (.train n (.measured d))
      (d ≤ 300000 → lstate t n = lsIDENTIFY ∧ t.get R.LNK_PEER.DELAY_PS n = d ∧
        t.get R.LNK_STATUS.ADD_KNOTS n = ceilDiv (2 * (d - (if n < 32 then 100000 else 50000))) 250000 +
          (if b.get R.LNK_STATUS.LANES n = 4 ∨ b.get R.LNK_STATUS.LANES n = 5 then 1 else 0) ∧
        t.out = .ident n 1 b.hid n :: b.out ∧ t = { b with regs := t.regs, out := t.out }) ∧
      (300000 < d → Faulted b t n 2))

/-- IDENTIFY (parts of R57 to R59 and R61): the partner's block arms its check, which the boundary makes. A kind that the port's
role does not accept faults with cause MISMATCH, an HID or CID that another working port presents with cause CONFLICT. Any
other partner is recorded, and the port works on the wavelengths with light that are neither disabled nor dead: UP with eight,
DEGRADED with fewer, and with fewer than 4 it faults with cause LANES. What is not acknowledged is sent again. -/
def Obligations.LinkIdentify : Prop :=
  (∀ (s : State) (n kind id port : Nat), s.pwr.off = false → n < 48 → lstate s.toBody n = lsIDENTIFY →
    exec (.identifyExchange n kind id port) s =
      .next (s.upd (fun b => { b with acts := b.acts ++ [.train n (.identified kind id port)] }))) ∧
  ∀ (b : Body) (n kind id port : Nat), n < 48 → kind < 16 → id < 2 ^ 13 → port < 64 → lstate b n = lsIDENTIFY →
    let role := b.get R.LNK_STATUS.ROLE n
    let map := (b.link n).light - ((b.link n).light &&& (b.get R.LNK_CTRL.LANE_DISABLE n ||| (b.link n).dead))
    let t := actNow b (.train n (.identified kind id port))
    let known := role ≠ 0 ∧ roleKind role = kind ∧ idConflict b n kind id = false
    (role = 0 ∨ roleKind role ≠ kind → Faulted b t n 1) ∧
    (role ≠ 0 → roleKind role = kind → idConflict b n kind id = true → Faulted b t n 5) ∧
    (known → popcount map 8 < 4 → Faulted b t n 3) ∧
    (known → 4 ≤ popcount map 8 →
      lstate t n = (if popcount map 8 = 8 then lsUP else lsDEGRADED) ∧ t.get R.LNK_EVENT.UP_EV n = 1 ∧
      t.get R.LNK_STATUS.LANE_MAP n = map % 256 ∧ t.get R.LNK_STATUS.LANES n = popcount map 8 ∧
      t.get R.LNK_PEER.KIND n = kind ∧ t.get R.LNK_PEER.PEER_ID n = id ∧ t.get R.LNK_PEER.PEER_PORT n = port ∧
      t.link n = { b.link n with
        winCw := 0, winSym := [], winUncorr := 0, everUp := true, leftDark := none, fewLight := none, drops := [],
        noAdmit := false, resent := (b.link n).unacked.length } ∧
      t.out = (if (b.link n).unacked = [] then b.out else .resend n (b.link n).unacked :: b.out) ∧
      t = { b with regs := t.regs, links := t.links, out := t.out })

/-- The timers of a port (parts of R54, R57 and R58). Training that lasts 8,192 knots arms a FAULT with cause TRAIN_TIMEOUT, a
retraining port with light on fewer than 4 wavelengths for 4,000 knots one with cause LANES, and 4,000,000 knots in a FAULT of
these causes arm the way to DARK; the boundary performs each. Too many uncorrectable codewords in a window arm a retraining of
a working port. A window of 2^20 codewords ends. -/
def Obligations.LinkTimers : Prop :=
  (∀ (s : State) (n : Nat), s.pwr.off = false → n < 48 →
    (∀ k, (s.link n).leftDark = some k → k + 8192 ≤ s.tick + 1 → lsEQUALISE ≤ lstate s.toBody n →
      lstate s.toBody n ≤ lsIDENTIFY →
      exec (.trainTimeout n) s = .next (s.upd (fun b => { b with acts := b.acts ++ [.train n .tooLong] }))) ∧
    (∀ k, (s.link n).fewLight = some k → k + 4000 ≤ s.tick + 1 → lstate s.toBody n = lsRETRAIN →
      exec (.lanesTimeout n) s = .next (s.upd (fun b => { b with acts := b.acts ++ [.train n .fewLanes] }))) ∧
    (lstate s.toBody n = lsFAULT → (s.get R.LNK_STATUS.CAUSE n = 3 ∨ s.get R.LNK_STATUS.CAUSE n = 4) →
      (s.link n).faultAt + 4000000 ≤ s.tick + 1 →
      exec (.faultRecoveryTimeout n) s = .next (s.upd (fun b => { b with acts := b.acts ++ [.train n .recovered] }))) ∧
    (linkUp s.toBody n = true → s.get R.LNK_THRESH.UNCORR_LIMIT n < (s.link n).winUncorr →
      exec (.uncorrLimit n) s = .next (s.upd (fun b => { b with acts := b.acts ++ [.linkRetrain n] }))) ∧
    (2 ^ 20 ≤ (s.link n).winCw →
      exec (.errorWindowEnd n) s =
        .next (s.upd (fun b => b.setLink n { b.link n with winCw := 0, winSym := [], winUncorr := 0 })))) ∧
  ∀ (b : Body) (n : Nat), n < 48 →
    (∀ k, (b.link n).leftDark = some k → k + 8192 ≤ b.tick → lsEQUALISE ≤ lstate b n → lstate b n ≤ lsIDENTIFY →
      Faulted b (actNow b (.train n .tooLong)) n 4) ∧
    (∀ k, (b.link n).fewLight = some k → k + 4000 ≤ b.tick → lstate b n = lsRETRAIN →
      Faulted b (actNow b (.train n .fewLanes)) n 3) ∧
    (lstate b n = lsFAULT → (b.get R.LNK_STATUS.CAUSE n = 3 ∨ b.get R.LNK_STATUS.CAUSE n = 4) →
      (b.link n).faultAt + 4000000 ≤ b.tick →
      actNow b (.train n .recovered) = (b.set R.LNK_STATUS.STATE lsDARK n).setLink n { b.link n with
        light := 0, leftDark := none, drops := [], fewLight := none, noAdmit := false }) ∧
    (linkUp b n = true → Retrains b (actNow b (.linkRetrain n)) n)

/-- Wavelengths of a port (parts of R53 and R54). A failed laser arms the move to its spare, which the boundary makes. Where the
spare is used up, where light is lost or where software disables the wavelength, a working port that keeps at least 4 starts a
drop; where the symbol errors pass their limit it does so at the boundary. Where fewer than 4 would keep light, or remain, the
port arms a retraining. -/
def Obligations.WavelengthsAreDropped : Prop :=
  ∀ (s : State) (n : Nat), s.pwr.off = false → n < 48 →
    (∀ lane, lane < 8 → bitAt (s.get R.LNK_STATUS.SPARE_USED n) lane = false →
      exec (.laserSpareSwap n lane) s = .next (s.upd (fun b => { b with acts := b.acts ++ [.laserSpare n lane] })) ∧
      actNow s.toBody (.laserSpare n lane) =
        (s.toBody.setB R.LNK_STATUS.SPARE_USED lane n).set R.LNK_EVENT.SPARE_SWAP 1 n) ∧
    (linkUp s.toBody n = true → ∀ lane, lane < 8 →
      let m := s.get R.LNK_STATUS.LANE_MAP n &&& 2 ^ lane
      m ≠ 0 →
      (bitAt (s.get R.LNK_STATUS.SPARE_USED n) lane = true →
        let u := s.upd (fun b => b.setLink n { b.link n with dead := setBit (b.link n).dead lane })
        exec (.laserSpareSwap n lane) s = .next (if lanesLeft s.toBody n (2 ^ lane) < 4
          then u.upd (fun b => { b with acts := b.acts ++ [.linkRetrain n] }) else u.upd (dropStarted n m))) ∧
      (s.get R.LNK_THRESH.LANE_SYM_LIMIT n < AMap.get 0 (s.link n).winSym lane →
        exec (.laneSymbolLimit n lane) s = .next (s.upd (fun b => { b with acts := b.acts ++ [.laneDrop n (2 ^ lane)] }))) ∧
      actNow s.toBody (.laneDrop n (2 ^ lane)) = (if lanesLeft s.toBody n (2 ^ lane) < 4
        then { s.toBody with acts := s.acts ++ [.linkRetrain n] } else dropStarted n m s.toBody)) ∧
    (∀ mask, regOpen s (R.LNK_CTRL.LANE_DISABLE.at n) = true →
      let u := s.set R.LNK_CTRL.LANE_DISABLE mask n
      let m := s.get R.LNK_STATUS.LANE_MAP n &&& mask
      (linkUp s.toBody n = false ∨ m = 0 → exec (.laneDisable n mask) s = .next u) ∧
      (linkUp s.toBody n = true → m ≠ 0 →
        exec (.laneDisable n mask) s = .next (if lanesLeft s.toBody n mask < 4
          then u.upd (fun b => { b with acts := b.acts ++ [.linkRetrain n] }) else u.upd (dropStarted n m)))) ∧
    (linkUp s.toBody n = true → ∀ mask,
      let light := (s.link n).light - ((s.link n).light &&& mask)
      let m := s.get R.LNK_STATUS.LANE_MAP n &&& mask
      (popcount light 8 < 4 → exec (.lossOfLight n mask) s = .next (s.upd (fun b => { b.setLink n { b.link n with
        light := light, fewLight := some ((b.link n).fewLight.getD b.tick) } with acts := b.acts ++ [.linkRetrain n] }))) ∧
      (4 ≤ popcount light 8 →
        let u := s.upd (fun b => b.setLink n { b.link n with light := light, fewLight := none })
        exec (.lossOfLight n mask) s = .next (if m = 0 then u else if lanesLeft s.toBody n mask < 4
          then u.upd (fun b => { b with acts := b.acts ++ [.linkRetrain n] }) else u.upd (dropStarted n m))))

/-- The exchange of LANE_CHG (parts of R54 and R55). A partner's LANE_CHG answers this side's own drops, and starts a drop of the
wavelengths that this side did not propose, with the knot K in which its codeword was launched. A drop that is due, from K + 4
on, takes its wavelengths out, and the port works DEGRADED; where an own drop has had no answer, or fewer than 4 wavelengths
would remain, the port retrains. -/
def Obligations.LaneChangeExchange : Prop :=
  ∀ (s : State) (n : Nat), s.pwr.off = false → n < 48 → linkUp s.toBody n = true →
    (∀ mask atPs,
      let l := s.link n
      let own := l.drops.map (fun d => if d.mine then { d with answered := true } else d)
      let mineMask := (l.drops.filter (fun d => d.mine)).foldl (fun a d => a ||| d.mask) 0
      let here := s.get R.LNK_STATUS.LANE_MAP n &&& mask
      let m := here - (here &&& mineMask)
      let k := (s.tick * 250000 + atPs - s.get R.LNK_PEER.DELAY_PS n) / 250000
      exec (.laneChgReceived n mask atPs) s = .next (s.upd (fun b => b.setLink n { l with
        drops := if m = 0 then own else own ++ [{ k := k, mask := m, mine := false, answered := true }] }))) ∧
    (let due := (s.link n).drops.filter (fun d => decide (d.k + 4 ≤ s.tick));
      due ≠ [] →
      let mask := due.foldl (fun a d => a ||| d.mask) 0
      let map := s.get R.LNK_STATUS.LANE_MAP n - (s.get R.LNK_STATUS.LANE_MAP n &&& mask)
      (due.any (fun d => d.mine && !d.answered) = true ∨ popcount map 8 < 4 →
        ∃ t, exec (.laneChangeEffect n) s = .next t ∧ Retrains s.toBody t.toBody n ∧ t = s.upd (fun _ => t.toBody)) ∧
      (due.any (fun d => d.mine && !d.answered) = false → 4 ≤ popcount map 8 →
        ∃ t, exec (.laneChangeEffect n) s = .next t ∧ t.get R.LNK_STATUS.LANE_MAP n = map % 2 ^ 8 ∧
          t.get R.LNK_STATUS.LANES n = popcount map 8 ∧ lstate t.toBody n = lsDEGRADED ∧
          t.get R.LNK_EVENT.LANE_DROP n = 1 ∧
          t.link n = { s.link n with drops := (s.link n).drops.filter (fun d => decide (s.tick < d.k + 4)) } ∧
          onlyPort s t n)) ∧
    ((s.link n).drops.all (fun d => decide (s.tick < d.k + 4)) = true → exec (.laneChangeEffect n) s = .next s)

/-- A codeword on a working port (parts of R50 to R52 and R54). One with more than 15 wrong symbols is discarded whole, counted in
the window, and makes the port send NAK. Of any other the acknowledgement releases what it covers, a NAK sends the rest of the
retry buffer again, the corrections count in the window by wavelength, and it goes on to the transaction layer exactly where it
is the next in sequence, which ends the NAK; one that runs ahead of the sequence makes the port send NAK. -/
def Obligations.CodewordsOnceAndInOrder : Prop :=
  ∀ (s : State) (n : Nat) (c : Codeword), s.pwr.off = false → n < 48 → linkUp s.toBody n = true →
    let l := s.link n
    let un := ackTo c.ack l.unacked
    (15 < c.errs.length → ∃ t, exec (.codewordReceive n c) s = .next t ∧ t.out = s.out ∧ t.get R.LNK_EVENT.UNCORR n = 1 ∧
      t.link n = { l with winCw := l.winCw + 1, winUncorr := l.winUncorr + 1, nak := true } ∧ onlyPort s t n) ∧
    (c.errs.length ≤ 15 → ∃ t, exec (.codewordReceive n c) s = .next t ∧
      t.link n = { l with
        unacked := un
        resent := if c.nak = true ∧ un ≠ [] then l.resent + un.length else l.resent
        winCw := l.winCw + 1
        winSym := (laneErrs s.toBody n c.errs).foldl (fun w e => AMap.upd 0 w e.1 (fun v => v + e.2)) l.winSym
        rxSeq := if c.seq = l.rxSeq then (l.rxSeq + 1) % 512 else l.rxSeq
        nak := if c.seq = l.rxSeq then false else l.nak || decide ((c.seq + 512 - l.rxSeq) % 512 < 256) } ∧
      t.out = (if c.seq = l.rxSeq then [.deliver n c.seq] else []) ++
        (if c.nak = true ∧ un ≠ [] then [.resend n un] else []) ++ s.out ∧
      (∀ m, m ≠ n → t.link m = s.link m) ∧
      t = s.upd (fun b => { b with regs := t.regs, links := t.links, out := t.out }))

/-- Heartbeats, suspicion and the controls of the ports (parts of R57, R62, R64, R65, R71, R79, R360 and R395). A heartbeat whose
CHECK and length are right sets MISS to 0, and clears a suspicion, which is recorded; one whose CHECK fails is discarded. MISS
at 64 raises a suspicion and records it. A photonic die reports itself, its port groups once they have settled or 16,384
boundaries have passed since their start, ENABLE of a port is stored, and the management port comes up after die 0 and goes down
again. -/
def Obligations.HeartbeatsAndPortControls : Prop :=
  (∀ (s : State), s.pwr.off = false →
    (∀ (n : Nat) (c : BitVec 64) (h : ReqMsg), let m := { h with link := n, check := c }
      n < 48 → linkUp s.toBody m.link = true → linkMsgOk opHEARTBEAT 0 m →
      ∃ t, exec (.heartbeat n c h) s = .next t ∧ t.get R.LNK_HB.MISS m.link = 0 ∧
        t.link m.link = { s.link m.link with hbSeen := true } ∧ t.get R.LNK_HB.SUSPECT m.link = 0 ∧ onlyPort s t m.link ∧
        (s.get R.LNK_HB.SUSPECT m.link ≠ 0 →
          t.get R.FLT_SUSP_LOG.KIND = 1 ∧ t.get R.FLT_SUSP_LOG.CLEAR = 1 ∧ t.get R.FLT_SUSP_LOG.LINK = m.link ∧
          t.get R.FLT_SUSP_KNOT.KNOT = s.now % 2 ^ 64)) ∧
    (∀ (n : Nat) (c : BitVec 64) (h : ReqMsg), let m := { h with link := n, check := c }
      n < 48 → linkUp s.toBody m.link = true → crc64 (reqHdr opHEARTBEAT m ++ m.payload) ≠ m.check.toNat →
      exec (.heartbeat n c h) s = .next (s.upd (fun b => fabDiscard b R.FAB_AUTH_FAIL.COUNT opHEARTBEAT m))) ∧
    (∀ n, n < 48 → 64 ≤ s.get R.LNK_HB.MISS n → s.get R.LNK_HB.SUSPECT n = 0 →
      ∃ t, exec (.heartbeatSuspect n) s = .next t ∧ t.get R.LNK_HB.SUSPECT n = 1 ∧ t.get R.LNK_EVENT.SUSPECT_EV n = 1 ∧
        t.get R.FLT_EVENT.SUSPECT = 1 ∧ t.get R.FLT_SUSP_LOG.KIND = 1 ∧ t.get R.FLT_SUSP_LOG.LINK = n ∧
        t.get R.FLT_SUSP_LOG.CLEAR = 0 ∧ t.get R.FLT_SUSP_KNOT.KNOT = s.now % 2 ^ 64 ∧
        t = s.upd (fun b => { b with regs := t.regs, suspectAt := t.suspectAt }))) ∧
  ∀ s : State, s.pwr.off = false →
    (s.pwr.pin = none → ∀ d, d < 4 →
      exec (.photonicDieReady d) s = .next (s.setB R.MGT_READY.PHO d) ∧
      (∀ store, AMap.get 0 s.groupStart d ≠ 0 →
        (groupSettled s.toBody store d = true ∨ AMap.get 0 s.groupStart d - 1 + 16384 ≤ s.tick) →
        exec (.portGroupReady store d) s = .next (s.setB (if store then R.MGT_READY.SG else R.MGT_READY.FG) d))) ∧
    (∀ n, n < 48 → regOpen s (R.LNK_CTRL.ENABLE.at n) = true →
      exec (.linkEnable n) s = .next (s.set R.LNK_CTRL.ENABLE 1 n) ∧
      exec (.linkDisable n) s = .next (s.set R.LNK_CTRL.ENABLE 0 n)) ∧
    (bitAt (s.get R.MGT_READY.PHO) 0 = true →
      exec .mgmtPortUp s = .next ((s.set R.LNK_MGMT.FEC_LOCK 1).set R.LNK_MGMT.UP 1)) ∧
    exec .mgmtPortDown s = .next ((s.set R.LNK_MGMT.FEC_LOCK 0).set R.LNK_MGMT.UP 0)

/-! ### Requests -/

/-- A whole request whose CHECK verifies and that passes checks 2 to 8 of the header check (parts of R71, R82 and R146) joins the
waiting ones, whatever its opcode, with its plaintext and the tick of its check; no byte of the store changes and nothing is
sent. A WRITEBACK or EVICT_CLEAN that crosses a snoop of its line then answers it, and what waited for that goes on. -/
def Obligations.RequestsTakenIn : Prop :=
  ∀ (i : Instr) (op : Nat) (m : ReqMsg) (s : State) (pay : List Byte) (prev : Bool), reqRow i = some (op, m) →
    s.pwr.off = false → portTakes s.toBody m.link = true → isBurst op m = false →
    verified s.toBody op m = some (pay, prev) → headerCheck s.toBody op m pay = .pass →
    let b := enqueue (oldKey s.toBody prev) op m pay prev 0 none
    (givesUp op = false → exec i s = .next (s.upd (fun _ => b))) ∧
    (givesUp op = true → exec i s = .next (s.upd (fun _ => settle (crossSnoop b op m pay)))) ∧
    ∃ r : Req, b.olp.reqs = s.olp.reqs ++ [r] ∧ r.op = op ∧ r.m = { m with payload := pay } ∧ r.stage = .waiting ∧
      r.checked = s.tick ∧ r.id = s.olp.arrivals + 1 ∧ r.splice = 0 ∧ b.near = s.near ∧ b.far = s.far ∧ b.out = s.out

/-- A whole request that its header check turns away (parts of R71 and R82): one whose CHECK fails, or that a check discards,
changes registers alone and has no answer; one that a check refuses is answered at once, to its port, CID and tag, with the
status and SUB that the checks give, and nothing else but registers changes. (What waits may go on after a WRITEBACK or
EVICT_CLEAN.) -/
def Obligations.RequestsTurnedAway : Prop :=
  ∀ (i : Instr) (op : Nat) (m : ReqMsg) (s : State), reqRow i = some (op, m) →
    s.pwr.off = false → portTakes s.toBody m.link = true → isBurst op m = false →
    let ends := fun (b : Body) => exec i s = .next (s.upd (fun _ => if givesUp op then settle b else b))
    (verified s.toBody op m = none → ∃ b, ends b ∧ b = { s.toBody with regs := b.regs }) ∧
    (∀ pay prev c, verified s.toBody op m = some (pay, prev) → headerCheck s.toBody op m pay = .discard c →
      ∃ b, ends b ∧ b = { s.toBody with regs := b.regs }) ∧
    (∀ pay prev st sub, verified s.toBody op m = some (pay, prev) → headerCheck s.toBody op m pay = .refuse st sub →
      ∃ b r, ends b ∧ b.out = .resp r :: s.out ∧ r.status = st ∧ r.sub = sub ∧ r.link = m.link ∧ r.cid = m.cid ∧
        r.tag = m.tag ∧ r.issue = m.issue ∧ r.payload = [] ∧
        b = { s.toBody with regs := b.regs, out := b.out, drawn := b.drawn })

/-- The head of a burst (R91; the tag test is a part of R90): held for its port, or refused ST_RETRY, SUB 2, where the port already
holds 32, so that a port never comes to hold more. The segments of a refused one are discarded without an answer for 64 knots
from the refusal. -/
def Obligations.BurstHeads : Prop :=
  ∀ (i : Instr) (op : Nat) (m : ReqMsg) (s : State), reqRow i = some (op, m) → isBurst op m = true →
    s.pwr.off = false → portTakes s.toBody m.link = true →
    let same := s.olp.bursts.any (fun b => b.m.link == m.link && b.m.cid == m.cid && b.m.tag == m.tag && b.m.issue == m.issue)
    let held := (s.olp.bursts.filter (fun b => b.m.link == m.link)).length
    (same = true → exec i s = .next (s.upd (fun b => fabDiscard b R.FAB_TAG_DUP.COUNT op m))) ∧
    (same = false → held < 32 → exec i s = .next (s.upd (fun b => { b with olp := { b.olp with
      bursts := b.olp.bursts ++ [{ op := op, m := m, h := b.tick, index := 0 }] } }))) ∧
    (same = false → 32 ≤ held →
      ∃ t r, exec i s = .next t ∧ t.out = .resp r :: s.out ∧ r.status = stRETRY ∧ r.sub = 2 ∧ r.link = m.link ∧ r.cid = m.cid ∧
        r.tag = m.tag ∧ r.issue = m.issue ∧
        t.olp = { s.olp with refused := s.olp.refused ++ [(m.link, m.cid, m.tag, m.issue, s.tick)] } ∧
        t = s.upd (fun b => { b with regs := t.regs, olp := t.olp, out := t.out, drawn := t.drawn })) ∧
    (∀ (g : SegMsg) (u : State), g.link = m.link → g.cid = m.cid → g.tag = m.tag → g.issue = m.issue →
      (m.link, m.cid, m.tag, m.issue, s.tick) ∈ u.olp.refused → u.tick < s.tick + 64 →
      u.olp.bursts.find? (segOf g) = none → exec (.burstSegment g) u = .next u)

/-- The segments of a held burst (parts of R89, R90, R92 and R93). The next in order adds its bytes; the last one in order hands the
whole request to its header check, which it passes into the waiting ones; any other makes the burst malformed. A segment
without a burst is discarded where its triple was refused or answered less than 64 knots ago, and else answered
ST_ORPHAN_TAIL. Bursts whose head was taken in 64 knots ago go, each with its answer ST_BURST_TIMEOUT. -/
def Obligations.BurstSegments : Prop :=
  ∀ s : State, s.pwr.off = false →
    (∀ (g : SegMsg) (b : Burst), portTakes s.toBody g.link = true → s.olp.bursts.find? (segOf g) = some b → s.tick < b.h + 64 →
      let m := { b.m with payload := b.m.payload ++ slice g.bytes 0 g.seglen }
      let others := s.olp.bursts.filter (fun c => !segOf g c)
      let inOrder := g.index = b.index + 1 ∧ g.index + 15 ≤ b.m.len ∧ (g.last = true ∨ g.seglen = 4096)
      (inOrder → g.last = false →
        exec (.burstSegment g) s = .next (s.upd (fun d => { d with olp := { d.olp with
          bursts := d.olp.bursts.map (fun c =>
            if segOf g c then { c with m := m, index := g.index, rsvd := c.rsvd + g.rsvd } else c) } }))) ∧
      (inOrder → g.last = true → b.op = opSTORE ∨ b.op = opCODEDSTORE → ∀ pay prev,
        verify s.toBody (reqHdr b.op m) m.enc m.pid (nonce (fullIssue (s.now + 1) m.issue) m.cid false false m.tag) m.check
          m.payload = some (pay, prev) →
        headerCheck { s.toBody with olp := { s.olp with bursts := others } } b.op
          { m with rsvd := m.rsvd + (b.rsvd + g.rsvd) } pay = .pass →
        ∃ t r, exec (.burstSegment g) s = .next t ∧ t.olp.bursts = others ∧ t.olp.reqs = s.olp.reqs ++ [r] ∧ r.op = b.op ∧
          r.m = { m with payload := pay } ∧ r.stage = .waiting ∧ r.checked = s.tick ∧ t.near = s.near ∧ t.far = s.far ∧
          t.out = s.out) ∧
      (¬ inOrder → exec (.burstSegment g) s = .next (s.upd (fun d => { d with olp := { d.olp with
        bursts := d.olp.bursts.map (fun c => if segOf g c then { c with bad := true } else c) } })))) ∧
    (∀ g : SegMsg, portTakes s.toBody g.link = true → (∀ b, s.olp.bursts.find? (segOf g) = some b → b.h + 64 ≤ s.tick) →
      (s.olp.refused.any (segRecent s.toBody g) = true → exec (.burstSegment g) s = .next s) ∧
      (s.olp.refused.any (segRecent s.toBody g) = false → s.olp.orphans.any (segRecent s.toBody g) = true →
        exec (.burstSegment g) s = .next (s.count R.FAB_ORPHAN.COUNT)) ∧
      (s.olp.refused.any (segRecent s.toBody g) = false → s.olp.orphans.any (segRecent s.toBody g) = false →
        ∃ t r, exec (.burstSegment g) s = .next t ∧ t.out = .resp r :: s.out ∧ r.status = stORPHANTAIL ∧ r.link = g.link ∧
          r.cid = g.cid ∧ r.tag = g.tag ∧ r.issue = g.issue ∧
          t.olp = { s.olp with orphans := s.olp.orphans ++ [(g.link, g.cid, g.tag, g.issue, s.tick)] } ∧
          t = s.upd (fun b => { b with regs := t.regs, olp := t.olp, out := t.out, drawn := t.drawn }))) ∧
    (let old := s.olp.bursts.filter (fun b => decide (b.h + 64 ≤ s.tick));
      ∃ t, exec .burstTimeout s = .next t ∧
        t.olp = { s.olp with bursts := s.olp.bursts.filter (fun b => !decide (b.h + 64 ≤ s.tick)) } ∧
        t.out.length = s.out.length + old.length ∧
        (∀ b ∈ old, ∃ r, .resp r ∈ t.out ∧ r.status = stBURSTTIMEOUT ∧ r.link = b.m.link ∧ r.cid = b.m.cid ∧ r.tag = b.m.tag ∧
          r.issue = b.m.issue) ∧
        t = s.upd (fun b => { b with regs := t.regs, olp := t.olp, out := t.out, drawn := t.drawn }))

/-- The bounds of R88 (a part of it): in the knot of the 1,024th boundary after its header check, a request still waiting, and
2,048 knots after its admission one whose service has not begun, is answered ST_RETRY, SUB 4, forgotten, and changes no byte of
the store. What waited may then go on. -/
def Obligations.RequestTimeouts : Prop :=
  ∀ s : State, s.pwr.off = false →
    let late := s.olp.reqs.filter (fun r => r.stage == .waiting && decide (r.checked + 1024 ≤ s.tick))
    let old := s.olp.reqs.filter (fun r => r.stage != .waiting && !r.farStarted && decide (r.admitted + 2048 ≤ s.now))
    let gone := fun (l : List Req) (b : Body) =>
      b.olp.reqs.map (fun r => r.id) = (s.olp.reqs.filter (fun q => !l.any (fun r => r.id == q.id))).map (fun r => r.id) ∧
      b.out.length = s.out.length + l.length ∧
      (∀ r ∈ l, ∃ a, .resp a ∈ b.out ∧ a.status = stRETRY ∧ a.sub = 4 ∧ a.link = r.m.link ∧ a.cid = r.m.cid ∧ a.tag = r.m.tag ∧
        a.issue = r.m.issue) ∧
      b.near = s.near ∧ b.far = s.far ∧ b.dir = s.dir
    (∃ t, exec .admissionTimeout s = .next t ∧ gone late t.toBody) ∧
    ∃ b, exec .serviceTimeout s = .next (s.upd (fun _ => settle b)) ∧ gone old b

/-- A SPLICED request whose CHECK and port pass (parts of R95 to R98): its members are counted, and each, in the order of the list,
is taken by itself, an entry that repeats an earlier one being dropped. A member whose own CHECK and checks pass joins the
waiting requests under the splice, with its CID and tag, and is not answered; while SPLICE_IN is 0 every member is answered
ST_BAD_OPCODE, SUB 5. -/
def Obligations.SplicesAreTakenApart : Prop :=
  ∀ (x : SpliceMsg) (s : State), s.pwr.off = false →
    portTakes s.toBody x.hdr.link = true → crc64 (reqHdr opSPLICED x.hdr ++ spliceBody x) = x.hdr.check.toNat →
    sourceOk s.toBody x.hdr.link x.hdr.cid = true → roleAllows s.toBody x.hdr.link opSPLICED = true →
    (exec (.spliced x) s = .next (s.upd (fun b =>
      ((List.range x.members.length).zip x.members).foldl (fun d ie =>
        if (x.members.take ie.1).any (fun e => e.cid == ie.2.cid && e.tag == ie.2.tag) then d.count R.FAB_TAG_DUP.COUNT
        else spliceMember x (b.olp.arrivals + 1) d ie) (b.count R.FAB_SPLICE_MEM.COUNT x.members.length)))) ∧
    (∀ (d : Body) (ie : Nat × SpliceMember) (sid : Nat),
      let m := memberMsg x ie.1 ie.2
      (d.get R.FAB_CTRL.SPLICE_IN = 0 → ∃ r, (spliceMember x sid d ie).out = .resp r :: d.out ∧ r.status = stBADOPCODE ∧
        r.sub = 5 ∧ r.cid = ie.2.cid ∧ r.tag = ie.2.tag ∧ (spliceMember x sid d ie).olp = d.olp) ∧
      (∀ pay prev, spliceBar d x = none → x.combined = false → verified d x.op m = some (pay, prev) →
        sourceOk d m.link m.cid = true → roleAllows d m.link x.op = true →
        checks4to8 d x.op { m with rsvd := m.rsvd + spliceRsvd x ie.2 } pay (spliceFault x) = .pass →
        ∃ r, (spliceMember x sid d ie).olp.reqs = d.olp.reqs ++ [r] ∧ r.splice = sid ∧ r.m.cid = ie.2.cid ∧ r.m.tag = ie.2.tag ∧
          r.m.payload = pay ∧ r.stage = .waiting ∧ (spliceMember x sid d ie).out = d.out))

/-- Snoop answers (parts of R78, R138, R139, R142 and R152). One that verifies, from its source, unfenced and well formed, is taken as
the answer of the target whose tag it names: the target is no longer awaited, and the data of a DIRTY answer stays with the round.
One whose CHECK fails, and one from a fenced client, changes registers alone. A round with no answer outstanding completes, and
what waited for it goes on. A target that has not answered for RESEND × 64 knots is snooped again, with RESEND set. -/
def Obligations.SnoopRounds : Prop :=
  ∀ s : State, s.pwr.off = false →
    (∀ (m : RespMsg),
      let chk := verify s.toBody (respWords { m with op := opSNOOPRESP }) m.enc m.pid
        (nonce (fullIssue s.now m.issue) m.cid false true m.tag) m.check m.payload
      let mine := fun (o : SnoopOut) => o.cid == m.cid && o.link == m.link && o.tags.contains (m.tag, m.issue)
      (chk = none → ∃ t, exec (.snoopResp m) s = .next t ∧ t = s.upd (fun b => { b with regs := t.regs })) ∧
      (∀ pay prev, chk = some (pay, prev) → sourceOk s.toBody m.link m.cid = true → cidFenced s.toBody m.cid = true →
        ∃ t, exec (.snoopResp m) s = .next t ∧ t = s.upd (fun b => { b with regs := t.regs })) ∧
      (∀ (pay : List Byte) (prev : Bool) (r : Round) (o : SnoopOut), chk = some (pay, prev) →
        sourceOk s.toBody m.link m.cid = true → cidFenced s.toBody m.cid = false → snoopRespOk { m with payload := pay } = true →
        s.dir.rounds.find? (fun r => r.waiting.any mine) = some r → r.waiting.find? mine = some o →
        ∃ t r', exec (.snoopResp m) s = .next t ∧
          t.dir = { s.dir with rounds := s.dir.rounds.map (fun q => if q.id = r.id then r' else q) } ∧
          r'.waiting = r.waiting.filter (fun q => q != o) ∧ r'.data = (if m.arg % 4 = 2 then some pay else r.data) ∧
          r'.id = r.id ∧ r'.line = r.line ∧ r'.purpose = r.purpose ∧
          t = s.upd (fun b => { b with regs := t.regs, dir := t.dir }))) ∧
    (∀ (rid : Nat), exec (.snoopRoundComplete rid) s =
      .next (if s.dir.rounds.any (fun r => r.id == rid && r.waiting.isEmpty) then s.upd settle else s)) ∧
    (∀ (r : Round) (o : SnoopOut) (e : DirEntry), s.dir.rounds.find? (fun q => q.id == r.id) = some r →
      r.waiting.find? (fun q => q.cid == o.cid) = some o → entryOf s.toBody r.line = some e → o.tags ≠ [] →
      o.sentAt + max 1 (s.get R.DIR_CTRL.RESEND) * 64 ≤ s.tick → (snoopTags s.toBody o.link).length < 4096 →
      ∃ t m, exec (.snoopResend r.id o.cid) s = .next t ∧
        t.out = .req (if r.purpose.snoop.1 then opSNOOPSHARE else opSNOOPINV) m :: s.out ∧
        m.link = o.link ∧ m.cid = o.cid ∧ m.pid = e.pid ∧ m.space = e.space ∧ m.addr = e.raddr ∧ m.cls = r.cls ∧
        m.issue = s.now % 2 ^ 24 ∧ m.arg = b2n r.purpose.snoop.2 + 2 ∧
        t.dir.rounds = s.dir.rounds.map (fun q => if q.id = r.id then { r with waiting := r.waiting.map (fun q =>
          if q = o then { o with tags := o.tags ++ [(m.tag, s.now % 2 ^ 24)], sentAt := s.tick, tries := o.tries + 1 } else q) }
          else q) ∧
        t.dir.entries = s.dir.entries ∧ t.near = s.near ∧ t.far = s.far)

/-- Answers of other Helaks and of the sleds (parts of R71, R81, R86, R88, R359 and R395). The one that names an outstanding request of
its port by opcode, tag and issue knot, and whose CHECK verifies, is taken by the purpose of that request, and what waited for
it goes on; one that names none changes nothing of its own. A peer request unanswered for 4,096 knots raises a suspicion: votes,
inquiries and decisions are forgotten, a delta is sent again. A sled's answer is taken off what was asked; ST_INTERNAL, ST_ALIGN
and ST_BAD_OPCODE arm the failure of its position. -/
def Obligations.PeerAndSledAnswers : Prop :=
  ∀ s : State, s.pwr.off = false →
    (∀ (m : RespMsg), peerMatch s.toBody m = none → exec (.peerResponse m) s = .next (s.upd (fun b => settle (seizeProgress b)))) ∧
    (∀ (m : RespMsg) (p : PeerOut) (pay : List Byte) (prev : Bool), peerMatch s.toBody m = some p →
      verify s.toBody (respWords m) m.enc m.pid (nonce p.knot m.cid true true m.tag) m.check m.payload = some (pay, prev) →
      m.hid = p.hid → m.pid = p.pid → peerPayOk (oldKey s.toBody prev) p m.status pay.length = true → m.status ≠ stFENCED →
      exec (.peerResponse m) s =
        .next (s.upd (fun b => settle (seizeProgress (settle (peerGot (oldKey b prev) p m.status m.sub pay)))))) ∧
    (∀ (link tag : Nat) (p : PeerOut), s.peers.find? (fun p => !p.waits && p.link == link && p.tag == tag) = some p →
      (s.now < p.knot + 4096 → exec (.peerRequestLost link tag) s = .next (s.upd (fun b => settle (seizeProgress b)))) ∧
      (p.knot + 4096 ≤ s.now →
        let b := peerDone (suspicion s.toBody 3 0x3F true p.hid false) p
        (p.purpose = .vote ∨ p.purpose = .inquire ∨ (∃ o i x, p.purpose = .decide o i x) →
          exec (.peerRequestLost link tag) s = .next (s.upd (fun _ => settle (seizeProgress b)))) ∧
        ((∃ o h, p.purpose = .delta o h) → exec (.peerRequestLost link tag) s = .next (s.upd (fun _ =>
          settle (seizeProgress (peerSend b p.hid p.op p.addr p.arg p.pid p.payload p.purpose))))))) ∧
    (∀ (n : Nat) (h : RespMsg),
      let m := { h with link := n }
      let asked := s.sto.asked.find? (fun o =>
        o.sent && o.m.link == m.link && o.m.tag == m.tag && o.m.issue == m.issue && o.op == m.op)
      (asked = none → exec (.sledResponse n h) s = .next (s.upd settle)) ∧
      (∀ o, asked = some o → m.enc = false → crc64 (respWords m ++ m.payload) = m.check.toNat →
        let rest := { s.toBody with sto := { s.sto with asked := s.sto.asked.filter (fun q => q.id != o.id) } }
        (m.status = stOK ∨ m.status = stUNCORRECTABLE →
          exec (.sledResponse n h) s = .next (s.upd (fun _ => settle (farAnswer rest o.id m.status)))) ∧
        (m.status = stINTERNAL ∨ m.status = stALIGN ∨ m.status = stBADOPCODE →
          exec (.sledResponse n h) s =
            .next (s.upd (fun _ => settle (farAnswer (rest.arm (.posFail o.pos 3)) o.id m.status))))))

/-- Accumulators (R209): two combine by adding VALUE modulo 2^312 and by the OR of their flags, an ACC image enters in this
way, and any grouping and any order of terms and of combinations gives the same accumulator. The value that a group of exact
adds leaves does not depend on their order, and an integer add wraps. -/
def Obligations.ExactAddsIgnoreOrder : Prop :=
  (∀ a b : LAcc, ofSigned 312 (a.comb b).v = (ofSigned 312 a.v + ofSigned 312 b.v) % 2 ^ 312 ∧
    (a.comb b).nan = (a.nan || b.nan) ∧ (a.comb b).pinf = (a.pinf || b.pinf) ∧ (a.comb b).ninf = (a.ninf || b.ninf) ∧
    (a.comb b).tiny = (a.tiny || b.tiny) ∧ EV.into a (.img b) = a.comb b) ∧
  (∀ a b c : LAcc, (a.comb b).comb c = a.comb (b.comb c) ∧ a.comb b = b.comb a) ∧
  (∀ (a : LAcc) (xs ys : List LAcc), xs.Perm ys → xs.foldl LAcc.comb a = ys.foldl LAcc.comb a) ∧
  (∀ (a : LAcc) (xs ys : List Machine.Num), xs.Perm ys → xs.foldl LAcc.term a = ys.foldl LAcc.term a) ∧
  (∀ (ty rnd m : Nat) (as bs : List Addend), as.Perm bs → addRound ty rnd m as = addRound ty rnd m bs) ∧
  (∀ xs ys : List Machine.Num, (xs ++ ys).foldl LAcc.term {} = LAcc.comb (xs.foldl LAcc.term {}) (ys.foldl LAcc.term {})) ∧
  (∀ ty rnd m a b : Nat, ty < 4 → a + b < 2 ^ 64 →
    addRound ty rnd m [.val a, .val b] = (m + a + b) % 2 ^ (8 * atomSize ty))

/-- The elements of a microscaled block (R204), under any scale but 0xFF. An MXINT8 element (code 0xA) is an 8-bit two's
complement q, from -128 to 127: its element value is q × 2^-6, from -2 to 1.984375, and the block's scale 2^(E - 127)
multiplies it. An element of MXFP8 E4M3 (code 5) is NaN in one pattern, one of E5M2 (code 6) is NaN or infinite, by itself,
whatever the scale; every other is finite. -/
def Obligations.MicroscaledElements : Prop :=
  ∀ (elems : List Byte) (scale i : Nat) (b : Byte), elems.length = 32 → scale < 0xFF → elems[i]? = some b →
    ((mxDec 0xA elems scale)[i]? = some (.fin (decide (b.toInt < 0)) b.toInt.natAbs ((-6) + ((scale : Int) - 127))) ∧
      -2 * 2 ^ 6 ≤ b.toInt ∧ b.toInt ≤ 2 * 2 ^ 6 - 1) ∧
    (if b.toNat % 128 = 127 then (mxDec 5 elems scale)[i]? = some .nan
      else ∃ neg m e, (mxDec 5 elems scale)[i]? = some (.fin neg m e)) ∧
    (if 0x7C < b.toNat % 128 then (mxDec 6 elems scale)[i]? = some .nan
      else if b.toNat % 128 = 0x7C then (mxDec 6 elems scale)[i]? = some (.inf (decide (128 ≤ b.toNat)))
      else ∃ neg m e, (mxDec 6 elems scale)[i]? = some (.fin neg m e))

/-- What a request that nothing holds up does at its place (R75, R76, R143), on one piece of one page, no line of which is
lost. A STORE writes its payload; a LOAD returns the home's bytes and changes nothing; LOAD_SHARED and LOAD_OWN of a line
that nobody holds make its client a sharer, or the owner; an atomic returns the old value and leaves the result; an
ATOMIC_ADD_EXACT that is the first of its group leaves the rounded sum of the group. -/
def Obligations.RequestEffects : Prop :=
  ∀ (s : Body) (r : Req) (loc sga n : Nat), r.segs = some [(loc, sga, n)] → 0 < n → loc % 65536 + n ≤ 65536 →
    (linesOf loc n).any (lineLost s) = false → r.keep = [] →
    (r.op = opSTORE → r.m.payload.length = n → ∀ g, regionOfLoc s loc = some g → isCompanion s g = false →
      effect s r = (stOK, 0, 0, [], s.wr loc r.m.payload)) ∧
    (r.op = opLOAD ∨ r.op = opLOADNA → effect s r = (stOK, 0, r.m.len, s.rd loc n, s)) ∧
    (r.op = opLOADSHARED ∨ r.op = opLOADOWN → entryOf s (loc / 128) = none →
      ∃ t e, effect s r = (stOK, 0, r.m.len, s.rd loc n, t) ∧ entryOf t (loc / 128) = some e ∧
        e.st = (if r.op = opLOADOWN then .x else .s) ∧ e.ptrs = [(r.m.cid, r.m.link)] ∧ e.pid = r.m.pid ∧
        e.raddr = r.m.addr ∧ e.space = r.m.space ∧ (∀ l, l ≠ loc / 128 → entryOf t l = entryOf s l) ∧
        t.near = s.near ∧ t.far = s.far) ∧
    (r.op ∈ [opCAS, opSWAP, opMIN, opMAX, opAND, opOR, opXOR] →
      let sz := atomSize (atomTy r.m)
      let old := leNat (s.rd loc sz)
      let v := atomResult r.op (atomTy r.m) old (le r.m.payload 0 sz) (le r.m.payload 8 sz)
      ∃ len pay t, effect s r = (stOK, 0, len, pay, t) ∧
        t = (if r.op = opCAS ∧ v = old then s else s.wr loc (leBytes sz v)) ∧
        (r.op = opCAS ∨ r.op = opSWAP ∨ atomRet r.m = true → len = 1 ∧ pay = slice (leBytes sz old) 0 8)) ∧
    (r.op = opADDEXACT → groupDone s r.admitted loc (atomTy r.m) (atomRnd r.m) = none →
      let sz := atomSize (atomTy r.m)
      let old := leNat (s.rd loc sz)
      let v := addRound (atomTy r.m) (atomRnd r.m) old (groupAdds s r.admitted loc (atomTy r.m) (atomRnd r.m))
      ∃ len pay t, effect s r = (stOK, 0, len, pay, t) ∧ t.near = (s.wr loc (leBytes sz v)).near ∧
        t.far = (s.wr loc (leBytes sz v)).far ∧ groupDone t r.admitted loc (atomTy r.m) (atomRnd r.m) = some old ∧
        (atomRet r.m = true → len = 1 ∧ pay = slice (leBytes sz old) 0 8))

/-! ### Address translation and the directory -/

/-- INVALIDATE_PAGE, _RUN, _PARTITION and _ALL (R117, R118): in force from the boundary that comes next, unless one runs
(OVERRUN) or SIZE or COUNT is malformed (BADCMD). At that boundary exactly the cached translations in scope are gone, and
the walks in scope begin again with nothing read. INVALIDATION_COMPLETE ends it once nothing in its scope that was admitted
before is still unanswered, and not before. -/
def Obligations.CacheInvalidations : Prop :=
  (∀ s : State, s.pwr.off = false → regOpen s (R.XLT_INV_CMD.SCOPE.at 0) = true →
    let cva := s.get R.XLT_INV_ADDR.CVA * 65536
    let starts := fun (v : InvScope) => (s.upd (fun b => { b with xlt := { b.xlt with inv := some (v, b.now + 1) } })).set
      R.XLT_INV_STATUS.BUSY 1
    (s.get R.XLT_INV_STATUS.BUSY ≠ 0 → ∀ pid size count,
      exec (.invalidatePage pid size) s = .next (s.set R.XLT_INV_STATUS.OVERRUN 1) ∧
      exec (.invalidateRun pid size count) s = .next (s.set R.XLT_INV_STATUS.OVERRUN 1) ∧
      exec (.invalidatePartition pid) s = .next (s.set R.XLT_INV_STATUS.OVERRUN 1) ∧
      exec .invalidateAll s = .next (s.set R.XLT_INV_STATUS.OVERRUN 1)) ∧
    (s.get R.XLT_INV_STATUS.BUSY = 0 → ∀ pid size count, pid < 1024 → count < 2 ^ 26 →
      (size < 3 → exec (.invalidatePage pid size) s =
        .next (starts { scope := 0, pid := pid, size := size, count := 0, cva := cva })) ∧
      (size < 3 → 0 < count → exec (.invalidateRun pid size count) s =
        .next (starts { scope := 1, pid := pid, size := size, count := count, cva := cva })) ∧
      exec (.invalidatePage pid 3) s = .next (s.set R.XLT_INV_STATUS.BADCMD 1) ∧
      (size < 4 → size = 3 ∨ count = 0 → exec (.invalidateRun pid size count) s = .next (s.set R.XLT_INV_STATUS.BADCMD 1)) ∧
      exec (.invalidatePartition pid) s = .next (starts { scope := 2, pid := pid, size := 0, count := 0, cva := cva }) ∧
      exec .invalidateAll s = .next (starts { scope := 3, pid := 0, size := 0, count := 0, cva := cva }))) ∧
  (∀ (b : Body) (v : InvScope), b.xlt.inv = some (v, b.now) →
    (∀ e, e ∈ (invBoundary b).xlt.tlb ↔
      e ∈ b.xlt.tlb ∧ v.covers e.pid (e.page * 2 ^ pageLog e.size) ((e.page + 1) * 2 ^ pageLog e.size) = false) ∧
    (invBoundary b).xlt.walks = b.xlt.walks.map (fun w =>
      if v.covers w.pid (w.page * 65536) ((w.page + 1) * 65536) then { w with started := b.now, keep := [], res := none } else w) ∧
    (invBoundary b).regs = b.regs) ∧
  (∀ s : State, s.pwr.off = false → ∀ v k, s.xlt.inv = some (v, k) →
    (k ≤ s.now → invHolds s.toBody v k = false →
      ∃ t, exec .invalidationComplete s = .next t ∧ t.xlt.inv = none ∧ t.get R.XLT_INV_STATUS.BUSY = 0 ∧
        t.get R.XLT_INV_STATUS.DONE_KNOT = s.now % 2 ^ R.XLT_INV_STATUS.DONE_KNOT.w ∧ t.xlt.tlb = s.xlt.tlb) ∧
    (s.now < k ∨ invHolds s.toBody v k = true → exec .invalidationComplete s = .next s))

/-- WALK_COMPLETE (R107 to R113): a walk whose reads have found a leaf loads it into the cache, one that met a fault answers
what waits for its page, and then all that waited goes on; a walk whose reads are still to come is left alone. The cache keeps
to the partition's share, 64 entries a unit; a leaf loaded while there is room joins the entries, pinned for a CLEAT page while
fewer than half the share are; what is pinned, and what other partitions hold, stays. HOT_RING_ENABLE (R127) takes a ring inside
the partition's extents alone. ACCESS_DECAY (R125) halves what its sweep visits, once a boundary. -/
def Obligations.PageWalks : Prop :=
  (∀ (s : State) (pid page : Nat), s.pwr.off = false →
    (s.xlt.walks.find? (fun w => w.pid == pid && w.page == page) = none → exec (.walkComplete pid page) s = .next s) ∧
    (∀ w, s.xlt.walks.find? (fun w => w.pid == pid && w.page == page) = some w →
      let old := { s.toBody with xlt := { s.xlt with walks := s.xlt.walks.filter (fun v => v != w) } }
      (w.res = none → exec (.walkComplete pid page) s = .next s) ∧
      (∀ l n, w.res = some (.leaf l n) → exec (.walkComplete pid page) s =
        .next (s.upd (fun _ => settle (walkWake ((tlbInsert old pid (page * 65536) l).count R.XLT_WALK_READS.COUNT n))))) ∧
      (∀ e n, w.res = some (.err e n) → exec (.walkComplete pid page) s =
        .next (s.upd (fun _ => settle (walkWake (walkFault (old.count R.XLT_WALK_READS.COUNT n) w e))))))) ∧
  (∀ (b : Body) (pid cva : Nat) (l : Leaf) (d : PartDef), partDef b pid = some d →
    let t := tlbInsert b pid cva l
    let own := fun (c : Body) => c.xlt.tlb.filter (fun e => e.pid == pid)
    let pinned := (own b).filter (fun e => e.pinned)
    let page := cva >>> pageLog l.size
    ((own b).length < d.xltShare * 64 → (∀ e ∈ own b, e.size = l.size → e.page ≠ page) → t.xlt.tlb = b.xlt.tlb ++ [
      { pid := pid, page := page, size := l.size, sga := l.sga, perm := l.perm, used := b.xlt.clock,
        pinned := l.cleat && decide (pinned.length * 2 < d.xltShare * 64) }]) ∧
    (∀ e ∈ b.xlt.tlb, e.pid ≠ pid ∨ e.pinned = true → e ∈ t.xlt.tlb) ∧
    ((own b).length ≤ d.xltShare * 64 → (own t).length ≤ d.xltShare * 64) ∧
    t = { b with xlt := t.xlt }) ∧
  (∀ (b : Body) (w : Walk) (e : XErr) (r : Req) (p : Nat × Nat),
    b.olp.reqs.filter (fun r => r.stage == .walk && r.m.pid == w.pid) = [r] → r.op < opSEIZEPREPARE → r.m.space = false →
    (cutPages r.m.addr (reqLen r.op r.m) 18).find? (fun p => (tlbFind b r.m.pid p.1).isNone) = some p →
    walkFault b w e = (if p.1 >>> 16 = w.page then refuse (xltFault b e 0 w.pid r.m.cid p.1) r e.status e.sub else b)) ∧
  (∀ s : State, s.pwr.off = false →
    (∀ pid ring sizeLog, regOpen s (R.XLT_PART_HOT.EN.at 0) = true → pidOk s.toBody pid = true → ring < 2 ^ R.XLT_PART_HOT.RING.w →
      sizeLog < 2 ^ R.XLT_PART_HOT.SIZE_LOG.w →
      ∃ t, exec (.hotRingEnable pid ring sizeLog) s = .next t ∧ t.get R.XLT_PART_HOT.RING 0 pid = ring ∧
        t.get R.XLT_PART_HOT.SIZE_LOG 0 pid = sizeLog ∧
        t.get R.XLT_PART_HOT.EN 0 pid =
          (if 12 ≤ sizeLog ∧ sizeLog ≤ 24 ∧ ringPlaced s.toBody pid (ring * 4096) (2 ^ sizeLog) = true then 1 else 0) ∧
        t = s.upd (fun b => { b with regs := t.regs })) ∧
    (s.xlt.decayed = s.now + 1 → exec .accessDecay s = .next s) ∧
    (s.xlt.decayed ≠ s.now + 1 →
      let n := 2 ^ min 28 (max 12 (s.get R.XLT_CTRL.DECAY_LOG))
      ∃ t, exec .accessDecay s = .next t ∧ t.xlt.decayed = s.now + 1 ∧
        (∀ u c, (u, c) ∈ s.xlt.acc → u % n ≠ s.now % n → c ≠ 0 → (u, c) ∈ t.xlt.acc) ∧
        (∀ u c, (u, c) ∈ s.xlt.acc → u % n = s.now % n → c % 128 / 2 ≠ 0 →
          ∃ h, (u, c % 128 / 2 + h * 128) ∈ t.xlt.acc ∧
            h = (if c % 128 / 2 < s.get R.XLT_CTRL.HOT_THRESH / 2 then 0 else c / 128)) ∧
        t.xlt.acc.length ≤ s.xlt.acc.length ∧ t = s.upd (fun b => { b with xlt := t.xlt })))

/-- The directory's upkeep: BACKGROUND_EVICT (R150) back-invalidates the least recently used entry of a set where BG_EVICT asks
for more free ways; a back-invalidation frees the way at once where nobody holds the entry, and otherwise starts a round of
CLASS 0 to all who do. RECLAIM_SWEEP_END (R151) ends a sweep that has visited every set, and the verdicts before its start are
swept; a lost line leaves L when it is accepted (R153). -/
def Obligations.DirectoryUpkeep : Prop :=
  (∀ (s : State) (setNo : Nat), s.pwr.off = false →
    let b := ((waysOf s.toBody setNo).map (fun e => e.line)).foldl reclaim s.toBody
    let held := (waysOf b setNo).filter (fun e => match roundOn b e.line with | some r => r.purpose != .backinv | none => true)
    let oldest := lruEntry (held.filter (fun e => e.st != .l && (roundOn b e.line).isNone))
    (b.get R.DIR_CTRL.BG_EVICT = 0 ∨ held.length + b.get R.DIR_CTRL.FREE_WAYS ≤ 16 ∨ oldest = none →
      exec (.backgroundEvict setNo) s = .next (s.upd (fun _ => b))) ∧
    (∀ e, b.get R.DIR_CTRL.BG_EVICT = 1 → 16 < held.length + b.get R.DIR_CTRL.FREE_WAYS → oldest = some e →
      exec (.backgroundEvict setNo) s = .next (s.upd (fun _ => (backInvalidate b e none).2)))) ∧
  (∀ (b : Body) (e : DirEntry) (by_ : Option Nat),
    let t := (backInvalidate b e by_).2
    t.near = b.near ∧ t.far = b.far ∧
    (roundTargets b e none = [] → (backInvalidate b e by_).1 = none ∧ entryOf t e.line = none ∧
      (∀ l, l ≠ e.line → entryOf t l = entryOf b l) ∧ t.dir.rounds = b.dir.rounds) ∧
    (roundTargets b e none ≠ [] → e.reissue = none → ∃ r, t.dir.rounds = b.dir.rounds ++ [r] ∧ r.line = e.line ∧
      r.purpose = .backinv ∧ r.cls = false ∧ (backInvalidate b e by_).1 = some r.id ∧
      r.waiting.map (fun o => (o.cid, o.link)) = roundTargets b e none ∧ t.dir.entries = b.dir.entries)) ∧
  (∀ s : State, s.pwr.off = false →
    (s.dir.sweep = none → exec .reclaimSweepEnd s = .next s) ∧
    (∀ w, s.dir.sweep = some w → w.next < 2 ^ 22 → exec .reclaimSweepEnd s = .next s) ∧
    (∀ w, s.dir.sweep = some w → 2 ^ 22 ≤ w.next →
      ∃ t, exec .reclaimSweepEnd s = .next t ∧
        t.dir.sweep = (if s.dir.nextCids = [] ∧ s.dir.nextAccept = [] then none
          else some { next := 0, cids := s.dir.nextCids, accept := s.dir.nextAccept, started := s.now }) ∧
        t.fences.length = s.fences.length ∧ (∀ f ∈ s.fences, f.knot ≤ w.started → { f with swept := true } ∈ t.fences) ∧
        (∀ f ∈ s.fences, w.started < f.knot → f ∈ t.fences) ∧
        t = s.upd (fun b => { b with dir := t.dir, fences := t.fences }))) ∧
  (∀ (b : Body) (line : Nat),
    (lineLost b line = true → entryOf (actNow b (.acceptLine line)) line = none) ∧
    (lineLost b line = false → actNow b (.acceptLine line) = b))

/-! ### Orders for the next boundary -/

/-- A command that orders something for the next boundary arms it (R23), through open registers, and changes nothing else;
one that would start a revocation while one runs is refused BUSY (R388). Through a closed or gated register nothing happens
(R490, R499). Some registers keep what was written: the base of a window, whose staged size is taken with it (R106), a directory
look-up and a look-up of a seizing (R134, R338), the ENABLE of a queue (R196), the modes of shadowing (R367), and the address of
the debug window (R462). -/
def Obligations.OrdersAreArmed : Prop :=
  (∀ (i : Instr) (s : State) (ok : Bool) (offs : List Nat) (a : Act), orderRow s.toBody i = some (ok, offs, a) →
    s.pwr.off = false →
    (ok = true → (∀ o ∈ offs, regOpen s o = true) → exec i s = .next (s.arm a)) ∧
    ((∃ o ∈ offs, regOpen s o = false) → exec i s = .next s)) ∧
  (∀ s : State, s.pwr.off = false → s.get R.PRT_CMD_STATUS.BUSY ≠ 0 →
    let busy := (s.set R.PRT_CMD_STATUS.ERR 1).set R.PRT_CMD_STATUS.CAUSE 1
    (regOpen s (R.PRT_HITCH_CMD.OP.at 0) = true → ∀ c p, exec (.unhitch c p) s = .next busy) ∧
    (regOpen s (R.PRT_GRANT_CMD.OP.at 0) = true → ∀ c p x z,
      exec (.revokeGrant c p x) s = .next busy ∧ exec (.revokeExtent p x z) s = .next busy)) ∧
  (∀ s : State, s.pwr.off = false →
    (regOpen s (R.XLT_WIN_BASE.BASE.at 0) = true → ∀ pid win v wr base, pidOk s.toBody pid = true → win < 64 →
      exec (.rebase pid win v wr base) s =
        .next ((((s.set R.XLT_WIN_BASE.V (b2n v) win pid).set R.XLT_WIN_BASE.WR (b2n wr) win pid).set
          R.XLT_WIN_BASE.BASE base win pid).arm
          (.rebase pid win { v := v, wr := wr, base := base, size := s.get R.XLT_WIN_SIZE.SIZE win pid }))) ∧
    (regOpen s (R.DIR_LOOK_LINE.LINE.at 0) = true → ∀ line, line < 2 ^ 38 →
      exec (.dirLookup line) s =
        .next (((s.set R.DIR_LOOK_LINE.LINE line).set R.DIR_LOOK_LINE.DONE 0).arm (.dirLook line))) ∧
    (regOpen s (R.TXN_SEL.OCID.at 0) = true → ∀ ocid sid, ocid < 8192 → sid < 2 ^ 24 →
      exec (.txnLookup ocid sid) s = .next (((s.set R.TXN_SEL.OCID ocid).set R.TXN_SEL.ID sid).arm (.txnLook ocid sid))) ∧
    (regOpen s (R.QUE_CTRL.ENABLE.at 0) = true → ∀ pid q d, partDef s.toBody pid = some d → q < d.nq →
      exec (.queueEnable pid q) s = .next ((s.set R.QUE_CTRL.ENABLE 1 0 (pid * 64 + q)).arm (.queEnable (pid * 64 + q))) ∧
      exec (.queueDisable pid q) s = .next ((s.set R.QUE_CTRL.ENABLE 0 0 (pid * 64 + q)).arm (.queDisable (pid * 64 + q)))) ∧
    (regOpen s (R.STO_SHADOW.MODE.at 0) = true → ∀ src pid n,
      let go := fun (m : Nat) => (((s.set R.STO_SHADOW.SRC_HID src).set R.STO_SHADOW.PID pid).set R.STO_SHADOW.NTRIAL n).arm
        (.shadowMode m)
      exec (.shadowIdle src pid n) s = .next (go 0) ∧ exec (.shadowKeep src pid n) s = .next (go 1) ∧
      exec (.shadowCopy src pid n) s = .next (go 2) ∧ exec (.shadowRecon src pid n) s = .next (go 3)) ∧
    (regOpen s (R.SEC_DBG_ADDR.UNIT.at 0) = true → dbgAddrOpen s = true → ∀ unit addr,
      exec (.debugReadSelect unit addr) s = .next (((s.set R.SEC_DBG_ADDR.UNIT unit).set R.SEC_DBG_ADDR.ADDR addr).arm .dbgRead)))

/-- What orders do when their boundary comes: a rebase puts the window's new base and size in force, no other window's, and
counts GEN (R106); a new root is taken from a table in a PIN or NEAR region of this home alone, and the partition's cached
translations are gone (R119); a queue leaves OFF, enters DRAIN, and comes back from ERROR (R196); a hitch is added, changed and
refused (R377); a grant takes effect on an extent that is not fenced (R380). -/
def Obligations.OrdersTakeEffect : Prop :=
  ∀ s : Body,
    (∀ pid w (win : Win), w < 64 →
      let t := actNow s (.rebase pid w win)
      winOf t pid w = win ∧ winSize t pid w = win.size * 65536 ∧
      (∀ p x, x < 64 → (p, x) ≠ (pid, w) → winOf t p x = winOf s p x) ∧
      t.get R.XLT_WIN_BASE.GEN w pid = (s.get R.XLT_WIN_BASE.GEN w pid + 1) % 2 ^ R.XLT_WIN_BASE.GEN.w ∧
      t = { s with regs := t.regs, xlt := { s.xlt with wins := t.xlt.wins } }) ∧
    (∀ pid root, (tableLoc s (root * 4096) = none → actNow s (.root pid root) = s) ∧
      ((tableLoc s (root * 4096)).isSome = true →
        let t := actNow s (.root pid root)
        t.get R.XLT_PART_ROOT.V 0 pid = 1 ∧ t.get R.XLT_PART_ROOT.ROOT 0 pid = root % 2 ^ R.XLT_PART_ROOT.ROOT.w ∧
        t.xlt.roots = s.xlt.roots ++ [(pid, s.now)] ∧ (∀ e, e ∈ t.xlt.tlb ↔ e ∈ s.xlt.tlb ∧ e.pid ≠ pid))) ∧
    (∀ key, let st := s.get R.QUE_STATUS.STATE 0 key
      (st = 0 → (queCore s key).isSome = true → (actNow s (.queEnable key)).get R.QUE_STATUS.STATE 0 key = 1) ∧
      (st = 1 ∨ st = 3 → (actNow s (.queDisable key)).get R.QUE_STATUS.STATE 0 key = 2) ∧
      (st = 3 → (actNow s (.queResume key)).get R.QUE_STATUS.STATE 0 key = 1 ∧
        (actNow s (.queResume key)).get R.QUE_STATUS.CAUSE 0 key = 0) ∧
      (st ≠ 3 → actNow s (.queResume key) = s) ∧ (st ≠ 0 → actNow s (.queEnable key) = s)) ∧
    (∀ cid pid stages sga,
      (partDef s pid = none → (actNow s (.hitch 1 cid pid stages sga)).get R.PRT_CMD_STATUS.CAUSE = 10) ∧
      ((partDef s pid).isSome = true → (hitchOf s cid pid).isSome = true →
        (actNow s (.hitch 1 cid pid stages sga)).get R.PRT_CMD_STATUS.CAUSE = 2) ∧
      ((partDef s pid).isSome = true → hitchOf s cid pid = none → s.prt.hitches.length < 16384 →
        ∃ h, hitchOf (actNow s (.hitch 1 cid pid stages sga)) cid pid = some h ∧ h.stages = stages ∧ h.sgaOk = sga ∧
          h.state = 1 ∧ ∀ g ∈ s.prt.hitches, g.idx ≠ h.idx) ∧
      (hitchOf s cid pid = none → (actNow s (.hitch 3 cid pid stages sga)).get R.PRT_CMD_STATUS.CAUSE = 3)) ∧
    (∀ cid pid x rights h e, hitchOf s cid pid = some h → h.state = 1 → e.fenced = false →
      (s.part pid).cur.exts.find? (fun e => e.idx == x) = some e → grantOf s cid pid x = none → s.prt.grants.length < 65536 →
      ∃ g, grantOf (actNow s (.grant cid pid x rights)) cid pid x = some g ∧ g.rights = rights ∧ g.fenced = false)

/-! ### Step cores, semaphores and work queues -/

/-- SET and ADD of a semaphore, by STP_SEM_FORCE or by its own word (R178): in force at the next boundary, for allocated
semaphores alone. There each semaphore takes the last SET's value, and the ADDs go on top, modulo 2^32; no other semaphore
changes. A change that is alone in its core leaves the value that it found in STP_FORCE_LOG. -/
def Obligations.SemaphoreForces : Prop :=
  (∀ (s : State) (c sem v : Nat), s.pwr.off = false → c < 16 →
    let armed := fun (add : Bool) => s.upd (fun b => b.setCore c { b.core c with forces := (b.core c).forces ++ [(sem, add, v)] })
    (regOpen s (R.STP_SEM_FORCE.OP.at c) = true → (semDef s.toBody c sem).isSome = true →
      exec (.set c sem v) s = .next (armed false) ∧ exec (.add c sem v) s = .next (armed true)) ∧
    (regOpen s (R.SEM.VALUE.at (4096 * c + sem)) = true → (semDef s.toBody c sem).isSome = true →
      exec (.semValueWrite c sem v) s = .next (armed false)) ∧
    (semDef s.toBody c sem = none →
      exec (.set c sem v) s = .next s ∧ exec (.add c sem v) s = .next s ∧ exec (.semValueWrite c sem v) s = .next s)) ∧
  (∀ (b : Body) (c : Nat), c < 16 → (∀ f ∈ (b.core c).forces, f.1 < 4096) →
    let t := forcesApply b c
    (t.core c).forces = [] ∧ t.near = b.near ∧ t.far = b.far ∧ t.que = b.que ∧
    (∀ n, n < 4096 →
      let sets := (b.core c).forces.filter (fun f => f.1 == n && !f.2.1)
      let adds := (b.core c).forces.filter (fun f => f.1 == n && f.2.1)
      (sets = [] → adds = [] → semVal t c n = semVal b c n) ∧
      (sets ≠ [] ∨ adds ≠ [] → semVal t c n =
        ((match sets.getLast? with | some f => f.2.2 | none => semVal b c n) + (adds.map (fun f => f.2.2)).sum) % 2 ^ 32)) ∧
    (∀ sem add v, (b.core c).forces = [(sem, add, v)] →
      t.get R.STP_FORCE_LOG.BEFORE c = semVal b c sem % 2 ^ R.STP_FORCE_LOG.BEFORE.w ∧ t.get R.STP_EVENT.FORCE c = 1))

/-- Waits and signals (R169, R171). Where no WAIT_TAKE is open, each wait of a core ends exactly where its semaphore has
reached its operand, serially, or its round has completed, and no semaphore changes. A WAIT_TAKE that is met takes its operand
off; one that is not holds the later ones on its semaphore. SIGNAL_ADD and SIGNAL_SUB count modulo 2^32. WAIT_LIMIT_REACHED
reports a wait that has lasted WAIT_LIMIT knots, once (R177). -/
def Obligations.WaitsAndSignals : Prop :=
  (∀ (b : Body) (c : Nat), c < 16 → (∀ w ∈ openWaits b c, ((b.ctx c w.2.1).wait w.2.2).op ≠ 2) →
    let t := evalWaits b c
    t.near = b.near ∧ t.far = b.far ∧ (∀ n, n < 4096 → semVal t c n = semVal b c n) ∧
    ∀ w ∈ openWaits b c,
      let y := (b.ctx c w.2.1).wait w.2.2
      let flag := fun (u : Body) => if w.2.2 = 0 then (u.ctx c w.2.1).wait0 else (u.ctx c w.2.1).wait1
      let met := if y.op = 1 then serialGe (semVal b c y.sem) y.operand else roundPast (semVal b c y.sem) y.operand
      flag t = (if met then true else flag b)) ∧
  (∀ (b : Body) (c x i k : Nat) (y : SyncW), c < 16 → i < 2 → openWaits b c = [(k, x, i)] → (b.ctx c x).wait i = y → y.sem < 4096 →
    y.op = 2 →
    let met := serialGe (semVal b c y.sem) y.operand
    let t := evalWaits b c
    (met = false → t = b) ∧
    (met = true → (if i = 0 then (t.ctx c x).wait0 else (t.ctx c x).wait1) = true ∧
      semVal t c y.sem = (semVal b c y.sem + 2 ^ 32 - y.operand) % 2 ^ 32 ∧ t.near = b.near ∧ t.far = b.far)) ∧
  (∀ (b : Body) (c x x' i i' k k' : Nat), openWaits b c = [(k, x, i), (k', x', i')] → k < k' →
    let y := (b.ctx c x).wait i
    let z := (b.ctx c x').wait i'
    y.op = 2 → z.op = 2 → z.sem = y.sem → serialGe (semVal b c y.sem) y.operand = false → evalWaits b c = b) ∧
  (∀ (b : Body) (c x : Nat) (y : SyncW), c < 16 → y.sem < 4096 →
    (y.op = 3 → semVal (signal b c x y) c y.sem = (semVal b c y.sem + y.operand) % 2 ^ 32) ∧
    (y.op = 4 → semVal (signal b c x y) c y.sem = (semVal b c y.sem + 2 ^ 32 - y.operand) % 2 ^ 32)) ∧
  (∀ (s : State) (c x : Nat) (v : Ctx), s.pwr.off = false → s.obs.syncs = [] → c < 16 → x < 19 → s.ctx c x = v →
    (s.get R.STP_CTRL.WAIT_LIMIT c = 0 ∨ v.phase ≠ .waiting → exec (.waitLimitReached c x) s = .next s) ∧
    (0 < s.get R.STP_CTRL.WAIT_LIMIT c → v.waits 0 = true → v.waits 1 = false → v.long0 = false →
      v.waitFrom + s.get R.STP_CTRL.WAIT_LIMIT c ≤ s.now →
      ∃ t, exec (.waitLimitReached c x) s = .next t ∧ t.get R.STP_EVENT.WAIT_LONG c = 1 ∧ (t.ctx c x).long0 = true ∧
        t.get R.STP_WAIT_LOG.SEM c = (v.wait 0).sem % 2 ^ R.STP_WAIT_LOG.SEM.w ∧
        t.get R.STP_WAIT_LOG.TARGET c = (v.wait 0).operand % 2 ^ R.STP_WAIT_LOG.TARGET.w ∧
        t.get R.STP_WAIT_KNOT.KNOT c = v.waitFrom % 2 ^ R.STP_WAIT_KNOT.KNOT.w ∧
        t = s.upd (fun b => { b with regs := t.regs, cores := t.cores })))

/-- How a command comes into a context and is released (R164, R188 to R191): a fetch takes the descriptor at FI into a free
context, or reports the ring; a descriptor that its checks refuse completes, one of zeros waits; an operand block that has been
read is used; a release comes when the waits, the arrivals, the fence, the engine and the first step allow it, and not before. A
line that the core's cache misses is read and kept for the context. -/
def Obligations.CommandsAreTakenIn : Prop :=
  (∀ (s : State) (c pid q : Nat), s.pwr.off = false → c < 16 →
    let key := queKey pid q
    let fi := s.get R.QUE_IDX.FI 0 key
    let free := freeCtxs s.toBody c pid key
    (queFetches s.toBody c key = false ∨ free = [] → exec (.descriptorFetch c pid q) s = .next s) ∧
    (∀ x xs, queFetches s.toBody c key = true → fi < 2 ^ 32 → s.get R.QUE_IDX.PI 0 key = (fi + 1) % 2 ^ 32 → free = x :: xs →
      let b := s.toBody.setCore c { s.toBody.core c with starved := (s.toBody.core c).starved.filter (fun e => e.1 != key) }
      let r := fetchOne b c x key fi (s.que.rung.contains key)
      (r.1 = none → exec (.descriptorFetch c pid q) s =
        .next (s.upd (fun _ => { r.2 with que := { r.2.que with rung := r.2.que.rung.filter (fun k => k != key) } }))) ∧
      (∀ st, r.1 = some st → exec (.descriptorFetch c pid q) s = .next (s.upd (fun _ => queError r.2 key 3 st 0 fi))))) ∧
  (∀ (b : Body) (c x key k : Nat) (fresh : Bool),
    let t := ringReclaim b (ringSlot b key k)
    let r := fetchOne b c x key k fresh
    (b.que.revoked.contains key = true → r = (some stREVOKED, t)) ∧
    (b.que.revoked.contains key = false →
      (∀ st, ringRead t (ringSlot b key k) = .bad st → r = (some st, t)) ∧
      (∀ d, ringRead t (ringSlot b key k) = .bytes d →
        r.1 = none ∧ r.2.get R.QUE_IDX.FI 0 key = (k + 1) % 2 ^ 32 ∧ r.2.near = b.near ∧ r.2.far = b.far ∧ r.2.out = b.out ∧
        r.2.ctx c x = {
          phase := .fetched, pid := key / 64, queue := key % 64, idx := k, fresh := fresh, usable := b.now + 1, since := b.now,
          desc := d }) ∧
      (∀ l, ringRead t (ringSlot b key k) = .owned l → r.1 = none ∧ r.2.get R.QUE_IDX.FI 0 key = (k + 1) % 2 ^ 32 ∧
        (r.2.ctx c x).phase = .fetched ∧ (r.2.ctx c x).desc = [] ∧ r.2.near = b.near))) ∧
  (∀ (s : State) (c x : Nat) (v : Ctx), s.pwr.off = false → s.obs.syncs = [] → c < 16 → x < 19 → s.ctx c x = v → v.done = false →
    (descBytes s.toBody x v = none → exec (.descriptorUsable c x) s = .next s) ∧
    (∀ d, descBytes s.toBody x v = some (.ok d) → v.desc ≠ [] → v.fresh = false →
      let b := { s.toBody with obs := { s.obs with runNew := s.obs.runNew ++ [(c, x, v.idx, v.pid + 1024 * v.queue)] } }
      let r := descCheck (b.setCtx c x { v with desc := d, ops := slice d 40 24, usable := s.now, remote := [] }) c x
      (∀ st sub res, r.1 = some (st, sub, res) → exec (.descriptorUsable c x) s =
        .next (s.upd (fun _ => syncFlush (commandComplete c x (refuseCtx r.2 c x st sub res))))) ∧
      (d = List.replicate 64 0 →
        ∃ t, exec (.descriptorUsable c x) s = .next t ∧ (t.ctx c x).phase = .waiting ∧ (t.ctx c x).waitFrom = s.now ∧
          (t.ctx c x).ops = List.replicate 24 0 ∧ (t.ctx c x).arrivals = [] ∧ t.regs = s.regs ∧ t.near = s.near)) ∧
    (v.phase = .block → ctxWaits s.toBody v = false → v.usable < s.now → v.ops ≠ [] → v.farBad = false → v.badLines = [] →
      let t := checkOps s.toBody c x
      exec (.operandBlockRead c x) s =
        .next (s.upd (fun _ => syncFlush (if (t.ctx c x).phase = .running then commandComplete c x t else t)))) ∧
    (v.phase = .block → ctxWaits s.toBody v = true → exec (.operandBlockRead c x) s = .next s)) ∧
  (∀ (s : State) (c x : Nat) (v : Ctx), s.pwr.off = false → s.obs.syncs = [] → c < 16 → x < 19 → s.ctx c x = v →
    v.tried ≠ s.now + 1 →
    let b := s.toBody
    let hold := b.setCtx c x { v with tried := s.now + 1 }
    let free := !v.waits 0 && !v.waits 1 && v.arrivals.isEmpty && !fenceHolds b c x
    (v.phase ≠ .waiting → exec (.commandRelease c x) s = .next s) ∧
    (v.phase = .waiting →
      (quiet b = true ∨ coreReady b c = false ∨ engineReady b v.engine = false ∨ ctxWaits b v = true →
        exec (.commandRelease c x) s = .next (s.upd (fun _ => hold))) ∧
      (quiet b = false → coreReady b c = true → engineReady b v.engine = true → ctxWaits b v = false →
        (progOf v = none ∨ v.done = true → exec (.commandRelease c x) s =
          .next (s.upd (fun _ => syncFlush (if free then releaseNow b c x [] else hold)))) ∧
        (∀ f, progOf v = some f → v.done = false → v.engine ≠ 1 ∨ v.opcode ≠ 4 →
          let r := stepRun (mtxRelease (b.setCtx c x { v with phase := .running, release := s.now }) c x) c x f
          (∀ e o, r = .step e o →
            let far := if v.engine = 2 ∧ v.opcode = 0x10 then farAhead b c x f 1 2 (v.tape ++ e.cur.reverse) v.got else []
            (far = [] → exec (.commandRelease c x) s =
              .next (s.upd (fun _ => syncFlush (if free then releaseNow b c x (e.mark.getD []) else hold)))) ∧
            (far ≠ [] → exec (.commandRelease c x) s = .next (s.upd (fun _ => syncFlush (engFetch hold c x { far := far }))))) ∧
          (∀ w, r = .wants w → exec (.commandRelease c x) s =
            .next (s.upd (fun _ => syncFlush (engFetch hold c x (if free then w else { far := w.far, walks := w.walks })))))))) ∧
    (v.engine = 0 →
      releaseNow b c x [] = (b.setCore c { b.core c with ords := (b.core c).ords + 1 }).setCtx c x { v with
        phase := .running, release := s.now, since := s.now, tried := 0, ord := (b.core c).ords, tape := v.tape })) ∧
  (∀ (s : State) (c x l a : Nat) (v : Ctx), s.pwr.off = false → c < 16 → x < 19 → s.ctx c x = v →
    (v.missing = [] → exec (.cacheMissFill c x) s = .next s) ∧
    (v.missing = [l] → ctxWaits s.toBody { v with missing := [] } = false → v.since < s.now → v.badKeys = [] → v.badLines = [] →
      sgaHere s.toBody (l * 128) = some a → entryOf s.toBody (a / 128) = none → unreadable s.toBody (a / 128) = false →
      pieceWants s.toBody v.remote v.got (0, l * 128, 128) {} = {} →
      ∃ t, exec (.cacheMissFill c x) s = .next t ∧ (t.ctx c x).missing = [] ∧ (t.ctx c x).holdTo = s.now + 1 ∧
        (t.ctx c x).remote = v.remote ++ [(l + 2 ^ 61, missLine s.toBody v l)] ∧ t.near = s.near ∧ t.far = s.far))

/-- How commands end (R187, R194): NOP plans nothing; INVALIDATE takes its place in the next boundary unless one of the
partition is under way on the core; the completion of a NOP writes its record of 32 bytes where descriptor k's record lies,
in a ring of the near tier alone, counts DONE, and frees the context. A command that still has something to commit goes on. -/
def Obligations.CommandsEnd : Prop :=
  ∀ (s : State) (c x : Nat) (v : Ctx), s.pwr.off = false → c < 16 → x < 16 →
    (Due s.toBody c x 0 0 v →
      exec (.nop c x) s = .next (s.upd (fun b => b.setCtx c x { v with done := true, planned := some 0, tried := s.now + 1 }))) ∧
    (Due s.toBody c x 0 1 v → v.inv = none →
      let other := (s.core c).ctxs.any (fun w => w.1 != x && w.2.pid == v.pid && w.2.inv.isSome)
      (other = false → exec (.invalidate c x) s =
        .next (s.upd (fun b => b.setCtx c x { v with inv := some (invOf v, s.now + 1) }))) ∧
      (other = true → exec (.invalidate c x) s = .next s)) ∧
    (s.obs.syncs = [] → s.que.kicks = [] → ctxDone s.toBody (s.ctx c x) = false → exec (.commandComplete c x) s = .next s) ∧
    (s.ctx c x = v → v.phase = .running → v.engine = 0 → v.opcode = 0 → v.done = true → v.planned = some 0 → v.status = stOK →
      v.sub = 0 → v.issued = false → v.rounds = [] → v.peerWait = 0 → v.peerAt ≠ s.now + 1 → v.tried ≠ s.now + 1 → v.farOps = [] →
      v.hook = .none → v.snaps = [] → v.refs = [] → v.plans = [] → v.arrivals = [] → v.cls = false → (v.sig 0).op = 0 →
      (v.sig 1).op = 0 → v.unreleased = false → s.obs.syncs = [] → s.que.kicks = [] →
      let key := queKey v.pid v.queue
      s.que.revoked.contains key = false → ∀ loc, sgaHere s.toBody (crSga s.toBody v) = some loc → loc % 128 + 32 ≤ 128 →
      entryOf s.toBody (loc / 128) = none → unreadable s.toBody (loc / 128) = false → tierOf s.toBody loc = 3 →
      lockBlocks s.toBody (loc / 128) true = false → farHeld s.toBody true (loc / 128 * 128) = false →
      keyless s.toBody (crSga s.toBody v) = false →
      (∀ g, regionOfLoc s.toBody loc = some g → ecGroup s.toBody g.id = none) →
      ∃ t, exec (.commandComplete c x) s = .next t ∧ t.ctx c x = {} ∧
        t.get R.QUE_DONE.DONE 0 key = (s.get R.QUE_DONE.DONE 0 key + 1) % 2 ^ 32 ∧
        t.near = (s.wr loc (crBytes s.toBody v stOK 0 v.result (v.release - v.usable) (s.now - v.release))).near ∧
        t.far = (s.wr loc (crBytes s.toBody v stOK 0 v.result (v.release - v.usable) (s.now - v.release))).far ∧
        t.out = s.out)

/-- The rings and indices of a queue (R181, R182, R196): placed and written in OFF alone, inside the partition's extents and
aligned to their size; QUE_DRING's length holds for a completion ring that has been placed too (one at base 0 has not: the
model's choice, log entry 126), and no write leaves more than N descriptors (the model's choice of ignoring it, log entry
127). A queue in DRAIN of which no context holds a command enters OFF. -/
def Obligations.QueuesInOff : Prop :=
  ∀ (s : State) (pid q : Nat) (d : PartDef), s.pwr.off = false → partDef s.toBody pid = some d → q < d.nq → q < 64 →
    let key := pid * 64 + q
    let held := fun (pi fi : Nat) => (pi + 2 ^ 32 - fi) % 2 ^ 32
    let off := s.get R.QUE_STATUS.STATE 0 key = 0
    let n0 := s.get R.QUE_DRING.LOG2N 0 key
    let cb := s.get R.QUE_CRING.BASE 0 key
    let lies := fun (base size : Nat) => base * 4096 % size = 0 ∧ ringPlaced s.toBody pid (base * 4096) size = true
    (regOpen s (R.QUE_IDX.PI.at 0) = true → ∀ pi fi, pi < 2 ^ 32 → fi < 2 ^ 32 →
      (off → held pi fi ≤ 2 ^ n0 →
        exec (.queueIndexWrite pid q pi fi) s = .next ((s.set R.QUE_IDX.PI pi 0 key).set R.QUE_IDX.FI fi 0 key)) ∧
      (¬ off ∨ 2 ^ n0 < held pi fi → exec (.queueIndexWrite pid q pi fi) s = .next s)) ∧
    (regOpen s (R.QUE_DRING.BASE.at 0) = true → (queCore s.toBody key).isSome = true → ∀ base n, 4 ≤ n → n ≤ 16 →
      (off → lies base (64 * 2 ^ n) → cb = 0 ∨ lies cb (32 * 2 ^ n) →
        held (s.get R.QUE_IDX.PI 0 key) (s.get R.QUE_IDX.FI 0 key) ≤ 2 ^ n →
        ∃ t, exec (.ringPlace pid q false base n) s = .next t ∧
          t.regs = ((s.set R.QUE_DRING.BASE base 0 key).set R.QUE_DRING.LOG2N n 0 key).regs ∧
          t = s.upd (fun b => { b with regs := t.regs, que := t.que }) ∧ ∀ k, k ≠ key → t.que.revoked.contains k = s.que.revoked.contains k) ∧
      (cb ≠ 0 → ¬ lies cb (32 * 2 ^ n) → exec (.ringPlace pid q false base n) s = .next s)) ∧
    (regOpen s (R.QUE_CRING.BASE.at 0) = true → (queCore s.toBody key).isSome = true → 4 ≤ n0 → n0 ≤ 16 → ∀ base n,
      off → lies base (32 * 2 ^ n0) →
        ∃ t, exec (.ringPlace pid q true base n) s = .next t ∧ t.regs = (s.set R.QUE_CRING.BASE base 0 key).regs ∧
          t = s.upd (fun b => { b with regs := t.regs, que := t.que }) ∧ ∀ k, k ≠ key → t.que.revoked.contains k = s.que.revoked.contains k) ∧
    (regOpen s (R.QUE_DRING.BASE.at 0) = true → regOpen s (R.QUE_CRING.BASE.at 0) = true → ∀ cring base n,
      ¬ off ∨ n < 4 ∧ cring = false ∨ ¬ lies base ((if cring then 32 else 64) * 2 ^ (if cring then n0 else n)) →
      exec (.ringPlace pid q cring base n) s = .next s) ∧
    (s.get R.QUE_STATUS.STATE 0 key = 2 → queCtxs s.toBody key = [] →
      exec (.drainDone pid q) s = .next (s.set R.QUE_STATUS.STATE 0 0 key)) ∧
    (queCtxs s.toBody key ≠ [] → exec (.drainDone pid q) s = .next s)

/-! ### Engines -/

/-- What the row of an engine command does (R158, R160, R192): nothing where no such command is due in its context. Otherwise its
program is run to the end of its next step: what that step still has to fetch is asked for; a command that has no step left ends
with its status; a step whose resources are taken waits; and one that finds its lines free is issued, with its accesses kept for
the boundary that ends its knot. -/
def Obligations.EngineCommandsArePlanned : Prop :=
  ∀ (i : Instr) (s : State) (c x eng op : Nat) (f : Ctx → Eng (Nat × Nat × Nat)), engineRow i = some (c, x, eng, op, f) →
    s.pwr.off = false → c < 16 → x < 19 →
    (engDue s.toBody c x eng op = false → exec i s = .next s) ∧
    (∀ v : Ctx, Due s.toBody c x eng op v → (eng = 4 → op = 5 → mergeBusy s.toBody c x = false) →
      let b := s.toBody.setCtx c x { v with tried := s.now + 1, stall := 1 }
      let fin := fun (t : Body) (st sub res : Nat) => t.setCtx c x { t.ctx c x with
        done := true, planned := some v.steps, status := st, sub := sub, result := res, remote := [], got := [], walked := [] }
      (v.steps ≠ 0 → gateShut s.toBody v.gate = true → exec i s = .next s) ∧
      (v.steps = 0 ∨ gateShut s.toBody v.gate = false →
        (v.farBad = true → exec i s = .next (s.upd (fun _ => fin b stUNCORRECTABLE 0 0))) ∧
        (v.farBad = false →
          (∀ w, stepRun b c x f = .wants w → exec i s =
            .next (s.upd (fun _ => engFetch (b.setCtx c x { b.ctx c x with stall := if w.spill then 3 else 1 }) c x w))) ∧
          (∀ e, stepRun b c x f = .plan e → exec i s = .next (s.upd (fun _ => stepPlanned b c x e))) ∧
          (∀ e st sub res, stepRun b c x f = .over e st sub res →
            exec i s = .next (s.upd (fun _ => fin (e.s.storeOf b) st sub res))) ∧
          (∀ e o, stepRun b c x f = .step e o →
            let ls := accLines b e.accs
            let who := drawPid v.cls v.pid
            let fits := stepFits b v.pid v.cls (accNear b e.accs) && farFits b who 1 (accFar b e.accs) && !accHeld b e.accs &&
              !ls.any (fun l => reqFirst b l true || lockBlocks b l true)
            let r := clearForWrite b (ls ++ if o.isSome then crLines b x v else [])
            (chanTakes b c eng e.cost = false → exec i s =
              .next (s.upd (fun _ => (b.setCtx c x { v with tried := s.now + 1, stall := 2 }).count R.STP_CHAN_FULL.COUNT 1 c))) ∧
            (chanTakes b c eng e.cost = true → fits = false → exec i s = .next (s.upd (fun _ => b))) ∧
            (chanTakes b c eng e.cost = true → fits = true → r.1 = false → exec i s = .next (s.upd (fun _ => r.2))) ∧
            (chanTakes b c eng e.cost = true → fits = true → r.1 = true →
              let t := stepIssued (e.late.foldr (fun g t => g t) r.2) c x e
              let w := { t.ctx c x with
                issued := true, stall := 0, accs := e.accs.reverse, cur := e.cur.reverse, remote := [], walked := [],
                got := gotLeft t (t.ctx c x).got e.accs }
              (o = none → exec i s = .next (s.upd (fun _ => askAhead (t.setCtx c x w) c x f))) ∧
              (∀ st sub res, o = some (st, sub, res) → exec i s =
                .next (s.upd (fun _ => askAhead (t.setCtx c x { w with
                  planned := some e.live, done := true, status := st, sub := sub, result := res }) c x f))))))))

/-- A step's writes take hold where it commits (R22, R147, R161): a write of one line of the near tier alone that nobody holds or
locks puts its bytes into the home slice, and nothing else of it changes; the context has one step more behind it. A step whose
lines a client still holds, or that a lock stops, commits nothing and is run again; one whose line was lost or cannot be read
ends its command with what its run now comes to, and is run again where that is no such end. -/
def Obligations.StepsCommit : Prop :=
  ∀ (f : Ctx → Eng (Nat × Nat × Nat)) (b : Body) (c x : Nat) (v : Ctx), b.ctx c x = v →
    (v.issued = false → commitStep f b c x = b) ∧
    (v.issued = true →
      let ls := accLines b v.accs
      let r := clearForWrite b ls
      (r.1 = false ∨ ls.any (fun l => lockBlocks b l true) = true → commitStep f b c x = stepAgain r.2 c x) ∧
      (r.1 = true → ls.any (fun l => lockBlocks b l true) = false → ∀ a d, v.accs = [a] → a.act = .put d →
        (∀ st, writeBad r.2 a.sga a.len = some st →
          let t := commitStep f b c x
          (∀ e sub res, stepRun r.2 c x f = .over e st sub res →
            (t.ctx c x).done = true ∧ (t.ctx c x).status = st ∧ (t.ctx c x).sub = sub ∧ (t.ctx c x).result = res ∧
            (t.ctx c x).planned = some v.steps ∧ (t.ctx c x).issued = false ∧ (t.ctx c x).accs = [] ∧
            t.near = r.2.near ∧ t.far = r.2.far) ∧
          ((∀ e sub res, stepRun r.2 c x f ≠ .over e st sub res) → t = stepAgain r.2 c x)) ∧
        (writeBad r.2 a.sga a.len = none → ∀ u p loc, stepDone r.2 c x f = (u, p) → sgaHere u a.sga = some loc →
          loc % 128 + d.length ≤ 128 → 0 < d.length → entryOf u (loc / 128) = none → tierOf u loc = 3 →
          (∀ g, regionOfLoc u loc = some g → ecGroup u g.id = none) →
          let t := commitStep f b c x
          (t.ctx c x).steps = v.steps + 1 ∧ (t.ctx c x).issued = false ∧ (t.ctx c x).accs = [] ∧ u.near = b.near ∧ u.far = b.far ∧
          t.near = (u.wr loc d).near ∧ t.far = (u.wr loc d).far))) ∧
    (let t := stepAgain b c x
     (t.ctx c x).issued = false ∧ (t.ctx c x).again = true ∧ (t.ctx c x).accs = [] ∧ (t.ctx c x).steps = v.steps ∧
       (t.ctx c x).done = false ∧ t.near = b.near ∧ t.far = b.far)

/-- The table slots of the codec, the sequence slots, merges and seizings of commands (R230, R250, R312, R339). LOAD_TABLE
and DROP_TABLE retire a READY slot and wait for one that is being loaded or retired; a slot with no reference left becomes
LOADING for the one and EMPTY for the other. SEQ_CLOSE closes an OPEN slot, and frees it once nothing refers to it. A journaled
merge goes on in a context of its own, or is given up where the image no longer serves it. A SEIZE whose participants are all
at other homes sends them their prepares and waits for as many answers. -/
def Obligations.SlotsMergesSeizings : Prop :=
  ∀ (s : State) (c x : Nat) (v : Ctx), s.pwr.off = false → c < 16 → x < 19 →
    (Due s.toBody c x 1 4 v →
      let n := v.op 1 % 4
      let t := s.slot v.pid n
      (t.state = 2 → exec (.loadTable c x) s =
        .next (s.upd (fun b => b.setSlot v.pid n { t with state := 3, waiter := some (c, x, true) }))) ∧
      (t.state = 0 → exec (.loadTable c x) s = .next (s.upd (fun b => codecLoadEnd
        (issueStep codecLoad c x (b.setSlot v.pid n { state := 1, waiter := some (c, x, true) })) c x))) ∧
      (t.state = 1 → t.waiter = some (c, x, true) →
        exec (.loadTable c x) s = .next (s.upd (fun b => codecLoadEnd (issueStep codecLoad c x b) c x))) ∧
      (t.state = 3 ∨ t.state = 1 ∧ t.waiter ≠ some (c, x, true) → exec (.loadTable c x) s = .next s)) ∧
    (Due s.toBody c x 1 5 v →
      let n := v.op 1 % 4
      let t := s.slot v.pid n
      (t.state = 2 → exec (.dropTable c x) s =
        .next (s.upd (fun b => b.setSlot v.pid n { t with state := 3, waiter := some (c, x, false) }))) ∧
      (t.state = 0 → exec (.dropTable c x) s =
        .next (s.upd (fun b => b.setCtx c x { v with done := true, planned := some 0, status := stOK }))) ∧
      (t.state = 1 ∨ t.state = 3 → exec (.dropTable c x) s = .next s)) ∧
    (∀ pid n, (s.slot pid n).state = 3 → (s.slot pid n).refs = 0 →
      ((s.slot pid n).waiter = some (c, x, true) → exec (.tableSlotRetired pid n) s = .next (s.upd (fun b =>
        b.setSlot pid n { state := 1, waiter := some (c, x, true) }))) ∧
      ((s.slot pid n).waiter = some (c, x, false) →
        ∃ t, exec (.tableSlotRetired pid n) s = .next t ∧ t.slot pid n = {} ∧ t.near = s.near ∧
          (s.ctx c x = v → v.phase = .running → v.engine = 1 → v.opcode = 5 → v.pid = pid →
            t.ctx c x = { v with done := true, planned := some 0, status := stOK })) ∧
      ((s.slot pid n).waiter = none → exec (.tableSlotRetired pid n) s = .next (s.upd (fun b => b.setSlot pid n {})))) ∧
    (∀ pid n, (s.slot pid n).state ≠ 3 ∨ (s.slot pid n).refs ≠ 0 → exec (.tableSlotRetired pid n) s = .next s) ∧
    (Due s.toBody c x 2 2 v → v.opform = 0 → v.op 0 = 0 → v.op 1 < 64 → v.op 2 = 0 → seqOwned s.toBody v.pid (v.op 1) = true →
      (s.seq (v.op 1)).state = 1 →
      ((s.seq (v.op 1)).refs = 0 → ∃ t, exec (.seqClose c x) s = .next t ∧ t.seq (v.op 1) = {} ∧ (t.ctx c x).done = true ∧
        (t.ctx c x).status = stOK ∧ (t.ctx c x).result = (s.seq (v.op 1)).len ∧ t.near = s.near) ∧
      ((s.seq (v.op 1)).refs ≠ 0 → exec (.seqClose c x) s = .next (s.upd (fun b => b.setSeq (v.op 1)
        { b.seq (v.op 1) with state := 2, closer := some (c, x) })))) ∧
    (s.merges.find? (fun m => m.core == c && m.ctx.isNone) = none → exec (.mergeResume c) s = .next s) ∧
    (∀ m, s.merges.find? (fun m => m.core == c && m.ctx.isNone) = some m →
      (s.get R.MGT_READY.SRH = 0 → exec (.mergeResume c) s = .next s) ∧
      (s.get R.MGT_READY.SRH = 1 → partDef s.toBody m.pid = none →
        exec (.mergeResume c) s = .next (s.upd (fun b => mergeAbandon b m))) ∧
      (s.get R.MGT_READY.SRH = 1 → (partDef s.toBody m.pid).isSome = true →
        (∃ k, chanOf s.toBody 4 c = some k ∧ k.units ≠ 0 ∧ k.owner = m.pid) →
        ∃ t, exec (.mergeResume c) s = .next t ∧
          t.merges = s.merges.map (fun q => if q.core = c ∧ q.ctx = none then { q with ctx := some 16, resumed := true } else q) ∧
          (t.ctx c 16).phase = .running ∧ (t.ctx c 16).pid = m.pid ∧ (t.ctx c 16).engine = 4 ∧ (t.ctx c 16).opcode = 5 ∧
          t.get R.SRH_EVENT.MERGE_RESUMED = 1 ∧ t.near = s.near)) ∧
    (∀ (b : Body) (secs : List (List Byte)) (own : List OwnPart),
      (∀ sec ∈ secs, (ctlBlk sec).parts.getD (ctlBlk sec).index 0 ≠ b.hid) →
      let t := seizeSend b c x secs own
      t.near = b.near ∧ t.far = b.far ∧ t.cores = b.cores ∧ t.txn.nextId = (b.txn.nextId % 2 ^ 24 + 1) % 2 ^ 24 ∧
      t.txn.origins = b.txn.origins ++ [{
        core := c, ctx := x, sid := b.txn.nextId % 2 ^ 24, pid := (b.ctx c x).pid, waiting := secs.length,
        coord := (ctlBlk (secs.headD [])).parts.headD 0 }])

/-- A block stored RAW decodes to its 64 KiB (R222, R231), and a stored block whose header is not canonical, or whose CRC
does not match, is refused before any byte is returned (R233). -/
def Obligations.RawBlocks : Prop :=
  ∀ (s : Body) (pid : Nat) (raw : List Byte), raw.length = 65536 →
    decodeBlock s pid (rawHdr raw) raw = .ok raw ∧
    (∀ other : List Byte, other.length = 65536 → crc32c other ≠ crc32c raw →
      decodeBlock s pid (rawHdr raw) other = .error (stBADOPCODE, 3, 4, 31)) ∧
    (∀ h : List Byte, hdrOk h = false → decodeBlock s pid h raw = .error (stBADOPCODE, 3, 1, 31))

/-! ### The store -/

/-- Moving a unit between the tiers changes no byte that is read (R344, R350, R351): the switch of a promotion, the end of a
demotion whose 512 lines are all still to be written back, and the end of a flush of one unit, over bytes in canonical form.
Each takes effect at the next boundary. After the first the unit has a frame of its own, after the second none, after the third
it is not dirty. -/
def Obligations.TiersKeepBytes : Prop :=
  (∀ (s : State) (u : Nat), s.pwr.off = false →
    exec (.promotionSwitch u) s = .next (s.upd (fun b => { b with acts := b.acts ++ [.sto (.promoted u)] })) ∧
    exec (.demotionDone u) s = .next (s.upd (fun b => { b with acts := b.acts ++ [.sto (.demoted u)] })) ∧
    exec .flushComplete s = .next (s.upd (fun b => { b with acts := b.acts ++ [.sto .flushed] }))) ∧
  ∀ (s : Body) (u : Nat), quiet s = false → Memory.wf s = true →
    (∀ f, s.sto.migrations = [.promote u f] → tierOf s (u * 65536) = 1 ∨ tierOf s (u * 65536) = 2 →
      (∀ a, a / 65536 = u → tierOf s a = tierOf s (u * 65536)) → framed s (u * 65536) = false →
      (List.range 512).all (fun i => farReadable s (u * 65536 + i * 128)) = true →
      let t := actNow s (.sto (.promoted u))
      framed t (u * 65536) = true ∧ t.sto.migrations = [] ∧
        (∀ a, t.rdB a = s.rdB a) ∧ t.far = s.far ∧ Memory.wf t = true) ∧
    (∀ a, s.sto.migrations = [.writeback u true 0 a] → tierOf s (u * 65536) = 2 →
      (∀ a, a / 65536 = u → tierOf s a = 2) → framed s (u * 65536) = true →
      let t := actNow s (.sto (.demoted u))
      framed t (u * 65536) = false ∧ t.sto.migrations = [] ∧
        (∀ a, t.rdB a = s.rdB a) ∧ Memory.wf t = true) ∧
    (∀ rid x, s.sto.flush = some (rid, [u]) → s.sto.migrations = [.writeback u false 0 false] → s.sto.resident = [x] →
      x.unit = u → tierOf s (u * 65536) = 2 →
      let t := actNow s (.sto .flushed)
      t.sto.resident = [{ x with dirty := false }] ∧ t.sto.flush = none ∧
        t.get R.STO_CMD_STATUS.BUSY = 0 ∧ (∀ a, t.rdB a = s.rdB a) ∧
        (∀ a, a / 65536 = u → AMap.get 0 t.far a = AMap.get 0 s.near a) ∧ Memory.wf t = true)

/-- A failed stack stops its region and, from the next boundary, the service of requests (R352). Zero fill, the refill of a
PIN region and ACCEPT do their work, at the boundary after they are done, on exactly the bytes of their region (R356, R361,
R369). -/
def Obligations.StoreUpkeep : Prop :=
  ∀ s : State, s.pwr.off = false →
    (∀ k, k < 8 → bitAt (s.get R.STO_NEAR.STACK_UP) k = true → s.get R.STO_NEAR.STACK_UP < 256 →
      ∃ t, exec (.stackFail k) s = .next t ∧ bitAt (t.get R.STO_NEAR.STACK_UP) k = false ∧ t.get R.KNT_RGN.STATE (8 + k) = 2 ∧
        t.get R.STO_EVENT.STACK_FAIL = 1 ∧ t.acts = s.acts ++ [.stackDead] ∧ t.near = s.near) ∧
    (∀ rid r, s.img.regions.find? (fun r => r.id == rid) = some r →
      let inR := fun (a : Nat) => r.localBase ≤ a ∧ a < r.localBase + localSize s.toBody r
      exec (.zeroFillDone rid) s = .next (s.upd (fun b => { b with acts := b.acts ++ [.sto (.zeroed rid)] })) ∧
      exec (.pinRefillDone rid) s = .next (s.upd (fun b => { b with acts := b.acts ++ [.sto (.refilled rid)] })) ∧
      exec .acceptComplete s = .next (s.upd (fun b => { b with acts := b.acts ++ [.sto .accepted] })) ∧
      (s.cfg.zeroing.contains rid = true →
        let b := actNow s.toBody (.sto (.zeroed rid))
        b.cfg.zeroing.contains rid = false ∧
          (∀ a, inR a → AMap.get 0 b.near a = 0 ∧ AMap.get 0 b.far a = 0) ∧
          (∀ a, ¬ inR a → AMap.get 0 b.near a = AMap.get 0 s.near a ∧ AMap.get 0 b.far a = AMap.get 0 s.far a)) ∧
      (s.sto.refill.contains rid = true → Memory.wf s.toBody = true →
        let b := actNow s.toBody (.sto (.refilled rid))
        b.sto.refill.contains rid = false ∧
          (∀ a, inR a → AMap.get 0 b.near a = AMap.get 0 s.far a) ∧
          (∀ a, ¬ inR a → AMap.get 0 b.near a = AMap.get 0 s.near a) ∧ b.far = s.far) ∧
      (s.sto.accepting = some rid → ∀ p, protOf s.toBody rid = some p → p.tier = 3 →
        let b := actNow s.toBody (.sto .accepted)
        b.sto.lost.contains rid = false ∧
          b.sto.accepting = none ∧ b.get R.STO_RGN.LOST 0 rid = 0 ∧ b.get R.STO_CMD_STATUS.BUSY = 0 ∧
          (∀ a, inR a → AMap.get 0 b.near a = 0) ∧ (∀ a, ¬ inR a → AMap.get 0 b.near a = AMap.get 0 s.near a) ∧
          b.far = s.far))

/-- Positions and sleds outside SP-2 mode (R360, R362, R363): a SUSPECT position recovers with its link, and fails after
FAIL_KNOTS or by its own answer; a sled whose label matches takes its ABSENT position; a rebuild that is named starts on a
sled that passes, goes row by row, no more than one row in INTERVAL knots, ends IN, and goes on after a pause. What the rows of
the table name takes effect at the next boundary. -/
def Obligations.SledsAndRebuild : Prop :=
  (∀ (s : State) (q serial rows : Nat) (l : Option SledLabel), s.pwr.off = false → q < 16 →
    exec (.sledRecover q) s = .next (s.upd (fun b => { b with acts := b.acts ++ [.sto (.recovered q)] })) ∧
    exec (.sledSuspectTimeout q) s = .next (s.upd (fun b => { b with acts := b.acts ++ [.sto (.timeout q)] })) ∧
    exec (.sledIdentified q serial rows l) s = .next (s.upd (fun b => { b with
      acts := b.acts ++ [.sto (.identified q { serial := serial, rows := rows, label := l })] })) ∧
    exec (.rebuildStart q) s = .next (s.upd (fun b => { b with acts := b.acts ++ [.sto (.rebuild q)] })) ∧
    exec .rebuildStep s = .next (s.upd (fun b => { b with acts := b.acts ++ [.sto .rebuildRow] })) ∧
    exec .rebuildResume s = .next (s.upd (fun b => { b with acts := b.acts ++ [.sto .rebuildOn] }))) ∧
  ∀ (s : State) (q : Nat), s.pwr.off = false → q < 16 →
    let now := fun (ev : StoEv) => actNow s.toBody (.sto ev)
    (s.get R.STO_SLED.STATE q = 2 → linkUp s.toBody (32 + s.get R.STO_SLED.PORT q) = true →
      s.get R.LNK_HB.MISS (32 + s.get R.STO_SLED.PORT q) = 0 →
      now (.recovered q) = s.toBody.set R.STO_SLED.STATE 1 q) ∧
    (s.get R.STO_SLED.STATE q = 2 → AMap.get 0 s.suspectAt q + max 1 (s.get R.STO_CTRL.FAIL_KNOTS) ≤ s.tick →
      now (.timeout q) = positionFailed s.toBody q 2) ∧
    (s.get R.STO_SLED.STATE q ≠ 2 ∨ s.tick < AMap.get 0 s.suspectAt q + max 1 (s.get R.STO_CTRL.FAIL_KNOTS) →
      now (.timeout q) = s.toBody) ∧
    (s.get R.STO_SLED.STATE q ≠ 2 → now (.recovered q) = s.toBody) ∧
    (armedFail s.toBody q = none → exec (.sledFailed q) s = .next s) ∧
    (∀ c, armedFail s.toBody q = some c →
      ∃ as, exec (.sledFailed q) s = .next (s.upd (fun b => { b with acts := as ++ [.posFail q c] })) ∧
        actNow s.toBody (.posFail q c) = positionFailed s.toBody q c ∧
        (∀ a, a ∈ as ↔ a ∈ s.acts ∧ (∀ p, a = .portFailed p → posOfPort s.toBody p ≠ some q) ∧ ∀ d, a ≠ .posFail q d)) ∧
    (∀ c, s.img.sp2 = false → s.get R.STO_SLED.STATE q ≠ 3 → s.sto.rebuild = none → s.txn.recs = [] → s.sto.ops = [] →
      let t := positionFailed s.toBody q c
      t.get R.STO_SLED.STATE q = 3 ∧ t.get R.STO_SLED.CAUSE q = c % 2 ^ R.STO_SLED.CAUSE.w ∧
      t.get R.STO_EVENT.SLED_FAILED = 1 ∧ t.near = s.near ∧ t.far = s.far) ∧
    (∀ serial rows l, s.img.sp2 = false → s.cfg.img.isSome = true → s.get R.STO_SLED.STATE q = 0 → s.sto.rebuild = none →
      rowTop s.toBody ≤ rows → labelOk s.toBody q false l = true →
      let t := now (.identified q { serial := serial, rows := rows, label := some l })
      t.get R.STO_SLED.STATE q = 1 ∧
        t.get R.STO_SLED.PORT q = q ∧ t.get R.STO_SLED_ID.SERIAL q = serial % 2 ^ R.STO_SLED_ID.SERIAL.w ∧
        t.cfg.zeroing = s.cfg.zeroing ∧ t.near = s.near ∧ t.far = s.far) ∧
    (regOpen s (R.STO_CMD.OP.at 0) = true → s.sto.rebuildNamed = [] →
      exec (.rebuild q) s = .next (s.upd (fun b => { b with sto := { b.sto with rebuildNamed := [q] } }))) ∧
    (∀ x, s.sto.rebuild = none → s.get R.STO_SLED.STATE q = 3 → s.cfg.img.isSome = true → s.img.sp2 = false →
      sledOn s.toBody q = some x → s.sto.rebuildNamed = [q] → linkUp s.toBody (32 + q) = true → sledPasses s.toBody q x = true →
      let t := now (.rebuild q)
      ∃ m, t.get R.STO_SLED.STATE q = 4 ∧ t.get R.STO_REBUILD.ACTIVE = 1 ∧
        t.get R.STO_REBUILD.POS = q ∧ t.sto.rebuild = some m ∧ m.pos = q ∧ m.next = (rowNext s.toBody 0).getD 0) ∧
    (∀ m r, s.sto.rebuild = some m → m.pos = q → quiet s.toBody = false → s.get R.STO_REBUILD.ACTIVE ≠ 0 →
      s.sto.rebuildPaused = false → s.get R.MGT_READY.POOL = 1 → bitAt (s.get R.MGT_READY.CORE) (s.get R.STO_REBUILD.CHAN) = true →
      s.sto.rebuildStart + max 1 (s.get R.STO_REBUILD.INTERVAL) ≤ s.tick → rowNext s.toBody m.next = some r →
      (rowNext s.toBody (r + 1) = none →
        let t := now .rebuildRow
        t.get R.STO_SLED.STATE q = 1 ∧ t.get R.STO_REBUILD.ACTIVE = 0 ∧
          t.get R.STO_EVENT.REBUILD_DONE = 1 ∧ t.sto.rebuild = none ∧ t.near = s.near) ∧
      ((rowNext s.toBody (r + 1)).isSome = true →
        let t := now .rebuildRow
        t.near = s.near ∧
          t.sto.rebuild = some { m with next := r + 1, knot := s.now, slot := 1 - m.slot })) ∧
    (∀ m, s.sto.rebuild = some m →
      s.sto.rebuildPaused = true ∨ s.tick < s.sto.rebuildStart + max 1 (s.get R.STO_REBUILD.INTERVAL) →
      now .rebuildRow = s.toBody) ∧
    (∀ m, s.sto.rebuild = some m → s.sto.rebuildPaused = true → s.get R.MGT_READY.POOL = 1 →
      bitAt (s.get R.MGT_READY.CORE) (s.get R.STO_REBUILD.CHAN) = true →
      now .rebuildOn = { s.toBody with sto := { s.sto with rebuildPaused := false, rebuildStart := s.tick } })

/-- Shadowing (R367, R368): FILL ends in VERIFY; VERIFY under KEEP with no mismatched row and no trial entry ends READY, and one
that finds a region's digest wrong ends FAILED; TRIAL reads its entries one by one, in context 17 of their cores; an entry whose
command ended well and whose digest matches is the last, which ends READY, or the next one starts; any failure ends FAILED, with
SHADOW_DONE. The states follow each other at boundaries. -/
def Obligations.Shadowing : Prop :=
  (∀ (b : Body) (status phase region entry : Nat), status < 256 →
    let t := shadowFail b status phase region entry
    t.get R.STO_SHADOW.STATE = 5 ∧ t.get R.STO_EVENT.SHADOW_DONE = 1 ∧ t.get R.STO_SHADOW_LOG.STATUS = status ∧
    t.near = b.near ∧ t.far = b.far) ∧
  (∀ s : State, s.pwr.off = false →
    (∀ rows ds,
      exec .shadowFillDone s = .next (s.upd (fun b => { b with acts := b.acts ++ [.sto .fillDone] })) ∧
      exec (.shadowVerifyDone rows ds) s = .next (s.upd (fun b => { b with acts := b.acts ++ [.sto (.verified rows ds)] })) ∧
      exec .shadowTrialEntry s = .next (s.upd (fun b => { b with acts := b.acts ++ [.sto .trial] }))) ∧
    let now := fun (ev : StoEv) => actNow s.toBody (.sto ev)
    (s.get R.STO_SHADOW.STATE = 1 → s.sto.fillDone = true → s.get R.STO_REBUILD.ACTIVE = 0 →
      now .fillDone = s.toBody.set R.STO_SHADOW.STATE 2) ∧
    (s.get R.STO_SHADOW.STATE ≠ 1 ∨ s.sto.fillDone = false → now .fillDone = s.toBody) ∧
    (∀ ds, s.get R.STO_SHADOW.STATE = 2 → s.get R.STO_SHADOW.MODE = 1 → s.get R.STO_SHADOW.NTRIAL = 0 →
      let t := now (.verified [] ds)
      t.get R.STO_SHADOW.STATE = 4 ∧ t.get R.STO_EVENT.SHADOW_DONE = 1 ∧
        t.near = s.near ∧ t.far = s.far) ∧
    (∀ rid r d rows, s.get R.STO_SHADOW.STATE = 2 → s.get R.STO_SHADOW.MODE = 2 →
      s.img.regions.find? (fun r => r.id == rid) = some r → fillsRegion s.toBody 2 r = true → regionDigest s.toBody r ≠ d →
      now (.verified rows [(rid, d)]) = shadowFail s.toBody stSHADOWMISMATCH 2 rid 0) ∧
    (∀ rows ds, s.get R.STO_SHADOW.STATE ≠ 2 → now (.verified rows ds) = s.toBody) ∧
    (s.get R.STO_SHADOW.STATE ≠ 3 → now .trial = s.toBody) ∧
    (let e := s.sto.trialNext
     let c := e % 16
     let v := s.ctx c 17
     let b := finishCtx s.toBody c 17
     s.get R.STO_SHADOW.STATE = 3 →
      (v.phase = .idle → now .trial = trialStart s.toBody e) ∧
      (v.phase ≠ .idle → ctxDone s.toBody v = false → now .trial = s.toBody) ∧
      (v.phase ≠ .idle → ctxDone s.toBody v = true →
        (goodEnd v.status = false → now .trial = shadowFail b v.status 3 0 e) ∧
        (∀ r d, goodEnd v.status = true → trialRead b e = .ok r → trialDigest b e r = .ok d →
          (d ≠ slice r 80 48 → now .trial = shadowFail b stSHADOWMISMATCH 3 0 e) ∧
          (d = slice r 80 48 →
            (b.get R.STO_SHADOW.NTRIAL ≤ e + 1 →
              let t := now .trial
              t.get R.STO_SHADOW.STATE = 4 ∧ t.get R.STO_EVENT.SHADOW_DONE = 1 ∧
                t.near = b.near ∧ t.far = b.far) ∧
            (e + 1 < b.get R.STO_SHADOW.NTRIAL → now .trial =
              trialStart { b with sto := { b.sto with trialNext := e + 1 } } (e + 1)))))))

/-! ### Seizings -/

/-- A seizing's record goes its way (R329, R331, R332, R335): a record written is a vote ST_OK, one that could not be is
ST_POOL_FAIL; once the decision is recorded DECIDE is sent; at the effect knot C, not before, its actions take hold and its
locks go; a coordinator that has waited HOLD knots decides ABORT; INQUIRE and DECIDE are sent again on their timers; votes
kept for HOLD knots go. -/
def Obligations.SeizingRecords : Prop :=
  ∀ (s : State) (o i : Nat) (t : Seizing), s.pwr.off = false → txnRec s.toBody o i = some t → t.closedAt = none →
    let goes := fun (c : Instr) (P : Body → Seizing → Prop) => ∃ b u, exec c s = .next (s.upd (fun _ => settle (seizeProgress b))) ∧
      txnRec b o i = some u ∧ u.ocid = t.ocid ∧ u.parts = t.parts ∧ u.actions = t.actions ∧ P b u
    (t.writing = true → t.outcome = none → isCoord s.toBody t = true →
      goes (.preparedRecordDone o i true) (fun b u => u.writing = false ∧ u.preparing = false ∧ u.vote = some (stOK, 0) ∧
        u.yes = t.yes ++ [t.index] ∧ u.locks = t.locks ∧
        (s.get R.XLT_CTRL.ACC_EN = 0 ∨ s.get R.XLT_CTRL.HOT_THRESH = 0 → b.near = s.near ∧ b.far = s.far)) ∧
      goes (.preparedRecordDone o i false) (fun b u => u.locks = [] ∧ u.vote = some (stPOOLFAIL, 0) ∧ u.cause.isSome = true ∧
        b.near = s.near ∧ b.far = s.far)) ∧
    (t.deciding = true → t.outcome = some (0, 0) → goes (.decisionRecordDone o i) (fun b u =>
      u.deciding = false ∧ u.lastSend = s.now ∧ u.outcome = t.outcome ∧ u.locks = t.locks ∧ b.near = s.near ∧ b.far = s.far)) ∧
    (t.outcome = some (0, 0) → t.applied = false → t.late = false → s.get R.MGT_READY.TXN = 1 → quiet s.toBody = false →
      (t.effect ≤ s.now → goes (.seizeApply o i) (fun b u => u.applied = true ∧ u.locks = [] ∧ u.closedAt = some s.now ∧
        (∀ a, t.actions = [a] → a.kind = 1 → b.near = (s.wr a.loc a.data).near ∧ b.far = (s.wr a.loc a.data).far) ∧
        (t.actions = [] → b.near = s.near ∧ b.far = s.far))) ∧
      (s.now < t.effect → goes (.seizeApply o i) (fun b u => b = s.toBody ∧ u = t))) ∧
    (isCoord s.toBody t = true → t.outcome = none → t.preparedAt + max 1 (s.get R.TXN_CTRL.HOLD) ≤ s.now →
      goes (.seizeHoldTimeout o i) (fun b u => u.outcome = some (stSEIZEABORT, 2) ∧ u.deciding = true ∧ u.locks = [] ∧
        b.near = s.near ∧ b.far = s.far)) ∧
    (isCoord s.toBody t = false → t.outcome = none → t.vote.isSome = true → t.lastSend = 0 →
      t.preparedAt + max 1 (s.get R.TXN_CTRL.HOLD) + max 2 (s.get R.TXN_CTRL.LEAD) ≤ s.now →
      goes (.seizeInquireTimer o i) (fun b u => u = { t with lastSend := s.now } ∧ b.near = s.near ∧ b.far = s.far)) ∧
    (isCoord s.toBody t = true → t.outcome.isSome = true → t.deciding = false →
      (txnOthers s.toBody t).any (fun p => !t.acked.contains p.1) = true → t.lastSend + max 1 (s.get R.TXN_CTRL.RESEND) ≤ s.now →
      goes (.seizeDecideResend o i) (fun b u => u = { t with lastSend := s.now, deciding := false } ∧ b.near = s.near)) ∧
    exec .seizeVoteDiscard s = .next (s.upd (fun b => { b with txn := { b.txn with early := b.txn.early.filter (fun e =>
      decide (b.now < e.2.2.2.2.2 + max 1 (b.get R.TXN_CTRL.HOLD))) } }))

/-! ### Partitions -/

/-- Session keys and halyards (R374, R382): ROLL names the knot R, two knots ahead at least, where a key is staged; at R the
staged key becomes the session key and the old one the previous; 256 knots later that one is gone. A halyard starts at its
first entry, and runs where its list is not empty. -/
def Obligations.KeysAndHalyards : Prop :=
  ∀ (s : State) (pid : Nat), s.pwr.off = false →
    let p := s.part pid
    let k := p.keys
    (pidOk s.toBody pid = true → regOpen s (R.PRT_KEY_CMD.OP.at 0) = true →
      let r := s.get R.PRT_KEY_T.R 0 pid
      (r < s.now + 2 → exec (.roll pid) s = .next ((s.set R.PRT_CMD_STATUS.ERR 1).set R.PRT_CMD_STATUS.CAUSE 6)) ∧
      (s.now + 2 ≤ r → k.staged = none →
        exec (.roll pid) s = .next ((s.set R.PRT_CMD_STATUS.ERR 1).set R.PRT_CMD_STATUS.CAUSE 3)) ∧
      (s.now + 2 ≤ r → k.staged.isSome = true →
        exec (.roll pid) s = .next (s.upd (fun b => b.setPart pid { p with keys := { k with roll := some r } })))) ∧
    (∀ r, k.roll = some r → r ≤ s.now → s.get R.MGT_READY.HOME = 1 →
      ∃ t, exec (.keyRollover pid) s = .next t ∧ (t.part pid).keys.sess = k.staged ∧ (t.part pid).keys.prev = k.sess ∧
        (t.part pid).keys.staged = none ∧ (t.part pid).keys.gen = (k.gen + 1) % 65536 ∧ (t.part pid).keys.rolled = some r ∧
        t.get R.PRT_KEY_KNOT.KNOT 0 pid = r % 2 ^ R.PRT_KEY_KNOT.KNOT.w ∧ (∀ q, q ≠ pid → t.part q = s.part q) ∧
        t = s.upd (fun b => { b with parts := t.parts, regs := t.regs })) ∧
    (∀ r, k.rolled = some r → s.get R.MGT_READY.HOME = 1 →
      (r + 256 ≤ s.now → exec (.previousKeyDestroy pid) s =
        .next (s.upd (fun b => b.setPart pid { p with keys := { k with prev := none, rolled := none } }))) ∧
      (s.now < r + 256 → exec (.previousKeyDestroy pid) s = .next s)) ∧
    (∀ hal lead len, hal < 4 → pidOk s.toBody pid = true → regOpen s (R.PRT_HAL_CTRL.EN.at 0) = true →
      ∃ t, exec (.halyardEnable pid hal lead len) s = .next t ∧ t.get R.PRT_HAL_CTRL.EN 0 (pid * 4 + hal) = b2n (len != 0) ∧
        t.get R.PRT_HAL_CUR.CUR 0 (pid * 4 + hal) = 0 ∧
        t.get R.PRT_HAL_CTRL.LEN 0 (pid * 4 + hal) = len % 2 ^ R.PRT_HAL_CTRL.LEN.w ∧
        t.get R.PRT_HAL_CTRL.LEAD 0 (pid * 4 + hal) = lead % 2 ^ R.PRT_HAL_CTRL.LEAD.w ∧
        t = s.upd (fun b => { b with parts := t.parts, regs := t.regs }))

/-- A revocation's phases (R389 to R391): at its boundary F it fences the extent, grant or hitch; DRAIN ends after F once no
request in scope that was admitted before F is in service; SCRUB ends once every set has been visited, no entry is left to take
and, under MODE ZERO, the zeros have been written; then the grant or the hitch is gone and the next revocation may come. -/
def Obligations.Revocations : Prop :=
  (∀ (b : Body) (op : RevOp), b.prt.rev = none → b.olp.reqs = [] →
    (∀ c p h, op = .hitch c p → hitchOf b c p = some h →
      let t := actNow b (.revoke op)
      t.prt.rev = some (op, b.now) ∧ t.get R.PRT_CMD_STATUS.BUSY = 1 ∧ t.get R.PRT_CMD_STATUS.PHASE = 1 ∧
        (∃ g, hitchOf t c p = some g ∧ g.state = 2) ∧ (∀ c' p', (c' ≠ c ∨ p' ≠ p) → hitchOf t c' p' = hitchOf b c' p')) ∧
    (∀ c p x g, op = .grant c p x → grantOf b c p x = some g →
      let t := actNow b (.revoke op)
      t.prt.rev = some (op, b.now) ∧ t.get R.PRT_CMD_STATUS.PHASE = 1 ∧ (∃ g', grantOf t c p x = some g' ∧ g'.fenced = true)) ∧
    (∀ c p, op = .hitch c p → hitchOf b c p = none →
      actNow b (.revoke op) = (b.set R.PRT_CMD_STATUS.ERR 1).set R.PRT_CMD_STATUS.CAUSE 3)) ∧
  (∀ s : State, s.pwr.off = false → ∀ op f, s.prt.rev = some (op, f) →
    (s.get R.PRT_CMD_STATUS.PHASE = 1 → s.get R.MGT_READY.DIR = 1 →
      (f < s.now → stillServed s.toBody f (inScope s.toBody op) = false →
        exec .revocationDrainEnd s = .next (s.upd (fun b =>
          { b.set R.PRT_CMD_STATUS.PHASE 2 with dir := { b.dir with revSweep := some 0 } }))) ∧
      (stillServed s.toBody f (inScope s.toBody op) = true → exec .revocationDrainEnd s = .next s)) ∧
    (∀ n, s.dir.revSweep = some n →
      (n < 2 ^ 22 → exec .scrubEnd s = .next s) ∧
      (2 ^ 22 ≤ n → s.dir.entries = [] →
        (∀ c p, op = .hitch c p →
          ∃ t, exec .scrubEnd s = .next t ∧ t.prt.rev = none ∧ t.dir.revSweep = none ∧ t.get R.PRT_CMD_STATUS.BUSY = 0 ∧
            hitchOf t.toBody c p = none ∧ (∀ x, grantOf t.toBody c p x = none) ∧ t.near = s.near) ∧
        (∀ c p x, op = .grant c p x →
          ∃ t, exec .scrubEnd s = .next t ∧ t.prt.rev = none ∧ t.get R.PRT_CMD_STATUS.BUSY = 0 ∧
            grantOf t.toBody c p x = none ∧ t.prt.hitches = s.prt.hitches ∧ t.near = s.near) ∧
        (∀ p x, op = .extent p x false →
          ∃ t, exec .scrubEnd s = .next t ∧ t.prt.rev = none ∧ t.get R.PRT_CMD_STATUS.BUSY = 0 ∧ t.near = s.near ∧
            t.far = s.far) ∧
        (∀ p x, op = .extent p x true →
          let r := scrubZeros s.toBody op
          (r.1 = false → exec .scrubEnd s = .next (s.upd (fun _ => r.2))) ∧
          (r.1 = true → ∃ t, exec .scrubEnd s = .next t ∧ t.prt.rev = none ∧ t.get R.PRT_CMD_STATUS.BUSY = 0 ∧
            t.near = r.2.near ∧ t.far = r.2.far)))))

/-- The staged composition and its commit (R384, R385): staged extents are written by themselves; a commit with the right
generation, in time, with no overlap and no extent dropped without a fence, takes effect at T, and the extents of before
are kept for requests in grace; a cancelled commit, and a commit in effect, leave staged what is current. -/
def Obligations.Composition : Prop :=
  ∀ (s : State) (pid : Nat), s.pwr.off = false →
    let p := s.part pid
    (pidOk s.toBody pid = true → regOpen s (R.PRT_EXT_BASE.BASE.at 0) = true → regOpen s (R.PRT_EXT_LEN.LEN.at 0) = true →
      ∀ x, x < 256 →
      (p.commit = none → ∀ v base, base < 2 ^ 41 →
        ∃ t, exec (.stagedWrite (.base pid x v base)) s = .next t ∧ (stagedExt (t.part pid) x).valid = v ∧
          (stagedExt (t.part pid) x).base = base * 65536 ∧ (stagedExt (t.part pid) x).len = (stagedExt p x).len ∧
          (∀ y, y ≠ x → stagedExt (t.part pid) y = stagedExt p y) ∧ (t.part pid).cur = p.cur ∧
          t = s.upd (fun b => b.setPart pid (t.part pid))) ∧
      (p.commit = none → ∀ rights len region, rights < 16 → len < 2 ^ 41 → region < 256 →
        ∃ t, exec (.stagedWrite (.len pid x rights len region)) s = .next t ∧ (stagedExt (t.part pid) x).len = len * 65536 ∧
          (stagedExt (t.part pid) x).rights = rights ∧ (stagedExt (t.part pid) x).region = region ∧
          (stagedExt (t.part pid) x).valid = (stagedExt p x).valid ∧ (t.part pid).cur = p.cur ∧
          t = s.upd (fun b => b.setPart pid (t.part pid))) ∧
      (regOpen s (R.PRT_STG_LIST.HID.at 0) = true → p.commit = none → ∀ region entry hid r, region < 256 → hid < 512 →
        s.img.regions.find? (fun r => r.id == region) = some r → entry < r.list.length → r.pids = [pid] →
        ∃ t, exec (.stagedWrite (.list pid region entry hid)) s = .next t ∧
          (t.part pid).staged.lists.find? (fun e => e.1 == region) =
            some (region, ((p.staged.lists.find? (fun e => e.1 == region)).elim r.list (fun e => e.2)).set entry hid) ∧
          (t.part pid).staged.exts = p.staged.exts ∧ (t.part pid).cur = p.cur ∧
          t = s.upd (fun b => b.setPart pid (t.part pid))) ∧
      (p.commit.isSome = true → ∀ v base,
        exec (.stagedWrite (.base pid x v base)) s = .next ((s.set R.PRT_CMD_STATUS.ERR 1).set R.PRT_CMD_STATUS.CAUSE 1))) ∧
    (pidOk s.toBody pid = true → regOpen s (R.PRT_GEN_CMD.OP.at 0) = true →
      let t := s.get R.PRT_GEN_T.T
      let ok := fun (newgen : Nat) => newgen % 65536 = (p.gen + 1) % 65536 ∧ s.now + 2 ≤ t ∧ t ≤ s.now + 2 ^ 24 ∧ p.commit = none ∧
        partialTouches s.toBody pid = false
      let new := p.staged.exts.filter (·.valid)
      (∀ g, ok g → stagedOverlap new = false → unfencedDrop p.cur.exts new = false →
        exec (.commit pid g) s = .next (s.upd (fun b => b.setPart pid { p with commit := some (g % 65536, t) }))) ∧
      (∀ g, ok g → stagedOverlap new = true →
        exec (.commit pid g) s = .next ((s.set R.PRT_CMD_STATUS.ERR 1).set R.PRT_CMD_STATUS.CAUSE 9)) ∧
      (∀ g, ok g → stagedOverlap new = false → unfencedDrop p.cur.exts new = true →
        exec (.commit pid g) s = .next ((s.set R.PRT_CMD_STATUS.ERR 1).set R.PRT_CMD_STATUS.CAUSE 8)) ∧
      (∀ g, g % 65536 ≠ (p.gen + 1) % 65536 →
        exec (.commit pid g) s = .next ((s.set R.PRT_CMD_STATUS.ERR 1).set R.PRT_CMD_STATUS.CAUSE 7)) ∧
      (∃ t, exec (.commitCancel pid) s = .next t ∧ (t.part pid).commit = none ∧
        (t.part pid).staged = p.cur ∧ (t.part pid).cur = p.cur ∧ t = s.upd (fun b => b.setPart pid (t.part pid)))) ∧
    (∀ g t, p.commit = some (g, t) → t ≤ s.now →
      ∃ b, exec (.generationEffect pid) s = .next (s.upd (fun _ => settle b)) ∧ (b.part pid).gen = g ∧
        (b.part pid).genKnot = t ∧ (b.part pid).prev = p.cur ∧ (b.part pid).commit = none ∧
        (b.part pid).staged = (b.part pid).cur ∧ (b.part pid).cur.lists = p.staged.lists ∧
        (b.part pid).cur.exts.length = (p.staged.exts.filter (·.valid)).length ∧
        (∀ q, q ≠ pid → b.part q = s.part q) ∧ b.near = s.near ∧ b.far = s.far) ∧
    (p.commit = none → exec (.generationEffect pid) s = .next (s.upd settle))

/-- Verdicts and teardown (R398 to R402, R405): a verdict fences the client and frees its hitches; a second one is refused
ALREADY, and a release before the sweep SWEEP. TEAR goes from DRAIN to its sweep to TORN; MEND brings the partition back.
ISOLATED is written by itself. -/
def Obligations.VerdictsAndTeardown : Prop :=
  (∀ (b : Body) (c : Nat), c < 8192 →
    let t := actNow b (.fltOrder 1 0 0 c)
    (cidFenced b c = false → cidFenced t c = true ∧ (∀ p, hitchOf t c p = none) ∧ (∀ p x, grantOf t c p x = none)) ∧
    (cidFenced b c = true → t = (b.set R.FLT_CMD_STATUS.ERR 1).set R.FLT_CMD_STATUS.CAUSE 5) ∧
    (cidFenced b c = false → actNow b (.fltOrder 4 0 0 c) = (b.set R.FLT_CMD_STATUS.ERR 1).set R.FLT_CMD_STATUS.CAUSE 3) ∧
    (∀ f, b.fences = [f] → f.isHid = false → f.id = c →
      (f.swept = true → (actNow b (.fltOrder 4 0 0 c)).fences = []) ∧
      (f.swept = false → actNow b (.fltOrder 4 0 0 c) = (b.set R.FLT_CMD_STATUS.ERR 1).set R.FLT_CMD_STATUS.CAUSE 4))) ∧
  (∀ (s : State) (pid : Nat), s.pwr.off = false →
    (regOpen s (R.FLT_SELF.ISOLATED.at 0) = true → ∀ v, exec (.isolatedWrite v) s = .next (s.set R.FLT_SELF.ISOLATED (b2n v))) ∧
    ((s.part pid).tearPhase = 1 → s.get R.MGT_READY.DIR = 1 →
      (stillServed s.toBody (s.part pid).fltKnot (fun r => r.m.pid == pid) = false →
        ∃ t, exec (.tearDrainEnd pid) s = .next t ∧ (t.part pid).tearPhase = 2 ∧ AMap.get 0 t.dir.tearSweeps pid = 1 ∧
          (t.part pid).flt = (s.part pid).flt ∧ t.near = s.near) ∧
      (stillServed s.toBody (s.part pid).fltKnot (fun r => r.m.pid == pid) = true → exec (.tearDrainEnd pid) s = .next s)) ∧
    ((s.part pid).flt = 1 →
      (AMap.get 0 s.dir.tearSweeps pid ≤ 2 ^ 22 → exec (.tearSweepEnd pid) s = .next s) ∧
      (2 ^ 22 < AMap.get 0 s.dir.tearSweeps pid → (∀ e ∈ s.dir.entries, ∀ d, e.2 = some d → d.pid ≠ pid ∨ d.st = .l) →
        ∃ t, exec (.tearSweepEnd pid) s = .next t ∧ (t.part pid).flt = 2 ∧ (t.part pid).tearPhase = 0 ∧
          t.get R.FLT_EVENT.TORN = 1 ∧ (∀ q, q ≠ pid → t.part q = s.part q) ∧ t.near = s.near ∧ t.far = s.far)) ∧
    ((partDef s.toBody pid).isSome = true → (s.part pid).flt = 2 → partialTouches s.toBody pid = false →
      (s.part pid).cur.exts.any (fun e => s.sto.lost.contains e.region) = false →
      ((actNow s.toBody (.fltOrder 7 pid 0 0)).part pid).flt = 0))

/-! ### Profiles, power and reset -/

/-- Profiles and loads (R416, R418 to R424). A write of a slot that is in effect or named is refused BUSY; any other makes the
slot WRITING, and at its end VALID exactly where its checks pass. SWITCH, PARTIAL and CANCEL act in the states that R421 and
R422 give them; a load that passes its checks puts its image into effect at the next boundary, one that fails is refused; a PARTIAL
whose knot has come puts its image into effect or refuses it, and leaves what it must. BOOT and FLOOR keep the writes that they may take. -/
def Obligations.ProfilesAndLoads : Prop :=
  ∀ (s : State) (n : Nat), s.pwr.off = false → n < 4 →
    let st := s.get R.CFG_STATUS.STATE
    let refuse : Nat → Nat → Host.Outcome State Fault Refusal :=
      fun op cause => .next (s.upd (fun b => cfgRefuse b op n (cause, 0, 0)))
    (profBusy s.toBody n = false → exec (.profileWriteStart n) s = .next (s.upd (fun b => { b with cfg := { b.cfg with
      profiles := AMap.put {} b.cfg.profiles n { writing := true } } }))) ∧
    (profBusy s.toBody n = true → exec (.profileWriteStart n) s = refuse 3 0xE) ∧
    (∀ bytes, (AMap.get {} s.cfg.profiles n).writing = true →
      ∃ t, exec (.profileWriteEnd n bytes) s = .next t ∧ (AMap.get {} t.cfg.profiles n).bytes = bytes ∧
        (AMap.get {} t.cfg.profiles n).writing = false ∧ (∀ m, m ≠ n → AMap.get {} t.cfg.profiles m = AMap.get {} s.cfg.profiles m) ∧
        (checkWritten s bytes = .ok () → (AMap.get {} t.cfg.profiles n).valid = true) ∧
        (∀ c, checkWritten s bytes = .error c → (AMap.get {} t.cfg.profiles n).valid = false ∧
          t.get R.CFG_ERR_LOG.CAUSE = c.1 % 2 ^ R.CFG_ERR_LOG.CAUSE.w ∧ t.get R.CFG_ERR_LOG.OP = 3 ∧
          t.get R.CFG_EVENT.REFUSED = 1) ∧ t.near = s.near ∧ t.far = s.far) ∧
    (regOpen s (R.MGT_PROFILE.OP.at 0) = true →
      (st = 1 ∨ st = 3 → exec (.switch n) s = refuse 1 0xE) ∧
      (st = 0 → exec (.switch n) s = .next (s.arm (.load n true))) ∧
      (st = 2 → profValid s.toBody n = false → exec (.switch n) s = refuse 1 0xD) ∧
      (st = 2 → profValid s.toBody n = true → ∃ t, exec (.switch n) s = .next t ∧ t.near = s.near ∧ t.far = s.far ∧
        t.cfg = s.cfg ∧
        let i := parseImage (profBytes s.toBody n)
        let same : Prop := i.prots = s.img.prots ∧ i.portmap = s.img.portmap ∧ i.plan = s.img.plan
        (checkImage s (profBytes s.toBody n) = .ok () → same →
          t.get R.CFG_STATUS.BOOT = n ∧ t.acts = s.acts ++ [.reset 3 6]) ∧
        (checkImage s (profBytes s.toBody n) = .ok () → ¬ same → t.acts = s.acts ∧ t.get R.CFG_STATUS.CAUSE = 9) ∧
        (∀ c, checkImage s (profBytes s.toBody n) = .error c →
          t.acts = s.acts ∧ t.get R.CFG_STATUS.CAUSE = c.1 % 2 ^ R.CFG_STATUS.CAUSE.w)) ∧
      (let t := s.get R.CFG_PARTIAL_T.T
       let i := parseImage (profBytes s.toBody n)
       let active : Prop := s.cfg.img.isSome = true ∧ n = s.get R.CFG_STATUS.ACTIVE
       let busy : Prop := st = 1 ∨ st = 3 ∨ switchPending s.toBody = true ∨
         ((s.img.parts ++ i.parts).any (fun p => imageTouches s.toBody i p.pid && (s.part p.pid).commit.isSome)) = true
       (active ∨ profValid s.toBody n = false → exec (.partialConfig n) s = refuse 2 0xD) ∧
       (¬ active → profValid s.toBody n = true →
         (t < s.now + 2000000 ∨ s.now + 2 ^ 24 < t → exec (.partialConfig n) s = refuse 2 0xC) ∧
         (s.now + 2000000 ≤ t → t ≤ s.now + 2 ^ 24 →
           (busy → exec (.partialConfig n) s = refuse 2 0xE) ∧
           (¬ busy → exec (.partialConfig n) s = .next (s.upd (fun b =>
             { b.set R.CFG_STATUS.STATE 3 with cfg := { b.cfg with partialRec := some (n, t, none) } })))))) ∧
      (st = 3 → exec .partialCancel s = .next (s.upd (fun b =>
        { b.set R.CFG_STATUS.STATE (if b.cfg.img.isSome then 2 else 0) with cfg := { b.cfg with partialRec := none } }))) ∧
      (st ≠ 3 → exec .partialCancel s = .next s)) ∧
    (∀ t, s.cfg.partialRec = some (n, t, none) → ∃ u, exec .partialChecked s = .next u ∧ u.near = s.near ∧ u.far = s.far ∧
      let i := parseImage (profBytes s.toBody n)
      (checkImage s (profBytes s.toBody n) = .ok () → partialRules s.toBody i = .ok () → u.cfg.partialRec = some (n, t, some i)) ∧
      (∀ c, checkImage s (profBytes s.toBody n) = .error c ∨
          (checkImage s (profBytes s.toBody n) = .ok () ∧ partialRules s.toBody i = .error c) →
        u.cfg.partialRec = none ∧ u.get R.CFG_STATUS.STATE = (if s.cfg.img.isSome then 2 else 0) ∧
        u.get R.CFG_STATUS.CAUSE = c.1 % 2 ^ R.CFG_STATUS.CAUSE.w ∧ u.cfg.img = s.cfg.img)) ∧
    (∀ t i, s.cfg.partialRec = some (n, t, some i) →
      (s.now < t → exec .partialEffect s = .next (s.upd settle)) ∧
      (t ≤ s.now → ∃ b, exec .partialEffect s = .next (s.upd (fun _ => settle b)) ∧ b.cfg.partialRec = none ∧
        (partialRules s.toBody i = .ok () → b.cfg.img = some i ∧ b.get R.CFG_STATUS.STATE = 2 ∧ b.get R.CFG_STATUS.ACTIVE = n ∧
          b.get R.CFG_STATUS.BOOT = n ∧ b.get R.CFG_EVENT.APPLIED = 1) ∧
        (∀ c, partialRules s.toBody i = .error c → b.cfg.img = s.cfg.img ∧ b.near = s.near ∧
          b.get R.CFG_STATUS.CAUSE = c.1 % 2 ^ R.CFG_STATUS.CAUSE.w))) ∧
    (s.cfg.loading = none → exec .imageLoadDone s = .next s) ∧
    (∀ sw, s.cfg.loading = some (n, sw) → st = 1 → s.get R.MGT_READY.SEC = 1 → (∀ p i, .image p i ∉ s.acts) →
      ∃ t, exec .imageLoadDone s = .next t ∧
        (∀ c, checkImage s (profBytes s.toBody n) = .error c → t.get R.CFG_STATUS.STATE = 0 ∧ t.cfg.img = s.cfg.img ∧
          t.cfg.loading = none ∧ t.acts = s.acts ∧
          t.get R.CFG_ERR_LOG.CAUSE = c.1 % 2 ^ R.CFG_ERR_LOG.CAUSE.w ∧ t.get R.CFG_ERR_LOG.OP = b2n sw ∧
          t.get R.CFG_STATUS.BOOT = s.get R.CFG_STATUS.BOOT ∧ t.get R.CFG_EVENT.REFUSED = 1 ∧ t.near = s.near ∧ t.far = s.far) ∧
        (checkImage s (profBytes s.toBody n) = .ok () → t.acts = s.acts ++ [.image n (parseImage (profBytes s.toBody n))] ∧
          t.cfg = s.cfg ∧ t.near = s.near ∧ t.far = s.far)) ∧
    (∀ (b : Body) (sw : Bool) (i : Image), b.cfg.loading = some (n, sw) →
      let t := actNow b (.image n i)
      (b.get R.CFG_STATUS.STATE ≠ 1 → t = b) ∧
      (b.get R.CFG_STATUS.STATE = 1 → t.cfg.img = some i ∧ t.cfg.loading = none ∧ t.get R.CFG_STATUS.STATE = 2 ∧
        t.get R.CFG_STATUS.ACTIVE = n ∧ t.get R.CFG_STATUS.BOOT = n ∧ t.get R.CFG_EVENT.APPLIED = 1 ∧
        (b.cfg.afterPower = true → ∀ g ∈ t.prt.hitches, ∃ h ∈ i.hitches, g.cid = h.cid ∧ g.pid = h.pid ∧ g.state = 1))) ∧
    (regOpen s (R.CFG_STATUS.BOOT.at 0) = true →
      (st = 1 ∨ st = 3 → exec (.bootWrite n) s = .next s) ∧
      (st ≠ 1 → st ≠ 3 → exec (.bootWrite n) s = .next (s.set R.CFG_STATUS.BOOT n))) ∧
    (regOpen s (R.CFG_FLOOR.VER.at 0) = true → ∀ v, v < 2 ^ 64 →
      (v < s.cfg.floor → exec (.floorWrite v) s = .next s) ∧
      (s.cfg.floor ≤ v → exec (.floorWrite v) s = .next (s.upd (fun b => { b with cfg := { b.cfg with floor := v } }))))

/-- Power, the reset input and bring-up (R429 to R436, R441, R442, R455, R460): throttle goes through its levels and back, a
level at a boundary; quiesce holds the package until it has drained, and ends after 4,000 good knots; the reset input orders the reset that its
moment calls for; POWER_ON brings the package up with its straps; a readiness bit is set where its conditions hold. -/
def Obligations.PowerAndBringUp : Prop :=
  (∀ s : State, s.pwr.off = false →
    let st := s.get R.PWR_STATUS.STATE
    let l := s.get R.PWR_STATUS.LEVEL
    (throttleHolds s.toBody = true → st = 0 →
      exec .throttleEnter s = .next (s.arm (.pwr .throttle))) ∧
    (throttleHolds s.toBody = false ∨ st ≠ 0 → exec .throttleEnter s = .next s) ∧
    (throttleHolds s.toBody = true → st = 1 → l < 5 → 15 ≤ s.pwr.levelFor →
      exec .throttleStep s = .next (s.arm (.level true))) ∧
    (throttleHolds s.toBody = false ∨ st ≠ 1 ∨ 5 ≤ l ∨ s.pwr.levelFor < 15 → exec .throttleStep s = .next s) ∧
    (throttleHolds s.toBody = false → st = 1 → l = 0 ∨ 3999 ≤ s.pwr.levelFor →
      exec .throttleRelax s = .next (s.arm (.level false))) ∧
    (throttleHolds s.toBody = true ∨ st ≠ 1 ∨ (l ≠ 0 ∧ s.pwr.levelFor < 3999) → exec .throttleRelax s = .next s) ∧
    (∀ b : Body, throttleHolds b = true → b.get R.PWR_STATUS.STATE = 0 →
      actNow b (.pwr .throttle) = (b.set R.PWR_STATUS.STATE 1).set R.PWR_EVENT.THROTTLE_EV 1) ∧
    (∀ b : Body, b.get R.PWR_STATUS.STATE = 1 →
      let n := b.get R.PWR_STATUS.LEVEL
      let up := actNow b (.level true)
      let down := actNow b (.level false)
      (throttleHolds b = true → down = b ∧ (n < 5 → 16 ≤ b.pwr.levelFor → up.get R.PWR_STATUS.LEVEL = n + 1 ∧
        up.get R.KNT_RGN.STATE 1 = 1 ∧ up.get R.KNT_RGN.STATE 2 = 1 ∧ up.get R.PWR_STATUS.STATE = 1 ∧ up.pwr.levelFor = 0 ∧
        up.near = b.near)) ∧
      (throttleHolds b = false → up = b ∧ (n = 0 → down = b.set R.PWR_STATUS.STATE 0) ∧
        (0 < n → n ≤ 5 → 4000 ≤ b.pwr.levelFor → down.get R.PWR_STATUS.LEVEL = n - 1 ∧
          down.get R.KNT_RGN.STATE 1 = (if n = 1 then 0 else 1) ∧ down.get R.PWR_STATUS.STATE = (if n = 1 then 0 else 1) ∧
          down.pwr.levelFor = 0 ∧ down.near = b.near))) ∧
    (s.get R.PWR_IN.VIN_MV < quiesceMv s.toBody ∨ s.get R.PWR_STATUS.PG = 0 → quiet s.toBody = false →
      exec .quiesceEnter s = .next (s.arm (.pwr .quiesce))) ∧
    (quiet s.toBody = true ∨ (quiesceMv s.toBody ≤ s.get R.PWR_IN.VIN_MV ∧ s.get R.PWR_STATUS.PG ≠ 0) →
      exec .quiesceEnter s = .next s) ∧
    (s.get R.PWR_STATUS.PG = 1 → quiet s.toBody = false →
      exec .pgoodDeassert s = .next (((s.set R.PWR_EVENT.PG_LOSS 1).set R.PWR_STATUS.PG 0).arm (.pwr .quiesce))) ∧
    (∀ b : Body, quiet b = false → let t := actNow b (.pwr .quiesce)
      quiet t = true ∧ t.get R.PWR_EVENT.QUIESCE_EV = 1 ∧ t = { b with regs := t.regs, pwr := t.pwr }) ∧
    (quiet s.toBody = true → s.pwr.stopped = none → s.pwr.ended = none →
      exec .quiesceDrained s = .next (s.arm (.pwr .drained))) ∧
    (∀ b : Body, quiet b = true → b.pwr.stopped = none → b.pwr.ended = none → let t := actNow b (.pwr .drained)
      (drained b = true → t.pwr.stopped = some b.now ∧
        (∀ r ∈ powerRegions, t.get R.KNT_RGN.STATE r = 2) ∧ t.near = b.near ∧ t.far = b.far ∧ t.olp = b.olp) ∧
      (drained b = false → t = b)) ∧
    (quiet s.toBody = true → s.pwr.ended = none →
      (3999 ≤ s.pwr.okQuiesce → exec .quiesceEnd s = .next (s.arm (.pwr .ended))) ∧
      (s.pwr.okQuiesce < 3999 → exec .quiesceEnd s = .next s)) ∧
    (∀ b : Body, quiet b = true → b.pwr.ended = none → let t := actNow b (.pwr .ended)
      (4000 ≤ b.pwr.okQuiesce → t = { b with pwr := { b.pwr with ended := some b.now } }) ∧ (b.pwr.okQuiesce < 4000 → t = b)) ∧
    (quiet s.toBody = true → s.pwr.ended.isSome = true → exec .quiesceRestart s = .next (s.arm (.pwr .restart))) ∧
    (s.pwr.ended = none → exec .quiesceRestart s = .next s) ∧
    (∀ b : Body, quiet b = true → b.pwr.ended.isSome = true → let t := actNow b (.pwr .restart)
      let n := b.get R.PWR_STATUS.LEVEL
      t.get R.PWR_STATUS.STATE = (if n ≠ 0 ∨ throttleHolds b = true then 1 else 0) ∧ t.pwr.stopped = none ∧
      (∀ r ∈ powerRegions, b.get R.KNT_RGN.STATE r = 2 → (8 ≤ r → bitAt (b.get R.STO_NEAR.STACK_UP) (r - 8) = true) →
        t.get R.KNT_RGN.STATE r = (if r < 8 ∧ n ≠ 0 then 1 else 0)) ∧
      (∀ r ∈ powerRegions, 8 ≤ r → bitAt (b.get R.STO_NEAR.STACK_UP) (r - 8) = false →
        t.get R.KNT_RGN.STATE r = b.get R.KNT_RGN.STATE r) ∧ t.near = b.near) ∧
    exec .surge s = .next ((s.set R.PWR_STATUS.SURGE 1).set R.PWR_EVENT.SURGE_EV 1) ∧
    (regOpen s (R.PWR_EXT.CLR.at 0) = true →
      exec .pwrExtClear s = .next (s.upd (fun b => { b with pwr := { b.pwr with extClr := true } })))) ∧
  (∀ s : State,
    (s.pwr.pin.isSome = true → exec .resetPinAssert s = .next s) ∧
    (s.pwr.pin = none →
      let held := s.upd (fun b => { b with pwr := { b.pwr with pin := some 0 } })
      (s.pwr.homeSeen = true → exec .resetPinAssert s = .next (held.arm (.reset 3 4))) ∧
      (s.pwr.homeSeen = false → s.pwr.off = false → exec .resetPinAssert s = .next (held.arm (.reset 4 4))) ∧
      (s.pwr.homeSeen = false → s.pwr.off = true → exec .resetPinAssert s = .next held)) ∧
    exec .resetPinRelease s = .next (s.upd (fun b => { b with pwr := { b.pwr with pin := none } })) ∧
    (∀ n, s.pwr.pin = some n → s.pwr.off = false →
      (4000000 ≤ n → exec .resetPinHoldTimeout s = .next (s.arm (.reset 4 4))) ∧
      (n < 4000000 → exec .resetPinHoldTimeout s = .next s))) ∧
  (∀ (s : State) (psel : Nat), psel < 4 →
    (s.pwr.off = false ∨ s.pwr.pin.isSome = true → exec (.powerOn psel false) s = .next s) ∧
    (s.pwr.pin = none →
      (s.pwr.off = true → s.pwr.cellLost = false → ∃ t, exec (.powerOn psel false) s = .next t ∧ t.pwr.off = false ∧
        t.get R.CFG_STATUS.PSEL = psel ∧ t.get R.CFG_STATUS.BOOT = psel ∧ t.acts = s.acts ++ [.load psel false] ∧ t.sec = s.sec ∧
        t.near = s.near ∧ t.far = s.far) ∧
      (s.pwr.off = true → s.pwr.cellLost = true → ∃ t, exec (.powerOn psel false) s = .next t ∧ t.pwr.off = false ∧
        t.sec.tlog.length = 1 ∧ t.get R.CAL_STATUS.VALID = 0 ∧ t.get R.CAL_STATUS.CELL_FAIL = 1 ∧ t.get R.SEC_EVENT.LOG_LOST = 1 ∧
        t.acts = s.acts ++ [.load psel false] ∧ t.near = s.near ∧ t.far = s.far) ∧
      (∃ t, exec (.powerOn psel true) s = .next t ∧ t.pwr.off = false ∧ t.get R.RST_CAUSE.KIND = 4 ∧ t.get R.RST_CAUSE.CAUSE = 1 ∧
        t.near = [] ∧ t.far = s.far ∧ t.acts = [.load psel false] ∧ t.sec.slots = s.sec.slots ∧ t.cfg.img = none))) ∧
  ∀ s : State, s.pwr.off = false →
    (s.pwr.pin.isSome = true → ∀ b, exec (.readinessSet b) s = .next s) ∧
    (s.pwr.pin = none →
      (s.get R.MGT_READY.SEC = 0 → (s.sec.destroy = false ∨ s.sec.lcs ≠ 0x0F) →
        ∃ t, exec (.readinessSet 2) s = .next t ∧ t.get R.MGT_READY.SEC = 1 ∧ t.sec.kem = s.sec.kemMade + 1 ∧
          t.sec.kemMade = s.sec.kemMade + 1 ∧ t.sec.nonce.length = 32 ∧ t.sec.slots = s.sec.slots ∧ t.sec.lcs = s.sec.lcs ∧
          t = { s with regs := t.regs, drawn := t.drawn, sec := t.sec }) ∧
      (s.get R.MGT_READY.HOME = 0 → s.get R.MGT_READY.SEC = 1 → s.cfg.img.isSome = true →
        ∃ t, exec (.readinessSet 3) s = .next t ∧ t.get R.MGT_READY.HOME = 1 ∧ t.pwr.homeSeen = true ∧
          (∀ n, n < 48 → t.get R.LNK_STATUS.ROLE n = s.img.links.getD n 0 % 2 ^ R.LNK_STATUS.ROLE.w) ∧
          t = s.upd (fun b => { b with regs := t.regs, pwr := t.pwr })) ∧
      (discGood s.toBody = true → s.get R.MGT_READY.KNOT = 0 →
        ∃ t, exec (.readinessSet 0) s = .next t ∧ t.get R.MGT_READY.KNOT = 1 ∧ t.near = s.near) ∧
      (s.get R.CAL_STATUS.VALID = 1 → exec (.readinessSet 1) s = .next (s.set R.MGT_READY.CAL 1)) ∧
      (s.get R.MGT_READY.HOME = 1 → s.get R.MGT_READY.STK = 255 →
        exec (.readinessSet 4) s = .next (s.set R.MGT_READY.XLT 1) ∧ exec (.readinessSet 5) s = .next (s.set R.MGT_READY.DIR 1)) ∧
      (s.get R.MGT_READY.HOME = 1 → quiet s.toBody = false →
        exec (.readinessSet 6) s = .next (s.set R.MGT_READY.CDC 1) ∧ exec (.readinessSet 10) s = .next (s.set R.MGT_READY.POOL 1)) ∧
      (s.get R.MGT_READY.HOME = 0 → ∀ b, (4 ≤ b ∧ b < 12) ∨ (48 ≤ b ∧ b < 64) → exec (.readinessSet b) s = .next s) ∧
      (∀ k, k < 8 → quiet s.toBody = false → s.get R.KNT_RGN.STATE (8 + k) ≠ 2 →
        exec (.readinessSet (24 + k)) s = .next ((s.setB R.MGT_READY.STK k).setB R.STO_NEAR.STACK_UP k)) ∧
      (∀ c, c < 16 → s.get R.MGT_READY.HOME = 1 → exec (.readinessSet (48 + c)) s =
        .next ((s.setB R.MGT_READY.CORE c).set R.RST_STATUS.CORE_RST (clrBit (s.get R.RST_STATUS.CORE_RST) c))))

/-! ### The security root -/

/-- SPDM and the unsigned vendor requests (R450, R452 to R454): every one sends exactly one answer to its requester. What
changes beside it is the transcript, which GET_VERSION begins anew and a signed answer closes, and free values drawn. A wrong
slot, nonce or index, and a code that is not supported, are answered with an error; an unsigned request that is not well
formed, or names another serial number, is refused. -/
def Obligations.AttestationAnswers : Prop :=
  ∀ (s : State) (eid : Nat), s.pwr.off = false →
    (∃ t b, exec (.getVersion eid) s = .next t ∧ Answered s t (.mgmt eid 5 0x04 b) ∧ t.sec.signedHash = none ∧
      t.sec.transcript = leBytes 1 0x84 ++ leBytes 1 0x04 ++ (leBytes 1 0 ++ leBytes 1 1 ++ leBytes 2 0x1300)) ∧
    (∃ t b, exec (.getCapabilities eid) s = .next t ∧ Answered s t (.mgmt eid 5 0x61 b) ∧
      s.sec.transcript <+: t.sec.transcript) ∧
    (∀ spec asym hash, ∃ t b, exec (.negotiateAlgorithms eid spec asym hash) s = .next t ∧ Answered s t (.mgmt eid 5 0x63 b) ∧
      s.sec.transcript <+: t.sec.transcript) ∧
    (∃ t b, exec (.getDigests eid) s = .next t ∧ Answered s t (.mgmt eid 5 0x01 (b ++ sha384 Config.certChain)) ∧
      s.sec.transcript <+: t.sec.transcript) ∧
    (∀ slot off len,
      (slot ≠ 0 ∨ Config.certChain.length < off →
        ∃ t, exec (.getCertificate eid slot off len) s = .next t ∧ Answered s t (spdmErrorOut eid 1 0) ∧ t.sec = s.sec) ∧
      (slot = 0 → off ≤ Config.certChain.length →
        ∃ t b, exec (.getCertificate eid slot off len) s = .next t ∧
          Answered s t (.mgmt eid 5 0x02 (b ++ (Config.certChain.drop off).take len)) ∧ s.sec.transcript <+: t.sec.transcript)) ∧
    (∀ slot m (n : List Byte),
      (slot ≠ 0 ∨ n.length ≠ 32 →
        ∃ t, exec (.challenge eid slot m n) s = .next t ∧ Answered s t (spdmErrorOut eid 1 0) ∧ t.sec = s.sec) ∧
      (slot = 0 → n.length = 32 → ∃ t b h, exec (.challenge eid slot m n) s = .next t ∧
        Answered s t (.mgmt eid 5 0x03 (b ++ Config.ecdsaSign h)) ∧ t.sec.signedHash = some h ∧ t.sec.transcript = [])) ∧
    (∀ sig index (n : List Byte),
      ((10 < index ∧ index ≠ 0xFF) ∨ (sig = true ∧ n.length ≠ 32) →
        ∃ t, exec (.getMeasurements eid sig index n) s = .next t ∧ Answered s t (spdmErrorOut eid 1 0) ∧ t.sec = s.sec) ∧
      (index ≤ 10 ∨ index = 0xFF → sig = false →
        ∃ t b, exec (.getMeasurements eid sig index n) s = .next t ∧ Answered s t (.mgmt eid 5 0x60 b) ∧
          s.sec.transcript <+: t.sec.transcript) ∧
      (index ≤ 10 ∨ index = 0xFF → sig = true → n.length = 32 →
        ∃ t b h, exec (.getMeasurements eid sig index n) s = .next t ∧ Answered s t (.mgmt eid 5 0x60 (b ++ Config.ecdsaSign h)) ∧
          t.sec.signedHash = some h ∧ t.sec.transcript = [])) ∧
    (∀ code, ∃ t, exec (.spdmUnsupported eid code) s = .next t ∧ Answered s t (spdmErrorOut eid 7 code) ∧ t.sec = s.sec) ∧
    (∀ b : List Byte,
      let answers := fun (i : Instr) (r : Nat) (body : List Byte) =>
        ∃ t, exec i s = .next t ∧ Answered s t (vendorOut eid r body) ∧ t.sec = s.sec
      (reqShape 0 false b = false → answers (.getNonce eid b) rsFORMAT []) ∧
      (reqShape 0 false b = true → le b 4 8 ≠ s.sec.serial → answers (.getNonce eid b) rsSERIAL []) ∧
      (reqShape 0 false b = true → le b 4 8 = s.sec.serial → answers (.getNonce eid b) rsOK s.sec.nonce) ∧
      (reqShape 1 false b = false → answers (.kemGet eid b) rsFORMAT []) ∧
      (reqShape 1 false b = true → le b 4 8 = s.sec.serial →
        (s.sec.kem = 0 → answers (.kemGet eid b) rsBUSY []) ∧
        (s.sec.kem ≠ 0 → let ek := Config.kemPublic s.sec.kem
          let h := sha384 (s.sec.nonce ++ ek)
          answers (.kemGet eid b) rsOK (ek ++ s.sec.nonce ++ Config.ecdsaSign h ++ Config.mldsaSign h))) ∧
      (reqShape 7 false b = false → answers (.mldsaSig eid b) rsFORMAT []) ∧
      (reqShape 7 false b = true → le b 4 8 = s.sec.serial →
        (s.sec.signedHash = none → answers (.mldsaSig eid b) rsSTATE []) ∧
        (∀ h, s.sec.signedHash = some h → answers (.mldsaSig eid b) rsOK (Config.mldsaSign h))))

/-- Signed requests (R447 to R450, R455 to R463): each is decided at the next boundary; it then sends one answer, with its result, and replaces the nonce; OK is the
answer exactly where the request's checks, and its own conditions, hold, and then it has its effect; refused, it changes no
slot, no key, no fuse and no capability. A burn that ends puts its code into effect and orders a POWER reset; a tamper event
on a powered package destroys the keys and the ML-KEM pair. -/
def Obligations.SignedRequests : Prop :=
  (∀ (i : Instr) (req eid : Nat) (b : List Byte) (s : State), signedRow i = some (req, eid, b) → s.pwr.off = false →
    exec i s = .next (s.arm (.signed req eid b)) ∧
    ∃ t r, secNow s (.signed req eid b) = t ∧ t.out = vendorOut eid r [] :: s.out ∧ t.sec.nonce.length = 32 ∧ t.near = s.near ∧ t.far = s.far ∧
      (signedCheck s req b ≠ rsOK → r = signedCheck s req b) ∧
      (r ≠ rsOK → t.sec.slots = s.sec.slots ∧ t.sec.lcs = s.sec.lcs ∧ t.sec.burn = s.sec.burn ∧ t.parts = s.parts ∧
        t.get R.SEC_STATUS.DEBUG_OPEN = s.get R.SEC_STATUS.DEBUG_OPEN ∧ t.get R.SEC_ERR_LOG.REQ = req ∧
        t.get R.SEC_ERR_LOG.RESULT = r ∧ t.get R.SEC_EVENT.REFUSED = 1)) ∧
  (∀ (s : State) (eid : Nat) (b : List Byte), s.pwr.off = false →
    let ss := signerSlots s b
    let body := reqBody b
    (let n := le body 0 1
     let k := slotAt s n
     ∃ t r, secNow s (.signed 6 eid b) = t ∧ t.out = vendorOut eid r [] :: s.out ∧
      (r = rsOK ↔ signedCheck s 6 b = rsOK ∧ reqBlen b = 1 ∧ n ≠ 0 ∧ n < 8 ∧ (∃ m ∈ ss, m ≠ n ∧ hasRole s m 4 = true) ∧
        k.valid = true ∧ k.revoked = false ∧
        (hasRole s n 0 = true → ∃ m, m < 8 ∧ m ≠ 0 ∧ m ≠ n ∧ (slotAt s m).valid = true ∧ (slotAt s m).revoked = false ∧
          hasRole s m 0 = true)) ∧
      (r = rsOK → slotAt t n = { k with revoked := true } ∧ ∀ m, m ≠ n → slotAt t m = slotAt s m)) ∧
    (let n := le body 0 1
     let roles := le body 1 1
     ∃ t r, secNow s (.signed 5 eid b) = t ∧ t.out = vendorOut eid r [] :: s.out ∧
      (r = rsOK ↔ signedCheck s 5 b = rsOK ∧ reqBlen b = 2690 ∧ n ≠ 0 ∧ n < 8 ∧ roles < 32 ∧
        (∃ m ∈ ss, hasRole s m 4 = true ∨ (m = 0 ∧ n = 1 ∧ lcsNow s = 3)) ∧ (slotAt s n).valid = false) ∧
      (r = rsOK → s.sec.slots.length = 8 → (∀ m, m ≠ n → slotAt t m = slotAt s m) ∧ slotAt t n = {
        valid := true, revoked := (slotAt s n).revoked, roles := roles, digest := sha384 (body.drop 2), record := body.drop 2 })) ∧
    (let m := le body 0 1
     ∃ t r, secNow s (.signed 4 eid b) = t ∧ t.out = vendorOut eid r [] :: s.out ∧
      (r = rsOK ↔ signedCheck s 4 b = rsOK ∧ reqBlen b = 1 ∧ (∃ n ∈ ss, hasRole s n 3 = true) ∧
        ∀ k, bitAt m k = true → ∃ n ∈ ss, hasRole s n 3 = true ∧ bitAt (unlockable (lcsNow s) n) k = true) ∧
      (r = rsOK → t.get R.SEC_STATUS.DEBUG_OPEN = (s.get R.SEC_STATUS.DEBUG_OPEN ||| m) % 2 ^ R.SEC_STATUS.DEBUG_OPEN.w ∧
        t.get R.SEC_EVENT.DEBUG_UNLOCK = 1)) ∧
    (let l := le body 0 1
     ∃ t r, secNow s (.signed 3 eid b) = t ∧ t.out = vendorOut eid r [] :: s.out ∧ t.sec.lcs = s.sec.lcs ∧
      (r = rsOK ↔ signedCheck s 3 b = rsOK ∧ reqBlen b = 1 ∧ l ≠ 0 ∧ l = lcNext (lcsNow s) ∧ s.get R.CFG_STATUS.STATE ≠ 3 ∧
        s.sec.burn = none ∧ lcSigners s l ss = true ∧ lcPrecond s l = true) ∧
      (r = rsOK → t.sec.burn = some (l, s.now) ∧ t.get R.LCS_STATE.PENDING = 1)) ∧
    (let pid := le body 0 2
     let kind := le body 2 1
     let keys := (s.part pid).keys
     ∃ t r, secNow s (.signed 2 eid b) = t ∧ t.out = vendorOut eid r [] :: s.out ∧ t.sec.kem = s.sec.kemMade + 1 ∧
      t.sec.kemMade = s.sec.kemMade + 1 ∧
      (r = rsOK ↔ signedCheck s 2 b = rsOK ∧ (∃ n ∈ ss, hasRole s n 1 = true) ∧ (kind = 1 ∨ kind = 2) ∧ le body 3 1 = 0 ∧
        body.length = 1572 + (if kind = 1 then 64 else 32) + 16 ∧ pid < 1024 ∧ (partDef s.toBody pid).isSome = true ∧
        s.sec.kem ≠ 0 ∧ (unwrapped s b).isSome = true ∧ (kind = 1 → keys.rest = none) ∧
        (kind = 2 → keys.sess = none ∨ keys.roll = none)) ∧
      (r = rsOK → (∀ p, p ≠ pid → t.part p = s.part p) ∧ t.part pid = { s.part pid with keys :=
        if kind = 1 then { keys with rest := unwrapped s b }
        else if keys.sess = none then { keys with sess := unwrapped s b } else { keys with staged := unwrapped s b } }))) ∧
  (∀ s : State, s.pwr.off = false →
    (s.sec.burn = none → exec .lcBurnDone s = .next s) ∧
    (∀ l k, s.sec.burn = some (l, k) → ∃ t, exec .lcBurnDone s = .next t ∧ t.sec.lcs = l ∧ t.sec.burn = none ∧
      t.acts = s.acts ++ [.reset 4 5] ∧ t.near = s.near ∧ t.far = s.far ∧
      (l = 0x0F → t.cfg.profiles = [] ∧ t.cfg.floor = 0 ∧ (∀ p, (t.part p).keys = {}) ∧
        ∀ n, n ≠ 0 → n < s.sec.slots.length → (slotAt t n).revoked = true ∧ (slotAt t n).record = []) ∧
      (l ≠ 0x0F → t.sec.slots = s.sec.slots ∧ t.parts = s.parts ∧ t.cfg = s.cfg))) ∧
  ∀ (s : State) (kind : Nat),
    (kind = 0 ∨ 4 < kind → ∀ p, exec (.tamperEvent kind p) s = .next s) ∧
    (1 ≤ kind → kind ≤ 4 → ∃ t, exec (.tamperEvent kind true) s = .next t ∧ t.sec.kem = 0 ∧ t.get R.SEC_STATUS.ZEROISED = 1 ∧
      t.get R.SEC_STATUS.DEBUG_OPEN = 0 ∧ t.get R.SEC_EVENT.TAMPER = 1 ∧ t.get R.SEC_EVENT.ZEROISE = 1 ∧
      t.sec.tlog.length = min 256 (s.sec.tlog.length + 2) ∧
      (∀ p, (t.part p).keys = { gen := (s.part p).keys.gen }) ∧ t.near = s.near ∧ t.far = s.far ∧ t.sec.slots = s.sec.slots) ∧
    (1 ≤ kind → kind ≤ 3 → ∃ t, exec (.tamperEvent kind false) s = .next t ∧ t = { s with sec := t.sec } ∧
      t.sec.kem = s.sec.kem ∧ t.sec.slots = s.sec.slots ∧ t.sec.tlog.length = min 256 (s.sec.tlog.length + 1)) ∧
    exec (.tamperEvent 4 false) s = .next s

/-! ### Observation -/

/-- Records on their way to a buffer (R471, R474, R480, R486, R487): a latched sample, and a mark, join the staged records of
their destination, or are dropped and counted where staging is full; a PC record is formed once a boundary; a partial line
that has waited 64 knots is written, byte for byte, and the producer pointer advances. Tracing starts at the boundary after its
enable, from an empty buffer; the enables of watchpoints and rings take what R481, R483 and R484 let them. -/
def Obligations.Observation : Prop :=
  ∀ s : State, s.pwr.off = false →
    let room := fun (b : Body) (r : List Byte) => obsStagedBytes b + r.length ≤ 262144
    (∀ n d fl time body, n < 16 → s.obs.latched = [(n, d, fl, time, body)] → s.get R.MGT_READY.KNOT = 1 →
      let told := s.knot.gaps.all (fun g => g.1 != 0)
      let stamp := if hasGap time && told then ungap time else time
      let bytes := obsBytes 0x40 fl stamp body
      (room s.toBody bytes → s.obs.lost.find? (fun e => e.1 == d) = none →
        ∃ t, exec (.sampleTake n) s = .next t ∧
          t.obs = { s.obs with latched := [], staged := s.obs.staged ++ [{ dest := d, knot := s.now, ty := 0x40, bytes := bytes }] } ∧
          (hasGap time = false → t = s.upd (fun b => { b with obs := t.obs })) ∧
          (hasGap stamp = true → ∀ g ∈ t.knot.gaps, g.1 ≠ le stamp 10 1) ∧ t.regs = s.regs ∧ t.near = s.near ∧ t.far = s.far) ∧
      (¬ room s.toBody bytes → ∃ t, exec (.sampleTake n) s = .next t ∧ t.obs.latched = [] ∧ t.obs.staged = s.obs.staged ∧
        t.get (if 2 ≤ d then R.OBS_EVENT.RING_DROP else R.OBS_EVENT.LOST) = 1 ∧
        (∃ e ∈ t.obs.lost, e.1 = d) ∧ t.near = s.near)) ∧
    (∀ n, (∀ e ∈ s.obs.latched, e.1 ≠ n) → exec (.sampleTake n) s = .next s) ∧
    (∀ v, traceOn s.toBody 4 = true → s.get R.OBS_TRACE_CTL.FROZEN = 0 → s.get R.MGT_READY.KNOT = 1 → s.obs.lost = [] →
      obsStagedBytes s.toBody + 40 ≤ 262144 → s.knot.gaps = [] →
      ∃ r, (actNow s.toBody (.obsMark v)).obs.staged = s.obs.staged ++ [r] ∧ r.dest = 0 ∧ r.ty = 2 ∧ r.knot = s.now ∧
        r.bytes.length = 24 ∧ r.bytes.drop 16 = leBytes 8 v) ∧
    (∀ c, c < 16 →
      (AMap.get 0 s.obs.pcAt c = s.now + 1 → exec (.pcRecord c) s = .next s) ∧
      (AMap.get 0 s.obs.pcAt c ≠ s.now + 1 → traceOn s.toBody 2 = true → s.get R.MGT_READY.KNOT = 1 →
        s.now % 2 ^ min 20 (s.get R.OBS_TRACE_CTL.PC_LOG) = 0 → bitAt (s.get R.OBS_TRACE_CTL.CORES) c = true →
        s.get R.OBS_TRACE_CTL.FROZEN = 0 → s.img.parts = [] → s.obs.lost = [] → s.knot.gaps = [] →
        obsStagedBytes s.toBody + 152 ≤ 262144 →
        ∃ t r, exec (.pcRecord c) s = .next t ∧ t.obs.staged = s.obs.staged ++ [r] ∧ r.dest = 0 ∧ r.ty = 0x20 ∧
          r.bytes.length = 152 ∧ AMap.get 0 t.obs.pcAt c = s.now + 1 ∧ t.near = s.near)) ∧
    (∀ d, (∀ r ∈ s.obs.staged, r.dest = d → s.now < r.knot + 64) → exec (.partialLineFlush d) s = .next s) ∧
    (∀ r, s.obs.staged = [r] → r.dest = 0 → r.knot + 64 ≤ s.now → s.get R.OBS_TRACE_CTL.STOP_FULL = 0 →
      let p := s.get R.OBS_TRACE_PTR.PROD
      let size := s.img.traceFrames * 65536
      0 < r.bytes.length → p % size + r.bytes.length ≤ size → p + r.bytes.length < 2 ^ 48 →
      spanLines p (p + r.bytes.length) ≤ s.obs.left →
      ∃ t, exec (.partialLineFlush 0) s = .next t ∧ t.obs.staged = [] ∧ t.get R.OBS_TRACE_PTR.PROD = p + r.bytes.length ∧
        (∀ i, (h : i < r.bytes.length) → AMap.get 0 t.obs.trace (p % size + i) = r.bytes[i]) ∧
        (∀ a, a < p % size ∨ p % size + r.bytes.length ≤ a → AMap.get 0 t.obs.trace a = AMap.get 0 s.obs.trace a) ∧
        t.near = s.near ∧ t.far = s.far) ∧
    (regOpen s (R.OBS_TRACE_CTL.EN.at 0) = true →
      exec .traceEnable s = .next ((s.set R.OBS_TRACE_CTL.EN 1).arm (.traceEn 1))) ∧
    (∀ b : Body,
      (b.obs.tracing = true → actNow b (.traceEn 1) = b) ∧
      (b.obs.tracing = false → let t := actNow b (.traceEn 1)
        t.obs.tracing = true ∧ t.get R.OBS_TRACE_PTR.PROD = 0 ∧ t.obs.trace = [] ∧
        t.obs.staged = b.obs.staged.filter (fun r => r.dest != 0) ∧ t.near = b.near) ∧
      actNow b (.traceEn 0) = { b with obs := { b.obs with tracing := false } }) ∧
    (∀ w, w < 16 → regOpen s (R.OBS_WP_CTL.EN.at w) = true →
      (s.get R.OBS_WP_CTL.ALLPID w ≠ 0 → s.get R.OBS_WP_CTL.SPACE w = 0 →
        exec (.watchpointEnable w) s = .next (s.set R.OBS_WP_CTL.EN 0 w)) ∧
      (s.get R.OBS_WP_CTL.ALLPID w = 0 ∨ s.get R.OBS_WP_CTL.SPACE w ≠ 0 →
        (s.get R.OBS_WP_CTL.EN w ≠ 0 → exec (.watchpointEnable w) s = .next (s.set R.OBS_WP_CTL.EN 1 w)) ∧
        (s.get R.OBS_WP_CTL.EN w = 0 → exec (.watchpointEnable w) s = .next ((s.upd (fun b => { b with obs :=
          { b.obs with armed := AMap.put (0, 0) b.obs.armed w (b.now + 2, 0) } })).set R.OBS_WP_CTL.EN 1 w)))) ∧
    (∀ pid sync pc ring sizeLog, regOpen s (R.OBS_RING.EN.at 0) = true → pidOk s.toBody pid = true →
      ring < 2 ^ R.OBS_RING.RING.w → sizeLog < 2 ^ R.OBS_RING.SIZE_LOG.w →
      ∃ t, exec (.ringEnable pid sync pc ring sizeLog) s = .next t ∧ t.get R.OBS_RING.RING 0 pid = ring ∧
        t.get R.OBS_RING.SIZE_LOG 0 pid = sizeLog ∧ t.get R.OBS_RING.SYNC 0 pid = b2n sync ∧ t.get R.OBS_RING.PC 0 pid = b2n pc ∧
        (t.get R.OBS_RING.EN 0 pid = 1 → 12 ≤ sizeLog ∧ ringPlaced s.toBody pid (ring * 4096) (2 ^ sizeLog) = true ∧
          (∃ f, s.img.rings.find? (fun r => r.1 == pid) = some (pid, f) ∧ 2 ^ sizeLog ≤ f * 65536) ∧
          ∃ r l, sgaLoc s.toBody (ring * 4096) = some (r, l) ∧ regionPinned s.toBody r = true) ∧
        (∀ f r, 12 ≤ sizeLog → ringPlaced s.toBody pid (ring * 4096) (2 ^ sizeLog) = true →
          s.img.rings.find? (fun r => r.1 == pid) = some (pid, f) → 2 ^ sizeLog ≤ f * 65536 →
          (sgaLoc s.toBody (ring * 4096)).map (·.1) = some r → regionPinned s.toBody r = true →
          t.get R.OBS_RING.EN 0 pid = 1) ∧ t.near = s.near ∧ t.far = s.far)

/-! ### The management port -/

/-- The management endpoint (R65, R491, R492, R498): SET_ENDPOINT_ID makes its first sender the owner and is refused to others; each
request of MCTP control and PLDM has one answer; a message of another type has none. A sensor reads its source; a platform
event goes to the owner once for an alert. An answer goes out whole in frames of at most 1,024 B and a CRC-32 that holds. -/
def Obligations.ManagementEndpoint : Prop :=
  ∀ (s : State) (src : Nat), s.pwr.off = false → src < 256 →
    let said := fun (t : State) (proto cc : Nat) (data : List Byte) => Host.Outcome.next (φ := Fault) (ρ := Refusal) (t.send (.mgmt src proto cc data))
    (∀ eid, 1 ≤ eid → eid < 255 →
      (s.get R.MGT_EID.OWNER_V = 0 ∨ s.get R.MGT_EID.OWNER = src → exec (.setEndpointId src eid) s =
        said (((s.set R.MGT_EID.EID eid).set R.MGT_EID.OWNER src).set R.MGT_EID.OWNER_V 1) 0 0
          (leBytes 1 0 ++ leBytes 1 eid ++ leBytes 1 0)) ∧
      (s.get R.MGT_EID.OWNER_V = 1 → s.get R.MGT_EID.OWNER ≠ src → exec (.setEndpointId src eid) s =
        said s 0 0 (leBytes 1 0x10 ++ leBytes 1 (s.get R.MGT_EID.EID) ++ leBytes 1 0))) ∧
    (∀ eid, eid = 0 ∨ 255 ≤ eid → exec (.setEndpointId src eid) s = said s 0 2 []) ∧
    exec (.getEndpointId src) s = said s 0 0 (leBytes 1 (s.get R.MGT_EID.EID) ++ leBytes 2 0) ∧
    (∀ ty, ty ∈ [0, 1, 5, 0xFF] → ∃ t v, exec (.getMctpVersionSupport src ty) s = .next t ∧
      t.out = .mgmt src 0 0 (leBytes 1 1 ++ leBytes 4 v) :: s.out ∧ t.regs = s.regs ∧ t.near = s.near) ∧
    (∀ ty, ty ∉ [0, 1, 5, 0xFF] → exec (.getMctpVersionSupport src ty) s = said s 0 0x80 []) ∧
    exec (.getMessageTypeSupport src) s = said s 0 0 (leBytes 1 2 ++ leBytes 1 1 ++ leBytes 1 5) ∧
    (∀ ty, exec (.mctpUnsupportedType src ty) s = .next s) ∧
    (∀ arg, exec (.pldmBaseDiscovery src 1 arg) s = said { s with mgt := { s.mgt with tid := arg % 256 } } 1 0 [] ∧
      exec (.pldmBaseDiscovery src 2 arg) s = said s 1 0 (leBytes 1 s.mgt.tid) ∧
      (∃ t v, exec (.pldmBaseDiscovery src 3 arg) s = .next t ∧ t.out = .mgmt src 1 0 (leBytes 4 v) :: s.out ∧ t.regs = s.regs) ∧
      exec (.pldmBaseDiscovery src 4 arg) s = said s 1 0 (leBytes 8 (2 ^ 0 + 2 ^ 2 + 2 ^ 5 + 2 ^ 63)) ∧
      (∃ t b, exec (.pldmBaseDiscovery src 5 arg) s = .next t ∧ t.out = .mgmt src 1 0 b :: s.out ∧ b.length = 32 ∧ t.regs = s.regs) ∧
      ∀ cmd, 5 < cmd → exec (.pldmBaseDiscovery src cmd arg) s = said s 1 5 []) ∧
    exec (.pldmSensorRead src 1) s = said s 1 0 (leBytes 2 (s.get R.PWR_IN.VIN_MV)) ∧
    exec (.pldmSensorRead src 2) s = said s 1 0 (leBytes 2 (s.get R.PWR_IN.IIN)) ∧
    exec (.pldmSensorRead src 3) s = said s 1 0 (leBytes 2 (s.get R.PWR_IN.PKG_W)) ∧
    exec (.pldmSensorRead src 0x10) s = said s 1 0 (leBytes 2 (alertBits s.toBody)) ∧
    exec (.pldmSensorRead src 0x11) s = said s 1 0 (leBytes 2 (s.get R.PWR_STATUS.STATE)) ∧
    exec (.pldmSensorRead src 0x12) s = said s 1 0 (leBytes 2 (s.get R.KNT_STATUS.STATE)) ∧
    (∀ id, id ∉ [1, 2, 3, 0x10, 0x11, 0x12] → exec (.pldmSensorRead src id) s = said s 1 0x80 []) ∧
    (alertOn s.toBody = true → s.mgt.alertTold = false → s.get R.MGT_EID.OWNER_V = 1 →
      (s.mgt.alertAt = none ∨ ∃ k, s.mgt.alertAt = some k ∧ k + 4000 ≤ s.tick) →
      exec .platformEventSend s = .next ({ s with mgt := { s.mgt with alertTold := true, alertAt := some s.tick } }.send
        (.mgmt (s.get R.MGT_EID.OWNER) 1 0 (leBytes 2 0x10 ++ leBytes 2 (alertBits s.toBody))))) ∧
    (alertOn s.toBody = false ∨ s.mgt.alertTold = true ∨ s.get R.MGT_EID.OWNER_V = 0 ∨
      (∃ k, s.mgt.alertAt = some k ∧ s.tick < k + 4000) → exec .platformEventSend s = .next s) ∧
    (∀ n eid proto cc data,
      let fs := mgmtFrames (s.get R.MGT_EID.EID) n eid proto cc data
      (∀ f ∈ fs, f.length ≤ 1028 ∧ mgmtPacket f = some (f.take (f.length - 4))) ∧
      fs.flatMap (fun f => slice f 4 (f.length - 8)) = mgmtMessage n proto cc data)

/-- The register window (R5, R489, R490, R493 to R497, R499, R500). A request that is refused changes no register but
MGT_WIN_ERR; a read shows every register in turn, with its note, and disturbs none; a write clears the W1C bits it names and then
applies its registers in ascending order, and the same write again is answered again and not applied. A write of one register takes the bits that its mask names
in the fields that software may write, clears the ones it names in a W1C field, and changes nothing where the register is
closed, gated or absent. -/
def Obligations.RegisterWindow : Prop :=
  (∀ (s : State) (eid inst : Nat) (b : List Byte), s.pwr.off = false →
    let off := le b 4 4
    let k := le b 8 1
    (∀ cmd, winCode s eid cmd b ≠ 0 → exec (.regRead eid inst cmd b) s =
      .next ((winErr s (winCode s eid cmd b) cmd eid off).send (.mgmt eid 1 (winCode s eid cmd b) []))) ∧
    (winCode s eid 2 b ≠ 0 → exec (.regWrite eid inst b) s =
      .next ((winErr s (winCode s eid 2 b) 2 eid off).send (.mgmt eid 1 (winCode s eid 2 b) []))) ∧
    (winCode s eid 1 b = 0 →
      let ns := (List.range k).map (fun i => (readReg s (off + 8 * i)).2)
      ∃ t time, exec (.regRead eid inst 1 b) s = .next t ∧ time.length = 12 ∧ t.out = .mgmt eid 1 0 (List.replicate 3 0 ++ time ++
          leBytes 8 (noteBits ns) ++ (List.range k).flatMap (fun i => leBytes 8 (readReg s (off + 8 * i)).1)) :: s.out ∧
        (ns.all (fun n => !n) = true → t.regs = s.regs) ∧ t.near = s.near ∧ t.far = s.far ∧ t.sec = s.sec ∧ t.acts = s.acts) ∧
    (winCode s eid 2 b = 0 →
      (∀ c j r, s.mgt.lastWrite = some (inst, c, j, r) → c = b → s.tick ≤ j + 400000 →
        exec (.regWrite eid inst b) s = .next (s.send (.mgmt eid 1 0 r))) ∧
      ((∀ j r, s.mgt.lastWrite = some (inst, b, j, r) → j + 400000 < s.tick) → ∃ t time, exec (.regWrite eid inst b) s = .next t ∧ time.length = 12 ∧
        let w := regWrites off b (List.range k) (s.upd (fun d => (stampBlk d 0 false).2))
        let r := List.replicate 3 0 ++ time ++ leBytes 8 (noteBits w.1)
        t.out = .mgmt eid 1 0 r :: w.2.out ∧ t.mgt.lastWrite = some (inst, b, s.tick, r) ∧
        (w.1.all (fun n => !n) = true → t.regs = w.2.regs) ∧ t.near = w.2.near ∧ t.acts = w.2.acts ∧ t.sec = w.2.sec))) ∧
  (∀ (s : State) (off data mask : Nat), s.pwr.off = false →
    (regAt off = none ∨ regOpen s off = false ∨ ilvShown s off = false → exec (.registerWrite off data mask) s = .next s) ∧
    (∀ r n, regAt off = some (r, n) → regOpen s off = true → ilvShown s off = true →
      (selItem s r.sel n = none ∨ mask = 0 → exec (.registerWrite off data mask) s = .next s) ∧
      (∀ j, selItem s r.sel n = some j → mask ≠ 0 →
        exec (.registerWrite off data mask) s = .next (wrReg { data := data, mask := mask } r n j s))) ∧
    (regOpen s 0x1B0048 = true → data < 2 ^ 64 →
      exec (.registerWrite 0x1B0048 data (2 ^ 64 - 1)) s = .next (s.set R.CFG_PARTIAL_T.T data)) ∧
    (regOpen s 0x1B0050 = true → ∃ t, exec (.registerWrite 0x1B0050 1 1) s = .next t ∧ t.get R.CFG_EVENT.REFUSED = 0 ∧
      bitAt (t.get R.CFG_EVENT.APPLIED) 0 = bitAt (s.get R.CFG_EVENT.APPLIED) 0 ∧ t = s.upd (fun b => { b with regs := t.regs }))) ∧
  (∀ (s : Body) (w : Wr) (f : Fld) (i j b : Nat), b < f.w → f.view = false →
    let old := bitAt (s.get f i j) b
    let named := bitAt (w.mask / 2 ^ f.lo) b
    let one := bitAt (w.data / 2 ^ f.lo) b
    let new := bitAt ((wrField w i j s f).get f i j) b
    (f.acc = .rw ∨ f.acc = .rws → new = if named then one else old) ∧
    (f.acc = .w1c → new = (old && !(named && one))) ∧
    (f.acc = .ro ∨ f.acc = .wo → new = old))
end

