-- ==== Sys2Proof/Laws/Assoc.lean ====
section
/-!
SUPPORT. Laws of the sparse maps: read after write, and that every operation keeps the canonical form.
-/

namespace Sys2Proof.Machine

variable {α : Type}

theorem AMap.get_insert_self (d v : α) (x : Nat) (m : AMap α) (h : ∀ e ∈ m, e.1 ≠ x) :
    AMap.get d (AMap.insert m x v) x = v := by
  induction m with
  | nil => simp [AMap.insert, AMap.get]
  | cons e t ih =>
    obtain ⟨k, w⟩ := e
    have hk : k ≠ x := h (k, w) (by simp)
    have ht := ih (fun e he => h e (by simp [he]))
    by_cases hx : x < k <;> simp [AMap.insert, AMap.get, hx, hk, ht]

theorem AMap.get_insert_ne (d v : α) {x y : Nat} (m : AMap α) (h : x ≠ y) :
    AMap.get d (AMap.insert m x v) y = AMap.get d m y := by
  induction m with
  | nil => simp [AMap.insert, AMap.get, h]
  | cons e t ih =>
    obtain ⟨k, w⟩ := e
    by_cases hx : x < k <;> simp [AMap.insert, AMap.get, hx, h, ih]

theorem AMap.get_erase_self (d : α) (x : Nat) (m : AMap α) : AMap.get d (AMap.erase m x) x = d := by
  induction m with
  | nil => rfl
  | cons e t ih =>
    obtain ⟨k, w⟩ := e
    by_cases hx : k = x <;> simp_all [AMap.erase, AMap.get]

theorem AMap.get_erase_ne (d : α) {x y : Nat} (m : AMap α) (h : x ≠ y) :
    AMap.get d (AMap.erase m x) y = AMap.get d m y := by
  induction m with
  | nil => rfl
  | cons e t ih =>
    obtain ⟨k, w⟩ := e
    by_cases hx : k = x <;> simp_all [AMap.erase, AMap.get]

theorem AMap.mem_erase {m : AMap α} {x : Nat} {e : Nat × α} (h : e ∈ AMap.erase m x) : e ∈ m ∧ e.1 ≠ x := by
  simpa [AMap.erase] using h

variable [DecidableEq α]

/-- A read after a write of the same key gives the value written. -/
@[simp] theorem AMap.get_put_self (d v : α) (x : Nat) (m : AMap α) : AMap.get d (AMap.put d m x v) x = v := by
  unfold AMap.put
  split
  · rename_i h; rw [h]; exact AMap.get_erase_self d x m
  · exact AMap.get_insert_self d v x _ (fun e he => (AMap.mem_erase he).2)

/-- A write leaves every other key alone, whatever default it is read with. -/
theorem AMap.get_put_ne (d d' v : α) {x y : Nat} (m : AMap α) (h : x ≠ y) :
    AMap.get d' (AMap.put d m x v) y = AMap.get d' m y := by
  unfold AMap.put
  split
  · exact AMap.get_erase_ne d' m h
  · rw [AMap.get_insert_ne d' v _ h, AMap.get_erase_ne d' m h]

omit [DecidableEq α] in
theorem AMap.sorted_iff (m : AMap α) : AMap.sorted m = true ↔ m.Pairwise (fun a b => a.1 < b.1) := by
  induction m with
  | nil => simp [AMap.sorted]
  | cons e t ih =>
    obtain ⟨k, w⟩ := e
    cases t with
    | nil => simp [AMap.sorted]
    | cons e' t' =>
      obtain ⟨k', w'⟩ := e'
      simp only [AMap.sorted, Bool.and_eq_true, decide_eq_true_eq, ih]
      constructor
      · rintro ⟨hk, hp⟩
        refine List.pairwise_cons.2 ⟨?_, hp⟩
        intro b hb
        rcases List.mem_cons.1 hb with rfl | hb
        · exact hk
        · exact Nat.lt_trans hk ((List.pairwise_cons.1 hp).1 b hb)
      · intro hp
        exact ⟨(List.pairwise_cons.1 hp).1 (k', w') (by simp), (List.pairwise_cons.1 hp).2⟩

omit [DecidableEq α] in
theorem AMap.mem_insert {m : AMap α} {x : Nat} {v : α} {e : Nat × α} (h : e ∈ AMap.insert m x v) :
    e = (x, v) ∨ e ∈ m := by
  induction m with
  | nil => simpa [AMap.insert] using h
  | cons f t ih =>
    obtain ⟨k, w⟩ := f
    by_cases hx : x < k <;> simp only [AMap.insert, hx, if_true, if_false, List.mem_cons] at h ⊢
    · exact h
    · rcases h with h | h
      · exact .inr (.inl h)
      · rcases ih h with h | h
        · exact .inl h
        · exact .inr (.inr h)

omit [DecidableEq α] in
theorem AMap.sorted_erase {m : AMap α} (x : Nat) (h : AMap.sorted m = true) : AMap.sorted (AMap.erase m x) = true := by
  rw [AMap.sorted_iff] at h ⊢
  exact h.filter _

omit [DecidableEq α] in
theorem AMap.sorted_insert {m : AMap α} {x : Nat} (v : α) (h : AMap.sorted m = true) (hx : ∀ e ∈ m, e.1 ≠ x) :
    AMap.sorted (AMap.insert m x v) = true := by
  rw [AMap.sorted_iff] at h ⊢
  induction m with
  | nil => simp [AMap.insert]
  | cons f t ih =>
    obtain ⟨k, w⟩ := f
    have hp := List.pairwise_cons.1 h
    by_cases hk : x < k <;> simp only [AMap.insert, hk, if_true, if_false]
    · refine List.pairwise_cons.2 ⟨?_, h⟩
      intro b hb
      rcases List.mem_cons.1 hb with rfl | hb
      · exact hk
      · exact Nat.lt_trans hk (hp.1 b hb)
    · have hkx : k ≠ x := hx (k, w) (by simp)
      refine List.pairwise_cons.2 ⟨?_, ih hp.2 (fun e he => hx e (by simp [he]))⟩
      intro b hb
      rcases AMap.mem_insert hb with rfl | hb
      · simp only; omega
      · exact hp.1 b hb

/-- A write keeps the canonical form. -/
theorem AMap.wf_put (d v : α) (x : Nat) {m : AMap α} (h : AMap.wf d m = true) : AMap.wf d (AMap.put d m x v) = true := by
  simp only [AMap.wf, Bool.and_eq_true, List.all_eq_true, Bool.not_eq_true', decide_eq_false_iff_not] at h ⊢
  unfold AMap.put
  split
  · exact ⟨AMap.sorted_erase x h.1, fun e he => h.2 e (AMap.mem_erase he).1⟩
  · rename_i hv
    refine ⟨AMap.sorted_insert v (AMap.sorted_erase x h.1) (fun e he => (AMap.mem_erase he).2), ?_⟩
    intro e he
    rcases AMap.mem_insert he with rfl | he
    · exact hv
    · exact h.2 e (AMap.mem_erase he).1

/-- Clearing a range keeps the canonical form. -/
theorem AMap.wf_clear (d : α) (lo hi : Nat) {m : AMap α} (h : AMap.wf d m = true) :
    AMap.wf d (AMap.clear m lo hi) = true := by
  simp only [AMap.wf, Bool.and_eq_true, List.all_eq_true, Bool.not_eq_true', decide_eq_false_iff_not,
    AMap.sorted_iff] at h ⊢
  refine ⟨h.1.filter _, fun e he => h.2 e ?_⟩
  simp only [AMap.clear, List.mem_filter] at he
  exact he.1

omit [DecidableEq α] in
/-- Outside a cleared range every key reads as before. -/
theorem AMap.get_clear_out (d : α) (m : AMap α) {lo hi x : Nat} (h : x < lo ∨ hi ≤ x) :
    AMap.get d (AMap.clear m lo hi) x = AMap.get d m x := by
  induction m with
  | nil => rfl
  | cons e t ih =>
    obtain ⟨k, w⟩ := e
    simp only [AMap.clear, List.filter_cons] at ih ⊢
    by_cases hk : k = x
    · subst hk
      simp [AMap.get, h]
    · split
      · simp [AMap.get, hk, ih]
      · simp [AMap.get, hk, ih]

omit [DecidableEq α] in
/-- Inside a cleared range every key reads as the default. -/
theorem AMap.get_clear_in (d : α) (m : AMap α) {lo hi x : Nat} (h₁ : lo ≤ x) (h₂ : x < hi) :
    AMap.get d (AMap.clear m lo hi) x = d := by
  induction m with
  | nil => rfl
  | cons e t ih =>
    obtain ⟨k, w⟩ := e
    simp only [AMap.clear, List.filter_cons] at ih ⊢
    split
    · rename_i hc
      have hk : k ≠ x := by
        rintro rfl
        simp at hc
        omega
      simp [AMap.get, hk, ih]
    · exact ih

end Sys2Proof.Machine
end

