-- ==== Sys2Proof/Laws/State.lean ====
section
/-!
SUPPORT. Field by field: what each named update of the body leaves as it is.
-/

namespace Sys2Proof.Machine

@[simp] theorem State.upd_toBody (s : State) (f : Body → Body) : (s.upd f).toBody = f s.toBody := rfl
@[simp] theorem State.upd_sec (s : State) (f : Body → Body) : (s.upd f).sec = s.sec := rfl
@[simp] theorem State.upd_mgt (s : State) (f : Body → Body) : (s.upd f).mgt = s.mgt := rfl
@[simp] theorem State.upd_pending (s : State) (f : Body → Body) : (s.upd f).pending = s.pending := rfl
@[simp] theorem State.upd_upd (s : State) (f g : Body → Body) : (s.upd f).upd g = s.upd (fun b => g (f b)) := rfl
@[simp] theorem State.upd_self (s : State) : s.upd (fun b => b) = s := rfl

/-! `Body.set` changes `regs` alone. -/

@[simp] theorem Body.set_knot (s : Body) (f : Fld) (v i j : Nat) : (s.set f v i j).knot = s.knot := rfl
@[simp] theorem Body.set_links (s : Body) (f : Fld) (v i j : Nat) : (s.set f v i j).links = s.links := rfl
@[simp] theorem Body.set_groupStart (s : Body) (f : Fld) (v i j : Nat) : (s.set f v i j).groupStart = s.groupStart := rfl
@[simp] theorem Body.set_suspectAt (s : Body) (f : Fld) (v i j : Nat) : (s.set f v i j).suspectAt = s.suspectAt := rfl
@[simp] theorem Body.set_cfg (s : Body) (f : Fld) (v i j : Nat) : (s.set f v i j).cfg = s.cfg := rfl
@[simp] theorem Body.set_parts (s : Body) (f : Fld) (v i j : Nat) : (s.set f v i j).parts = s.parts := rfl
@[simp] theorem Body.set_prt (s : Body) (f : Fld) (v i j : Nat) : (s.set f v i j).prt = s.prt := rfl
@[simp] theorem Body.set_xlt (s : Body) (f : Fld) (v i j : Nat) : (s.set f v i j).xlt = s.xlt := rfl
@[simp] theorem Body.set_sto (s : Body) (f : Fld) (v i j : Nat) : (s.set f v i j).sto = s.sto := rfl
@[simp] theorem Body.set_olp (s : Body) (f : Fld) (v i j : Nat) : (s.set f v i j).olp = s.olp := rfl
@[simp] theorem Body.set_dir (s : Body) (f : Fld) (v i j : Nat) : (s.set f v i j).dir = s.dir := rfl
@[simp] theorem Body.set_fences (s : Body) (f : Fld) (v i j : Nat) : (s.set f v i j).fences = s.fences := rfl
@[simp] theorem Body.set_near (s : Body) (f : Fld) (v i j : Nat) : (s.set f v i j).near = s.near := rfl
@[simp] theorem Body.set_far (s : Body) (f : Fld) (v i j : Nat) : (s.set f v i j).far = s.far := rfl
@[simp] theorem Body.set_cores (s : Body) (f : Fld) (v i j : Nat) : (s.set f v i j).cores = s.cores := rfl
@[simp] theorem Body.set_que (s : Body) (f : Fld) (v i j : Nat) : (s.set f v i j).que = s.que := rfl
@[simp] theorem Body.set_txn (s : Body) (f : Fld) (v i j : Nat) : (s.set f v i j).txn = s.txn := rfl
@[simp] theorem Body.set_peers (s : Body) (f : Fld) (v i j : Nat) : (s.set f v i j).peers = s.peers := rfl
@[simp] theorem Body.set_obs (s : Body) (f : Fld) (v i j : Nat) : (s.set f v i j).obs = s.obs := rfl
@[simp] theorem Body.set_tables (s : Body) (f : Fld) (v i j : Nat) : (s.set f v i j).tables = s.tables := rfl
@[simp] theorem Body.set_seqs (s : Body) (f : Fld) (v i j : Nat) : (s.set f v i j).seqs = s.seqs := rfl
@[simp] theorem Body.set_mtxFrac (s : Body) (f : Fld) (v i j : Nat) : (s.set f v i j).mtxFrac = s.mtxFrac := rfl
@[simp] theorem Body.set_merges (s : Body) (f : Fld) (v i j : Nat) : (s.set f v i j).merges = s.merges := rfl
@[simp] theorem Body.set_srhFrac (s : Body) (f : Fld) (v i j : Nat) : (s.set f v i j).srhFrac = s.srhFrac := rfl
@[simp] theorem Body.set_poolFrac (s : Body) (f : Fld) (v i j : Nat) : (s.set f v i j).poolFrac = s.poolFrac := rfl
@[simp] theorem Body.set_pwr (s : Body) (f : Fld) (v i j : Nat) : (s.set f v i j).pwr = s.pwr := rfl
@[simp] theorem Body.set_acts (s : Body) (f : Fld) (v i j : Nat) : (s.set f v i j).acts = s.acts := rfl
@[simp] theorem Body.set_out (s : Body) (f : Fld) (v i j : Nat) : (s.set f v i j).out = s.out := rfl
@[simp] theorem Body.set_tick (s : Body) (f : Fld) (v i j : Nat) : (s.set f v i j).tick = s.tick := rfl
@[simp] theorem Body.set_launched (s : Body) (f : Fld) (v i j : Nat) : (s.set f v i j).launched = s.launched := rfl
@[simp] theorem Body.set_drawn (s : Body) (f : Fld) (v i j : Nat) : (s.set f v i j).drawn = s.drawn := rfl

/-! `Body.setB` changes `regs` alone. -/

@[simp] theorem Body.setB_knot (s : Body) (f : Fld) (b i j : Nat) : (s.setB f b i j).knot = s.knot := rfl
@[simp] theorem Body.setB_links (s : Body) (f : Fld) (b i j : Nat) : (s.setB f b i j).links = s.links := rfl
@[simp] theorem Body.setB_groupStart (s : Body) (f : Fld) (b i j : Nat) : (s.setB f b i j).groupStart = s.groupStart := rfl
@[simp] theorem Body.setB_suspectAt (s : Body) (f : Fld) (b i j : Nat) : (s.setB f b i j).suspectAt = s.suspectAt := rfl
@[simp] theorem Body.setB_cfg (s : Body) (f : Fld) (b i j : Nat) : (s.setB f b i j).cfg = s.cfg := rfl
@[simp] theorem Body.setB_parts (s : Body) (f : Fld) (b i j : Nat) : (s.setB f b i j).parts = s.parts := rfl
@[simp] theorem Body.setB_prt (s : Body) (f : Fld) (b i j : Nat) : (s.setB f b i j).prt = s.prt := rfl
@[simp] theorem Body.setB_xlt (s : Body) (f : Fld) (b i j : Nat) : (s.setB f b i j).xlt = s.xlt := rfl
@[simp] theorem Body.setB_sto (s : Body) (f : Fld) (b i j : Nat) : (s.setB f b i j).sto = s.sto := rfl
@[simp] theorem Body.setB_olp (s : Body) (f : Fld) (b i j : Nat) : (s.setB f b i j).olp = s.olp := rfl
@[simp] theorem Body.setB_dir (s : Body) (f : Fld) (b i j : Nat) : (s.setB f b i j).dir = s.dir := rfl
@[simp] theorem Body.setB_fences (s : Body) (f : Fld) (b i j : Nat) : (s.setB f b i j).fences = s.fences := rfl
@[simp] theorem Body.setB_near (s : Body) (f : Fld) (b i j : Nat) : (s.setB f b i j).near = s.near := rfl
@[simp] theorem Body.setB_far (s : Body) (f : Fld) (b i j : Nat) : (s.setB f b i j).far = s.far := rfl
@[simp] theorem Body.setB_cores (s : Body) (f : Fld) (b i j : Nat) : (s.setB f b i j).cores = s.cores := rfl
@[simp] theorem Body.setB_que (s : Body) (f : Fld) (b i j : Nat) : (s.setB f b i j).que = s.que := rfl
@[simp] theorem Body.setB_txn (s : Body) (f : Fld) (b i j : Nat) : (s.setB f b i j).txn = s.txn := rfl
@[simp] theorem Body.setB_peers (s : Body) (f : Fld) (b i j : Nat) : (s.setB f b i j).peers = s.peers := rfl
@[simp] theorem Body.setB_obs (s : Body) (f : Fld) (b i j : Nat) : (s.setB f b i j).obs = s.obs := rfl
@[simp] theorem Body.setB_tables (s : Body) (f : Fld) (b i j : Nat) : (s.setB f b i j).tables = s.tables := rfl
@[simp] theorem Body.setB_seqs (s : Body) (f : Fld) (b i j : Nat) : (s.setB f b i j).seqs = s.seqs := rfl
@[simp] theorem Body.setB_mtxFrac (s : Body) (f : Fld) (b i j : Nat) : (s.setB f b i j).mtxFrac = s.mtxFrac := rfl
@[simp] theorem Body.setB_merges (s : Body) (f : Fld) (b i j : Nat) : (s.setB f b i j).merges = s.merges := rfl
@[simp] theorem Body.setB_srhFrac (s : Body) (f : Fld) (b i j : Nat) : (s.setB f b i j).srhFrac = s.srhFrac := rfl
@[simp] theorem Body.setB_poolFrac (s : Body) (f : Fld) (b i j : Nat) : (s.setB f b i j).poolFrac = s.poolFrac := rfl
@[simp] theorem Body.setB_pwr (s : Body) (f : Fld) (b i j : Nat) : (s.setB f b i j).pwr = s.pwr := rfl
@[simp] theorem Body.setB_acts (s : Body) (f : Fld) (b i j : Nat) : (s.setB f b i j).acts = s.acts := rfl
@[simp] theorem Body.setB_out (s : Body) (f : Fld) (b i j : Nat) : (s.setB f b i j).out = s.out := rfl
@[simp] theorem Body.setB_tick (s : Body) (f : Fld) (b i j : Nat) : (s.setB f b i j).tick = s.tick := rfl
@[simp] theorem Body.setB_launched (s : Body) (f : Fld) (b i j : Nat) : (s.setB f b i j).launched = s.launched := rfl
@[simp] theorem Body.setB_drawn (s : Body) (f : Fld) (b i j : Nat) : (s.setB f b i j).drawn = s.drawn := rfl

/-! `Body.sat` changes `regs` alone. -/

@[simp] theorem Body.sat_knot (s : Body) (f : Fld) (n i j : Nat) : (s.sat f n i j).knot = s.knot := rfl
@[simp] theorem Body.sat_links (s : Body) (f : Fld) (n i j : Nat) : (s.sat f n i j).links = s.links := rfl
@[simp] theorem Body.sat_groupStart (s : Body) (f : Fld) (n i j : Nat) : (s.sat f n i j).groupStart = s.groupStart := rfl
@[simp] theorem Body.sat_suspectAt (s : Body) (f : Fld) (n i j : Nat) : (s.sat f n i j).suspectAt = s.suspectAt := rfl
@[simp] theorem Body.sat_cfg (s : Body) (f : Fld) (n i j : Nat) : (s.sat f n i j).cfg = s.cfg := rfl
@[simp] theorem Body.sat_parts (s : Body) (f : Fld) (n i j : Nat) : (s.sat f n i j).parts = s.parts := rfl
@[simp] theorem Body.sat_prt (s : Body) (f : Fld) (n i j : Nat) : (s.sat f n i j).prt = s.prt := rfl
@[simp] theorem Body.sat_xlt (s : Body) (f : Fld) (n i j : Nat) : (s.sat f n i j).xlt = s.xlt := rfl
@[simp] theorem Body.sat_sto (s : Body) (f : Fld) (n i j : Nat) : (s.sat f n i j).sto = s.sto := rfl
@[simp] theorem Body.sat_olp (s : Body) (f : Fld) (n i j : Nat) : (s.sat f n i j).olp = s.olp := rfl
@[simp] theorem Body.sat_dir (s : Body) (f : Fld) (n i j : Nat) : (s.sat f n i j).dir = s.dir := rfl
@[simp] theorem Body.sat_fences (s : Body) (f : Fld) (n i j : Nat) : (s.sat f n i j).fences = s.fences := rfl
@[simp] theorem Body.sat_near (s : Body) (f : Fld) (n i j : Nat) : (s.sat f n i j).near = s.near := rfl
@[simp] theorem Body.sat_far (s : Body) (f : Fld) (n i j : Nat) : (s.sat f n i j).far = s.far := rfl
@[simp] theorem Body.sat_cores (s : Body) (f : Fld) (n i j : Nat) : (s.sat f n i j).cores = s.cores := rfl
@[simp] theorem Body.sat_que (s : Body) (f : Fld) (n i j : Nat) : (s.sat f n i j).que = s.que := rfl
@[simp] theorem Body.sat_txn (s : Body) (f : Fld) (n i j : Nat) : (s.sat f n i j).txn = s.txn := rfl
@[simp] theorem Body.sat_peers (s : Body) (f : Fld) (n i j : Nat) : (s.sat f n i j).peers = s.peers := rfl
@[simp] theorem Body.sat_obs (s : Body) (f : Fld) (n i j : Nat) : (s.sat f n i j).obs = s.obs := rfl
@[simp] theorem Body.sat_tables (s : Body) (f : Fld) (n i j : Nat) : (s.sat f n i j).tables = s.tables := rfl
@[simp] theorem Body.sat_seqs (s : Body) (f : Fld) (n i j : Nat) : (s.sat f n i j).seqs = s.seqs := rfl
@[simp] theorem Body.sat_mtxFrac (s : Body) (f : Fld) (n i j : Nat) : (s.sat f n i j).mtxFrac = s.mtxFrac := rfl
@[simp] theorem Body.sat_merges (s : Body) (f : Fld) (n i j : Nat) : (s.sat f n i j).merges = s.merges := rfl
@[simp] theorem Body.sat_srhFrac (s : Body) (f : Fld) (n i j : Nat) : (s.sat f n i j).srhFrac = s.srhFrac := rfl
@[simp] theorem Body.sat_poolFrac (s : Body) (f : Fld) (n i j : Nat) : (s.sat f n i j).poolFrac = s.poolFrac := rfl
@[simp] theorem Body.sat_pwr (s : Body) (f : Fld) (n i j : Nat) : (s.sat f n i j).pwr = s.pwr := rfl
@[simp] theorem Body.sat_acts (s : Body) (f : Fld) (n i j : Nat) : (s.sat f n i j).acts = s.acts := rfl
@[simp] theorem Body.sat_out (s : Body) (f : Fld) (n i j : Nat) : (s.sat f n i j).out = s.out := rfl
@[simp] theorem Body.sat_tick (s : Body) (f : Fld) (n i j : Nat) : (s.sat f n i j).tick = s.tick := rfl
@[simp] theorem Body.sat_launched (s : Body) (f : Fld) (n i j : Nat) : (s.sat f n i j).launched = s.launched := rfl
@[simp] theorem Body.sat_drawn (s : Body) (f : Fld) (n i j : Nat) : (s.sat f n i j).drawn = s.drawn := rfl

/-! `Body.send` changes `out` alone. -/

@[simp] theorem Body.send_regs (s : Body) (o : Out) : (s.send o).regs = s.regs := rfl
@[simp] theorem Body.send_knot (s : Body) (o : Out) : (s.send o).knot = s.knot := rfl
@[simp] theorem Body.send_links (s : Body) (o : Out) : (s.send o).links = s.links := rfl
@[simp] theorem Body.send_groupStart (s : Body) (o : Out) : (s.send o).groupStart = s.groupStart := rfl
@[simp] theorem Body.send_suspectAt (s : Body) (o : Out) : (s.send o).suspectAt = s.suspectAt := rfl
@[simp] theorem Body.send_cfg (s : Body) (o : Out) : (s.send o).cfg = s.cfg := rfl
@[simp] theorem Body.send_parts (s : Body) (o : Out) : (s.send o).parts = s.parts := rfl
@[simp] theorem Body.send_prt (s : Body) (o : Out) : (s.send o).prt = s.prt := rfl
@[simp] theorem Body.send_xlt (s : Body) (o : Out) : (s.send o).xlt = s.xlt := rfl
@[simp] theorem Body.send_sto (s : Body) (o : Out) : (s.send o).sto = s.sto := rfl
@[simp] theorem Body.send_olp (s : Body) (o : Out) : (s.send o).olp = s.olp := rfl
@[simp] theorem Body.send_dir (s : Body) (o : Out) : (s.send o).dir = s.dir := rfl
@[simp] theorem Body.send_fences (s : Body) (o : Out) : (s.send o).fences = s.fences := rfl
@[simp] theorem Body.send_near (s : Body) (o : Out) : (s.send o).near = s.near := rfl
@[simp] theorem Body.send_far (s : Body) (o : Out) : (s.send o).far = s.far := rfl
@[simp] theorem Body.send_cores (s : Body) (o : Out) : (s.send o).cores = s.cores := rfl
@[simp] theorem Body.send_que (s : Body) (o : Out) : (s.send o).que = s.que := rfl
@[simp] theorem Body.send_txn (s : Body) (o : Out) : (s.send o).txn = s.txn := rfl
@[simp] theorem Body.send_peers (s : Body) (o : Out) : (s.send o).peers = s.peers := rfl
@[simp] theorem Body.send_obs (s : Body) (o : Out) : (s.send o).obs = s.obs := rfl
@[simp] theorem Body.send_tables (s : Body) (o : Out) : (s.send o).tables = s.tables := rfl
@[simp] theorem Body.send_seqs (s : Body) (o : Out) : (s.send o).seqs = s.seqs := rfl
@[simp] theorem Body.send_mtxFrac (s : Body) (o : Out) : (s.send o).mtxFrac = s.mtxFrac := rfl
@[simp] theorem Body.send_merges (s : Body) (o : Out) : (s.send o).merges = s.merges := rfl
@[simp] theorem Body.send_srhFrac (s : Body) (o : Out) : (s.send o).srhFrac = s.srhFrac := rfl
@[simp] theorem Body.send_poolFrac (s : Body) (o : Out) : (s.send o).poolFrac = s.poolFrac := rfl
@[simp] theorem Body.send_pwr (s : Body) (o : Out) : (s.send o).pwr = s.pwr := rfl
@[simp] theorem Body.send_acts (s : Body) (o : Out) : (s.send o).acts = s.acts := rfl
@[simp] theorem Body.send_tick (s : Body) (o : Out) : (s.send o).tick = s.tick := rfl
@[simp] theorem Body.send_launched (s : Body) (o : Out) : (s.send o).launched = s.launched := rfl
@[simp] theorem Body.send_drawn (s : Body) (o : Out) : (s.send o).drawn = s.drawn := rfl
@[simp] theorem Body.send_get (s : Body) (o : Out) (g : Fld) (i' j' : Nat) : (s.send o).get g i' j' = s.get g i' j' := rfl

/-! `Body.arm` changes `acts` alone. -/

@[simp] theorem Body.arm_regs (s : Body) (a : Act) : (s.arm a).regs = s.regs := rfl
@[simp] theorem Body.arm_knot (s : Body) (a : Act) : (s.arm a).knot = s.knot := rfl
@[simp] theorem Body.arm_links (s : Body) (a : Act) : (s.arm a).links = s.links := rfl
@[simp] theorem Body.arm_groupStart (s : Body) (a : Act) : (s.arm a).groupStart = s.groupStart := rfl
@[simp] theorem Body.arm_suspectAt (s : Body) (a : Act) : (s.arm a).suspectAt = s.suspectAt := rfl
@[simp] theorem Body.arm_cfg (s : Body) (a : Act) : (s.arm a).cfg = s.cfg := rfl
@[simp] theorem Body.arm_parts (s : Body) (a : Act) : (s.arm a).parts = s.parts := rfl
@[simp] theorem Body.arm_prt (s : Body) (a : Act) : (s.arm a).prt = s.prt := rfl
@[simp] theorem Body.arm_xlt (s : Body) (a : Act) : (s.arm a).xlt = s.xlt := rfl
@[simp] theorem Body.arm_sto (s : Body) (a : Act) : (s.arm a).sto = s.sto := rfl
@[simp] theorem Body.arm_olp (s : Body) (a : Act) : (s.arm a).olp = s.olp := rfl
@[simp] theorem Body.arm_dir (s : Body) (a : Act) : (s.arm a).dir = s.dir := rfl
@[simp] theorem Body.arm_fences (s : Body) (a : Act) : (s.arm a).fences = s.fences := rfl
@[simp] theorem Body.arm_near (s : Body) (a : Act) : (s.arm a).near = s.near := rfl
@[simp] theorem Body.arm_far (s : Body) (a : Act) : (s.arm a).far = s.far := rfl
@[simp] theorem Body.arm_cores (s : Body) (a : Act) : (s.arm a).cores = s.cores := rfl
@[simp] theorem Body.arm_que (s : Body) (a : Act) : (s.arm a).que = s.que := rfl
@[simp] theorem Body.arm_txn (s : Body) (a : Act) : (s.arm a).txn = s.txn := rfl
@[simp] theorem Body.arm_peers (s : Body) (a : Act) : (s.arm a).peers = s.peers := rfl
@[simp] theorem Body.arm_obs (s : Body) (a : Act) : (s.arm a).obs = s.obs := rfl
@[simp] theorem Body.arm_tables (s : Body) (a : Act) : (s.arm a).tables = s.tables := rfl
@[simp] theorem Body.arm_seqs (s : Body) (a : Act) : (s.arm a).seqs = s.seqs := rfl
@[simp] theorem Body.arm_mtxFrac (s : Body) (a : Act) : (s.arm a).mtxFrac = s.mtxFrac := rfl
@[simp] theorem Body.arm_merges (s : Body) (a : Act) : (s.arm a).merges = s.merges := rfl
@[simp] theorem Body.arm_srhFrac (s : Body) (a : Act) : (s.arm a).srhFrac = s.srhFrac := rfl
@[simp] theorem Body.arm_poolFrac (s : Body) (a : Act) : (s.arm a).poolFrac = s.poolFrac := rfl
@[simp] theorem Body.arm_pwr (s : Body) (a : Act) : (s.arm a).pwr = s.pwr := rfl
@[simp] theorem Body.arm_out (s : Body) (a : Act) : (s.arm a).out = s.out := rfl
@[simp] theorem Body.arm_tick (s : Body) (a : Act) : (s.arm a).tick = s.tick := rfl
@[simp] theorem Body.arm_launched (s : Body) (a : Act) : (s.arm a).launched = s.launched := rfl
@[simp] theorem Body.arm_drawn (s : Body) (a : Act) : (s.arm a).drawn = s.drawn := rfl
@[simp] theorem Body.arm_get (s : Body) (a : Act) (g : Fld) (i' j' : Nat) : (s.arm a).get g i' j' = s.get g i' j' := rfl

/-! `Body.setLink` changes `links` alone. -/

@[simp] theorem Body.setLink_regs (s : Body) (n : Nat) (l : LinkSt) : (s.setLink n l).regs = s.regs := rfl
@[simp] theorem Body.setLink_knot (s : Body) (n : Nat) (l : LinkSt) : (s.setLink n l).knot = s.knot := rfl
@[simp] theorem Body.setLink_groupStart (s : Body) (n : Nat) (l : LinkSt) : (s.setLink n l).groupStart = s.groupStart := rfl
@[simp] theorem Body.setLink_suspectAt (s : Body) (n : Nat) (l : LinkSt) : (s.setLink n l).suspectAt = s.suspectAt := rfl
@[simp] theorem Body.setLink_cfg (s : Body) (n : Nat) (l : LinkSt) : (s.setLink n l).cfg = s.cfg := rfl
@[simp] theorem Body.setLink_parts (s : Body) (n : Nat) (l : LinkSt) : (s.setLink n l).parts = s.parts := rfl
@[simp] theorem Body.setLink_prt (s : Body) (n : Nat) (l : LinkSt) : (s.setLink n l).prt = s.prt := rfl
@[simp] theorem Body.setLink_xlt (s : Body) (n : Nat) (l : LinkSt) : (s.setLink n l).xlt = s.xlt := rfl
@[simp] theorem Body.setLink_sto (s : Body) (n : Nat) (l : LinkSt) : (s.setLink n l).sto = s.sto := rfl
@[simp] theorem Body.setLink_olp (s : Body) (n : Nat) (l : LinkSt) : (s.setLink n l).olp = s.olp := rfl
@[simp] theorem Body.setLink_dir (s : Body) (n : Nat) (l : LinkSt) : (s.setLink n l).dir = s.dir := rfl
@[simp] theorem Body.setLink_fences (s : Body) (n : Nat) (l : LinkSt) : (s.setLink n l).fences = s.fences := rfl
@[simp] theorem Body.setLink_near (s : Body) (n : Nat) (l : LinkSt) : (s.setLink n l).near = s.near := rfl
@[simp] theorem Body.setLink_far (s : Body) (n : Nat) (l : LinkSt) : (s.setLink n l).far = s.far := rfl
@[simp] theorem Body.setLink_cores (s : Body) (n : Nat) (l : LinkSt) : (s.setLink n l).cores = s.cores := rfl
@[simp] theorem Body.setLink_que (s : Body) (n : Nat) (l : LinkSt) : (s.setLink n l).que = s.que := rfl
@[simp] theorem Body.setLink_txn (s : Body) (n : Nat) (l : LinkSt) : (s.setLink n l).txn = s.txn := rfl
@[simp] theorem Body.setLink_peers (s : Body) (n : Nat) (l : LinkSt) : (s.setLink n l).peers = s.peers := rfl
@[simp] theorem Body.setLink_obs (s : Body) (n : Nat) (l : LinkSt) : (s.setLink n l).obs = s.obs := rfl
@[simp] theorem Body.setLink_tables (s : Body) (n : Nat) (l : LinkSt) : (s.setLink n l).tables = s.tables := rfl
@[simp] theorem Body.setLink_seqs (s : Body) (n : Nat) (l : LinkSt) : (s.setLink n l).seqs = s.seqs := rfl
@[simp] theorem Body.setLink_mtxFrac (s : Body) (n : Nat) (l : LinkSt) : (s.setLink n l).mtxFrac = s.mtxFrac := rfl
@[simp] theorem Body.setLink_merges (s : Body) (n : Nat) (l : LinkSt) : (s.setLink n l).merges = s.merges := rfl
@[simp] theorem Body.setLink_srhFrac (s : Body) (n : Nat) (l : LinkSt) : (s.setLink n l).srhFrac = s.srhFrac := rfl
@[simp] theorem Body.setLink_poolFrac (s : Body) (n : Nat) (l : LinkSt) : (s.setLink n l).poolFrac = s.poolFrac := rfl
@[simp] theorem Body.setLink_pwr (s : Body) (n : Nat) (l : LinkSt) : (s.setLink n l).pwr = s.pwr := rfl
@[simp] theorem Body.setLink_acts (s : Body) (n : Nat) (l : LinkSt) : (s.setLink n l).acts = s.acts := rfl
@[simp] theorem Body.setLink_out (s : Body) (n : Nat) (l : LinkSt) : (s.setLink n l).out = s.out := rfl
@[simp] theorem Body.setLink_tick (s : Body) (n : Nat) (l : LinkSt) : (s.setLink n l).tick = s.tick := rfl
@[simp] theorem Body.setLink_launched (s : Body) (n : Nat) (l : LinkSt) : (s.setLink n l).launched = s.launched := rfl
@[simp] theorem Body.setLink_drawn (s : Body) (n : Nat) (l : LinkSt) : (s.setLink n l).drawn = s.drawn := rfl
@[simp] theorem Body.setLink_get (s : Body) (n : Nat) (l : LinkSt) (g : Fld) (i' j' : Nat) : (s.setLink n l).get g i' j' = s.get g i' j' := rfl

/-! `Body.setPart` changes `parts` alone. -/

@[simp] theorem Body.setPart_regs (s : Body) (pid : Nat) (p : PartSt) : (s.setPart pid p).regs = s.regs := rfl
@[simp] theorem Body.setPart_knot (s : Body) (pid : Nat) (p : PartSt) : (s.setPart pid p).knot = s.knot := rfl
@[simp] theorem Body.setPart_links (s : Body) (pid : Nat) (p : PartSt) : (s.setPart pid p).links = s.links := rfl
@[simp] theorem Body.setPart_groupStart (s : Body) (pid : Nat) (p : PartSt) : (s.setPart pid p).groupStart = s.groupStart := rfl
@[simp] theorem Body.setPart_suspectAt (s : Body) (pid : Nat) (p : PartSt) : (s.setPart pid p).suspectAt = s.suspectAt := rfl
@[simp] theorem Body.setPart_cfg (s : Body) (pid : Nat) (p : PartSt) : (s.setPart pid p).cfg = s.cfg := rfl
@[simp] theorem Body.setPart_prt (s : Body) (pid : Nat) (p : PartSt) : (s.setPart pid p).prt = s.prt := rfl
@[simp] theorem Body.setPart_xlt (s : Body) (pid : Nat) (p : PartSt) : (s.setPart pid p).xlt = s.xlt := rfl
@[simp] theorem Body.setPart_sto (s : Body) (pid : Nat) (p : PartSt) : (s.setPart pid p).sto = s.sto := rfl
@[simp] theorem Body.setPart_olp (s : Body) (pid : Nat) (p : PartSt) : (s.setPart pid p).olp = s.olp := rfl
@[simp] theorem Body.setPart_dir (s : Body) (pid : Nat) (p : PartSt) : (s.setPart pid p).dir = s.dir := rfl
@[simp] theorem Body.setPart_fences (s : Body) (pid : Nat) (p : PartSt) : (s.setPart pid p).fences = s.fences := rfl
@[simp] theorem Body.setPart_near (s : Body) (pid : Nat) (p : PartSt) : (s.setPart pid p).near = s.near := rfl
@[simp] theorem Body.setPart_far (s : Body) (pid : Nat) (p : PartSt) : (s.setPart pid p).far = s.far := rfl
@[simp] theorem Body.setPart_cores (s : Body) (pid : Nat) (p : PartSt) : (s.setPart pid p).cores = s.cores := rfl
@[simp] theorem Body.setPart_que (s : Body) (pid : Nat) (p : PartSt) : (s.setPart pid p).que = s.que := rfl
@[simp] theorem Body.setPart_txn (s : Body) (pid : Nat) (p : PartSt) : (s.setPart pid p).txn = s.txn := rfl
@[simp] theorem Body.setPart_peers (s : Body) (pid : Nat) (p : PartSt) : (s.setPart pid p).peers = s.peers := rfl
@[simp] theorem Body.setPart_obs (s : Body) (pid : Nat) (p : PartSt) : (s.setPart pid p).obs = s.obs := rfl
@[simp] theorem Body.setPart_tables (s : Body) (pid : Nat) (p : PartSt) : (s.setPart pid p).tables = s.tables := rfl
@[simp] theorem Body.setPart_seqs (s : Body) (pid : Nat) (p : PartSt) : (s.setPart pid p).seqs = s.seqs := rfl
@[simp] theorem Body.setPart_mtxFrac (s : Body) (pid : Nat) (p : PartSt) : (s.setPart pid p).mtxFrac = s.mtxFrac := rfl
@[simp] theorem Body.setPart_merges (s : Body) (pid : Nat) (p : PartSt) : (s.setPart pid p).merges = s.merges := rfl
@[simp] theorem Body.setPart_srhFrac (s : Body) (pid : Nat) (p : PartSt) : (s.setPart pid p).srhFrac = s.srhFrac := rfl
@[simp] theorem Body.setPart_poolFrac (s : Body) (pid : Nat) (p : PartSt) : (s.setPart pid p).poolFrac = s.poolFrac := rfl
@[simp] theorem Body.setPart_pwr (s : Body) (pid : Nat) (p : PartSt) : (s.setPart pid p).pwr = s.pwr := rfl
@[simp] theorem Body.setPart_acts (s : Body) (pid : Nat) (p : PartSt) : (s.setPart pid p).acts = s.acts := rfl
@[simp] theorem Body.setPart_out (s : Body) (pid : Nat) (p : PartSt) : (s.setPart pid p).out = s.out := rfl
@[simp] theorem Body.setPart_tick (s : Body) (pid : Nat) (p : PartSt) : (s.setPart pid p).tick = s.tick := rfl
@[simp] theorem Body.setPart_launched (s : Body) (pid : Nat) (p : PartSt) : (s.setPart pid p).launched = s.launched := rfl
@[simp] theorem Body.setPart_drawn (s : Body) (pid : Nat) (p : PartSt) : (s.setPart pid p).drawn = s.drawn := rfl
@[simp] theorem Body.setPart_get (s : Body) (pid : Nat) (p : PartSt) (g : Fld) (i' j' : Nat) : (s.setPart pid p).get g i' j' = s.get g i' j' := rfl

/-! `Body.setCore` changes `cores` alone. -/

@[simp] theorem Body.setCore_regs (s : Body) (c : Nat) (k : CoreSt) : (s.setCore c k).regs = s.regs := rfl
@[simp] theorem Body.setCore_knot (s : Body) (c : Nat) (k : CoreSt) : (s.setCore c k).knot = s.knot := rfl
@[simp] theorem Body.setCore_links (s : Body) (c : Nat) (k : CoreSt) : (s.setCore c k).links = s.links := rfl
@[simp] theorem Body.setCore_groupStart (s : Body) (c : Nat) (k : CoreSt) : (s.setCore c k).groupStart = s.groupStart := rfl
@[simp] theorem Body.setCore_suspectAt (s : Body) (c : Nat) (k : CoreSt) : (s.setCore c k).suspectAt = s.suspectAt := rfl
@[simp] theorem Body.setCore_cfg (s : Body) (c : Nat) (k : CoreSt) : (s.setCore c k).cfg = s.cfg := rfl
@[simp] theorem Body.setCore_parts (s : Body) (c : Nat) (k : CoreSt) : (s.setCore c k).parts = s.parts := rfl
@[simp] theorem Body.setCore_prt (s : Body) (c : Nat) (k : CoreSt) : (s.setCore c k).prt = s.prt := rfl
@[simp] theorem Body.setCore_xlt (s : Body) (c : Nat) (k : CoreSt) : (s.setCore c k).xlt = s.xlt := rfl
@[simp] theorem Body.setCore_sto (s : Body) (c : Nat) (k : CoreSt) : (s.setCore c k).sto = s.sto := rfl
@[simp] theorem Body.setCore_olp (s : Body) (c : Nat) (k : CoreSt) : (s.setCore c k).olp = s.olp := rfl
@[simp] theorem Body.setCore_dir (s : Body) (c : Nat) (k : CoreSt) : (s.setCore c k).dir = s.dir := rfl
@[simp] theorem Body.setCore_fences (s : Body) (c : Nat) (k : CoreSt) : (s.setCore c k).fences = s.fences := rfl
@[simp] theorem Body.setCore_near (s : Body) (c : Nat) (k : CoreSt) : (s.setCore c k).near = s.near := rfl
@[simp] theorem Body.setCore_far (s : Body) (c : Nat) (k : CoreSt) : (s.setCore c k).far = s.far := rfl
@[simp] theorem Body.setCore_que (s : Body) (c : Nat) (k : CoreSt) : (s.setCore c k).que = s.que := rfl
@[simp] theorem Body.setCore_txn (s : Body) (c : Nat) (k : CoreSt) : (s.setCore c k).txn = s.txn := rfl
@[simp] theorem Body.setCore_peers (s : Body) (c : Nat) (k : CoreSt) : (s.setCore c k).peers = s.peers := rfl
@[simp] theorem Body.setCore_obs (s : Body) (c : Nat) (k : CoreSt) : (s.setCore c k).obs = s.obs := rfl
@[simp] theorem Body.setCore_tables (s : Body) (c : Nat) (k : CoreSt) : (s.setCore c k).tables = s.tables := rfl
@[simp] theorem Body.setCore_seqs (s : Body) (c : Nat) (k : CoreSt) : (s.setCore c k).seqs = s.seqs := rfl
@[simp] theorem Body.setCore_mtxFrac (s : Body) (c : Nat) (k : CoreSt) : (s.setCore c k).mtxFrac = s.mtxFrac := rfl
@[simp] theorem Body.setCore_merges (s : Body) (c : Nat) (k : CoreSt) : (s.setCore c k).merges = s.merges := rfl
@[simp] theorem Body.setCore_srhFrac (s : Body) (c : Nat) (k : CoreSt) : (s.setCore c k).srhFrac = s.srhFrac := rfl
@[simp] theorem Body.setCore_poolFrac (s : Body) (c : Nat) (k : CoreSt) : (s.setCore c k).poolFrac = s.poolFrac := rfl
@[simp] theorem Body.setCore_pwr (s : Body) (c : Nat) (k : CoreSt) : (s.setCore c k).pwr = s.pwr := rfl
@[simp] theorem Body.setCore_acts (s : Body) (c : Nat) (k : CoreSt) : (s.setCore c k).acts = s.acts := rfl
@[simp] theorem Body.setCore_out (s : Body) (c : Nat) (k : CoreSt) : (s.setCore c k).out = s.out := rfl
@[simp] theorem Body.setCore_tick (s : Body) (c : Nat) (k : CoreSt) : (s.setCore c k).tick = s.tick := rfl
@[simp] theorem Body.setCore_launched (s : Body) (c : Nat) (k : CoreSt) : (s.setCore c k).launched = s.launched := rfl
@[simp] theorem Body.setCore_drawn (s : Body) (c : Nat) (k : CoreSt) : (s.setCore c k).drawn = s.drawn := rfl
@[simp] theorem Body.setCore_get (s : Body) (c : Nat) (k : CoreSt) (g : Fld) (i' j' : Nat) : (s.setCore c k).get g i' j' = s.get g i' j' := rfl

/-! `Body.setCtx` changes `cores` alone. -/

@[simp] theorem Body.setCtx_regs (s : Body) (c x : Nat) (v : Ctx) : (s.setCtx c x v).regs = s.regs := rfl
@[simp] theorem Body.setCtx_knot (s : Body) (c x : Nat) (v : Ctx) : (s.setCtx c x v).knot = s.knot := rfl
@[simp] theorem Body.setCtx_links (s : Body) (c x : Nat) (v : Ctx) : (s.setCtx c x v).links = s.links := rfl
@[simp] theorem Body.setCtx_groupStart (s : Body) (c x : Nat) (v : Ctx) : (s.setCtx c x v).groupStart = s.groupStart := rfl
@[simp] theorem Body.setCtx_suspectAt (s : Body) (c x : Nat) (v : Ctx) : (s.setCtx c x v).suspectAt = s.suspectAt := rfl
@[simp] theorem Body.setCtx_cfg (s : Body) (c x : Nat) (v : Ctx) : (s.setCtx c x v).cfg = s.cfg := rfl
@[simp] theorem Body.setCtx_parts (s : Body) (c x : Nat) (v : Ctx) : (s.setCtx c x v).parts = s.parts := rfl
@[simp] theorem Body.setCtx_prt (s : Body) (c x : Nat) (v : Ctx) : (s.setCtx c x v).prt = s.prt := rfl
@[simp] theorem Body.setCtx_xlt (s : Body) (c x : Nat) (v : Ctx) : (s.setCtx c x v).xlt = s.xlt := rfl
@[simp] theorem Body.setCtx_sto (s : Body) (c x : Nat) (v : Ctx) : (s.setCtx c x v).sto = s.sto := rfl
@[simp] theorem Body.setCtx_olp (s : Body) (c x : Nat) (v : Ctx) : (s.setCtx c x v).olp = s.olp := rfl
@[simp] theorem Body.setCtx_dir (s : Body) (c x : Nat) (v : Ctx) : (s.setCtx c x v).dir = s.dir := rfl
@[simp] theorem Body.setCtx_fences (s : Body) (c x : Nat) (v : Ctx) : (s.setCtx c x v).fences = s.fences := rfl
@[simp] theorem Body.setCtx_near (s : Body) (c x : Nat) (v : Ctx) : (s.setCtx c x v).near = s.near := rfl
@[simp] theorem Body.setCtx_far (s : Body) (c x : Nat) (v : Ctx) : (s.setCtx c x v).far = s.far := rfl
@[simp] theorem Body.setCtx_que (s : Body) (c x : Nat) (v : Ctx) : (s.setCtx c x v).que = s.que := rfl
@[simp] theorem Body.setCtx_txn (s : Body) (c x : Nat) (v : Ctx) : (s.setCtx c x v).txn = s.txn := rfl
@[simp] theorem Body.setCtx_peers (s : Body) (c x : Nat) (v : Ctx) : (s.setCtx c x v).peers = s.peers := rfl
@[simp] theorem Body.setCtx_obs (s : Body) (c x : Nat) (v : Ctx) : (s.setCtx c x v).obs = s.obs := rfl
@[simp] theorem Body.setCtx_tables (s : Body) (c x : Nat) (v : Ctx) : (s.setCtx c x v).tables = s.tables := rfl
@[simp] theorem Body.setCtx_seqs (s : Body) (c x : Nat) (v : Ctx) : (s.setCtx c x v).seqs = s.seqs := rfl
@[simp] theorem Body.setCtx_mtxFrac (s : Body) (c x : Nat) (v : Ctx) : (s.setCtx c x v).mtxFrac = s.mtxFrac := rfl
@[simp] theorem Body.setCtx_merges (s : Body) (c x : Nat) (v : Ctx) : (s.setCtx c x v).merges = s.merges := rfl
@[simp] theorem Body.setCtx_srhFrac (s : Body) (c x : Nat) (v : Ctx) : (s.setCtx c x v).srhFrac = s.srhFrac := rfl
@[simp] theorem Body.setCtx_poolFrac (s : Body) (c x : Nat) (v : Ctx) : (s.setCtx c x v).poolFrac = s.poolFrac := rfl
@[simp] theorem Body.setCtx_pwr (s : Body) (c x : Nat) (v : Ctx) : (s.setCtx c x v).pwr = s.pwr := rfl
@[simp] theorem Body.setCtx_acts (s : Body) (c x : Nat) (v : Ctx) : (s.setCtx c x v).acts = s.acts := rfl
@[simp] theorem Body.setCtx_out (s : Body) (c x : Nat) (v : Ctx) : (s.setCtx c x v).out = s.out := rfl
@[simp] theorem Body.setCtx_tick (s : Body) (c x : Nat) (v : Ctx) : (s.setCtx c x v).tick = s.tick := rfl
@[simp] theorem Body.setCtx_launched (s : Body) (c x : Nat) (v : Ctx) : (s.setCtx c x v).launched = s.launched := rfl
@[simp] theorem Body.setCtx_drawn (s : Body) (c x : Nat) (v : Ctx) : (s.setCtx c x v).drawn = s.drawn := rfl
@[simp] theorem Body.setCtx_get (s : Body) (c x : Nat) (v : Ctx) (g : Fld) (i' j' : Nat) : (s.setCtx c x v).get g i' j' = s.get g i' j' := rfl

end Sys2Proof.Machine
end

