-- ==== Sys2Proof/Laws/Ops.lean ====
section
/-!
SUPPORT. What the shared operations of `Machine.Ops` and `Machine.Operands` do.
-/

namespace Sys2Proof.Machine

/-- Two fields at different bits of their registers are kept apart. -/
theorem Fld.key_ne_lo {f g : Fld} {i j i' j' : Nat} (hf : f.lo < 64) (hg : g.lo < 64) (h : f.lo ≠ g.lo) :
    f.key i j ≠ g.key i' j' := by
  unfold Fld.key; omega

/-- Two fields of different registers are kept apart. -/
theorem Fld.key_ne_off {f g : Fld} {i j i' j' : Nat} (hf : f.lo < 64) (hg : g.lo < 64)
    (h : f.off + f.stride * i + windowSize * j ≠ g.off + g.stride * i' + windowSize * j') :
    f.key i j ≠ g.key i' j' := by
  unfold Fld.key; omega

/-- A field reads as written, cut to its width. -/
@[simp] theorem Body.get_set_self (s : Body) (f : Fld) (v i j : Nat) : (s.set f v i j).get f i j = v % 2 ^ f.w := by
  simp [Body.get, Body.set]

/-- Writing a field leaves every other field alone. -/
theorem Body.get_set_ne {f g : Fld} {i j i' j' : Nat} (s : Body) (v : Nat) (h : f.key i j ≠ g.key i' j') :
    (s.set f v i j).get g i' j' = s.get g i' j' := by
  simp [Body.get, Body.set, AMap.get_put_ne _ _ _ _ h]

/-- Counting changes registers alone. -/
theorem Body.count_regs (s : Body) (f : Fld) (n i j : Nat) : s.count f n i j = { s with regs := (s.count f n i j).regs } := by
  unfold Body.count
  split
  · dsimp only
    split <;> rfl
  · rfl

/-- Counting touches a register's COUNT and OVF bits alone. -/
theorem Body.get_count_ne {f g : Fld} {i j i' j' : Nat} (s : Body) (n : Nat) (h : f.key i j ≠ g.key i' j')
    (h' : ({ f with lo := 63, w := 1, acc := .w1c } : Fld).key i j ≠ g.key i' j') :
    (s.count f n i j).get g i' j' = s.get g i' j' := by
  unfold Body.count
  split
  · dsimp only
    split
    · exact Body.get_set_ne s _ h
    · rw [Body.get_set_ne _ _ h', Body.get_set_ne _ _ h]
  · rfl

/-- Drawing a free value changes the count of drawn values alone. -/
theorem Body.free_drawn (s : Body) (w : Nat) : (s.free w).2 = { s with drawn := s.drawn + 1 } := rfl

@[simp] theorem Body.free_get (s : Body) (w : Nat) (g : Fld) (i j : Nat) : (s.free w).2.get g i j = s.get g i j := rfl

/-! ### Operands -/

theorem live_on {s : State} (f : State → State) (h : s.pwr.off = false) : live f s = f s := by simp [live, h]

theorem live_off {s : State} (f : State → State) (h : s.pwr.off = true) : live f s = s := by simp [live, h]

theorem onLink_on {s : State} {n : Nat} (f : State → State) (h : s.pwr.off = false) (hn : n < 48) : onLink n f s = f s := by
  have h' : ¬ nLinks ≤ n := by simp [nLinks]; omega
  simp [onLink, h, h']

theorem onCtx_on {s : State} {c x : Nat} (f : State → State) (h : s.pwr.off = false) (hc : c < 16) (hx : x < 19) :
    onCtx c x f s = f s := by
  have h₁ : ¬ 16 ≤ c := by omega
  have h₂ : ¬ 19 ≤ x := by omega
  simp [onCtx, h, h₁, h₂]

theorem onOne_on {s : State} {k n : Nat} (f : State → State) (h : s.pwr.off = false) (hn : n < k) : onOne k n f s = f s := by
  have h' : ¬ k ≤ n := by omega
  simp [onOne, h, h']

/-- Two updates that agree on the body agree. -/
theorem upd_congr {s : State} {f g : Body → Body} (h : f s.toBody = g s.toBody) : s.upd f = s.upd g := by
  simp only [State.upd, h]

theorem low_congr {s : State} {f g : Body → Body} (h : f s.toBody = g s.toBody) : low f s = s.upd g := upd_congr h

theorem via_open {s : State} {off : Nat} (f : State → State) (h : regOpen s off = true) : via off f s = f s := by
  simp [via, h]

theorem onReg_on {s : State} {f : Fld} {n : Nat} (g : State → State) (h : s.pwr.off = false)
    (ho : regOpen s (f.at n) = true) : onReg f n g s = g s := by
  rw [onReg, live_on _ h, via_open _ ho]

theorem onPid_on {s : State} {f : Fld} {pid : Nat} (g : State → State) (h : s.pwr.off = false)
    (ho : regOpen s (f.at 0) = true) (hp : pidOk s.toBody pid = true) : onPid f pid g s = g s := by
  rw [onPid, live_on _ h]
  simp [viaPid, ho, hp]

theorem onQue_on {s : State} {f : Fld} {pid q : Nat} {d : PartDef} (g : State → State) (h : s.pwr.off = false)
    (ho : regOpen s (f.at 0) = true) (hp : partDef s.toBody pid = some d) (hq : q < d.nq) : onQue f pid q g s = g s := by
  simp only [onQue, hp]
  rw [live_on _ h, via_open _ ho]
  simp [hq]

/-! ### CRC-64 -/

theorem crc64Bit_lt (c : Nat) : crc64Bit c < 2 ^ 64 := by
  unfold crc64Bit
  split
  · exact Nat.xor_lt_two_pow (Nat.mod_lt _ (by decide)) (by decide)
  · exact Nat.mod_lt _ (by decide)

theorem crc64_lt (l : List Byte) : crc64 l < 2 ^ 64 := by
  have key : ∀ (l : List Byte) (c : Nat), c < 2 ^ 64 → l.foldl (fun c b => crc64Byte c b.toNat) c < 2 ^ 64 := by
    intro l
    induction l with
    | nil => exact fun c hc => hc
    | cons b t ih => exact fun c _ => ih _ (crc64Bit_lt _)
  exact Nat.xor_lt_two_pow (key l _ (by decide)) (by decide)

/-- The CHECK that a sender forms over clear bytes is the one that the receiver finds (R71). -/
theorem verify_clear (s : Body) (hdr pay : List Byte) (pid nce : Nat) :
    verify s hdr false pid nce (BitVec.ofNat 64 (crc64 (hdr ++ pay))) pay = some (pay, false) := by
  have h := crc64_lt (hdr ++ pay)
  simp only [verify, Bool.not_false, if_true, BitVec.toNat_ofNat]
  rw [Nat.mod_eq_of_lt h]
  simp

/-! ### CRC-32C -/

theorem nat_xor_cancel {a b c : Nat} (h : a ^^^ c = b ^^^ c) : a = b := by
  have := congrArg (· ^^^ c) h
  simpa [Nat.xor_assoc] using this

theorem crc32cBit_lt {c : Nat} (h : c < 2 ^ 32) : crc32cBit c < 2 ^ 32 := by
  unfold crc32cBit
  split
  · exact Nat.xor_lt_two_pow (by omega) (by decide)
  · omega

/-- A bit step of the CRC-32C loses nothing: its polynomial has the top bit. -/
theorem crc32cBit_inj {c d : Nat} (hc : c < 2 ^ 32) (hd : d < 2 ^ 32) (h : crc32cBit c = crc32cBit d) : c = d := by
  have top : ∀ x, x < 2 ^ 32 → (crc32cBit x).testBit 31 = decide (x % 2 = 1) := by
    intro x hx
    unfold crc32cBit
    have : (x / 2).testBit 31 = false := Nat.testBit_lt_two_pow (by omega)
    split <;> simp_all [Nat.testBit_xor]
    decide
  have e := top c hc
  rw [h, top d hd] at e
  simp only [decide_eq_decide] at e
  unfold crc32cBit at h
  by_cases hp : c % 2 = 1
  · rw [if_pos hp, if_pos (e.2 hp)] at h
    have := nat_xor_cancel h
    have := e.2 hp
    omega
  · rw [if_neg hp, if_neg (fun q => hp (e.1 q))] at h
    omega

theorem crc32cByte_lt {c b : Nat} (hc : c < 2 ^ 32) (hb : b < 2 ^ 32) : crc32cByte c b < 2 ^ 32 := by
  unfold crc32cByte
  repeat (first | exact Nat.xor_lt_two_pow hc hb | apply crc32cBit_lt)

theorem crc32cByte_inj {c a b : Nat} (hc : c < 2 ^ 32) (ha : a < 2 ^ 32) (hb : b < 2 ^ 32)
    (h : crc32cByte c a = crc32cByte c b) : a = b := by
  unfold crc32cByte at h
  have x := Nat.xor_lt_two_pow hc ha
  have y := Nat.xor_lt_two_pow hc hb
  have l := @crc32cBit_lt
  iterate 8 replace h := crc32cBit_inj (by repeat (first | assumption | apply crc32cBit_lt)) (by repeat (first | assumption | apply crc32cBit_lt)) h
  exact nat_xor_cancel (by rwa [Nat.xor_comm a c, Nat.xor_comm b c])

/-- Two byte strings that differ in their last byte alone have different CRC-32Cs (R222). -/
theorem crc32c_last (l : List Byte) (a b : Byte) (h : a ≠ b) : crc32c (l ++ [a]) ≠ crc32c (l ++ [b]) := by
  have key : ∀ (l : List Byte) (c : Nat), c < 2 ^ 32 → l.foldl (fun c b => crc32cByte c b.toNat) c < 2 ^ 32 := by
    intro l
    induction l with
    | nil => exact fun c hc => hc
    | cons b t ih => exact fun c hc => ih _ (crc32cByte_lt hc (by have := b.isLt; omega))
  intro e
  unfold crc32c at e
  simp only [List.foldl_append, List.foldl_cons, List.foldl_nil] at e
  have e := crc32cByte_inj (key l _ (by decide)) (by have := a.isLt; omega) (by have := b.isLt; omega) (nat_xor_cancel e)
  exact h (BitVec.eq_of_toNat_eq e)

end Sys2Proof.Machine
end

