-- ==== Sys2Proof/Laws/Mem.lean ====
section
/-!
SUPPORT. Every operation on the bytes of the store keeps their canonical form.
-/

namespace Sys2Proof.Machine

theorem putBytes_wf (m : AMap Byte) (loc : Nat) (b : List Byte) (h : AMap.wf 0 m = true) :
    AMap.wf 0 (putBytes m loc b) = true := by
  induction b generalizing m loc with
  | nil => exact h
  | cons v t ih => exact ih _ _ (AMap.wf_put 0 v loc h)

theorem foldPut_wf (es : AMap Byte) (m : AMap Byte) (h : AMap.wf 0 m = true) :
    AMap.wf 0 (es.foldl (fun (m : AMap Byte) (e : Nat × Byte) => AMap.put 0 m e.1 e.2) m) = true := by
  induction es generalizing m with
  | nil => exact h
  | cons e t ih => exact ih _ (AMap.wf_put 0 e.2 e.1 h)

/-- The form depends on the two byte maps alone. -/
theorem Memory.wf_of_eq {s t : Body} (h : Memory.wf s = true) (hn : t.near = s.near) (hf : t.far = s.far) :
    Memory.wf t = true := by
  rw [Memory.wf, hn, hf]; exact h

theorem Memory.wf_mk {t : Body} (hn : AMap.wf 0 t.near = true) (hf : AMap.wf 0 t.far = true) : Memory.wf t = true := by
  rw [Memory.wf, hn, hf]; rfl

theorem Memory.wf_near {s : Body} (h : Memory.wf s = true) : AMap.wf 0 s.near = true := by
  simp only [Memory.wf, Bool.and_eq_true] at h; exact h.1

theorem Memory.wf_far {s : Body} (h : Memory.wf s = true) : AMap.wf 0 s.far = true := by
  simp only [Memory.wf, Bool.and_eq_true] at h; exact h.2

@[simp] theorem Memory.wf_set (s : Body) (f : Fld) (v i j : Nat) : Memory.wf (s.set f v i j) = Memory.wf s := rfl

@[simp] theorem Memory.wf_count (s : Body) (f : Fld) (n i j : Nat) : Memory.wf (s.count f n i j) = Memory.wf s := by
  rw [Body.count_regs]; rfl

theorem backLines_wf (s : Body) (u a b : Nat) (h : Memory.wf s = true) : Memory.wf (backLines s u a b) = true :=
  Memory.wf_mk (Memory.wf_near (s := s) h) (foldPut_wf _ _ (AMap.wf_clear 0 _ _ (Memory.wf_far (s := s) h)))

theorem backSome_wf (s : Body) (u d : Nat) (h : Memory.wf s = true) : Memory.wf (backSome s u d).2 = true :=
  backLines_wf (s.free 16).2 _ _ _ h

theorem dirtyUnit_wf (s : Body) (loc : Nat) (h : Memory.wf s = true) : Memory.wf (dirtyUnit s loc) = true := by
  unfold dirtyUnit
  dsimp only
  split
  · split
    · generalize hq : backSome _ _ _ = q
      have hw : Memory.wf q.2 = true := by rw [← hq]; exact backSome_wf _ _ _ h
      split
      · have hc : ∀ (f : Fld) (n i j : Nat), (q.2.count f n i j).near = q.2.near ∧ (q.2.count f n i j).far = q.2.far := by
          intro f n i j; rw [Body.count_regs]; exact ⟨rfl, rfl⟩
        refine Memory.wf_mk ?_ ?_
        · have := (hc R.STO_DEMOTE_CANCEL.COUNT 1 0 0).1
          simp only [this]; exact Memory.wf_near (s := q.2) hw
        · have := (hc R.STO_DEMOTE_CANCEL.COUNT 1 0 0).2
          simp only [this]; exact Memory.wf_far (s := q.2) hw
      · exact Memory.wf_mk (Memory.wf_near (s := q.2) hw) (Memory.wf_far (s := q.2) hw)
    · exact h
  · exact h

/-- A write of the home slice keeps the form. -/
theorem Body.wr_wf (s : Body) (loc : Nat) (b : List Byte) (h : Memory.wf s = true) : Memory.wf (s.wr loc b) = true := by
  have hn := Memory.wf_near (dirtyUnit_wf s loc h)
  have hf := Memory.wf_far (dirtyUnit_wf s loc h)
  unfold Body.wr
  generalize dirtyUnit s loc = t at hn hf ⊢
  dsimp only
  repeat' split
  all_goals
    first
      | exact Memory.wf_mk hn hf
      | exact Memory.wf_mk (putBytes_wf _ _ _ hn) hf
      | exact Memory.wf_mk hn (putBytes_wf _ _ _ hf)
      | exact Memory.wf_mk (putBytes_wf _ _ _ hn) (putBytes_wf _ _ _ hf)

theorem zeroLoc_wf (s : Body) (lo n : Nat) (h : Memory.wf s = true) : Memory.wf (zeroLoc s lo n) = true :=
  Memory.wf_mk (AMap.wf_clear 0 _ _ (Memory.wf_near (s := s) h)) (AMap.wf_clear 0 _ _ (Memory.wf_far (s := s) h))

theorem freeUnit_wf (s : Body) (u : Nat) (h : Memory.wf s = true) : Memory.wf (freeUnit s u) = true := by
  unfold freeUnit
  dsimp only
  rw [Memory.wf_count]
  exact Memory.wf_mk (AMap.wf_clear 0 _ _ (Memory.wf_near (s := s) h)) (Memory.wf_far (s := s) h)

theorem promotionSwitch_wf (u : Nat) (s : Body) (h : Memory.wf s = true) : Memory.wf (promotionSwitch u s) = true := by
  unfold promotionSwitch
  dsimp only
  repeat' split
  all_goals try exact h
  rw [Memory.wf_count, Memory.wf_count]
  exact Memory.wf_mk (foldPut_wf _ _ (AMap.wf_clear 0 _ _ (Memory.wf_near (s := s) h))) (Memory.wf_far (s := s) h)

theorem pinRefillDone_wf (rid : Nat) (s : Body) (h : Memory.wf s = true) : Memory.wf (pinRefillDone rid s) = true := by
  unfold pinRefillDone
  dsimp only
  repeat' split
  all_goals try exact h
  exact Memory.wf_mk (foldPut_wf _ _ (AMap.wf_clear 0 _ _ (Memory.wf_near (s := s) h))) (Memory.wf_far (s := s) h)

theorem zeroFillDone_wf (rid : Nat) (s : Body) (h : Memory.wf s = true) : Memory.wf (zeroFillDone rid s) = true := by
  unfold zeroFillDone
  dsimp only
  repeat' split
  all_goals try exact h
  exact Memory.wf_of_eq (zeroLoc_wf s _ _ h) rfl rfl

theorem fillPut_wf (s : Body) (r : Region) (loc : Nat) (b : List Byte) (h : Memory.wf s = true) :
    Memory.wf (fillPut s r loc b) = true := by
  refine Memory.wf_mk ?_ (putBytes_wf _ _ _ (Memory.wf_far (s := s) h))
  unfold fillPut
  dsimp only
  split
  · exact putBytes_wf _ _ _ (Memory.wf_near (s := s) h)
  · exact Memory.wf_near h

theorem regionFree_wf (s : Body) (i : Image) (r : Region) (h : Memory.wf s = true) : Memory.wf (regionFree s i r) = true :=
  Memory.wf_mk (AMap.wf_clear 0 _ _ (Memory.wf_near (s := s) h)) (Memory.wf_far (s := s) h)

theorem acceptComplete_wf (s : Body) (h : Memory.wf s = true) : Memory.wf (acceptComplete s) = true := by
  unfold acceptComplete
  dsimp only
  repeat' split
  all_goals
    first
      | exact h
      | exact Memory.wf_mk (AMap.wf_clear 0 _ _ (Memory.wf_near (s := s) h)) (Memory.wf_far (s := s) h)

end Sys2Proof.Machine
end

