-- ==== Sys2Proof/WellFormed.lean ====
section
/-!
DEFINITION. Which commands are well formed: every operand lies in the range that the spec gives the thing it names, and every
header field in its width (R4, R14, R67 to R74, R89, R95). A meaning is defined on the others too: it changes nothing, or
acts on the value cut to its field.
-/

namespace Sys2Proof

/-- What the package measures is in the ranges of PWR_IN (R429); an overrun names a context of a step core. -/
def BoundaryIn.wf (b : BoundaryIn) : Bool :=
  b.overrun.all (fun e => decide (e.1 < 16) && decide (e.2 < 19)) && decide (b.vinMv < 65536) && decide (b.iin < 65536) &&
  decide (b.pkgW < 65536)

/-- The link control field of a codeword (R51), and its wrong symbols: each of the 544 at most once, in rising order (R50). -/
def Codeword.wf (c : Codeword) : Bool :=
  decide (c.seq < 512) && decide (c.ack < 512) && c.errs.all (fun e => decide (e < 544)) && decide (c.errs.Pairwise (· < ·))

/-- The header fields of a request (R67, R74). -/
def ReqMsg.wf (m : ReqMsg) : Bool :=
  decide (m.link < 48) && decide (m.tag < 65536) && decide (m.pid < 1024) && decide (m.hid < 512) && decide (m.cid < 8192) &&
  decide (m.len < 32) && decide (m.rsvd < 8) && decide (m.addr < 2 ^ 60) && decide (m.mapgen < 65536) &&
  decide (m.issue < 2 ^ 24) && decide (m.arg < 2 ^ 24)

/-- The header fields of a response (R68, R70, R74). -/
def RespMsg.wf (m : RespMsg) : Bool :=
  decide (m.link < 48) && decide (m.op < 256) && decide (m.tag < 65536) && decide (m.pid < 1024) && decide (m.hid < 512) &&
  decide (m.cid < 8192) && decide (m.len < 32) && decide (m.mapgen < 65536) && decide (m.issue < 2 ^ 24) &&
  decide (m.arg < 2 ^ 24) && decide (m.serve < 2 ^ 24) && decide (m.hint < 65536) && decide (m.rsvd < 256) &&
  decide (m.sub < 256) && decide (m.status < 256)

/-- The header fields of a segment, and its bytes (R89). -/
def SegMsg.wf (m : SegMsg) : Bool :=
  decide (m.link < 48) && decide (m.cid < 8192) && decide (m.tag < 65536) && decide (m.issue < 2 ^ 24) &&
  decide (1 ≤ m.index) && decide (m.index ≤ 16) && decide (1 ≤ m.seglen) && decide (m.seglen ≤ 4096) &&
  decide (m.bytes.length = m.seglen)

/-- A splice (R95). -/
def SpliceMsg.wf (x : SpliceMsg) : Bool :=
  x.hdr.wf && decide (x.op < 256) && decide (x.mlen < 256) && decide (x.rsvdBlk < 2 ^ 31) && decide (1 ≤ x.members.length) &&
  x.members.all (fun m => decide (m.cid < 8192) && decide (m.tag < 65536) && decide (m.issue < 2 ^ 24) && decide (m.rsvd < 2 ^ 11))

/-- A write of the staged composition (R384). -/
def StagedWrite.wf : StagedWrite → Bool
  | .base pid ext _ b => decide (pid < 1024) && decide (ext < 256) && decide (b < 2 ^ 41)
  | .len pid ext rights n region =>
    decide (pid < 1024) && decide (ext < 256) && decide (rights < 16) && decide (n < 2 ^ 41) && decide (region < 256)
  | .list pid region entry hid => decide (pid < 1024) && decide (region < 256) && decide (entry < 512) && decide (hid < 512)

/-- A command is well formed. -/
def Instr.wf : Instr → Bool
  | .knotBoundary b => b.wf
  | .knotSyncSend sendPs => decide (sendPs < 0x100000000)
  | .delayRequestSend sendPs => decide (sendPs < 0x100000000)
  | .sync m => m.msg.wf && decide (m.atPs < 250000)
  | .delayRequest m => m.msg.wf && decide (m.atPs < 250000)
  | .delayAnswer m => m.msg.wf && decide (m.atPs < 250000)
  | .syncLossTimeout => true
  | .holdoverExhausted => true
  | .disciplineEnable => true
  | .disciplineDisable => true
  | .roleMaster => true
  | .roleFollower => true
  | .calTimeWrite sec frac => decide (sec < 2 ^ 48) && decide (frac < 65536)
  | .calendarCellLoss => true
  | .codewordReceive n c => decide (n < 48) && c.wf
  | .laserSpareSwap n lane => decide (n < 48) && decide (lane < 8)
  | .laneSymbolLimit n lane => decide (n < 48) && decide (lane < 8)
  | .lossOfLight n mask => decide (n < 48) && decide (mask < 256)
  | .laneChgReceived n mask atPs => decide (n < 48) && decide (mask < 256) && decide (atPs < 250000)
  | .laneChangeEffect n => decide (n < 48)
  | .errorWindowEnd n => decide (n < 48)
  | .uncorrLimit n => decide (n < 48)
  | .laneDisable n mask => decide (n < 48) && decide (mask < 256)
  | .linkEnable n => decide (n < 48)
  | .linkDisable n => decide (n < 48)
  | .retrain n => decide (n < 48)
  | .lightFound n mask => decide (n < 48) && decide (mask < 256)
  | .equaliseDone n => decide (n < 48)
  | .alignDone n => decide (n < 48)
  | .measureDone n dPs => decide (n < 48) && decide (dPs < 2 ^ 32)
  | .identifyExchange n kind id port => decide (n < 48) && decide (kind < 16) && decide (id < 65536) && decide (port < 256)
  | .trainTimeout n => decide (n < 48)
  | .lanesTimeout n => decide (n < 48)
  | .faultRecoveryTimeout n => decide (n < 48)
  | .photonicDieReady d => decide (d < 4)
  | .portGroupReady _ d => decide (d < 4)
  | .heartbeat n chk m => { m with link := n, check := chk }.wf
  | .heartbeatSuspect n => decide (n < 48)
  | .mgmtPortUp => true
  | .load m => m.wf
  | .loadShared m => m.wf
  | .loadOwn m => m.wf
  | .loadNa m => m.wf
  | .store m => m.wf
  | .storeMasked m => m.wf
  | .writeback m => m.wf
  | .evictClean m => m.wf
  | .codedStore m => m.wf
  | .codedLoad m => m.wf
  | .atomicAddExact m => m.wf
  | .atomicFaddExactVec m => m.wf
  | .atomicCas m => m.wf
  | .atomicSwap m => m.wf
  | .atomicMin m => m.wf
  | .atomicMax m => m.wf
  | .atomicAnd m => m.wf
  | .atomicOr m => m.wf
  | .atomicXor m => m.wf
  | .snoopResp m => m.wf
  | .snoopRoundComplete _ => true
  | .snoopResend _ cid => decide (cid < 8192)
  | .publish m => m.wf
  | .doorbell m => m.wf
  | .spliced x => x.wf
  | .burstSegment g => g.wf
  | .burstTimeout => true
  | .admissionTimeout => true
  | .serviceTimeout => true
  | .peerResponse m => m.wf
  | .peerRequestLost link tag => decide (link < 48) && decide (tag < 65536)
  | .sledResponse n m => { m with link := n }.wf
  | .walkComplete pid page => decide (pid < 1024) && decide (page < 2 ^ 41)
  | .invalidatePage pid size => decide (pid < 1024) && decide (size < 3)
  | .invalidateRun pid size count => decide (pid < 1024) && decide (size < 3) && decide (count < 2 ^ 26)
  | .invalidatePartition pid => decide (pid < 1024)
  | .invalidateAll => true
  | .invalidationComplete => true
  | .rootWrite pid root => decide (pid < 1024) && decide (root < 2 ^ 48)
  | .rebase pid win _ _ base => decide (pid < 1024) && decide (win < 64) && decide (base < 2 ^ 41)
  | .hotRingEnable pid ring sizeLog => decide (pid < 1024) && decide (ring < 2 ^ 48) && decide (sizeLog < 32)
  | .accessDecay => true
  | .dirLookup line => decide (line < 2 ^ 38)
  | .backgroundEvict setNo => decide (setNo < 2 ^ 22)
  | .reclaimSweepEnd => true
  | .acceptLine line => decide (line < 2 ^ 38)
  | .acceptPid pid => decide (pid < 1024)
  | .set c sem v => decide (c < 16) && decide (sem < 4096) && decide (v < 2 ^ 32)
  | .add c sem v => decide (c < 16) && decide (sem < 4096) && decide (v < 2 ^ 32)
  | .semValueWrite c sem v => decide (c < 16) && decide (sem < 4096) && decide (v < 2 ^ 32)
  | .waitLimitReached c x => decide (c < 16) && decide (x < 19)
  | .cacheInvalidate c _ pid => decide (c < 16) && decide (pid < 1024)
  | .cacheMissFill c x => decide (c < 16) && decide (x < 19)
  | .descriptorFetch c pid q => decide (c < 16) && decide (pid < 1024) && decide (q < 64)
  | .descriptorUsable c x => decide (c < 16) && decide (x < 19)
  | .operandBlockRead c x => decide (c < 16) && decide (x < 19)
  | .commandRelease c x => decide (c < 16) && decide (x < 19)
  | .commandComplete c x => decide (c < 16) && decide (x < 19)
  | .nop c x => decide (c < 16) && decide (x < 19)
  | .invalidate c x => decide (c < 16) && decide (x < 19)
  | .ringPlace pid q _ base log2n => decide (pid < 1024) && decide (q < 64) && decide (base < 2 ^ 48) && decide (log2n < 32)
  | .queueIndexWrite pid q pi fi => decide (pid < 1024) && decide (q < 64) && decide (pi < 2 ^ 32) && decide (fi < 2 ^ 32)
  | .queueEnable pid q => decide (pid < 1024) && decide (q < 64)
  | .queueDisable pid q => decide (pid < 1024) && decide (q < 64)
  | .resume pid q => decide (pid < 1024) && decide (q < 64)
  | .drainDone pid q => decide (pid < 1024) && decide (q < 64)
  | .decode c x => decide (c < 16) && decide (x < 19)
  | .encode c x => decide (c < 16) && decide (x < 19)
  | .check c x => decide (c < 16) && decide (x < 19)
  | .loadTable c x => decide (c < 16) && decide (x < 19)
  | .dropTable c x => decide (c < 16) && decide (x < 19)
  | .tableSlotRetired pid slot => decide (pid < 1024) && decide (slot < 4)
  | .seqOpen c x => decide (c < 16) && decide (x < 19)
  | .seqClose c x => decide (c < 16) && decide (x < 19)
  | .seqAdvance c x => decide (c < 16) && decide (x < 19)
  | .gemv c x => decide (c < 16) && decide (x < 19)
  | .kvAppend c x => decide (c < 16) && decide (x < 19)
  | .attend c x => decide (c < 16) && decide (x < 19)
  | .softmax c x => decide (c < 16) && decide (x < 19)
  | .elemwise c x => decide (c < 16) && decide (x < 19)
  | .rmsnorm c x => decide (c < 16) && decide (x < 19)
  | .gather c x => decide (c < 16) && decide (x < 19)
  | .scatterAdd c x => decide (c < 16) && decide (x < 19)
  | .scatterWrite c x => decide (c < 16) && decide (x < 19)
  | .rowReplace c x => decide (c < 16) && decide (x < 19)
  | .scan c x => decide (c < 16) && decide (x < 19)
  | .traverse c x => decide (c < 16) && decide (x < 19)
  | .insert c x => decide (c < 16) && decide (x < 19)
  | .delete c x => decide (c < 16) && decide (x < 19)
  | .merge c x => decide (c < 16) && decide (x < 19)
  | .mergeResume c => decide (c < 16)
  | .fill c x => decide (c < 16) && decide (x < 19)
  | .copy c x => decide (c < 16) && decide (x < 19)
  | .compare c x => decide (c < 16) && decide (x < 19)
  | .digest c x => decide (c < 16) && decide (x < 19)
  | .reduce c x => decide (c < 16) && decide (x < 19)
  | .seize c x => decide (c < 16) && decide (x < 19)
  | .seizePrepareOrigin m => m.wf
  | .preparedRecordDone ocid sid _ => decide (ocid < 8192) && decide (sid < 2 ^ 24)
  | .seizeVote m => m.wf
  | .decisionRecordDone ocid sid => decide (ocid < 8192) && decide (sid < 2 ^ 24)
  | .seizeCommit m => m.wf
  | .seizeAbort m => m.wf
  | .seizeDecide _ m => m.wf
  | .seizeInquire m => m.wf
  | .seizeApply ocid sid => decide (ocid < 8192) && decide (sid < 2 ^ 24)
  | .seizeHoldTimeout ocid sid => decide (ocid < 8192) && decide (sid < 2 ^ 24)
  | .seizeInquireTimer ocid sid => decide (ocid < 8192) && decide (sid < 2 ^ 24)
  | .seizeDecideResend ocid sid => decide (ocid < 8192) && decide (sid < 2 ^ 24)
  | .seizeVoteDiscard => true
  | .forceCommit ocid sid => decide (ocid < 8192) && decide (sid < 2 ^ 24)
  | .forceAbort ocid sid => decide (ocid < 8192) && decide (sid < 2 ^ 24)
  | .txnLookup ocid sid => decide (ocid < 8192) && decide (sid < 2 ^ 24)
  | .promotionSwitch unit => decide (unit < 2 ^ 29)
  | .demotionDone unit => decide (unit < 2 ^ 29)
  | .flush region => decide (region < 256)
  | .flushComplete => true
  | .stackFail k => decide (k < 8)
  | .zeroFillDone region => decide (region < 256)
  | .sledRecover q => decide (q < 16)
  | .sledSuspectTimeout q => decide (q < 16)
  | .sledFailed q => decide (q < 16)
  | .sledIdentified port serial rows _ => decide (port < 16) && decide (serial < 2 ^ 64) && decide (rows < 2 ^ 32)
  | .fail q => decide (q < 16)
  | .rebuild q => decide (q < 16)
  | .accept region => decide (region < 256)
  | .rebuildStart q => decide (q < 16)
  | .rebuildStep => true
  | .rebuildResume => true
  | .shadowKeep src pid ntrial => decide (src < 512) && decide (pid < 1024) && decide (ntrial < 2 ^ 32)
  | .shadowCopy src pid ntrial => decide (src < 512) && decide (pid < 1024) && decide (ntrial < 2 ^ 32)
  | .shadowRecon src pid ntrial => decide (src < 512) && decide (pid < 1024) && decide (ntrial < 2 ^ 32)
  | .shadowIdle src pid ntrial => decide (src < 512) && decide (pid < 1024) && decide (ntrial < 2 ^ 32)
  | .shadowFillDone => true
  | .shadowVerifyDone _ _ => true
  | .shadowTrialEntry => true
  | .roll pid => decide (pid < 1024)
  | .keyRollover pid => decide (pid < 1024)
  | .previousKeyDestroy pid => decide (pid < 1024)
  | .hitch cid pid stages _ => decide (cid < 8192) && decide (pid < 1024) && decide (stages < 16)
  | .modify cid pid stages _ => decide (cid < 8192) && decide (pid < 1024) && decide (stages < 16)
  | .unhitch cid pid => decide (cid < 8192) && decide (pid < 1024)
  | .grant cid pid ext rights => decide (cid < 8192) && decide (pid < 1024) && decide (ext < 256) && decide (rights < 8)
  | .revokeGrant cid pid ext => decide (cid < 8192) && decide (pid < 1024) && decide (ext < 256)
  | .revokeExtent pid ext _ => decide (pid < 1024) && decide (ext < 256)
  | .reopen pid ext => decide (pid < 1024) && decide (ext < 256)
  | .revocationDrainEnd => true
  | .scrubEnd => true
  | .halyardEnable pid hal lead len => decide (pid < 1024) && decide (hal < 4) && decide (lead < 256) && decide (len < 2 ^ 32)
  | .stagedWrite w => w.wf
  | .commit pid newgen => decide (pid < 1024) && decide (newgen < 65536)
  | .commitCancel pid => decide (pid < 1024)
  | .generationEffect pid => decide (pid < 1024)
  | .deadClient cid => decide (cid < 8192)
  | .deadHelak hid cid => decide (hid < 512) && decide (cid < 8192)
  | .admitShadow hid => decide (hid < 512)
  | .releaseClient cid => decide (cid < 8192)
  | .releaseHelak hid => decide (hid < 512)
  | .tear pid => decide (pid < 1024)
  | .tearDrainEnd pid => decide (pid < 1024)
  | .tearSweepEnd pid => decide (pid < 1024)
  | .mend pid => decide (pid < 1024)
  | .isolatedWrite _ => true
  | .profileWriteStart n => decide (n < 4)
  | .profileWriteEnd n _ => decide (n < 4)
  | .switch n => decide (n < 4)
  | .partialConfig n => decide (n < 4)
  | .partialCancel => true
  | .partialChecked => true
  | .partialEffect => true
  | .imageLoadDone => true
  | .bootWrite n => decide (n < 4)
  | .floorWrite v => decide (v < 2 ^ 64)
  | .throttleEnter => true
  | .throttleStep => true
  | .throttleRelax => true
  | .quiesceEnter => true
  | .pgoodDeassert => true
  | .quiesceDrained => true
  | .quiesceEnd => true
  | .quiesceRestart => true
  | .surge => true
  | .undervolt => true
  | .overvolt => true
  | .powerOn psel _ => decide (psel < 4)
  | .resetPinAssert => true
  | .resetPinRelease => true
  | .resetPinHoldTimeout => true
  | .thermalTrip => true
  | .engineReset c => decide (c < 16)
  | .partitionReset pid => decide (pid < 1024)
  | .chipReset _ => true
  | .powerReset => true
  | .readinessSet bit => decide (bit < 64)
  | .pwrExtClear => true
  | .getVersion eid => decide (eid < 256)
  | .getCapabilities eid => decide (eid < 256)
  | .negotiateAlgorithms eid spec asym hash => decide (eid < 256) && decide (spec < 256) && decide (asym < 2 ^ 32) && decide (hash < 2 ^ 32)
  | .getDigests eid => decide (eid < 256)
  | .getCertificate eid slot off len => decide (eid < 256) && decide (slot < 256) && decide (off < 65536) && decide (len < 2 ^ 32)
  | .challenge eid slot meas nonce => decide (eid < 256) && decide (slot < 256) && decide (meas < 256) && decide (nonce.length = 32)
  | .getMeasurements eid _ index nonce => decide (eid < 256) && decide (index < 256) && decide (nonce.length = 32)
  | .spdmUnsupported eid code => decide (eid < 256) && decide (code < 256)
  | .getNonce eid _ => decide (eid < 256)
  | .kemGet eid _ => decide (eid < 256)
  | .keyDeliver eid _ => decide (eid < 256)
  | .lcRequest eid _ => decide (eid < 256)
  | .lcBurnDone => true
  | .debugUnlock eid _ => decide (eid < 256)
  | .keyInstall eid _ => decide (eid < 256)
  | .keyRevoke eid _ => decide (eid < 256)
  | .mldsaSig eid _ => decide (eid < 256)
  | .tamperEvent kind _ => decide (1 ≤ kind) && decide (kind ≤ 4)
  | .debugReadSelect unit addr => decide (unit < 2 ^ 29) && decide (addr < 2 ^ 48)
  | .sampleTake n => decide (n < 16)
  | .pcRecord c => decide (c < 16)
  | .partialLineFlush dest => decide (dest < 1026)
  | .mark v => decide (v < 2 ^ 64)
  | .obsFlush => true
  | .traceEnable => true
  | .sampleEnable n => decide (n < 16)
  | .watchpointEnable w => decide (w < 16)
  | .ringEnable pid _ _ ring sizeLog => decide (pid < 1024) && decide (ring < 2 ^ 48) && decide (sizeLog < 32)
  | .setEndpointId src eid => decide (src < 256) && decide (eid < 256)
  | .getEndpointId src => decide (src < 256)
  | .getMctpVersionSupport src ty => decide (src < 256) && decide (ty < 256)
  | .getMessageTypeSupport src => decide (src < 256)
  | .mctpUnsupportedType src ty => decide (src < 256) && decide (ty < 256)
  | .pldmBaseDiscovery src cmd arg => decide (src < 256) && decide (cmd < 256) && decide (arg < 65536)
  | .pldmSensorRead src id => decide (src < 256) && decide (id < 65536)
  | .platformEventSend => true
  | .regRead eid inst cmd _ => decide (eid < 256) && decide (inst < 32) && decide (cmd < 256)
  | .regWrite eid inst _ => decide (eid < 256) && decide (inst < 32)
  | .registerWrite off data mask => decide (off % 8 = 0) && decide (off < 0x200000) && decide (data < 2 ^ 64) && decide (mask < 2 ^ 64)
  | .mgmtPortDown => true
  | .pinRefillDone region => decide (region < 256)
  | .acceptComplete => true

end Sys2Proof
end

