-- ==== Sys2Proof/Tests/Slice0.lean ====
section
/-!
SUPPORT. Tests of the model: ill-formed terms that the checks of well-formedness refuse, single steps on small states whose
results the spec gives, and for every statement with hypotheses a state and operands that meet them, clause by clause.
-/

namespace Sys2Proof.Tests

set_option Elab.async false

open Sys2Proof Sys2Proof.Machine

/-- A powered package at reset values. -/
def up : State := { State.reset with pwr := { off := false } }

/-- The state of an outcome. -/
def after (o : Host.Outcome State Fault Refusal) : State := match o with | .next s => s | _ => State.reset

/-- The state at a later moment: its boundaries have been counted to `k` (log entry 100). -/
def atTick (k : Nat) (s : State) : State := s.upd (fun b => { b with tick := k })

/-! ### The knot timebase -/

/-- A message between controllers on port 47, with the CHECK that its bytes have. -/
def linkMsg (op len : Nat) (pay : List Byte) : ReqMsg :=
  let m : ReqMsg := { link := 47, enc := false, tag := 0, pid := 0, hid := 0, cid := 0, len := len, cls := false, rsvd := 0,
                      space := false, addr := 0, mapgen := 0, issue := 0, arg := 0, check := 0, payload := pay }
  { m with check := BitVec.ofNat 64 (crc64 (reqHdr op m ++ pay)) }

/-- A KNOT_SYNC of a kind, from knot 5 of the master 0. -/
def syncM (kind : Nat := 0) : ReqMsg := linkMsg opKNOTSYNC 3 (syncPayload 5 100 0 0 7 kind)

/-- A follower of port 47 in state `st` whose discipline runs. -/
def follower (st : Nat) : State :=
  ((up.set R.KNT_STATUS.STATE st).set R.KNT_DISC.SRC_PORT 47).upd (fun b => { b with knot := { b.knot with running := true } })

theorem test_syncM_ok (kind : Nat) (h : kind < 4) : linkMsgOk opKNOTSYNC 3 (syncM kind) ∧ (syncOf (syncM kind) 9).kind = kind := by
  unfold linkMsgOk
  have k : kind = 0 ∨ kind = 1 ∨ kind = 2 ∨ kind = 3 := by omega
  rcases k with rfl | rfl | rfl | rfl <;> decide +kernel

theorem test_hyps_disciplineMessages :
    ((follower discHOLDOVER).pwr.off = false ∧ (syncM 0).link < 48 ∧
      syncAccepts (follower discHOLDOVER).toBody (syncOf (syncM 0) 9) = true ∧ disc (follower discHOLDOVER).toBody = discHOLDOVER) ∧
    (let s := (follower discLOCKED).upd (fun b => { b with knot := { b.knot with answered := true } })
     syncAccepts s.toBody (syncOf (syncM 0) 9) = true ∧ disc s.toBody ≠ discHOLDOVER ∧ disc s.toBody ≠ discUNLOCKED ∧
      s.knot.answered = true) ∧
    (syncAccepts (follower discMASTER).toBody (syncOf (syncM 0) 9) = false ∧ 2 < (syncOf (syncM 3) 9).kind) ∧
    ((follower discMASTER).knot.running = true ∧ disc (follower discMASTER).toBody = discMASTER ∧
      (follower discMASTER).toBody.hid = (syncOf (syncM 1) 9).masterHid) ∧
    (let s := ((follower discLOCKED).set R.LNK_STATUS.ROLE 1 47).set R.KNT_STATUS.PROV 0
     disc s.toBody = discLOCKED ∧ s.get R.KNT_STATUS.PROV = 0 ∧ s.get R.LNK_STATUS.ROLE 47 = 1 ∧
      (syncOf (syncM 1) 9).masterHid = s.get R.KNT_DISC.MASTER_HID) ∧
    up.knot.running = false ∧
    (let s := (follower discACQUIRE).upd (fun b => { b with knot := { b.knot with asked := [(7, 3)] } })
     syncAccepts s.toBody (syncOf (syncM 2) 9) = true ∧ s.knot.asked.find? (fun a => a.1 == (syncOf (syncM 2) 9).seq) = some (7, 3)) ∧
    (syncAccepts up.toBody (syncOf (syncM 2) 9) = false ∧
      crc64 (reqHdr opKNOTSYNC { syncM 0 with check := (syncM 0).check + 1 } ++ (syncM 0).payload) ≠ ((syncM 0).check + 1).toNat) ∧
    (discGood (follower discMASTER).toBody = true ∧ syncDue (follower discMASTER).toBody (follower discMASTER).knot.syncAt = true) ∧
    (disc (follower discLOCKED).toBody ≠ discMASTER ∧ disc (follower discLOCKED).toBody ≠ discINIT ∧
      syncDue (follower discLOCKED).toBody (follower discLOCKED).knot.askAt = true) := by decide +kernel

theorem test_hyps_disciplineTimersAndControls :
    (let s := atTick 1024 (follower discLOCKED)
     s.pwr.off = false ∧ disc s.toBody = discLOCKED ∧ s.knot.lastSync + 1024 ≤ s.tick ∧
      regOpen s (R.KNT_DISC.ENABLE.at 0) = true ∧ regOpen s (R.CAL_TIME.SEC.at 0) = true) ∧
    (let s := (follower discHOLDOVER).set R.KNT_HOLD.HOLD_KNOTS (2 ^ 23 - 1)
     disc s.toBody = discHOLDOVER ∧ 2 ^ 23 ≤ s.get R.KNT_HOLD.HOLD_KNOTS + 1) ∧
    (let s := (follower discHOLDOVER).set R.KNT_HOLD.HOLD_KNOTS (2 ^ 23)
     disc s.toBody = discHOLDOVER ∧ 2 ^ 23 ≤ s.get R.KNT_HOLD.HOLD_KNOTS ∧ disc s.toBody ≠ discMASTER ∧ disc s.toBody ≠ discINIT) ∧
    (disc up.toBody ≠ discMASTER ∧ disc up.toBody ≠ discLOCKED ∧ 65535 < 65536) := by decide +kernel

theorem test_hyps_logLineAndCalendar :
    disc (follower discHOLDOVER).toBody = discHOLDOVER ∧ disc (follower discMASTER).toBody = discMASTER ∧
    (disc up.toBody ≠ discMASTER ∧ disc up.toBody ≠ discLOCKED ∧ up.get R.CAL_STATUS.VALID = 0) ∧
    (up.set R.CAL_STATUS.VALID 1).get R.CAL_STATUS.VALID ≠ 0 ∧
    State.reset.pwr.off = true ∧ up.pwr.off = false := by decide +kernel

def bnd : BoundaryIn := { overrun := [], vinMv := 24000, iin := 0, pkgW := 0, pgood := true, nearBad := [] }

theorem test_hyps_boundary :
    (let u := up.upd (fun s => knotCommit bnd (knotClose bnd s))
     let v := u.upd (fun s => s.acts.foldl actNow { s with acts := [] })
     up.pwr.off = false ∧ u.acts.contains .dbgRead = false ∧ armedResets u.acts = [] ∧ v.pwr.off = false) ∧
    (let s := up.arm (.reset 4 5)
     let u := s.upd (fun s => knotCommit bnd (knotClose bnd s))
     s.pwr.off = false ∧ u.acts.contains .dbgRead = false ∧
      (armedResets u.acts).find? (fun r => r.1 == 4) = some (4, 5)) := by decide +kernel

/-- The log line of a package that has just been powered goes from 0 to 1 at a boundary (R20). -/
theorem test_boundary_counts : (after (exec (.knotBoundary bnd) up)).get R.KNT_COUNT.COUNT = 1 := by decide +kernel

/-! ### The optical ports -/

/-- Port 47 in state `st`, with light on the wavelengths of `light`. -/
def port (st : Nat) (light : Nat := 255) : State :=
  (up.set R.LNK_STATUS.STATE st 47).upd (fun b => b.setLink 47 { b.link 47 with light := light })

theorem test_hyps_linkTraining :
    (up.pwr.off = false ∧ 47 < 48 ∧ lstate (port lsDARK 0).toBody 47 = lsDARK ∧
      4 ≤ popcount ((((port lsDARK 0).link 47).light ||| 15) % 256) 8 ∧ 4 ≤ popcount ((port lsDARK 15).link 47).light 8) ∧
    lstate (port lsEQUALISE).toBody 47 = lsEQUALISE ∧ lstate (port lsALIGN).toBody 47 = lsALIGN ∧
    (lstate (port lsRETRAIN).toBody 47 = lsRETRAIN ∧ ((port lsRETRAIN).link 47).phase = 0) ∧
    (let s := (port lsRETRAIN).upd (fun b => b.setLink 47 { b.link 47 with phase := 1 })
     lstate s.toBody 47 = lsRETRAIN ∧ (s.link 47).phase = 1) ∧
    (let s := atTick 256 ((port lsRETRAIN).upd (fun b => b.setLink 47 { b.link 47 with phase := 2, measureAt := 0 }))
     lstate s.toBody 47 = lsRETRAIN ∧ (s.link 47).phase = 2 ∧ (s.link 47).measureAt + 256 ≤ s.tick ∧
      (s.link 47).measureAt + 256 ≤ (atTick 255 s).tick + 1) ∧
    (lstate (port lsMEASURE).toBody 47 = lsMEASURE ∧ 300000 ≤ 300000 ∧ 300000 < 300001) := by decide +kernel

/-- A port of 100 ns gets no knot, one of 300 ns two (R60: ceil(2 * 200,000 / 250,000)). -/
theorem test_add_knots :
    (let at_ := fun d => (actNow (atTick 256 (port lsMEASURE)).toBody (.train 31 (.measured d)))
     let s := atTick 256 (((up.set R.LNK_STATUS.STATE lsMEASURE 31).set R.LNK_STATUS.LANES 8 31))
     (actNow s.toBody (.train 31 (.measured 100000))).get R.LNK_STATUS.ADD_KNOTS 31 = 0 ∧
      (actNow s.toBody (.train 31 (.measured 300000))).get R.LNK_STATUS.ADD_KNOTS 31 = 2 ∧ lstate (at_ 5) 47 = lsMEASURE) := by
  decide +kernel

theorem test_hyps_linkIdentify :
    (let s := port lsIDENTIFY
     s.pwr.off = false ∧ lstate s.toBody 47 = lsIDENTIFY ∧ s.get R.LNK_STATUS.ROLE 47 = 0) ∧
    (let s := (port lsIDENTIFY).set R.LNK_STATUS.ROLE 3 47
     s.get R.LNK_STATUS.ROLE 47 ≠ 0 ∧ roleKind (s.get R.LNK_STATUS.ROLE 47) = roleKind 3 ∧ roleKind 3 < 16 ∧ 511 < 2 ^ 13 ∧
      idConflict s.toBody 47 (roleKind 3) 511 = false ∧ popcount ((s.link 47).light - ((s.link 47).light &&&
        (s.get R.LNK_CTRL.LANE_DISABLE 47 ||| (s.link 47).dead))) 8 = 8) ∧
    (let s := (port lsIDENTIFY 7).set R.LNK_STATUS.ROLE 3 47
     popcount ((s.link 47).light - ((s.link 47).light &&& (s.get R.LNK_CTRL.LANE_DISABLE 47 ||| (s.link 47).dead))) 8 < 4) ∧
    (let s := (((((port lsIDENTIFY).set R.LNK_STATUS.ROLE 3 47).set R.LNK_STATUS.ROLE 3 46).set R.LNK_STATUS.STATE lsUP 46).set
       R.LNK_PEER.PEER_ID 511 46).set R.LNK_PEER.KIND (roleKind 3) 46
     idConflict s.toBody 47 (roleKind 3) 511 = true) := by decide +kernel

theorem test_hyps_linkTimers :
    (let s := atTick 8191 ((port lsALIGN).upd (fun b => b.setLink 47 { b.link 47 with leftDark := some 0 }))
     s.pwr.off = false ∧ (s.link 47).leftDark = some 0 ∧ 0 + 8192 ≤ s.tick + 1 ∧ lsEQUALISE ≤ lstate s.toBody 47 ∧
      lstate s.toBody 47 ≤ lsIDENTIFY ∧ 0 + 8192 ≤ (atTick 8192 s).tick) ∧
    (let s := atTick 3999 ((port lsRETRAIN).upd (fun b => b.setLink 47 { b.link 47 with fewLight := some 0 }))
     lstate s.toBody 47 = lsRETRAIN ∧ (s.link 47).fewLight = some 0 ∧ 0 + 4000 ≤ s.tick + 1 ∧ 0 + 4000 ≤ (atTick 4000 s).tick) ∧
    (let s := atTick 3999999 ((port lsFAULT).set R.LNK_STATUS.CAUSE 3 47)
     lstate s.toBody 47 = lsFAULT ∧ s.get R.LNK_STATUS.CAUSE 47 = 3 ∧ (s.link 47).faultAt + 4000000 ≤ s.tick + 1 ∧
      (s.link 47).faultAt + 4000000 ≤ (atTick 4000000 s).tick) ∧
    (let s := ((port lsUP).set R.LNK_THRESH.UNCORR_LIMIT 0 47).upd (fun b => b.setLink 47 { b.link 47 with winUncorr := 1 })
     linkUp s.toBody 47 = true ∧ s.get R.LNK_THRESH.UNCORR_LIMIT 47 < (s.link 47).winUncorr) ∧
    (let s := (port lsUP).upd (fun b => b.setLink 47 { b.link 47 with winCw := 2 ^ 20 })
     2 ^ 20 ≤ (s.link 47).winCw) := by decide +kernel

/-- Port 47 UP on all its wavelengths. -/
def upPort : State := ((port lsUP).set R.LNK_STATUS.LANE_MAP 255 47).set R.LNK_STATUS.LANES 8 47

theorem test_hyps_wavelengths :
    (upPort.pwr.off = false ∧ linkUp upPort.toBody 47 = true ∧ bitAt (upPort.get R.LNK_STATUS.SPARE_USED 47) 7 = false) ∧
    (let s := upPort.set R.LNK_STATUS.SPARE_USED 128 47
     bitAt (s.get R.LNK_STATUS.SPARE_USED 47) 7 = true ∧ s.get R.LNK_STATUS.LANE_MAP 47 &&& 2 ^ 7 ≠ 0 ∧
      4 ≤ lanesLeft s.toBody 47 (2 ^ 7)) ∧
    (let s := (upPort.set R.LNK_THRESH.LANE_SYM_LIMIT 0 47).upd (fun b => b.setLink 47 { b.link 47 with winSym := [(7, 1)] })
     s.get R.LNK_THRESH.LANE_SYM_LIMIT 47 < AMap.get 0 (s.link 47).winSym 7) ∧
    (regOpen upPort (R.LNK_CTRL.LANE_DISABLE.at 47) = true ∧ upPort.get R.LNK_STATUS.LANE_MAP 47 &&& 0 = 0 ∧
      upPort.get R.LNK_STATUS.LANE_MAP 47 &&& 31 ≠ 0 ∧ lanesLeft upPort.toBody 47 31 < 4 ∧ 4 ≤ lanesLeft upPort.toBody 47 15) ∧
    popcount ((upPort.link 47).light - ((upPort.link 47).light &&& 31)) 8 < 4 ∧
    4 ≤ popcount ((upPort.link 47).light - ((upPort.link 47).light &&& 15)) 8 := by decide +kernel

theorem test_hyps_laneChange :
    (upPort.pwr.off = false ∧ linkUp upPort.toBody 47 = true ∧ (upPort.link 47).drops = [] ∧
      upPort.get R.LNK_STATUS.LANE_MAP 47 &&& 15 ≠ 0) ∧
    (let d : LaneDrop := { k := 0, mask := 15, mine := true, answered := true }
     let s := atTick 4 (upPort.upd (fun b => b.setLink 47 { b.link 47 with drops := [d] }))
     linkUp s.toBody 47 = true ∧ (s.link 47).drops.filter (fun d => decide (d.k + 4 ≤ s.tick)) = [d] ∧ d.answered = true ∧
      4 ≤ popcount (s.get R.LNK_STATUS.LANE_MAP 47 - (s.get R.LNK_STATUS.LANE_MAP 47 &&& d.mask)) 8 ∧
      ((atTick 3 s).link 47).drops.all (fun d => decide ((atTick 3 s).tick < d.k + 4)) = true) ∧
    (let d : LaneDrop := { k := 0, mask := 15, mine := true, answered := false }
     let s := atTick 4 (upPort.upd (fun b => b.setLink 47 { b.link 47 with drops := [d] }))
     (s.link 47).drops = [d] ∧ d.k + 4 ≤ s.tick ∧ d.mine = true ∧ d.answered = false) := by decide +kernel

/-- A LANE_CHG taken in 300,000 ps after boundary 10, over a port of 100 ns, was launched in knot 10 (R54). -/
theorem test_lane_chg_knot :
    (let s := atTick 10 (upPort.set R.LNK_PEER.DELAY_PS 100000 47)
     (((after (exec (.laneChgReceived 47 1 99999) s)).link 47).drops.map (fun d => d.k) = [9]) ∧
      (((after (exec (.laneChgReceived 47 1 100000) s)).link 47).drops.map (fun d => d.k) = [10])) := by decide +kernel

theorem test_hyps_codewords :
    upPort.pwr.off = false ∧ linkUp upPort.toBody 47 = true ∧
    15 < ({ seq := 0, ack := 0, nak := false, errs := List.range 16 } : Codeword).errs.length ∧
    ({ seq := 0, ack := 511, nak := true, errs := List.range 15 } : Codeword).errs.length ≤ 15 := by
  decide +kernel

/-- A codeword with 16 wrong symbols counts and delivers nothing; with 15 it is corrected and delivered (R50, R51). -/
theorem test_codeword_uncorrectable :
    (after (exec (.codewordReceive 47 { seq := 0, ack := 0, nak := false, errs := List.range 16 }) upPort)).out = [] ∧
    (after (exec (.codewordReceive 47 { seq := 0, ack := 0, nak := false, errs := List.range 15 }) upPort)).out =
      [.deliver 47 0] := by decide +kernel

/-- A heartbeat on port 47. -/
def beatM : ReqMsg := linkMsg opHEARTBEAT 0 []

theorem test_beatM_ok : linkMsgOk opHEARTBEAT 0 beatM := by
  unfold linkMsgOk
  decide +kernel

theorem test_hyps_heartbeatsAndPortControls :
    (upPort.pwr.off = false ∧ linkUp upPort.toBody beatM.link = true ∧
      crc64 (reqHdr opHEARTBEAT { beatM with check := beatM.check + 1 } ++ beatM.payload) ≠ (beatM.check + 1).toNat) ∧
    (let s := upPort.set R.LNK_HB.SUSPECT 1 47
     s.get R.LNK_HB.SUSPECT 47 ≠ 0) ∧
    (let s := upPort.set R.LNK_HB.MISS 64 47
     64 ≤ s.get R.LNK_HB.MISS 47 ∧ s.get R.LNK_HB.SUSPECT 47 = 0) ∧
    (let s := atTick 16384 (up.upd (fun b => { b with groupStart := [(3, 1)] }))
     s.pwr.pin = none ∧ AMap.get 0 s.groupStart 3 ≠ 0 ∧ AMap.get 0 s.groupStart 3 - 1 + 16384 ≤ s.tick) ∧
    regOpen up (R.LNK_CTRL.ENABLE.at 47) = true ∧ bitAt ((up.set R.MGT_READY.PHO 1).get R.MGT_READY.PHO) 0 = true := by
  decide +kernel

/-! ### Requests -/

def part1 : PartDef :=
  { pid := 1, sess := false, owner := false, sgaOk := true, nq := 4, resSlots := 0, xltShare := 4, walkMax := 2, dirShare := 8,
    seizeMax := 2, qcore := [0, 0, 0, 0], seqSlots := 3 }

def region0 : Region :=
  { id := 0, gLog := 12, lLog := 0, shared := false, coded := false, base := 0, size := 1048576, localBase := 0, hdrBase := 0,
    keyOwner := 1, list := [0], pids := [1] }

/-- An image of one partition, one region of the near tier alone, one client and one of each engine's channels. -/
def image1 : Image :=
  { hid := 0, sp2 := false, length := 0, partCode := 0, stepping := 0, ver := 0, buildId := 0, parts := [part1], hitches := [],
    regions := [region0], sched := [],
    chans := [1, 2, 3, 4, 5].map (fun e => { engine := e, chan := 0, owner := 1, units := 1, aux := 1, sramKib := 64 }),
    cores := [{ pid := 1, weight := 1, ctxMax := List.replicate 16 16, ways := List.replicate 16 1 }], links := [], portmap := [],
    prots := [{ region := 0, tier := 3, swap := false, scheme := 0, member := 0, group := 0, rowBase := 0, nRows := 0, quota := 0 }],
    obsSlots := 16, traceFrames := 1, sampleFrames := 1, rings := [(1, 1)], peers := [], groups := [],
    sems := [{ core := 0, barrier := false, sem := 0, pid := 1, num := 4096 }], plan := 0, keyId := 0 }

/-- A package with that image in effect: HOME and every block ready, port 0 UP to client 5, which is hitched to PID 1, whose
at-rest key is there. -/
def cfgd : State :=
  ((((((((((up.set R.MGT_READY.HOME 1).set R.MGT_READY.DIR 1).set R.MGT_READY.XLT 1).set R.MGT_READY.KNOT 1).set
    R.MGT_READY.CORE 65535).set R.LNK_STATUS.STATE lsUP 0).set R.LNK_STATUS.ROLE 1 0).set R.LNK_PEER.PEER_ID 5 0).set
    R.CFG_STATUS.STATE 2).set R.FLT_SELF.ISOLATED 0).upd (fun b => { b with
      cfg := { b.cfg with img := some image1 }
      parts := [(1, { cur := { exts := [{ idx := 0, base := 0, len := 1048576, region := 0, rights := 15, fenced := false }] },
                      keys := { rest := some (List.replicate 64 0) } })]
      prt := { b.prt with hitches := [{ idx := 0, cid := 5, pid := 1, stages := 1, sgaOk := true, state := 1 }] } })

/-- A request of 128 bytes, with the CHECK that its bytes have. -/
def req (op len : Nat) (pay : List Byte) : ReqMsg :=
  let m : ReqMsg := { link := 0, enc := false, tag := 3, pid := 1, hid := 0, cid := 5, len := len, cls := false, rsvd := 0,
                      space := true, addr := 128, mapgen := 0, issue := 0, arg := 0, check := 0, payload := pay }
  { m with check := BitVec.ofNat 64 (crc64 (reqHdr op m ++ pay)) }

def loadM : ReqMsg := req opLOAD 5 []
def evictM : ReqMsg := req opEVICTCLEAN 0 []

theorem test_hyps_requestsTakenIn :
    (reqRow (.load loadM) = some (opLOAD, loadM) ∧ cfgd.pwr.off = false ∧ portTakes cfgd.toBody loadM.link = true ∧
      isBurst opLOAD loadM = false ∧ verified cfgd.toBody opLOAD loadM = some ([], false) ∧
      headerCheck cfgd.toBody opLOAD loadM [] = .pass ∧ givesUp opLOAD = false) ∧
    (reqRow (.evictClean evictM) = some (opEVICTCLEAN, evictM) ∧ isBurst opEVICTCLEAN evictM = false ∧
      verified cfgd.toBody opEVICTCLEAN evictM = some ([], false) ∧ headerCheck cfgd.toBody opEVICTCLEAN evictM [] = .pass ∧
      givesUp opEVICTCLEAN = true) := by decide +kernel

theorem test_hyps_requestsTurnedAway :
    verified cfgd.toBody opLOAD { loadM with check := loadM.check + 1 } = none ∧
    (let s := cfgd.set R.LNK_PEER.PEER_ID 6 0
     verified s.toBody opLOAD loadM = some ([], false) ∧
      headerCheck s.toBody opLOAD loadM [] = .discard R.FAB_SRC_FAIL.COUNT) ∧
    (let m := req opLOAD 11 []
     verified cfgd.toBody opLOAD m = some ([], false) ∧ headerCheck cfgd.toBody opLOAD m [] = .refuse stBADOPCODE 2) := by
  decide +kernel

/-- A STORE's head of 8 KiB, with its first segment's bytes still to come. -/
def headM : ReqMsg := req opSTORE 17 []

theorem test_hyps_burstHeads :
    (reqRow (.store headM) = some (opSTORE, headM) ∧ isBurst opSTORE headM = true ∧ portTakes cfgd.toBody headM.link = true ∧
      cfgd.olp.bursts = [] ∧ (cfgd.olp.bursts.filter (fun b => b.m.link == headM.link)).length < 32) ∧
    (let s := cfgd.upd (fun b => { b with olp := { b.olp with bursts := [{ op := opSTORE, m := headM, h := 0, index := 0 }] } })
     s.olp.bursts.any (fun b => b.m.link == headM.link && b.m.cid == headM.cid && b.m.tag == headM.tag &&
       b.m.issue == headM.issue) = true) ∧
    (let u := atTick 63 (cfgd.upd (fun b => { b with olp := { b.olp with refused := [(0, 5, 3, 0, 0)] } }))
     let g : SegMsg := { link := 0, cid := 5, tag := 3, issue := 0, index := 1, last := true, seglen := 128, rsvd := 0,
                         bytes := List.replicate 128 0 }
     g.link = headM.link ∧ g.cid = headM.cid ∧ g.tag = headM.tag ∧ g.issue = headM.issue ∧
      (headM.link, headM.cid, headM.tag, headM.issue, cfgd.tick) ∈ u.olp.refused ∧ u.tick < cfgd.tick + 64 ∧
      u.olp.bursts.find? (segOf g) = none) ∧
    (let s := cfgd.upd (fun b => { b with olp := { b.olp with bursts := (List.range 32).map (fun i =>
       { op := opSTORE, m := { headM with tag := 100 + i }, h := 0, index := 0 }) } })
     32 ≤ (s.olp.bursts.filter (fun b => b.m.link == headM.link)).length ∧
      s.olp.bursts.any (fun b => b.m.link == headM.link && b.m.cid == headM.cid && b.m.tag == headM.tag &&
        b.m.issue == headM.issue) = false) := by decide +kernel

theorem test_hyps_requestTimeouts :
    (let r : Req := { id := 1, op := opLOAD, m := loadM, issueK := 0, checked := 0, order := 1, prevKey := false }
     let s := atTick 1024 (cfgd.upd (fun b => { b with olp := { b.olp with reqs := [r] } }))
     s.olp.reqs.filter (fun r => r.stage == .waiting && decide (r.checked + 1024 ≤ s.tick)) = [r] ∧
      (atTick 1023 s).olp.reqs.filter (fun r => r.stage == .waiting && decide (r.checked + 1024 ≤ (atTick 1023 s).tick)) = []) ∧
    (let r : Req := { id := 1, op := opLOAD, m := loadM, issueK := 0, checked := 0, order := 1, prevKey := false, stage := .ready }
     let s := (cfgd.set R.KNT_COUNT.COUNT 2048).upd (fun b => { b with olp := { b.olp with reqs := [r] } })
     s.olp.reqs = [r] ∧ r.stage ≠ .waiting ∧ r.farStarted = false ∧ r.admitted + 2048 ≤ s.now) := by decide +kernel

/-- A LOAD of a line that holds nothing is answered with 128 zero bytes (R75): it is taken in, admitted and served. -/
theorem test_load_taken_in : (after (exec (.load loadM) cfgd)).olp.reqs.length = 1 := by decide +kernel

/-- A STORE of 4,224 bytes at address 0: its head with 4,096 of them, and its one segment. -/
def bigM0 : ReqMsg := { req opSTORE 16 (List.replicate 4096 0) with addr := 0 }
def bigM : ReqMsg := { bigM0 with check := BitVec.ofNat 64 (crc64 (reqHdr opSTORE bigM0 ++ List.replicate 4224 0)) }

def seg1 : SegMsg :=
  { link := 0, cid := 5, tag := 3, issue := 0, index := 1, last := true, seglen := 128, rsvd := 0, bytes := List.replicate 128 0 }

def burst1 : Burst := { op := opSTORE, m := bigM, h := 0, index := 0 }

def bursty : State := cfgd.upd (fun b => { b with olp := { b.olp with bursts := [burst1] } })

set_option maxRecDepth 20000 in
theorem test_hyps_burstSegments :
    (portTakes bursty.toBody seg1.link = true ∧ bursty.olp.bursts.find? (segOf seg1) = some burst1 ∧ bursty.tick < burst1.h + 64 ∧
      seg1.index = burst1.index + 1 ∧ seg1.index + 15 ≤ burst1.m.len ∧ seg1.last = true ∧ burst1.op = opSTORE) ∧
    (let g := { seg1 with last := false, seglen := 4096 }
     g.index = burst1.index + 1 ∧ g.index + 15 ≤ burst1.m.len ∧ g.seglen = 4096 ∧ g.last = false) ∧
    ({ seg1 with index := 2 } : SegMsg).index ≠ burst1.index + 1 ∧
    (portTakes cfgd.toBody seg1.link = true ∧ cfgd.olp.bursts = [] ∧ cfgd.olp.refused = [] ∧ cfgd.olp.orphans = []) ∧
    (let s := atTick 63 (cfgd.upd (fun b => { b with olp := { b.olp with refused := [(0, 5, 3, 0, 0)] } }))
     s.olp.refused.any (segRecent s.toBody seg1) = true ∧
      (atTick 64 s).olp.refused.any (segRecent (atTick 64 s).toBody seg1) = false) ∧
    (let s := atTick 63 (cfgd.upd (fun b => { b with olp := { b.olp with orphans := [(0, 5, 3, 0, 0)] } }))
     s.olp.orphans.any (segRecent s.toBody seg1) = true) ∧
    (let s := atTick 64 bursty
     s.olp.bursts.filter (fun b => decide (b.h + 64 ≤ s.tick)) = [burst1] ∧ burst1.h + 64 ≤ s.tick) := by decide +kernel

set_option maxRecDepth 20000 in
/-- The whole request of that burst verifies, and passes its header check. -/
theorem test_hyps_burstSegments_whole :
    bursty.olp.bursts.filter (fun c => !segOf seg1 c) = [] ∧
    verify bursty.toBody (reqHdr opSTORE bigM0) bigM.enc bigM.pid 0 bigM.check (List.replicate 4224 0) =
      some (List.replicate 4224 0, false) ∧
    headerCheck { bursty.toBody with olp := { bursty.olp with bursts := [] } } opSTORE
      { bigM with rsvd := bigM.rsvd + (burst1.rsvd + seg1.rsvd) } (bigM.payload ++ slice seg1.bytes 0 seg1.seglen) = .pass :=
  ⟨by decide +kernel, verify_clear bursty.toBody (reqHdr opSTORE bigM0) (List.replicate 4224 0) 1 0,
    (by decide +kernel : headerCheck { bursty.toBody with olp := { bursty.olp with bursts := [] } } opSTORE bigM
      (bigM.payload ++ slice seg1.bytes 0 seg1.seglen) = .pass)⟩

/-- A splice of two loads, from a switch. -/
def loadMem (cid tag : Nat) : SpliceMember :=
  let m := { req opLOAD 5 [] with cid := cid, tag := tag }
  { cid := cid, tag := tag, issue := 0, check := BitVec.ofNat 64 (crc64 (reqHdr opLOAD m)), rsvd := 0 }

def spliceM : SpliceMsg :=
  let x : SpliceMsg := { hdr := { req opLOAD 5 [] with cid := 0, tag := 0, len := 5 }, op := opLOAD, combined := false, mlen := 0,
                         rsvdBlk := 0, members := [loadMem 5 1, loadMem 5 2] }
  { x with hdr := { x.hdr with check := BitVec.ofNat 64 (crc64 (reqHdr opSPLICED x.hdr ++ spliceBody x)) } }

/-- The configured package with a switch on port 0, which may send splices. -/
def switched : State := (cfgd.set R.LNK_STATUS.ROLE 2 0).set R.FAB_CTRL.SPLICE_IN 1

theorem test_hyps_splices :
    (portTakes switched.toBody spliceM.hdr.link = true ∧
      crc64 (reqHdr opSPLICED spliceM.hdr ++ spliceBody spliceM) = spliceM.hdr.check.toNat ∧
      sourceOk switched.toBody spliceM.hdr.link spliceM.hdr.cid = true ∧ roleAllows switched.toBody spliceM.hdr.link opSPLICED = true) ∧
    (switched.set R.FAB_CTRL.SPLICE_IN 0).get R.FAB_CTRL.SPLICE_IN = 0 ∧
    (let m := memberMsg spliceM 0 (loadMem 5 1)
     spliceBar switched.toBody spliceM = none ∧ spliceM.combined = false ∧
      verified switched.toBody spliceM.op m = some ([], false) ∧ sourceOk switched.toBody m.link m.cid = true ∧
      roleAllows switched.toBody m.link spliceM.op = true ∧
      checks4to8 switched.toBody spliceM.op { m with rsvd := m.rsvd + spliceRsvd spliceM (loadMem 5 1) } [] (spliceFault spliceM) =
        .pass) := by decide +kernel

/-- A splice of two members counts both, and both wait (R95, R96). -/
theorem test_splice_members : (after (exec (.spliced spliceM) switched)).olp.reqs.length = 2 := by decide +kernel

/-- Line 1, held exclusively by client 5, and a round that asks for it. -/
def held : DirEntry := { line := 1, st := .x, space := true, raddr := 128, pid := 1, ptrs := [(5, 0)] }
def ask5 : SnoopOut := { cid := 5, link := 0, tags := [(3, 0)], sentAt := 0 }
def round1 : Round := { id := 1, line := 1, purpose := .backinv, waiting := [ask5], cls := false, started := 0 }

def snooping : State := cfgd.upd (fun b => setEntry { b with dir := { b.dir with rounds := [round1], nextRound := 2 } } 1 (some held))

def respM (op cid : Nat) : RespMsg :=
  let m : RespMsg := { link := 0, op := op, enc := false, tag := 3, pid := 1, hid := 0, cid := cid, len := 0, cls := false,
                       mapgen := 0, issue := 0, arg := 0, serve := 0, hint := 0, rsvd := 0, sub := 0, status := 0, check := 0,
                       payload := [] }
  { m with check := BitVec.ofNat 64 (crc64 (respHdr op m.enc m.tag m.pid m.hid m.cid m.len m.cls m.serve m.hint m.rsvd m.sub
    m.status m.mapgen m.issue m.arg)) }

theorem test_hyps_snoopRounds :
    (let m := respM opSNOOPRESP 5
     let s := snooping
     let mine := fun (o : SnoopOut) => o.cid == m.cid && o.link == m.link && o.tags.contains (m.tag, m.issue)
     verify s.toBody (respWords { m with op := opSNOOPRESP }) m.enc m.pid (nonce (fullIssue s.now m.issue) m.cid false true m.tag)
        m.check m.payload = some ([], false) ∧
      sourceOk s.toBody m.link m.cid = true ∧ cidFenced s.toBody m.cid = false ∧ snoopRespOk { m with payload := [] } = true ∧
      s.dir.rounds.find? (fun r => r.waiting.any mine) = some round1 ∧ round1.waiting.find? mine = some ask5) ∧
    (let m := { respM opSNOOPRESP 5 with check := (respM opSNOOPRESP 5).check + 1 }
     verify snooping.toBody (respWords { m with op := opSNOOPRESP }) m.enc m.pid
       (nonce (fullIssue snooping.now m.issue) m.cid false true m.tag) m.check m.payload = none) ∧
    cidFenced (snooping.upd (fun b => { b with fences := [{ isHid := false, id := 5, knot := 0, swept := false }] })).toBody 5 = true ∧
    (let s := snooping.upd (fun b => { b with dir := { b.dir with rounds := [{ round1 with waiting := [] }] } })
     s.dir.rounds.any (fun r => r.id == 1 && r.waiting.isEmpty) = true) ∧
    snooping.dir.rounds.any (fun r => r.id == 1 && r.waiting.isEmpty) = false ∧
    (let s := atTick 1024 (snooping.set R.DIR_CTRL.RESEND 16)
     s.dir.rounds.find? (fun q => q.id == round1.id) = some round1 ∧ round1.waiting.find? (fun q => q.cid == ask5.cid) = some ask5 ∧
      entryOf s.toBody round1.line = some held ∧ ask5.tags ≠ [] ∧
      ask5.sentAt + max 1 (s.get R.DIR_CTRL.RESEND) * 64 ≤ s.tick ∧ (snoopTags s.toBody ask5.link).length < 4096) := by
  decide +kernel

/-- A peer request outstanding on port 0, and a read of a line on its way to the sled of position 9. -/
def out1 : PeerOut :=
  { link := 0, tag := 3, hid := 0, op := opLOAD, addr := 0, arg := 0, pid := 1, payload := [], want := 0, knot := 0, purpose := .vote }

def asked1 : SledOut := { id := 1, pos := 9, port := 0, op := opLOAD, m := { req opLOAD 5 [] with tag := 3 }, sent := true }

def asking : State := cfgd.upd (fun b => { b with sto := { b.sto with asked := [asked1] } })

theorem test_hyps_peerAndSledAnswers :
    (let s := cfgd.upd (fun b => { b with peers := [out1] })
     let m := respM opLOAD 5
     peerMatch s.toBody m = some out1 ∧ peerMatch s.toBody { m with tag := 4 } = none ∧ m.hid = out1.hid ∧ m.pid = out1.pid ∧
      m.status ≠ stFENCED ∧
      verify s.toBody (respWords m) m.enc m.pid (nonce out1.knot m.cid true true m.tag) m.check m.payload = some ([], false) ∧
      peerPayOk (oldKey s.toBody false) out1 m.status 0 = true) ∧
    (let s := (cfgd.set R.KNT_COUNT.COUNT 4096).upd (fun b => { b with peers := [out1] })
     s.peers.find? (fun p => !p.waits && p.link == 0 && p.tag == 3) = some out1 ∧ out1.knot + 4096 ≤ s.now ∧ out1.purpose = .vote ∧
      (cfgd.set R.KNT_COUNT.COUNT 4095).now < out1.knot + 4096) ∧
    (let m := respM opLOAD 5
     asking.sto.asked.find? (fun o => o.sent && o.m.link == m.link && o.m.tag == m.tag && o.m.issue == m.issue && o.op == m.op) =
        some asked1 ∧
      m.enc = false ∧ crc64 (respWords m ++ m.payload) = m.check.toNat ∧ m.status = stOK) ∧
    cfgd.sto.asked = [] := by decide +kernel

/-- A request of 128 bytes at line 1 that is at its place. -/
def placed (op : Nat) (m : ReqMsg) : Req :=
  { id := 1, op := op, m := m, issueK := 0, checked := 0, order := 1, prevKey := false, stage := .ready, segs := some [(128, 128, 128)] }

theorem test_hyps_requestEffects :
    (let r := placed opSTORE (req opSTORE 5 (List.replicate 128 7))
     r.segs = some [(128, 128, 128)] ∧ 0 < 128 ∧ 128 % 65536 + 128 ≤ 65536 ∧ (linesOf 128 128).any (lineLost cfgd.toBody) = false ∧
      r.keep = [] ∧ r.m.payload.length = 128 ∧ regionOfLoc cfgd.toBody 128 = some region0 ∧
      isCompanion cfgd.toBody region0 = false) ∧
    entryOf cfgd.toBody (128 / 128) = none ∧ opSWAP ∈ [opCAS, opSWAP, opMIN, opMAX, opAND, opOR, opXOR] ∧
    groupDone cfgd.toBody 0 128 0 0 = none := by decide +kernel

/-- A CAS that finds its value swaps it, and one that does not leaves it (R76). -/
theorem test_cas_result :
    atomResult opCAS 0 5 5 9 = 9 ∧ atomResult opCAS 0 5 6 9 = 5 ∧ atomResult opMIN 2 0xFFFFFFFF 0 0 = 0 ∧
    atomResult opMIN 0 0xFFFFFFFF 0 0 = 0xFFFFFFFF ∧ atomResult opMAX 0 0xFFFFFFFF 0 0 = 0 := by decide +kernel

/-- Exact addition rounds once: 1 + 2^-25 + 2^-25 in FP32 is 1 + 2^-24 rounded to even, 1 (R76). -/
theorem test_exact_add_rounds_once :
    addRound 4 0 0x3F800000 [.val 0x33000000, .val 0x33000000] = 0x3F800000 ∧
    addRound 4 0 0x3F800000 [.val 0x33000000, .val 0x33000000, .val 0x33000000] = 0x3F800001 ∧
    addRound 0 0 0xFFFFFFFF [.val 1, .val 1] = 1 := by decide +kernel

theorem test_hyps_exactAdds : (0 : Nat) < 4 ∧ 2 ^ 63 + (2 ^ 63 - 1) < 2 ^ 64 := by decide

/-! ### Translation and the directory -/

theorem test_hyps_cacheInvalidations :
    (cfgd.pwr.off = false ∧ regOpen cfgd (R.XLT_INV_CMD.SCOPE.at 0) = true ∧ cfgd.get R.XLT_INV_STATUS.BUSY = 0) ∧
    (cfgd.set R.XLT_INV_STATUS.BUSY 1).get R.XLT_INV_STATUS.BUSY ≠ 0 ∧
    (let v : InvScope := { scope := 3, pid := 0, size := 0, count := 0, cva := 0 }
     let s := cfgd.upd (fun b => { b with xlt := { b.xlt with inv := some (v, 0) } })
     s.xlt.inv = some (v, s.now) ∧ 0 ≤ s.now ∧ invHolds s.toBody v 0 = false) ∧
    (let v : InvScope := { scope := 3, pid := 0, size := 0, count := 0, cva := 0 }
     let s := cfgd.upd (fun b => { b with xlt := { b.xlt with inv := some (v, 1) } })
     s.xlt.inv = some (v, 1) ∧ s.now < 1) := by decide +kernel

/-- A three-level table of partition 1 at SGA 0, whose leaf maps 1 GiB at CVA 0 to SGA 0, read, write and CLEAT. -/
def mapped : State :=
  (cfgd.set R.XLT_PART_ROOT.V 1 0 1).upd (fun b => { b with near := [(0, 0x01), (1, 0x10), (4096, 0x01), (4097, 0x20), (8192, 0xA7)] })

/-- That leaf. -/
def leaf0 : Leaf := { sga := 0, perm := 3, size := 2, cleat := true }

/-- The walk of page 0, as far as it has come, and a request that waits for it. -/
def walking (res : Option WalkRes) : State :=
  mapped.upd (fun b => { b with xlt := { b.xlt with
    walks := [{ pid := 1, page := 0, running := true, started := 0, knot := 0, issue := 0, cid := 5, res := res }] } })

def walkReq : Req :=
  { id := 1, op := opLOAD, m := { loadM with space := false }, issueK := 0, checked := 0, order := 1, prevKey := false, stage := .walk }

/-- A walk of three levels reads three entries and finds its leaf (R107); one without a root meets cause 4, level 0 (R109). -/
theorem test_walk_reads :
    walkPage mapped.toBody true [] 1 0 = .leaf leaf0 3 ∧
    walkPage (mapped.set R.XLT_PART_ROOT.V 0 0 1).toBody true [] 1 0 = .err (xFault 4) 0 ∧
    walkPage (setEntry mapped.toBody 0 (some { held with line := 0 })) true [] 1 0 = .need 0 := by decide +kernel

theorem test_hyps_pageWalks :
    (cfgd.xlt.walks = [] ∧
      (walking none).xlt.walks.find? (fun w => w.pid == 1 && w.page == 0) =
        some { pid := 1, page := 0, running := true, started := 0, knot := 0, issue := 0, cid := 5, res := none } ∧
      ((walking (some (.leaf leaf0 3))).xlt.walks.map (fun w => w.res)) = [some (.leaf leaf0 3)] ∧
      ((walking (some (.err (xFault 4) 0))).xlt.walks.map (fun w => w.res)) = [some (.err (xFault 4) 0)]) ∧
    (partDef mapped.toBody 1 = some part1 ∧ mapped.xlt.tlb = [] ∧ 0 < part1.xltShare * 64) ∧
    (let s := mapped.upd (fun b => { b with olp := { b.olp with reqs := [walkReq] } })
     s.olp.reqs.filter (fun r => r.stage == .walk && r.m.pid == 1) = [walkReq] ∧ walkReq.op < opSEIZEPREPARE ∧
      walkReq.m.space = false ∧
      (cutPages walkReq.m.addr (reqLen walkReq.op walkReq.m) 18).find? (fun p => (tlbFind s.toBody 1 p.1).isNone) = some (128, 128)) ∧
    (regOpen mapped (R.XLT_PART_HOT.EN.at 0) = true ∧ pidOk mapped.toBody 1 = true ∧ 2 ^ 47 < 2 ^ R.XLT_PART_HOT.RING.w ∧
      31 < 2 ^ R.XLT_PART_HOT.SIZE_LOG.w) ∧
    (mapped.xlt.decayed ≠ mapped.now + 1 ∧
      (mapped.upd (fun b => { b with xlt := { b.xlt with decayed := 1 } })).xlt.decayed = mapped.now + 1) := by decide +kernel

/-- The leaf is loaded, pinned for its CLEAT (R112), and the walk is over. -/
theorem test_walk_loads :
    (let s := after (exec (.walkComplete 1 0) (walking (some (.leaf leaf0 3))))
     s.xlt.tlb.map (fun e => (e.page, e.size, e.pinned)) = [(0, 2, true)] ∧ s.xlt.walks = []) := by decide +kernel

/-- Fifteen entries of set 1, of which line 1 was used least recently. -/
def crowded (e : DirEntry) : State :=
  ((cfgd.set R.DIR_CTRL.BG_EVICT 1).set R.DIR_CTRL.FREE_WAYS 3).upd (fun b => { b with dir := { b.dir with
    entries := (1, some e) :: ((List.range 14).map (fun k => let l := (k + 1) * 2 ^ 22 + (((k + 1) * 64) ^^^ 1)
      (l, some { e with line := l, used := k + 1 }))) } })

theorem test_hyps_directoryUpkeep :
    (cfgd.set R.DIR_CTRL.BG_EVICT 0).get R.DIR_CTRL.BG_EVICT = 0 ∧
    (let e := { held with ptrs := [] }
     let s := crowded e
     s.get R.DIR_CTRL.BG_EVICT = 1 ∧
      16 < ((waysOf s.toBody 1).filter (fun e => match roundOn s.toBody e.line with
        | some r => r.purpose != .backinv | none => true)).length + s.get R.DIR_CTRL.FREE_WAYS ∧
      roundTargets s.toBody e none = []) ∧
    (let s := crowded held
     let b := ((waysOf s.toBody 1).map (fun e => e.line)).foldl reclaim s.toBody
     let kept := (waysOf b 1).filter (fun e => match roundOn b e.line with | some r => r.purpose != .backinv | none => true)
     b.get R.DIR_CTRL.BG_EVICT = 1 ∧ 16 < kept.length + b.get R.DIR_CTRL.FREE_WAYS ∧
      lruEntry (kept.filter (fun e => e.st != .l && (roundOn b e.line).isNone)) = some held ∧
      roundTargets b held none ≠ [] ∧ held.reissue = none) ∧
    (let w : Sweep := { next := 2 ^ 22 - 1, started := 0 }
     w.next < 2 ^ 22) ∧
    (let w : Sweep := { next := 2 ^ 22, started := 0 }
     let s := (cfgd.upd (fun b => { b with dir := { b.dir with sweep := some w } })).upd (fun b => { b with
       fences := [{ isHid := false, id := 5, knot := 0, swept := false }, { isHid := false, id := 6, knot := 1, swept := false }] })
     s.dir.sweep = some w ∧ 2 ^ 22 ≤ w.next ∧ s.fences.map (fun f => decide (f.knot ≤ w.started)) = [true, false]) ∧
    (lineLost (setEntry cfgd.toBody 1 (some { held with st := .l })) 1 = true ∧ lineLost cfgd.toBody 1 = false) := by
  decide +kernel

/-! ### Orders -/

theorem test_hyps_orders :
    (∃ a, orderRow cfgd.toBody (.retrain 47) = some (true, [R.LNK_CTRL.RETRAIN.at 47], a)) ∧
    regOpen cfgd (R.LNK_CTRL.RETRAIN.at 47) = true ∧ regOpen cfgd (R.PRT_HITCH_CMD.OP.at 0) = true ∧
    regOpen cfgd (R.PRT_GRANT_CMD.OP.at 0) = true ∧ regOpen up (R.PRT_HITCH_CMD.OP.at 0) = false ∧
    (cfgd.set R.PRT_CMD_STATUS.BUSY 1).get R.PRT_CMD_STATUS.BUSY ≠ 0 ∧
    regOpen cfgd (R.DIR_LOOK_LINE.LINE.at 0) = true ∧ regOpen (cfgd.set R.MGT_READY.TXN 1) (R.TXN_SEL.OCID.at 0) = true ∧
    (regOpen cfgd (R.QUE_CTRL.ENABLE.at 0) = true ∧ partDef cfgd.toBody 1 = some part1 ∧ 3 < part1.nq) ∧
    regOpen cfgd (R.STO_SHADOW.MODE.at 0) = true ∧
    (regOpen { cfgd.set R.MGT_READY.SEC 1 with sec := { cfgd.sec with lcs := 1 } } (R.SEC_DBG_ADDR.UNIT.at 0) = true ∧
      dbgAddrOpen { cfgd.set R.MGT_READY.SEC 1 with sec := { cfgd.sec with lcs := 1 } } = true) := by
  refine ⟨⟨_, rfl⟩, ?_⟩
  decide +kernel

theorem test_hyps_ordersTakeEffect :
    63 < 64 ∧
    (tableLoc cfgd.toBody (255 * 4096) = some (255 * 4096) ∧ tableLoc cfgd.toBody (256 * 4096) = none) ∧
    (cfgd.get R.QUE_STATUS.STATE 0 (64 + 3) = 0 ∧ (queCore cfgd.toBody (64 + 3)).isSome = true) ∧
    (cfgd.set R.QUE_STATUS.STATE 3 0 (64 + 3)).get R.QUE_STATUS.STATE 0 (64 + 3) = 3 ∧
    (partDef cfgd.toBody 2 = none ∧ (partDef cfgd.toBody 1).isSome = true ∧ (hitchOf cfgd.toBody 5 1).isSome = true ∧
      hitchOf cfgd.toBody 6 1 = none ∧ cfgd.prt.hitches.length < 16384) ∧
    (∃ h e, hitchOf cfgd.toBody 5 1 = some h ∧ h.state = 1 ∧ e.fenced = false ∧
      (cfgd.part 1).cur.exts.find? (fun e => e.idx == 0) = some e ∧ grantOf cfgd.toBody 5 1 0 = none ∧
      cfgd.prt.grants.length < 65536) := by
  refine ⟨by decide, by decide +kernel, by decide +kernel, by decide +kernel, by decide +kernel, _, _, rfl, ?_, ?_, rfl, ?_, ?_⟩ <;>
    decide +kernel

/-- A window in force keeps its own base, and the others theirs (R106). -/
theorem test_rebase :
    (let t := actNow cfgd.toBody (.rebase 1 63 { v := true, wr := true, base := 5, size := 7 })
     winOf t 1 63 = { v := true, wr := true, base := 5, size := 7 } ∧ winSize t 1 63 = 7 * 65536 ∧ winOf t 1 62 = {} ∧
      t.get R.XLT_WIN_BASE.GEN 63 1 = 1) := by decide +kernel

/-! ### Step cores, semaphores and work queues -/

/-- A command of partition 1's queue 3, with this W0, in phase `ph`. -/
def command (w0 : Nat) (ph : CtxPhase := .running) : Ctx :=
  { phase := ph, pid := 1, queue := 3, desc := leBytes 8 w0 ++ List.replicate 56 0, ops := List.replicate 24 0 }

/-- The configured package at knot 2, with the command in context `x` of core 0. -/
def holding (x : Nat) (v : Ctx) : State := (cfgd.set R.KNT_COUNT.COUNT 2).upd (fun b => b.setCtx 0 x v)

theorem test_hyps_semaphoreForces :
    (cfgd.pwr.off = false ∧ regOpen cfgd (R.STP_SEM_FORCE.OP.at 0) = true ∧ (semDef cfgd.toBody 0 4095).isSome = true ∧
      regOpen cfgd (R.SEM.VALUE.at 4095) = true ∧ semDef cfgd.toBody 0 4096 = none) ∧
    (let b := cfgd.toBody.setCore 0 { cfgd.core 0 with forces := [(4095, true, 2 ^ 32 - 1), (7, false, 9)] }
     (∀ f ∈ (b.core 0).forces, f.1 < 4096) ∧ (b.core 0).forces.filter (fun f => f.1 == 4095 && !f.2.1) = [] ∧
      (b.core 0).forces.filter (fun f => f.1 == 4095 && f.2.1) ≠ [] ∧ (b.core 0).forces.filter (fun f => f.1 == 7 && !f.2.1) ≠ []) ∧
    ((cfgd.toBody.setCore 0 { cfgd.core 0 with forces := [(4095, true, 2 ^ 32 - 1)] }).core 0).forces = [(4095, true, 2 ^ 32 - 1)] := by
  decide +kernel

/-- A forced ADD of 2^32 - 1 to 3 leaves 2: the sum wraps (R169, R178). -/
theorem test_force_wraps :
    semVal (forcesApply ((setSem cfgd.toBody 0 4095 3).setCore 0 { (cfgd.core 0) with forces := [(4095, true, 2 ^ 32 - 1)] }) 0) 0 4095 =
      2 := by decide +kernel

/-- A command whose WAIT0 is this sync word. -/
def waiting (op sem operand : Nat) : Ctx :=
  { phase := .waiting, pid := 1, queue := 3, desc := List.replicate 8 0 ++ leBytes 8 (op * 2 ^ 60 + sem * 2 ^ 32 + operand) ++
    List.replicate 48 0, ops := List.replicate 24 0 }

theorem test_hyps_waitsAndSignals :
    (let b := (holding 0 (waiting 1 4095 5)).toBody
     openWaits b 0 = [(0, 0, 0)] ∧ (∀ w ∈ openWaits b 0, ((b.ctx 0 w.2.1).wait w.2.2).op ≠ 2) ∧ serialGe (semVal b 0 4095) 5 = false ∧
      serialGe (semVal (setSem b 0 4095 5) 0 4095) 5 = true) ∧
    (let b := setSem (holding 0 (waiting 2 4095 5)).toBody 0 4095 5
     openWaits b 0 = [(0, 0, 0)] ∧ ((b.ctx 0 0).wait 0).op = 2 ∧ ((b.ctx 0 0).wait 0).sem < 4096 ∧
      serialGe (semVal b 0 4095) ((b.ctx 0 0).wait 0).operand = true) ∧
    (let b := ((holding 0 (waiting 2 4095 5)).upd (fun b => b.setCtx 0 1 { waiting 2 4095 1 with waitFrom := 1 })).toBody
     openWaits b 0 = [(0, 0, 0), (1, 1, 0)] ∧ ((b.ctx 0 1).wait 0).sem = ((b.ctx 0 0).wait 0).sem ∧ 0 < 1 ∧
      ((b.ctx 0 1).wait 0).op = 2 ∧ serialGe (semVal b 0 4095) ((b.ctx 0 0).wait 0).operand = false) ∧
    (let s := holding 18 (waiting 1 4095 5)
     s.pwr.off = false ∧ s.obs.syncs = [] ∧ (s.set R.STP_CTRL.WAIT_LIMIT 0 0).get R.STP_CTRL.WAIT_LIMIT 0 = 0 ∧
      (let t := s.set R.STP_CTRL.WAIT_LIMIT 2 0
       0 < t.get R.STP_CTRL.WAIT_LIMIT 0 ∧ (t.ctx 0 18).waits 0 = true ∧ (t.ctx 0 18).waits 1 = false ∧
        (t.ctx 0 18).long0 = false ∧ (t.ctx 0 18).waitFrom + t.get R.STP_CTRL.WAIT_LIMIT 0 ≤ t.now)) := by decide +kernel

/-- A WAIT_TAKE of 5 from 7 is satisfied and leaves 2 (R169). -/
theorem test_take :
    semVal (evalWaits (setSem (holding 0 (waiting 2 4095 5)).toBody 0 4095 7) 0) 0 4095 = 2 := by decide +kernel

/-- Queue 3 of partition 1 in RUN, with one descriptor to fetch, at FI 2^32 - 1. -/
def ringing : State :=
  ((((cfgd.set R.QUE_STATUS.STATE 1 0 67).set R.STP_CTRL.ENABLE 1 0).set R.QUE_IDX.FI (2 ^ 32 - 1) 0 67).set R.QUE_IDX.PI 0 0 67).set
    R.QUE_DRING.LOG2N 4 0 67

/-- What a run of a command's program for its next step comes to: what it wants, a plan, a step (its last, or not) with its
lines, or the end of the command. -/
def came (f : Ctx → Eng (Nat × Nat × Nat)) (s : Body) : Nat × List Nat :=
  match stepRun s 0 15 f with
  | .wants w => (0, w.miss ++ w.lines)
  | .plan _ => (1, [])
  | .step e o => (if o.isSome then 2 else 3, accLines s e.accs)
  | .over _ st sub res => (4, [st, sub, res])

/-- The same package with SGA addresses allowed to partition 1. -/
def sgaHolding (x : Nat) (v : Ctx) : State := (holding x v).set R.XLT_PART_ROOT.SGA_OK 1 0 1

/-- FILL of line 0 with the pattern FF. -/
def fillC : Ctx := { command 0x501 with ops := leBytes 8 (2 ^ 62) ++ leBytes 8 128 ++ leBytes 8 0xFF }

/-- COPY of line 1 to line 8. -/
def copyC : Ctx := { command 0x502 with ops := leBytes 8 (2 ^ 62 + 128) ++ leBytes 8 (2 ^ 62 + 1024) ++ leBytes 8 128 }

/-- GATHER of one row, of a table whose descriptor lies at SGA 0. -/
def gatherC : Ctx :=
  { command 0x1301 with ops := leBytes 8 0 ++ leBytes 8 (2 ^ 62) ++ leBytes 8 0 ++ leBytes 8 1 ++ List.replicate 56 0 }

theorem test_hyps_commandsAreTakenIn_fetch :
    (queFetches cfgd.toBody 0 67 = false ∧ queFetches ringing.toBody 0 67 = true ∧ ringing.get R.QUE_IDX.FI 0 67 < 2 ^ 32 ∧
      ringing.get R.QUE_IDX.PI 0 67 = (ringing.get R.QUE_IDX.FI 0 67 + 1) % 2 ^ 32 ∧ freeCtxs ringing.toBody 0 1 67 ≠ []) ∧
    ((ringing.upd (fun b => { b with que := { b.que with revoked := [67] } })).que.revoked.contains 67 = true ∧
      ringing.que.revoked.contains 67 = false) ∧
    (let b := ringing.toBody
     let a := ringSlot b 67 (2 ^ 32 - 1)
     (match ringRead (ringReclaim b a) a with | .bytes d => d.length | _ => 0) = 64 ∧
      (match ringRead (ringReclaim (setEntry b (a / 128) (some { held with line := a / 128 })) a) a with | .owned l => l | _ => 0) = 7 ∧
      (match ringRead (setEntry b (a / 128) (some { held with line := a / 128, st := .l })) a with | .bad st => st | _ => 0) =
        stLOSTLINE) := by decide +kernel

theorem test_hyps_commandsAreTakenIn_checks :
    (let v := command 0 .fetched
     let s := holding 15 v
     s.pwr.off = false ∧ s.obs.syncs = [] ∧ v.done = false ∧ v.desc = List.replicate 64 0 ∧ v.fresh = false ∧
      (match descBytes s.toBody 15 v with | some (.ok d) => d == v.desc | _ => false) = true ∧
      (descBytes s.toBody 15 { v with usable := 3 }).isNone = true) ∧
    (let v := { command 1 .fetched with desc := leBytes 8 0xFF ++ List.replicate 56 0 }
     (descCheck (holding 15 v).toBody 0 15).1 = some (stBADOPCODE, 1, 0)) ∧
    (let v := command 0x1000 .block
     let s := holding 15 v
     v.phase = .block ∧ ctxWaits s.toBody v = false ∧ v.usable < s.now ∧ v.ops ≠ [] ∧ v.farBad = false ∧ v.badLines = [] ∧
      ctxWaits s.toBody { v with peerWait := 1 } = true) := by decide +kernel

theorem test_hyps_commandsAreTakenIn_release :
    (let s := holding 15 (command 0 .waiting)
     (s.ctx 0 15).tried ≠ s.now + 1 ∧ (s.ctx 0 15).phase = .waiting ∧ quiet s.toBody = false ∧ coreReady s.toBody 0 = true ∧
      engineReady s.toBody (s.ctx 0 15).engine = true ∧ ctxWaits s.toBody (s.ctx 0 15) = false ∧ (progOf (s.ctx 0 15)).isNone = true ∧
      (s.ctx 0 15).engine = 0 ∧ (command 0).phase ≠ .waiting ∧ quiet (s.set R.PWR_STATUS.STATE 2).toBody = true) ∧
    (let v := { fillC with phase := .waiting }
     let s := ((sgaHolding 15 v).set R.MGT_READY.POOL 1)
     (progOf v).isSome = true ∧ v.done = false ∧ v.engine ≠ 1 ∧ engineReady s.toBody v.engine = true ∧
      came poolRun (mtxRelease (s.toBody.setCtx 0 15 { v with phase := .running, release := s.now }) 0 15) = (2, [0])) ∧
    (let v := { gatherC with phase := .waiting }
     let s := sgaHolding 15 v
     came embRun (mtxRelease (s.toBody.setCtx 0 15 { v with phase := .running, release := s.now }) 0 15) = (0, [0])) ∧
    (let v := { command 0 with missing := [1] }
     let s := holding 15 v
     s.ctx 0 15 = v ∧ v.missing = [1] ∧ ctxWaits s.toBody { v with missing := [] } = false ∧ v.since < s.now ∧ v.badKeys = [] ∧ v.badLines = [] ∧
      sgaHere s.toBody (1 * 128) = some 128 ∧ entryOf s.toBody (128 / 128) = none ∧ unreadable s.toBody (128 / 128) = false ∧
      pieceWants s.toBody v.remote v.got (0, 1 * 128, 128) {} = {}) := by decide +kernel

/-- A fetch wraps FI (R181, R189). -/
theorem test_fetch_wraps : (after (exec (.descriptorFetch 0 1 3) ringing)).get R.QUE_IDX.FI 0 67 = 0 := by decide +kernel

theorem test_hyps_commandsEnd :
    (∃ v, Due (holding 15 (command 0)).toBody 0 15 0 0 v) ∧
    (∃ v, Due (holding 15 (command 1)).toBody 0 15 0 1 v ∧ v.inv = none) ∧
    (let v := { command 0 with done := true, planned := some 0 }
     let s := (holding 15 v).set R.QUE_STATUS.STATE 1 0 67
     s.ctx 0 15 = v ∧ v.phase = .running ∧ v.engine = 0 ∧ v.opcode = 0 ∧ v.status = stOK ∧ v.sub = 0 ∧ v.issued = false ∧
      v.rounds = [] ∧ v.peerWait = 0 ∧ v.peerAt ≠ s.now + 1 ∧ v.tried ≠ s.now + 1 ∧ v.farOps = [] ∧ v.hook = .none ∧ v.snaps = [] ∧
      v.refs = [] ∧ v.plans = [] ∧ v.arrivals = [] ∧ v.unreleased = false ∧ s.obs.syncs = [] ∧ s.que.kicks = [] ∧
      v.cls = false ∧ (v.sig 0).op = 0 ∧ (v.sig 1).op = 0 ∧ s.que.revoked.contains 67 = false ∧ ctxDone cfgd.toBody (cfgd.ctx 0 15) = false ∧
      sgaHere s.toBody (crSga s.toBody v) = some 0 ∧ entryOf s.toBody 0 = none ∧ unreadable s.toBody 0 = false ∧
      lockBlocks s.toBody 0 true = false ∧ farHeld s.toBody true 0 = false ∧ keyless s.toBody (crSga s.toBody v) = false ∧
      tierOf s.toBody 0 = 3 ∧ regionOfLoc s.toBody 0 = some region0 ∧ ecGroup s.toBody region0.id = none) ∧
    (let v := { command 1 with inv := some (invOf (command 1), 3) }
     ((holding 14 v).core 0).ctxs.any (fun w => w.1 != 15 && w.2.pid == 1 && w.2.inv.isSome) = true) := by
  refine ⟨⟨_, rfl, ?_⟩, ⟨_, ⟨rfl, ?_⟩, ?_⟩, ?_⟩ <;> decide +kernel

/-- A NOP that is done writes its record of completion: DONE goes to 1 and the context is free (R194). -/
theorem test_nop_completes :
    (let v := { command 0 with done := true, planned := some 0 }
     let t := after (exec (.commandComplete 0 15) ((holding 15 v).set R.QUE_STATUS.STATE 1 0 67))
     t.get R.QUE_DONE.DONE 0 67 = 1 ∧ (t.ctx 0 15).phase = .idle) := by decide +kernel

theorem test_hyps_queuesInOff :
    (partDef cfgd.toBody 1 = some part1 ∧ 3 < part1.nq ∧ regOpen cfgd (R.QUE_IDX.PI.at 0) = true ∧
      cfgd.get R.QUE_STATUS.STATE 0 67 = 0 ∧ regOpen cfgd (R.QUE_DRING.BASE.at 0) = true ∧
      16 * 4096 % (64 * 2 ^ 10) = 0 ∧ (queCore cfgd.toBody 67).isSome = true ∧ ringPlaced cfgd.toBody 1 (16 * 4096) (64 * 2 ^ 10) = true ∧
      cfgd.get R.QUE_CRING.BASE 0 67 = 0 ∧
      regOpen cfgd (R.QUE_CRING.BASE.at 0) = true ∧ ringPlaced cfgd.toBody 1 (256 * 4096) (64 * 2 ^ 4) = false) ∧
    (let s := (cfgd.set R.QUE_DRING.LOG2N 4 0 67).set R.QUE_CRING.BASE 1 0 67
     4 ≤ s.get R.QUE_DRING.LOG2N 0 67 ∧ (5 * 4096 % (32 * 2 ^ 4) = 0 ∧ ringPlaced s.toBody 1 (5 * 4096) (32 * 2 ^ 4) = true) ∧
      s.get R.QUE_CRING.BASE 0 67 ≠ 0 ∧ 1 * 4096 % (32 * 2 ^ 16) ≠ 0 ∧ 1 * 4096 % (32 * 2 ^ 7) = 0 ∧
      (16 + 2 ^ 32 - 0) % 2 ^ 32 ≤ 2 ^ s.get R.QUE_DRING.LOG2N 0 67 ∧ 2 ^ s.get R.QUE_DRING.LOG2N 0 67 < (17 + 2 ^ 32 - 0) % 2 ^ 32) ∧
    (let s := cfgd.set R.QUE_STATUS.STATE 2 0 67
     s.get R.QUE_STATUS.STATE 0 67 = 2 ∧ queCtxs s.toBody 67 = []) ∧
    queCtxs (holding 15 (command 0)).toBody 67 ≠ [] := by decide +kernel

/-- A longer drive ring is not taken where the completion ring would no longer be aligned (R181). -/
theorem test_ring_alignment :
    (let s := (cfgd.set R.QUE_DRING.LOG2N 4 0 67).set R.QUE_CRING.BASE 1 0 67
     (after (exec (.ringPlace 1 3 false 16 8) s)).get R.QUE_DRING.LOG2N 0 67 = 4 ∧
      (after (exec (.ringPlace 1 3 false 16 7) s)).get R.QUE_DRING.LOG2N 0 67 = 7) := by decide +kernel

/-! ### Engines -/

/-- The same package, its region coded; CHECK of its first block, which is EMPTY. -/
def coded (v : Ctx) : State :=
  (sgaHolding 15 v).upd (fun b => { b with cfg := { b.cfg with img := some { image1 with
    regions := [{ region0 with coded := true, gLog := 16 }] } } })

def checkC : Ctx := { command 0x103 with ops := leBytes 8 (2 ^ 62) ++ leBytes 8 0 ++ leBytes 8 1 }

theorem test_hyps_engineCommandsArePlanned :
    (engineRow (.fill 0 15)).map (fun r => (r.1, r.2.1, r.2.2.1, r.2.2.2.1)) = some (0, 15, 5, 1) ∧
    (engDue cfgd.toBody 0 15 5 1 = false ∧ engDue (sgaHolding 15 fillC).toBody 0 15 5 1 = true ∧ fillC.steps = 0 ∧
      fillC.farBad = false ∧ { fillC with farBad := true }.farBad = true ∧ mergeBusy cfgd.toBody 0 15 = false) ∧
    (let v := { command 0x404 with steps := 1, gate := some (0, 2) }
     let s := (holding 15 v).upd (fun b => b.setCtx 0 1 (command 0x401))
     v.steps ≠ 0 ∧ gateShut s.toBody v.gate = true) ∧
    came embRun (sgaHolding 15 gatherC).toBody = (0, [0]) ∧ came (codecDecode false) (coded checkC).toBody = (1, []) ∧
    came poolRun (sgaHolding 15 { fillC with ops := leBytes 8 (2 ^ 62 + 1) ++ leBytes 8 128 ++ leBytes 8 0xFF }).toBody = (4, [0x42, 3, 0]) ∧
    came poolRun (sgaHolding 15 fillC).toBody = (2, [0]) := by decide +kernel

/-- The four ways in which a step that has been cut may go: the channel is full, its bytes do not fit, a client holds its line,
and it is issued. -/
theorem test_hyps_engineCommandsArePlanned_step :
    (let b := (sgaHolding 15 fillC).toBody
     let u := b.setCore 0 { b.core 0 with used := [(5, 65536)] }
     chanTakes b 0 5 1 = true ∧ chanTakes u 0 5 1 = false ∧ stepFits b 1 false 128 = true ∧
      stepFits { b with olp := { b.olp with nearUsed := [(drawPid false 1, 5000000)] } } 1 false 128 = false ∧
      farFits b (drawPid false 1) 1 0 = true ∧ accHeld b [] = false ∧ reqFirst b 0 true = false ∧ lockBlocks b 0 true = false ∧
      (clearForWrite b [0]).1 = true ∧ (clearForWrite (setEntry b 0 (some { held with line := 0 })) [0]).1 = false) := by decide +kernel

/-- A step that writes 8 bytes at SGA 120, the last of line 0. -/
def putC : Ctx :=
  { command 0x501 with issued := true, accs := [{ step := 1, cva := none, sga := 120, len := 8, act := .put (List.replicate 8 7) }] }

theorem test_hyps_stepsCommit :
    (let b := (holding 15 putC).toBody
     let r := clearForWrite b (accLines b putC.accs)
     let u := (stepDone r.2 0 15 poolRun).1
     b.ctx 0 15 = putC ∧ putC.issued = true ∧ (command 0).issued = false ∧ r.1 = true ∧
      (accLines b putC.accs).any (fun l => lockBlocks b l true) = false ∧ writeBad r.2 120 8 = none ∧ sgaHere u 120 = some 120 ∧
      120 % 128 + (List.replicate 8 (7 : Byte)).length ≤ 128 ∧ entryOf u (120 / 128) = none ∧ tierOf u 120 = 3 ∧
      regionOfLoc u 120 = some region0 ∧ ecGroup u region0.id = none) ∧
    (let b := setEntry (holding 15 putC).toBody 0 (some { held with line := 0 })
     (clearForWrite b (accLines b putC.accs)).1 = false) ∧
    (let b := setEntry (holding 15 putC).toBody 0 (some { held with line := 0, st := .l })
     (clearForWrite b (accLines b putC.accs)).1 = true ∧ writeBad b 120 8 = some stLOSTLINE ∧
      came poolRun (clearForWrite b (accLines b putC.accs)).2 = (4, [0x42, 3, 0])) ∧
    (let v := { putC with ops := leBytes 8 (2 ^ 62 + 64) ++ leBytes 8 64 ++ leBytes 8 0xFF }
     let b := (sgaHolding 15 v).toBody
     let b := setEntry b 0 (some { held with line := 0, st := .l })
     (clearForWrite b (accLines b v.accs)).1 = true ∧ writeBad b 120 8 = some stLOSTLINE ∧
      came poolRun (clearForWrite b (accLines b v.accs)).2 = (4, [stLOSTLINE, 0, 0])) := by decide +kernel

/-- That step's bytes are in the home slice once it has committed (R161). -/
theorem test_step_commits : (commitStep poolRun (holding 15 putC).toBody 0 15).rd 120 8 = List.replicate 8 7 := by decide +kernel

/-- A command of engine `e`, opcode `op`, with these operand words. -/
def withOps (w0 : Nat) (ops : List Nat) : Ctx := { command w0 with ops := ops.flatMap (leBytes 8) }

def seizeC : Ctx := withOps 0x1510 [0, 2 ^ 62, 64]

def merge0 : MergeRec :=
  { hdr := 0, erel := 0, t0 := 0, next := 0, phase := 0, core := 0, pid := 1, main0 := 0, knot := 0, build := 0, compact := false,
    ctx := none }

theorem test_hyps_slotsMergesSeizings :
    (∃ v, Due (holding 15 (withOps 0x104 [0, 3, 0])).toBody 0 15 1 4 v ∧ v.op 1 % 4 = 3) ∧
    (∃ v, Due (holding 15 (withOps 0x105 [0, 3, 0])).toBody 0 15 1 5 v ∧ v.op 1 % 4 = 3) ∧
    (let s := (holding 15 (withOps 0x104 [0, 3, 0])).toBody
     (s.setSlot 1 3 { state := 2 }).slot 1 3 = { state := 2 } ∧ (s.slot 1 3).state = 0 ∧ (s.slot 1 3).refs = 0 ∧
      (s.setSlot 1 3 { state := 3, waiter := some (0, 15, true) }).slot 1 3 = { state := 3, waiter := some (0, 15, true) }) ∧
    (∃ v, Due (holding 15 (withOps 0x202 [0, 1, 0])).toBody 0 15 2 2 v ∧ v.opform = 0 ∧ v.op 0 = 0 ∧ v.op 1 = 1 ∧ v.op 2 = 0 ∧
      seqOwned cfgd.toBody v.pid 1 = true ∧ ((cfgd.upd (fun b => b.setSeq 1 { state := 1 })).seq 1) = { state := 1 }) ∧
    (let s := (cfgd.set R.MGT_READY.SRH 1).upd (fun b => { b with merges := [merge0] })
     s.merges = [merge0] ∧ merge0.ctx = none ∧ s.get R.MGT_READY.SRH = 1 ∧ (partDef s.toBody 1).isSome = true ∧
      ∃ k, chanOf s.toBody 4 0 = some k ∧ k.units ≠ 0 ∧ k.owner = 1) ∧
    (let s := ((sgaHolding 15 seizeC).set R.FAB_PEER_CID.VALID 1).upd (fun b => { b with near := [(6, 0x40)] })
     (∃ v, Due s.toBody 0 15 5 0x10 v) ∧ s.txn.origins.any (fun o => o.core == 0 && o.ctx == 15) = false ∧ peerReady s.toBody = true ∧
      (match (((seizeRead seizeC).run).run { s := s.toBody, core := 0, x := 15, pid := 1, kept := [] }).1 with
        | .ok secs => secs.length | .error _ => 0) = 1) := by
  refine ⟨⟨_, ⟨rfl, ?_⟩, ?_⟩, ⟨_, ⟨rfl, ?_⟩, ?_⟩, ?_, ⟨_, ⟨rfl, ?_⟩, ?_⟩, ⟨rfl, rfl, ?_, ?_, _, rfl, ?_⟩, ⟨_, rfl, ?_⟩, ?_⟩ <;>
    decide +kernel

/-- LOAD_TABLE into an empty slot whose image is not one ends ST_BAD_OPCODE and leaves it EMPTY (R230). -/
theorem test_load_table_bad :
    (let t := after (exec (.loadTable 0 15) (sgaHolding 15 (withOps 0x104 [2 ^ 62, 3, 0])))
     (t.slot 1 3).state = 0 ∧ (t.ctx 0 15).status = stBADOPCODE) := by decide +kernel

/-! ### The codec's blocks -/

/-- There are blocks of 64 KiB with different CRCs, and headers that are not canonical (R222, R233). -/
theorem test_hyps_rawBlocks :
    (∃ raw other : List Byte, raw.length = 65536 ∧ other.length = 65536 ∧ crc32c other ≠ crc32c raw) ∧ hdrOk [2] = false := by
  refine ⟨⟨List.replicate 65535 0 ++ [0], List.replicate 65535 0 ++ [1], ?_, ?_, crc32c_last _ _ _ (by decide)⟩, by decide +kernel⟩
  · rw [List.length_append, List.length_replicate]; rfl
  · rw [List.length_append, List.length_replicate]; rfl

/-! ### The store -/

/-- The region in a tier of the far store, its rows on sleds that are all IN. -/
def tiered (tier : Nat) : State :=
  ((List.range 16).foldl (fun (s : State) q => s.set R.STO_SLED.STATE 1 q) cfgd).upd (fun b => { b with cfg := { b.cfg with
    img := some { image1 with prots := [{ region := 0, tier := tier, swap := false, scheme := 1, member := 0, group := 0, rowBase := 0,
                                          nRows := 2, quota := 4 }] } } })

theorem tiered_tier (a : Nat) (h : a < 1048576) : tierOf (tiered 2).toBody a = 2 := by
  have hs : localSize (tiered 2).toBody region0 = 1048576 := by decide +kernel
  have hr : (tiered 2).toBody.img.regions = [region0] := by decide +kernel
  have hf : regionOfLoc (tiered 2).toBody a = some region0 := by
    unfold regionOfLoc
    rw [hr, List.find?_cons, hs]
    simp [region0, h]
  have hp : (protOf (tiered 2).toBody region0.id).map (·.tier) = some 2 := by decide +kernel
  unfold tierOf
  rw [hf]
  cases hq : protOf (tiered 2).toBody region0.id with
  | none => simp [hq] at hp
  | some p => simpa [hq] using hp

/-- Unit 15, the last of the region: to be promoted, to be demoted, or being flushed. -/
def moving (ms : List Migration) (res : List Resident) (fl : Option (Nat × List Nat)) : State :=
  (tiered 2).upd (fun b => { b with sto := { b.sto with migrations := ms, resident := res, flush := fl } })

theorem test_hyps_tiersKeepBytes :
    (∀ a, a / 65536 = 15 → tierOf (tiered 2).toBody a = 2) ∧
    (let s := moving [.promote 15 0] [] none
     s.pwr.off = false ∧ quiet s.toBody = false ∧ Memory.wf s.toBody = true ∧ tierOf s.toBody (15 * 65536) = 2 ∧
      framed s.toBody (15 * 65536) = false ∧ (List.range 512).all (fun i => farReadable s.toBody (15 * 65536 + i * 128)) = true) ∧
    (let s := moving [.writeback 15 true 0 false] [{ unit := 15, frame := 0, dirty := true }] none
     framed s.toBody (15 * 65536) = true) ∧
    (let s := moving [.writeback 15 false 0 false] [{ unit := 15, frame := 0, dirty := true }] (some (0, [15]))
     s.sto.flush = some (0, [15]) ∧ s.sto.resident = [{ unit := 15, frame := 0, dirty := true }]) := by
  refine ⟨fun a h => tiered_tier a (by omega), ?_, ?_, ?_⟩ <;> decide +kernel

theorem test_hyps_storeUpkeep :
    (let s := cfgd.set R.STO_NEAR.STACK_UP 255
     s.pwr.off = false ∧ bitAt (s.get R.STO_NEAR.STACK_UP) 7 = true ∧ s.get R.STO_NEAR.STACK_UP < 256) ∧
    cfgd.img.regions.find? (fun r => r.id == 0) = some region0 ∧
    (cfgd.upd (fun b => { b with cfg := { b.cfg with zeroing := [0] } })).cfg.zeroing.contains 0 = true ∧
    (let s := (tiered 0).upd (fun b => { b with sto := { b.sto with refill := [0] } })
     s.sto.refill.contains 0 = true ∧ Memory.wf s.toBody = true) ∧
    (let s := cfgd.upd (fun b => { b with sto := { b.sto with accepting := some 0 } })
     s.sto.accepting = some 0 ∧ (protOf s.toBody 0).map (·.tier) = some 3) := by decide +kernel

/-- A package whose position 15 is in state `st`, its port UP. -/
def slotted (st : Nat) : State :=
  (((tiered 1).set R.STO_SLED.STATE st 15).set R.STO_SLED.PORT 15 15).set R.LNK_STATUS.STATE lsUP 47

def label15 : SledLabel := { ver := 1, hid := 0, pos := 15, spare := false, serial := 9, knot := 0, plan := 0 }

/-- Position 15 in rebuild, at the row `next` of two. -/
def rebuilding (next : Nat) : State :=
  (((slotted 4).set R.STO_REBUILD.ACTIVE 1).set R.MGT_READY.POOL 1).upd (fun b => { b with tick := 2000000, sto := { b.sto with
    rebuild := some { knot := 0, next := next, last := 1, pos := 15, port := 15, spare := false, serial := 9 } } })

theorem test_hyps_sledsAndRebuild :
    (let s := slotted 2
     s.pwr.off = false ∧ s.get R.STO_SLED.STATE 15 = 2 ∧ linkUp s.toBody (32 + s.get R.STO_SLED.PORT 15) = true ∧
      s.get R.LNK_HB.MISS (32 + s.get R.STO_SLED.PORT 15) = 0) ∧
    (let s := (slotted 2).upd (fun b => { b with tick := 2 ^ 40 })
     AMap.get 0 s.suspectAt 15 + max 1 (s.get R.STO_CTRL.FAIL_KNOTS) ≤ s.tick) ∧
    ((slotted 1).upd (fun b => { b with acts := [.posFail 15 1] })).acts = [.posFail 15 1] ∧
    (let s := slotted 1
     s.img.sp2 = false ∧ s.get R.STO_SLED.STATE 15 ≠ 3 ∧ s.sto.rebuild = none ∧ s.txn.recs = [] ∧ s.sto.ops = []) ∧
    (let s := slotted 0
     s.cfg.img.isSome = true ∧ s.get R.STO_SLED.STATE 15 = 0 ∧ rowTop s.toBody ≤ 2 ∧ labelOk s.toBody 15 false label15 = true) ∧
    (regOpen (slotted 3) (R.STO_CMD.OP.at 0) = true ∧ (slotted 3).sto.rebuildNamed = []) ∧
    (let x : Sled := { serial := 9, rows := 2, label := some label15 }
     let s := (slotted 3).upd (fun b => { b with sto := { b.sto with rebuildNamed := [15], sleds := [(15, x)] } })
     s.get R.STO_SLED.STATE 15 = 3 ∧ sledOn s.toBody 15 = some x ∧ linkUp s.toBody (32 + 15) = true ∧ sledPasses s.toBody 15 x = true) ∧
    (let s := rebuilding 1
     quiet s.toBody = false ∧ s.get R.STO_REBUILD.ACTIVE ≠ 0 ∧ s.sto.rebuildPaused = false ∧ s.get R.MGT_READY.POOL = 1 ∧
      bitAt (s.get R.MGT_READY.CORE) (s.get R.STO_REBUILD.CHAN) = true ∧
      s.sto.rebuildStart + max 1 (s.get R.STO_REBUILD.INTERVAL) ≤ s.tick ∧ rowNext s.toBody 1 = some 1 ∧ rowNext s.toBody 2 = none) ∧
    (rowNext (rebuilding 0).toBody 0 = some 0 ∧ (rowNext (rebuilding 0).toBody 1).isSome = true) ∧
    ((rebuilding 0).upd (fun b => { b with sto := { b.sto with rebuildPaused := true } })).sto.rebuildPaused = true := by
  decide +kernel

/-- A region of one line, in a tier of the far store. -/
def lineRegion : State :=
  cfgd.upd (fun b => { b with cfg := { b.cfg with img := some { image1 with
    regions := [{ region0 with gLog := 7, size := 128 }]
    prots := [{ region := 0, tier := 1, swap := false, scheme := 1, member := 0, group := 0, rowBase := 0, nRows := 1, quota := 0 }] } } })

/-- A trial entry at SGA 0 whose output is the 128 bytes at 4096, and its digest. -/
def trialDig : List Byte := digest2 128 [sha384 (List.replicate 128 0)]

def trial : State :=
  (((((sgaHolding 15 {}).set R.STO_SHADOW.STATE 3).set R.STO_SHADOW.NTRIAL 1).set R.STO_SHADOW.PID 1).set R.STO_SHADOW_TRIAL.ADDR (2 ^ 62)).upd
    (fun b => { (b.setCtx 0 17 { command 0 with done := true, planned := some 0, release := 1 }) with
      near := putBytes [] 64 (leBytes 8 (2 ^ 62 + 4096) ++ leBytes 8 128 ++ trialDig) })

theorem test_hyps_shadowing :
    (let s := (cfgd.set R.STO_SHADOW.STATE 1).upd (fun b => { b with sto := { b.sto with fillDone := true } })
     s.get R.STO_SHADOW.STATE = 1 ∧ s.sto.fillDone = true ∧ s.get R.STO_REBUILD.ACTIVE = 0) ∧
    (let s := ((cfgd.set R.STO_SHADOW.STATE 2).set R.STO_SHADOW.MODE 1).set R.STO_SHADOW.NTRIAL 0
     s.get R.STO_SHADOW.STATE = 2 ∧ s.get R.STO_SHADOW.MODE = 1 ∧ s.get R.STO_SHADOW.NTRIAL = 0) ∧
    (let s := (lineRegion.set R.STO_SHADOW.STATE 2).set R.STO_SHADOW.MODE 2
     let r := { region0 with gLog := 7, size := 128 }
     s.get R.STO_SHADOW.STATE = 2 ∧ s.get R.STO_SHADOW.MODE = 2 ∧ s.img.regions.find? (fun r => r.id == 0) = some r ∧
      fillsRegion s.toBody 2 r = true ∧ regionDigest s.toBody r ≠ []) ∧
    cfgd.get R.STO_SHADOW.STATE ≠ 3 ∧
    (let s := cfgd.set R.STO_SHADOW.STATE 3
     s.get R.STO_SHADOW.STATE = 3 ∧ (s.ctx (s.sto.trialNext % 16) 17).phase = .idle) ∧
    (trial.sto.trialNext % 16 = 0 ∧ (trial.ctx 0 17).phase = .running ∧ ctxDone trial.toBody (trial.ctx 0 17) = true ∧
      goodEnd (trial.ctx 0 17).status = true ∧
      (finishCtx trial.toBody 0 17).get R.STO_SHADOW.NTRIAL ≤ 0 + 1 ∧
      (match trialRead (finishCtx trial.toBody 0 17) 0 with
        | .ok b => slice b 80 48 == trialDig &&
          (match trialDigest (finishCtx trial.toBody 0 17) 0 b with | .ok d => d == trialDig | .error _ => false)
        | _ => false) = true) := by
  decide +kernel

/-! ### Seizings -/

/-- A seizing between this controller (HID 0) and HID 1, in which it has participant number `index`. -/
def seizing (index : Nat) : Seizing :=
  { ocid := 7, sid := 3, pid := 1, index := index, oneshot := false, parts := if index = 0 then [0, 1] else [1, 0],
    actions := [{ kind := 1, addr := 0, rnd := 0, ty := 0, data := List.replicate 8 1, loc := 120 }], locks := [(0, true)], preparedAt := 0 }

def seized (t : Seizing) : State :=
  ((cfgd.set R.KNT_COUNT.COUNT 2000000).set R.MGT_READY.TXN 1).upd (fun b => { b with txn := { b.txn with recs := [t] } })

theorem test_hyps_seizingRecords :
    (let t := { seizing 0 with writing := true }
     (seized t).pwr.off = false ∧ txnRec (seized t).toBody 7 3 = some t ∧ t.closedAt = none ∧ t.writing = true ∧ t.outcome = none ∧
      isCoord (seized t).toBody t = true ∧ ((seized t).set R.XLT_CTRL.HOT_THRESH 0).get R.XLT_CTRL.HOT_THRESH = 0) ∧
    (let t := { seizing 0 with deciding := true, outcome := some (0, 0) }
     txnRec (seized t).toBody 7 3 = some t ∧ t.deciding = true) ∧
    (let t := { seizing 0 with outcome := some (0, 0), effect := 2000000 }
     t.applied = false ∧ t.late = false ∧ (seized t).get R.MGT_READY.TXN = 1 ∧ quiet (seized t).toBody = false ∧
      t.effect ≤ (seized t).now ∧ (t.actions.map (·.kind)) = [1]) ∧
    (let t := { seizing 0 with outcome := some (0, 0), effect := 2000001 }
     (seized t).now < t.effect) ∧
    (let t := seizing 0
     isCoord (seized t).toBody t = true ∧ t.preparedAt + max 1 ((seized t).get R.TXN_CTRL.HOLD) ≤ (seized t).now) ∧
    (let t := { seizing 1 with vote := some (stOK, 0) }
     isCoord (seized t).toBody t = false ∧ t.outcome = none ∧ t.vote.isSome = true ∧ t.lastSend = 0 ∧
      t.preparedAt + max 1 ((seized t).get R.TXN_CTRL.HOLD) + max 2 ((seized t).get R.TXN_CTRL.LEAD) ≤ (seized t).now) ∧
    (let t := { seizing 0 with outcome := some (stSEIZEABORT, 2) }
     (txnOthers (seized t).toBody t).any (fun p => !t.acked.contains p.1) = true ∧
      t.lastSend + max 1 ((seized t).get R.TXN_CTRL.RESEND) ≤ (seized t).now) := by decide +kernel

/-- At C the WRITE of a committed seizing is in the home slice, and its lock is gone (R332). -/
theorem test_seizing_applies :
    (let t := { seizing 0 with outcome := some (0, 0), effect := 2000000 }
     let s := after (exec (.seizeApply 7 3) (seized t))
     s.rd 120 8 = List.replicate 8 1 ∧ s.txn.recs.flatMap (·.locks) = []) := by decide +kernel

/-! ### Partitions -/

/-- The configured package at knot 1000, with this state of partition 1. -/
def inPart (p : PartSt) : State := (cfgd.set R.KNT_COUNT.COUNT 1000).upd (fun b => b.setPart 1 { p with cur := (b.part 1).cur })

theorem test_hyps_keysAndHalyards :
    (pidOk cfgd.toBody 1 = true ∧ regOpen cfgd (R.PRT_KEY_CMD.OP.at 0) = true ∧ cfgd.get R.PRT_KEY_T.R 0 1 < cfgd.now + 2) ∧
    (let s := (inPart { keys := { staged := some [1] } }).set R.PRT_KEY_T.R 1002 0 1
     s.now + 2 ≤ s.get R.PRT_KEY_T.R 0 1 ∧ (s.part 1).keys.staged.isSome = true ∧ pidOk s.toBody 1 = true) ∧
    (let s := (inPart {}).set R.PRT_KEY_T.R 1002 0 1
     s.now + 2 ≤ s.get R.PRT_KEY_T.R 0 1 ∧ (s.part 1).keys.staged = none) ∧
    (let s := inPart { keys := { staged := some [1], roll := some 1000 } }
     (s.part 1).keys.roll = some 1000 ∧ 1000 ≤ s.now ∧ s.get R.MGT_READY.HOME = 1) ∧
    (let s := inPart { keys := { rolled := some 744 } }
     (s.part 1).keys.rolled = some 744 ∧ 744 + 256 ≤ s.now) ∧
    (inPart {}).now < 745 + 256 ∧
    (3 < 4 ∧ regOpen cfgd (R.PRT_HAL_CTRL.EN.at 0) = true) := by decide +kernel

/-- A revocation of `op` under way, of which the sweep has visited `n` sets. -/
def revoking (op : RevOp) (n : Nat) : State :=
  (((cfgd.set R.KNT_COUNT.COUNT 1000).set R.PRT_CMD_STATUS.BUSY 1).set R.PRT_CMD_STATUS.PHASE (if n = 0 then 1 else 2)).upd (fun b =>
    { b with prt := { b.prt with rev := some (op, 999), grants := [{ cid := 5, pid := 1, ext := 0, rights := 7, fenced := false }] }
             dir := { b.dir with revSweep := if n = 0 then none else some n } })

theorem test_hyps_revocations :
    (cfgd.prt.rev = none ∧ cfgd.olp.reqs = [] ∧ (hitchOf cfgd.toBody 5 1).isSome = true ∧ hitchOf cfgd.toBody 6 1 = none ∧
      (grantOf { (revoking (.hitch 5 1) 0).toBody with prt := { (revoking (.hitch 5 1) 0).prt with rev := none } } 5 1 0).isSome = true) ∧
    (let s := revoking (.hitch 5 1) 0
     s.prt.rev = some (.hitch 5 1, 999) ∧ s.get R.PRT_CMD_STATUS.PHASE = 1 ∧ s.get R.MGT_READY.DIR = 1 ∧ 999 < s.now ∧
      stillServed s.toBody 999 (inScope s.toBody (.hitch 5 1)) = false) ∧
    (let r : Req := { id := 1, op := opLOAD, m := loadM, issueK := 0, checked := 0, order := 1, prevKey := false, stage := .ready, admitted := 998 }
     let s := (revoking (.hitch 5 1) 0).upd (fun b => { b with olp := { b.olp with reqs := [r] } })
     stillServed s.toBody 999 (inScope s.toBody (.hitch 5 1)) = true) ∧
    (revoking (.hitch 5 1) (2 ^ 22 - 1)).dir.revSweep = some (2 ^ 22 - 1) ∧
    (let s := revoking (.grant 5 1 0) (2 ^ 22)
     s.dir.revSweep = some (2 ^ 22) ∧ s.dir.entries = [] ∧ s.prt.rev = some (.grant 5 1 0, 999)) ∧
    (revoking (.extent 1 0 false) (2 ^ 22)).prt.rev = some (.extent 1 0 false, 999) := by decide +kernel

/-- One extent of region 0: its index, base and whether it is fenced. -/
def ext (idx base : Nat) (fenced : Bool := false) : Extent :=
  { idx := idx, base := base, len := 65536, region := 0, rights := 15, fenced := fenced }

/-- Partition 1 at generation 65535, these extents current and those staged, with T in PRT_GEN_T. -/
def composing (cur staged : List Extent) (commit : Option (Nat × Nat)) : State :=
  ((cfgd.set R.KNT_COUNT.COUNT 1000).set R.PRT_GEN_T.T 1002).upd (fun b => b.setPart 1
    { cur := { exts := cur }, staged := { exts := staged }, gen := 65535, commit := commit })

theorem test_hyps_composition :
    (pidOk cfgd.toBody 1 = true ∧ regOpen cfgd (R.PRT_EXT_BASE.BASE.at 0) = true ∧ regOpen cfgd (R.PRT_EXT_LEN.LEN.at 0) = true ∧
      255 < 256 ∧ (cfgd.part 1).commit = none ∧ 2 ^ 41 - 1 < 2 ^ 41 ∧ regOpen cfgd (R.PRT_STG_LIST.HID.at 0) = true ∧
      cfgd.img.regions.find? (fun r => r.id == 0) = some region0 ∧ 0 < region0.list.length ∧ region0.pids = [1]) ∧
    (composing [] [] (some (0, 1002))).toBody.part 1 =
      { cur := {}, staged := {}, gen := 65535, commit := some (0, 1002) } ∧
    (let s := composing [ext 0 0] [ext 0 0, ext 1 65536] none
     regOpen s (R.PRT_GEN_CMD.OP.at 0) = true ∧ 65536 % 65536 = ((s.part 1).gen + 1) % 65536 ∧ s.now + 2 ≤ s.get R.PRT_GEN_T.T ∧
      s.get R.PRT_GEN_T.T ≤ s.now + 2 ^ 24 ∧ (s.part 1).commit = none ∧ partialTouches s.toBody 1 = false ∧
      stagedOverlap ((s.part 1).staged.exts.filter (·.valid)) = false ∧
      unfencedDrop (s.part 1).cur.exts ((s.part 1).staged.exts.filter (·.valid)) = false) ∧
    stagedOverlap ((composing [] [ext 0 0, ext 1 65535] none).part 1).staged.exts = true ∧
    unfencedDrop [ext 0 0] [ext 1 0] = true ∧ unfencedDrop [ext 0 0 true] [ext 1 0] = false ∧
    (let s := composing [ext 0 0] [ext 0 0] (some (0, 1000))
     (s.part 1).commit = some (0, 1000) ∧ 1000 ≤ s.now) := by decide +kernel

/-- A staged base changes nothing in effect (R384). -/
theorem test_staged_base :
    (let s := after (exec (.stagedWrite (.base 1 255 true 3)) cfgd)
     (stagedExt (s.part 1) 255).base = 3 * 65536 ∧ (s.part 1).cur = (cfgd.part 1).cur) := by decide +kernel

/-- The verdict on client 5, swept or not. -/
def fenced5 (swept : Bool) : State :=
  cfgd.upd (fun b => { b with fences := [{ isHid := false, id := 5, knot := 0, swept := swept }] })

/-- Partition 1 in a teardown. -/
def tearing (flt phase sweep : Nat) : State :=
  (inPart { flt := flt, fltKnot := 999, tearPhase := phase }).upd (fun b =>
    { b with dir := { b.dir with tearSweeps := if sweep = 0 then [] else [(1, sweep)] } })

theorem test_hyps_verdictsAndTeardown :
    (cidFenced cfgd.toBody 8191 = false ∧ cidFenced (fenced5 true).toBody 5 = true) ∧
    regOpen cfgd (R.FLT_SELF.ISOLATED.at 0) = true ∧
    (let s := tearing 1 1 0
     (s.part 1).tearPhase = 1 ∧ s.get R.MGT_READY.DIR = 1 ∧ stillServed s.toBody 999 (fun r => r.m.pid == 1) = false) ∧
    (let r : Req := { id := 1, op := opLOAD, m := loadM, issueK := 0, checked := 0, order := 1, prevKey := false, stage := .ready, admitted := 998 }
     let s := (tearing 1 1 0).upd (fun b => { b with olp := { b.olp with reqs := [r] } })
     stillServed s.toBody 999 (fun r => r.m.pid == 1) = true) ∧
    ((tearing 1 2 (2 ^ 22)).part 1).flt = 1 ∧ AMap.get 0 (tearing 1 2 (2 ^ 22)).dir.tearSweeps 1 ≤ 2 ^ 22 ∧
    (2 ^ 22 < AMap.get 0 (tearing 1 2 (2 ^ 22 + 1)).dir.tearSweeps 1 ∧ (tearing 1 2 (2 ^ 22 + 1)).dir.entries = []) ∧
    (let s := tearing 2 0 0
     (partDef s.toBody 1).isSome = true ∧ (s.part 1).flt = 2 ∧ partialTouches s.toBody 1 = false ∧
      (s.part 1).cur.exts.any (fun e => s.sto.lost.contains e.region) = false) := by decide +kernel

/-! ### Images -/

/-- A section's head: COUNT and ESIZE, with its own fields after them. -/
def shead (n es : Nat) (rest : List Byte := List.replicate 24 0) : List Byte := leBytes 4 n ++ leBytes 4 es ++ rest

/-- The sections 1 to 12 of an image of one partition with one queue, at their lengths in the file. -/
def sections : List (List Byte) := [
  shead 1 64 ++ leBytes 2 1 ++ [0, 1] ++ List.replicate 4 0 ++ [1, 0, 0, 0] ++ leBytes 4 1 ++ List.replicate 48 0,
  shead 0 8, shead 0 0,
  shead 48 8 ++ (List.range 48).flatMap (fun k => leBytes 8 k),
  shead 80 16 ++ (List.range 80).flatMap (fun k => leBytes 1 (1 + k / 16) ++ leBytes 1 (k % 16) ++ leBytes 2 0xFFFF ++ List.replicate 12 0),
  shead 1 40 ++ leBytes 2 1 ++ [1, 0] ++ (List.replicate 16 (leBytes 2 1)).flatten ++ List.replicate 4 0,
  shead 48 1 ++ List.replicate 48 0, shead 0 32, shead 0 8 (leBytes 2 8 ++ List.replicate 22 0), shead 0 8, shead 0 24, shead 0 8]

/-- Where the sections lie. -/
def sectOffs : List Nat := [320, 448, 512, 576, 1024, 2368, 2496, 2624, 2688, 2752, 2816, 2880]

/-- The file of that image: 8 KiB, its signature section all zeros. -/
def imageB : List Byte :=
  leBytes 4 0x4741424D ++ (leBytes 2 1 ++ (leBytes 2 13 ++ (leBytes 8 8192 ++ (leBytes 4 0x4800 ++ (1 :: List.replicate 43 0 ++
  (((List.range 12).flatMap (fun k => leBytes 4 (k + 1) ++ leBytes 4 (sectOffs.getD k 0) ++ leBytes 8 (sections.getD k []).length)) ++
  (leBytes 4 15 ++ (leBytes 4 2944 ++ (leBytes 8 4800 ++ (List.replicate 48 0 ++
  (((List.range 12).flatMap (fun k => let x := sections.getD k []; x ++ List.replicate (ceilDiv x.length 64 * 64 - x.length) 0)) ++
    List.replicate 5248 0)))))))))))

theorem imageB_length : imageB.length = 8192 := by
  have h1 : ((List.range 12).flatMap (fun k => leBytes 4 (k + 1) ++ leBytes 4 (sectOffs.getD k 0) ++
    leBytes 8 (sections.getD k []).length)).length = 192 := by decide +kernel
  have h2 : ((List.range 12).flatMap (fun k => let x := sections.getD k []; x ++ List.replicate (ceilDiv x.length 64 * 64 - x.length)
    (0 : Byte))).length = 2624 := by decide +kernel
  simp only [imageB, List.length_append, List.length_cons, List.length_replicate, h1, h2]
  rfl

/-- The check passed. -/
def okB (c : Chk Unit) : Bool := match c with | .ok _ => true | .error _ => false

theorem okB_eq {c : Chk Unit} (h : okB c = true) : c = .ok () := by
  cases c with
  | ok _ => rfl
  | error _ => simp [okB] at h

theorem imageB_header : checkHeader imageB = .ok () := by
  unfold checkHeader
  rw [imageB_length]
  exact okB_eq (by decide +kernel)

theorem imageB_format : checkFormat imageB = .ok () := by
  unfold checkFormat
  rw [imageB_header]
  exact okB_eq (by decide +kernel)

theorem imageB_rest :
    checkTarget cfgd.toBody (parseImage imageB) = .ok () ∧ checkLinks (parseImage imageB) = .ok () ∧
    checkIlv (parseImage imageB) = .ok () ∧ checkShares (parseImage imageB) = .ok () ∧ checkSched (parseImage imageB) = .ok () ∧
    checkProt (parseImage imageB) = .ok () := by
  refine ⟨?_, ?_, ?_, ?_, ?_, ?_⟩ <;> exact okB_eq (by decide +kernel)

/-- An image that passes every check of R416, its signatures being good: whether they are is what `Config.ecdsaVerify` and
`Config.mldsaVerify` say, of which nothing is known (log entry 6). -/
theorem test_image_passes (h : imageSigned cfgd.sec imageB = true) :
    checkImage cfgd imageB = .ok () ∧ checkWritten cfgd imageB = .ok () := by
  obtain ⟨h1, h2, h3, h4, h5, h6⟩ := imageB_rest
  have w : checkWritten cfgd imageB = .ok () := by
    unfold checkWritten
    rw [imageB_format, h, h1]
    rfl
  refine ⟨?_, w⟩
  unfold checkImage
  simp only [w, h2, h3, h4, h5, h6]
  rfl

/-! ### Profiles, power and reset -/

/-- The configured package with these bytes in slot 3, the slot VALID or being written. -/
def slot3 (bytes : List Byte) (writing : Bool := false) : State :=
  cfgd.upd (fun b => { b with cfg := { b.cfg with profiles := [(3, { valid := !writing, writing := writing, bytes := bytes })] } })

def pendingPartial (t : Nat) (i : Option Image) : State :=
  ((slot3 []).set R.CFG_STATUS.STATE 3).upd (fun b => { b with cfg := { b.cfg with partialRec := some (3, t, i) } })

theorem test_hyps_profilesAndLoads :
    (cfgd.pwr.off = false ∧ profBusy cfgd.toBody 3 = false ∧ profBusy cfgd.toBody (cfgd.get R.CFG_STATUS.ACTIVE) = true) ∧
    ((AMap.get {} (slot3 [] true).cfg.profiles 3).writing = true ∧ okB (checkWritten (slot3 [] true) []) = false) ∧
    (regOpen cfgd (R.MGT_PROFILE.OP.at 0) = true ∧ cfgd.get R.CFG_STATUS.STATE = 2 ∧ profValid cfgd.toBody 3 = false ∧
      profValid (slot3 []).toBody 3 = true ∧ okB (checkImage (slot3 []) (profBytes (slot3 []).toBody 3)) = false) ∧
    ((cfgd.set R.CFG_STATUS.STATE 1).get R.CFG_STATUS.STATE = 1 ∧ (cfgd.set R.CFG_STATUS.STATE 0).get R.CFG_STATUS.STATE = 0) ∧
    (let s := (slot3 []).set R.CFG_PARTIAL_T.T 2000000
     ¬ (s.cfg.img.isSome = true ∧ 3 = s.get R.CFG_STATUS.ACTIVE) ∧ profValid s.toBody 3 = true ∧
      s.now + 2000000 ≤ s.get R.CFG_PARTIAL_T.T ∧ s.get R.CFG_PARTIAL_T.T ≤ s.now + 2 ^ 24 ∧ s.get R.CFG_STATUS.STATE ≠ 1 ∧
      s.get R.CFG_STATUS.STATE ≠ 3 ∧ switchPending s.toBody = false ∧
      ((s.img.parts ++ (parseImage (profBytes s.toBody 3)).parts).any (fun p =>
        imageTouches s.toBody (parseImage (profBytes s.toBody 3)) p.pid && (s.part p.pid).commit.isSome)) = false) ∧
    ((slot3 []).get R.CFG_PARTIAL_T.T < (slot3 []).now + 2000000) ∧
    (let s := pendingPartial 9 none
     s.cfg.partialRec = some (3, 9, none) ∧ okB (checkImage s (profBytes s.toBody 3)) = false) ∧
    (let s := pendingPartial 0 (some image1)
     s.cfg.partialRec = some (3, 0, some image1) ∧ 0 ≤ s.now ∧ okB (partialRules s.toBody image1) = true) ∧
    (let s := pendingPartial 0 (some { image1 with hid := 1 })
     okB (partialRules s.toBody { image1 with hid := 1 }) = false) ∧
    (pendingPartial 1 (some image1)).now < 1 ∧
    (cfgd.cfg.loading = none) ∧
    (let s := (((slot3 []).set R.CFG_STATUS.STATE 1).set R.MGT_READY.SEC 1).upd (fun b => { b with cfg := { b.cfg with loading := some (3, false) } })
     s.cfg.loading = some (3, false) ∧ s.get R.CFG_STATUS.STATE = 1 ∧ s.get R.MGT_READY.SEC = 1 ∧
      okB (checkImage s (profBytes s.toBody 3)) = false) ∧
    (regOpen cfgd (R.CFG_STATUS.BOOT.at 0) = true ∧ regOpen cfgd (R.CFG_FLOOR.VER.at 0) = true ∧ cfgd.cfg.floor ≤ 2 ^ 64 - 1) ∧
    (0 < (cfgd.upd (fun b => { b with cfg := { b.cfg with floor := 1 } })).cfg.floor) := by decide +kernel

/-- A floor is never lowered (CFG_FLOOR, R424). -/
theorem test_floor :
    (after (exec (.floorWrite 0) (cfgd.upd (fun b => { b with cfg := { b.cfg with floor := 1 } })))).cfg.floor = 1 := by decide +kernel

/-- The package in a power state: throttling at `level`, for `n` knots. -/
def throttled (hold st level n : Nat) : State :=
  (((up.set R.PWR_STATUS.BY_VOLT hold).set R.PWR_STATUS.STATE st).set R.PWR_STATUS.LEVEL level).upd (fun b =>
    { b with pwr := { b.pwr with levelFor := n } })

/-- The package in quiesce. -/
def quiesced (ok : Nat) (ended : Option Nat) : State :=
  (up.set R.PWR_STATUS.STATE 2).upd (fun b => { b with pwr := { b.pwr with okQuiesce := ok, ended := ended } })

theorem test_hyps_powerAndBringUp_power :
    (throttleHolds (throttled 1 0 0 0).toBody = true ∧ (throttled 1 0 0 0).get R.PWR_STATUS.STATE = 0 ∧ (throttled 1 0 0 0).pwr.off = false) ∧
    (let s := throttled 1 1 4 16
     throttleHolds s.toBody = true ∧ s.get R.PWR_STATUS.STATE = 1 ∧ s.get R.PWR_STATUS.LEVEL < 5 ∧ 16 ≤ s.pwr.levelFor) ∧
    (throttled 1 1 5 16).get R.PWR_STATUS.LEVEL = 5 ∧ (throttled 1 1 4 15).pwr.levelFor < 16 ∧
    (let s := throttled 0 1 1 4000
     throttleHolds s.toBody = false ∧ s.get R.PWR_STATUS.STATE = 1 ∧ s.get R.PWR_STATUS.LEVEL = 1 ∧ 4000 ≤ s.pwr.levelFor) ∧
    (throttled 0 1 0 0).get R.PWR_STATUS.LEVEL = 0 ∧ (throttled 0 1 5 3999).pwr.levelFor < 4000 ∧
    (let s := (up.set R.PWR_STATUS.PG 0)
     s.get R.PWR_STATUS.PG = 0 ∧ quiet s.toBody = false) ∧
    (let s := (up.set R.PWR_IN.VIN_MV 65535).set R.PWR_STATUS.PG 1
     quiesceMv s.toBody ≤ s.get R.PWR_IN.VIN_MV ∧ s.get R.PWR_STATUS.PG = 1 ∧ quiet s.toBody = false) ∧
    (let s := quiesced 0 none
     quiet s.toBody = true ∧ s.pwr.stopped = none ∧ s.pwr.ended = none ∧ drained s.toBody = true ∧ s.pwr.okQuiesce < 3999) ∧
    (let r : Req := { id := 1, op := opLOAD, m := loadM, issueK := 0, checked := 0, order := 1, prevKey := false, stage := .ready }
     drained { (quiesced 0 none).toBody with olp := { (quiesced 0 none).olp with reqs := [r] } } = false) ∧
    4000 ≤ (quiesced 4000 none).pwr.okQuiesce ∧ (quiesced 0 (some 0)).pwr.ended.isSome = true ∧
    regOpen up (R.PWR_EXT.CLR.at 0) = true := by decide +kernel

theorem test_hyps_powerAndBringUp_reset :
    (State.reset.pwr.pin = none ∧ State.reset.pwr.homeSeen = false ∧ State.reset.pwr.off = true ∧ State.reset.pwr.cellLost = true ∧
      (State.reset.upd (fun b => { b with pwr := { b.pwr with cellLost := false } })).pwr.cellLost = false) ∧
    (let s := cfgd.upd (fun b => { b with pwr := { b.pwr with homeSeen := true } })
     s.pwr.pin = none ∧ s.pwr.homeSeen = true) ∧
    (let s := up.upd (fun b => { b with pwr := { b.pwr with pin := some 4000000 } })
     s.pwr.pin = some 4000000 ∧ s.pwr.off = false ∧ s.pwr.pin.isSome = true) ∧
    (up.get R.MGT_READY.SEC = 0 ∧ up.sec.destroy = false) ∧
    (let s := (cfgd.set R.MGT_READY.HOME 0).set R.MGT_READY.SEC 1
     s.get R.MGT_READY.HOME = 0 ∧ s.get R.MGT_READY.SEC = 1 ∧ s.cfg.img.isSome = true) ∧
    (discGood (up.set R.KNT_STATUS.STATE discMASTER).toBody = true ∧ (up.set R.KNT_STATUS.STATE discMASTER).get R.MGT_READY.KNOT = 0) ∧
    (up.set R.CAL_STATUS.VALID 1).get R.CAL_STATUS.VALID = 1 ∧
    (let s := cfgd.set R.MGT_READY.STK 255
     s.get R.MGT_READY.HOME = 1 ∧ s.get R.MGT_READY.STK = 255 ∧ quiet s.toBody = false ∧ s.get R.KNT_RGN.STATE (8 + 7) ≠ 2) := by
  decide +kernel

/-- A level is deepened after 16 knots at least, to 5 at most, at the boundary (R23, R432). -/
theorem test_throttle_step :
    (let down := fun (s : State) => let t := after (exec .throttleStep s); (t.acts.foldl actNow { t.toBody with acts := [] }).get R.PWR_STATUS.LEVEL
     down (throttled 1 1 4 16) = 5 ∧ down (throttled 1 1 5 16) = 5 ∧ down (throttled 1 1 4 15) = 4) := by decide +kernel

/-- A power-on puts the profile that the straps name into BOOT, and orders its load (R419, R434). -/
theorem test_power_on :
    (let s := after (exec (.powerOn 2 false) State.reset)
     s.pwr.off = false ∧ s.get R.CFG_STATUS.BOOT = 2 ∧ s.acts = [.load 2 false]) := by decide +kernel

/-! ### The security root -/

/-- An unsigned vendor request of number `req` to the device with serial number 0. -/
def unsigned (req : Nat) : List Byte := leBytes 1 req ++ List.replicate 43 0

theorem test_hyps_attestationAnswers :
    up.pwr.off = false ∧ 0 ≤ Config.certChain.length ∧ (List.replicate 32 (0 : Byte)).length = 32 ∧
    (reqShape 0 false (unsigned 0) = true ∧ reqShape 1 false (unsigned 1) = true ∧ reqShape 7 false (unsigned 7) = true ∧
      reqShape 0 false [] = false ∧ le (unsigned 0) 4 8 = up.sec.serial ∧
      le (leBytes 4 0 ++ leBytes 8 (2 ^ 64 - 1) ++ List.replicate 32 0) 4 8 ≠ up.sec.serial ∧
      reqShape 0 false (leBytes 4 0 ++ leBytes 8 (2 ^ 64 - 1) ++ List.replicate 32 0) = true) ∧
    up.sec.kem = 0 ∧ ({ up with sec := { up.sec with kem := 1 } }).sec.kem ≠ 0 ∧ up.sec.signedHash = none ∧
    ({ up with sec := { up.sec with signedHash := some [1] } }).sec.signedHash = some [1] := by
  refine ⟨?_, Nat.zero_le _, ?_⟩ <;> decide +kernel

theorem test_hyps_signedRequests :
    (∃ r, signedRow (.keyRevoke 9 []) = some r) ∧ up.pwr.off = false ∧ up.sec.burn = none ∧
    ({ up with sec := { up.sec with burn := some (0x0F, 0) } }).sec.burn = some (0x0F, 0) ∧
    ({ up with sec := { up.sec with burn := some (7, 0) } }).sec.burn = some (7, 0) ∧
    signedCheck up 6 [] ≠ rsOK ∧ (1 ≤ 4 ∧ 4 ≤ 4) := by
  refine ⟨⟨_, rfl⟩, ?_⟩
  decide +kernel

/-- A request that is not well formed is answered FORMAT, and changes no slot (R449). -/
theorem test_signed_format :
    (let s := secNow up (.signed 6 9 [])
     s.get R.SEC_ERR_LOG.RESULT = rsFORMAT ∧ s.sec.slots = up.sec.slots) := by decide +kernel

/-! ### Observation and the management port -/

/-- A package whose KNOT bit is set, with a latched sample of program 15 for ring or buffer `d`. -/
def sampled (staged : List ObsRec) : State :=
  (up.set R.MGT_READY.KNOT 1).upd (fun b => { b with obs := { b.obs with
    latched := [(15, 1, 0, List.replicate 12 0, List.replicate 8 0)], staged := staged } })

/-- Tracing of marks and program counters, on core 15. -/
def tracing : State :=
  (((((up.set R.MGT_READY.KNOT 1).set R.OBS_TRACE_CTL.EN 1).set R.OBS_TRACE_CTL.TYPES 31).set R.OBS_TRACE_CTL.CORES 65535).set
    R.OBS_TRACE_CTL.FROZEN 0).upd (fun b => { b with obs := { b.obs with tracing := true } })

/-- A record of 24 bytes that has waited 64 knots for the trace buffer of 64 KiB. -/
def rec24 : ObsRec := { dest := 0, knot := 936, ty := 2, bytes := List.replicate 24 7 }

def flushing : State :=
  (cfgd.set R.KNT_COUNT.COUNT 1000).upd (fun b => { b with obs := { b.obs with staged := [rec24], left := 1 } })

theorem test_hyps_observation :
    (let s := sampled []
     s.pwr.off = false ∧ s.obs.latched = [(15, 1, 0, List.replicate 12 0, List.replicate 8 0)] ∧ s.get R.MGT_READY.KNOT = 1 ∧
      s.knot.gaps.all (fun g => g.1 != 0) = true ∧ hasGap (List.replicate 12 0) = false ∧
      hasGap (List.replicate 9 0 ++ [1, 0, 0] ++ List.replicate 16 0) = true ∧ (ungap (List.replicate 9 0 ++ [1, 0, 0] ++ List.replicate 16 0)).length = 12 ∧
      obsStagedBytes s.toBody + (obsBytes 0x40 0 (List.replicate 12 0) (List.replicate 8 0)).length ≤ 262144 ∧
      s.obs.lost.find? (fun e => e.1 == 1) = none) ∧
    (∀ e ∈ up.obs.latched, e.1 ≠ 15) ∧
    (traceOn tracing.toBody 4 = true ∧ traceOn tracing.toBody 2 = true ∧ tracing.get R.OBS_TRACE_CTL.FROZEN = 0 ∧
      tracing.get R.MGT_READY.KNOT = 1 ∧ tracing.obs.lost = [] ∧ obsStagedBytes tracing.toBody + 152 ≤ 262144 ∧ tracing.knot.gaps = [] ∧
      AMap.get 0 tracing.obs.pcAt 15 ≠ tracing.now + 1 ∧ tracing.now % 2 ^ min 20 (tracing.get R.OBS_TRACE_CTL.PC_LOG) = 0 ∧
      bitAt (tracing.get R.OBS_TRACE_CTL.CORES) 15 = true ∧ tracing.img.parts = []) ∧
    AMap.get 0 (up.upd (fun b => { b with obs := { b.obs with pcAt := [(15, 1)] } })).obs.pcAt 15 = up.now + 1 ∧
    (flushing.obs.staged = [rec24] ∧ rec24.dest = 0 ∧ rec24.knot + 64 ≤ flushing.now ∧ flushing.get R.OBS_TRACE_CTL.STOP_FULL = 0 ∧
      0 < rec24.bytes.length ∧ flushing.get R.OBS_TRACE_PTR.PROD % (flushing.img.traceFrames * 65536) + rec24.bytes.length ≤
        flushing.img.traceFrames * 65536 ∧
      spanLines (flushing.get R.OBS_TRACE_PTR.PROD) (flushing.get R.OBS_TRACE_PTR.PROD + rec24.bytes.length) ≤ flushing.obs.left) ∧
    (regOpen cfgd (R.OBS_TRACE_CTL.EN.at 0) = true ∧ cfgd.obs.tracing = false ∧ tracing.obs.tracing = true ∧
      regOpen cfgd (R.OBS_WP_CTL.EN.at 15) = true ∧ cfgd.get R.OBS_WP_CTL.ALLPID 15 = 0 ∧ cfgd.get R.OBS_WP_CTL.EN 15 = 0 ∧
      (cfgd.set R.OBS_WP_CTL.EN 1 15).get R.OBS_WP_CTL.EN 15 ≠ 0 ∧ (cfgd.set R.OBS_WP_CTL.ALLPID 1 15).get R.OBS_WP_CTL.ALLPID 15 ≠ 0 ∧
      (cfgd.set R.OBS_WP_CTL.ALLPID 1 15).get R.OBS_WP_CTL.SPACE 15 = 0) ∧
    (regOpen cfgd (R.OBS_RING.EN.at 0) = true ∧ pidOk cfgd.toBody 1 = true ∧ 0 < 2 ^ R.OBS_RING.RING.w ∧ 16 < 2 ^ R.OBS_RING.SIZE_LOG.w ∧
      ringPlaced cfgd.toBody 1 (0 * 4096) (2 ^ 16) = true ∧ cfgd.img.rings.find? (fun r => r.1 == 1) = some (1, 1) ∧ 2 ^ 16 ≤ 1 * 65536 ∧
      (sgaLoc cfgd.toBody (0 * 4096)).map (·.1) = some region0 ∧ regionPinned cfgd.toBody region0 = true) := by
  refine ⟨?_, fun e h => absurd h List.not_mem_nil, ?_⟩ <;> decide +kernel

/-- Staging holds 262,144 bytes: a full one takes no sample (R487). -/
theorem test_hyps_observation_full (bs : List Byte) (n : bs.length = 262144) :
    ¬ obsStagedBytes (sampled [{ dest := 0, knot := 0, ty := 2, bytes := bs }]).toBody +
      (obsBytes 0x40 0 (List.replicate 12 0) (List.replicate 8 0)).length ≤ 262144 := by
  have h : (sampled [{ dest := 0, knot := 0, ty := 2, bytes := bs }]).obs.staged = [{ dest := 0, knot := 0, ty := 2, bytes := bs }] := rfl
  have l : 0 < (obsBytes 0x40 0 (List.replicate 12 0) (List.replicate 8 0)).length := by decide +kernel
  unfold obsStagedBytes
  rw [h]
  simp only [List.map_cons, List.map_nil, List.foldl_cons, List.foldl_nil, n, Nat.zero_add]
  omega

theorem test_hyps_managementEndpoint :
    (up.pwr.off = false ∧ 255 < 256 ∧ 1 ≤ 254 ∧ up.get R.MGT_EID.OWNER_V = 0) ∧
    (let s := (up.set R.MGT_EID.OWNER_V 1).set R.MGT_EID.OWNER 9
     s.get R.MGT_EID.OWNER_V = 1 ∧ s.get R.MGT_EID.OWNER ≠ 8 ∧ s.get R.MGT_EID.OWNER = 9) ∧
    (let s := ((up.set R.MGT_EID.OWNER_V 1).set R.PWR_EVENT.SURGE_EV 1).set R.MGT_ALERT_EN.EN 1
     alertOn s.toBody = true ∧ s.mgt.alertTold = false ∧ s.mgt.alertAt = none) ∧
    (let s := atTick 4000 { up with mgt := { up.mgt with alertAt := some 0 } }
     s.mgt.alertAt = some 0 ∧ 0 + 4000 ≤ s.tick ∧ (atTick 3999 s).tick < 0 + 4000) ∧
    alertOn up.toBody = false := by decide +kernel

/-- The owner's request for two registers at offset 0, and its write of one. -/
def readReq : List Byte := leBytes 4 0x1E7A3 ++ leBytes 4 0 ++ leBytes 4 2
def writeReq : List Byte := leBytes 4 0x1E7A3 ++ leBytes 4 0x1B0048 ++ leBytes 8 1 ++ leBytes 8 5 ++ leBytes 8 (2 ^ 64 - 1)

def owned : State := (up.set R.MGT_EID.OWNER_V 1).set R.MGT_EID.OWNER 9

theorem test_hyps_registerWindow :
    (winCode owned 9 1 readReq = 0 ∧ winCode owned 9 2 writeReq = 0 ∧ winCode owned 8 1 readReq ≠ 0 ∧ winCode owned 9 2 [] ≠ 0) ∧
    (let s := atTick 400000 { owned with mgt := { owned.mgt with lastWrite := some (3, writeReq, 0, [1]) } }
     s.mgt.lastWrite = some (3, writeReq, 0, [1]) ∧ s.tick ≤ 0 + 400000 ∧ 0 + 400000 < (atTick 400001 s).tick) ∧
    owned.mgt.lastWrite = none ∧
    (regAt 0x1B0048).isSome = true ∧ regOpen owned 0x1B0048 = true ∧ ilvShown owned 0x1B0048 = true ∧ regAt 0x1FFFF8 = none ∧
    regOpen owned 0x1B0050 = true ∧
    (match regAt 0x1B0048 with | some (r, n) => (selItem owned r.sel n).isSome | none => false) = true ∧
    (63 < R.CFG_PARTIAL_T.T.w ∧ R.CFG_PARTIAL_T.T.view = false ∧ R.CFG_PARTIAL_T.T.acc = .rw ∧ R.CFG_EVENT.REFUSED.acc = .w1c) := by
  decide +kernel

/-- A read of MGT_ID answers with the part code (R493). -/
theorem test_window_read :
    (match (after (exec (.regRead 9 1 1 readReq) owned)).out with
      | .mgmt 9 1 0 r :: _ => r.length
      | _ => 0) = 3 + 12 + 8 + 16 := by decide +kernel

/-! ### Well-formedness -/

/-- A good codeword, and a nonce. -/
def goodCw : Codeword := { seq := 0, ack := 0, nak := false }
def n32 : List Byte := List.replicate 32 0

/-- Every check of the messages refuses a term that only it concerns. -/
theorem test_ill_formed_messages :
    [({ bnd with overrun := [(16, 0)] } : BoundaryIn), { bnd with overrun := [(0, 19)] }, { bnd with vinMv := 65536 },
      { bnd with iin := 65536 }, { bnd with pkgW := 65536 }].all (fun b => !b.wf) = true ∧ bnd.wf = true ∧
    [{ goodCw with seq := 512 }, { goodCw with ack := 512 }, { goodCw with errs := [544] }, { goodCw with errs := [7, 7] }].all
      (fun c => !c.wf) = true ∧
    goodCw.wf = true ∧
    [{ loadM with link := 48 }, { loadM with tag := 65536 }, { loadM with pid := 1024 }, { loadM with hid := 512 },
      { loadM with cid := 8192 }, { loadM with len := 32 }, { loadM with rsvd := 8 }, { loadM with addr := 2 ^ 60 },
      { loadM with mapgen := 65536 }, { loadM with issue := 2 ^ 24 }, { loadM with arg := 2 ^ 24 }].all (fun m => !m.wf) = true ∧
    loadM.wf = true ∧
    (let m := respM 0 5
     [{ m with link := 48 }, { m with op := 256 }, { m with tag := 65536 }, { m with pid := 1024 }, { m with hid := 512 },
      { m with cid := 8192 }, { m with len := 32 }, { m with mapgen := 65536 }, { m with issue := 2 ^ 24 }, { m with arg := 2 ^ 24 },
      { m with serve := 2 ^ 24 }, { m with hint := 65536 }, { m with rsvd := 256 }, { m with sub := 256 },
      { m with status := 256 }].all (fun m => !m.wf) = true ∧ m.wf = true) ∧
    [{ seg1 with link := 48 }, { seg1 with cid := 8192 }, { seg1 with tag := 65536 }, { seg1 with issue := 2 ^ 24 },
      { seg1 with index := 0 }, { seg1 with index := 17 }, { seg1 with seglen := 0, bytes := [] }, { seg1 with seglen := 4097 },
      { seg1 with seglen := 127 }].all (fun m => !m.wf) = true ∧ seg1.wf = true ∧
    [{ spliceM with hdr := { loadM with link := 48 } }, { spliceM with op := 256 }, { spliceM with mlen := 256 },
      { spliceM with rsvdBlk := 2 ^ 31 }, { spliceM with members := [] }, { spliceM with members := [{ loadMem 0 0 with rsvd := 2 ^ 11 }] },
      { spliceM with members := [loadMem 8192 0] }, { spliceM with members := [loadMem 0 65536] },
      { spliceM with members := [{ loadMem 0 0 with issue := 2 ^ 24 }] }].all (fun m => !m.wf) = true ∧ spliceM.wf = true ∧
    [StagedWrite.base 1024 0 true 0, .base 0 256 true 0, .base 0 0 true (2 ^ 41), .len 1024 0 0 0 0, .len 0 256 0 0 0,
      .len 0 0 16 0 0, .len 0 0 0 (2 ^ 41) 0, .len 0 0 0 0 256, .list 1024 0 0 0, .list 0 256 0 0, .list 0 0 512 0,
      .list 0 0 0 512].all (fun w => !w.wf) = true := by decide +kernel

/-- Every check of a command's operands refuses a term that only it concerns (1 of 5). -/
theorem test_ill_formed_commands1 : ([
   .knotBoundary { bnd with vinMv := 65536 }, .knotSyncSend 0x100000000, .delayRequestSend 0x100000000,
   .sync ⟨{ syncM with link := 48 }, 0⟩, .delayRequest ⟨{ syncM with link := 48 }, 0⟩, .delayAnswer ⟨{ syncM with link := 48 }, 0⟩,
   .sync ⟨syncM, 250000⟩, .delayRequest ⟨syncM, 250000⟩, .delayAnswer ⟨syncM, 250000⟩,
   .calTimeWrite (2 ^ 48) 0, .calTimeWrite 0 65536, .codewordReceive 48 goodCw, .codewordReceive 0 { goodCw with seq := 512 },
   .laserSpareSwap 48 0, .laserSpareSwap 0 8, .laneSymbolLimit 48 0, .laneSymbolLimit 0 8, .lossOfLight 48 0,
   .lossOfLight 0 256, .laneChgReceived 48 0 0, .laneChgReceived 0 256 0, .laneChgReceived 0 0 250000, .laneChangeEffect 48,
   .errorWindowEnd 48, .uncorrLimit 48, .laneDisable 48 0, .laneDisable 0 256, .linkEnable 48, .linkDisable 48, .retrain 48,
   .lightFound 48 0, .lightFound 0 256, .equaliseDone 48, .alignDone 48, .measureDone 48 0, .measureDone 0 (2 ^ 32),
   .identifyExchange 48 0 0 0, .identifyExchange 0 16 0 0, .identifyExchange 0 0 65536 0, .identifyExchange 0 0 0 256,
   .trainTimeout 48, .lanesTimeout 48, .faultRecoveryTimeout 48, .photonicDieReady 4, .portGroupReady false 4,
   .heartbeat 48 0 loadM, .heartbeatSuspect 48, .load { loadM with link := 48 },
   .loadShared { loadM with link := 48 }, .loadOwn { loadM with link := 48 }, .loadNa { loadM with link := 48 },
   .store { loadM with link := 48 }, .storeMasked { loadM with link := 48 }, .writeback { loadM with link := 48 },
   .evictClean { loadM with link := 48 }, .codedStore { loadM with link := 48 }, .codedLoad { loadM with link := 48 },
   .atomicAddExact { loadM with link := 48 }, .atomicFaddExactVec { loadM with link := 48 },
   .atomicCas { loadM with link := 48 }, .atomicSwap { loadM with link := 48 }, .atomicMin { loadM with link := 48 },
   .atomicMax { loadM with link := 48 }, .atomicAnd { loadM with link := 48 }, .atomicOr { loadM with link := 48 },
   .atomicXor { loadM with link := 48 }, .snoopResp { respM 0 5 with link := 48 }, .snoopResend 0 8192,
   .publish { loadM with link := 48 }, .doorbell { loadM with link := 48 }, .spliced { spliceM with op := 256 },
   .burstSegment { seg1 with link := 48 }, .peerResponse { respM 0 5 with link := 48 }, .peerRequestLost 48 0,
   .peerRequestLost 0 65536, .sledResponse 48 (respM 0 5), .walkComplete 1024 0, .walkComplete 0 (2 ^ 41),
   .invalidatePage 1024 0, .invalidatePage 0 3] : List Instr).all (fun i => !i.wf) = true := by decide +kernel

/-- Every check of a command's operands refuses a term that only it concerns (2 of 5). -/
theorem test_ill_formed_commands2 : ([
   .invalidateRun 1024 0 0, .invalidateRun 0 3 0, .invalidateRun 0 0 (2 ^ 26), .invalidatePartition 1024, .rootWrite 1024 0,
   .rootWrite 0 (2 ^ 48), .rebase 1024 0 false false 0, .rebase 0 64 false false 0, .rebase 0 0 false false (2 ^ 41),
   .hotRingEnable 1024 0 0, .hotRingEnable 0 (2 ^ 48) 0, .hotRingEnable 0 0 32, .dirLookup (2 ^ 38), .backgroundEvict (2 ^ 22),
   .acceptLine (2 ^ 38), .acceptPid 1024, .set 16 0 0, .set 0 4096 0, .set 0 0 (2 ^ 32), .add 16 0 0, .add 0 4096 0,
   .add 0 0 (2 ^ 32), .semValueWrite 16 0 0, .semValueWrite 0 4096 0, .semValueWrite 0 0 (2 ^ 32), .waitLimitReached 16 0,
   .waitLimitReached 0 19, .cacheInvalidate 16 false 0, .cacheInvalidate 0 false 1024, .cacheMissFill 16 0,
   .cacheMissFill 0 19, .descriptorFetch 16 0 0, .descriptorFetch 0 1024 0, .descriptorFetch 0 0 64, .descriptorUsable 16 0,
   .descriptorUsable 0 19, .operandBlockRead 16 0, .operandBlockRead 0 19, .commandRelease 16 0, .commandRelease 0 19,
   .commandComplete 16 0, .commandComplete 0 19, .nop 16 0, .nop 0 19, .invalidate 16 0, .invalidate 0 19,
   .ringPlace 1024 0 false 0 0, .ringPlace 0 64 false 0 0, .ringPlace 0 0 false (2 ^ 48) 0, .ringPlace 0 0 false 0 32,
   .queueIndexWrite 1024 0 0 0, .queueIndexWrite 0 64 0 0, .queueIndexWrite 0 0 (2 ^ 32) 0, .queueIndexWrite 0 0 0 (2 ^ 32),
   .queueEnable 1024 0, .queueEnable 0 64, .queueDisable 1024 0, .queueDisable 0 64, .resume 1024 0, .resume 0 64,
   .drainDone 1024 0, .drainDone 0 64, .decode 16 0, .decode 0 19, .encode 16 0, .encode 0 19, .check 16 0, .check 0 19,
   .loadTable 16 0, .loadTable 0 19, .dropTable 16 0, .dropTable 0 19, .tableSlotRetired 1024 0, .tableSlotRetired 0 4,
   .seqOpen 16 0, .seqOpen 0 19, .seqClose 16 0, .seqClose 0 19, .seqAdvance 16 0, .seqAdvance 0 19] : List Instr).all (fun i => !i.wf) = true := by decide +kernel

/-- Every check of a command's operands refuses a term that only it concerns (3 of 5). -/
theorem test_ill_formed_commands3 : ([
   .gemv 16 0, .gemv 0 19, .kvAppend 16 0, .kvAppend 0 19, .attend 16 0, .attend 0 19, .softmax 16 0, .softmax 0 19,
   .elemwise 16 0, .elemwise 0 19, .rmsnorm 16 0, .rmsnorm 0 19, .gather 16 0, .gather 0 19, .scatterAdd 16 0,
   .scatterAdd 0 19, .scatterWrite 16 0, .scatterWrite 0 19, .rowReplace 16 0, .rowReplace 0 19, .scan 16 0, .scan 0 19,
   .traverse 16 0, .traverse 0 19, .insert 16 0, .insert 0 19, .delete 16 0, .delete 0 19, .merge 16 0, .merge 0 19,
   .mergeResume 16, .fill 16 0, .fill 0 19, .copy 16 0, .copy 0 19, .compare 16 0, .compare 0 19, .digest 16 0, .digest 0 19,
   .reduce 16 0, .reduce 0 19, .seize 16 0, .seize 0 19, .seizePrepareOrigin { loadM with link := 48 },
   .preparedRecordDone 8192 0 false, .preparedRecordDone 0 (2 ^ 24) false, .seizeVote { loadM with link := 48 },
   .decisionRecordDone 8192 0, .decisionRecordDone 0 (2 ^ 24), .seizeCommit { loadM with link := 48 },
   .seizeAbort { loadM with link := 48 }, .seizeDecide false { loadM with link := 48 },
   .seizeInquire { loadM with link := 48 }, .seizeApply 8192 0, .seizeApply 0 (2 ^ 24), .seizeHoldTimeout 8192 0,
   .seizeHoldTimeout 0 (2 ^ 24), .seizeInquireTimer 8192 0, .seizeInquireTimer 0 (2 ^ 24), .seizeDecideResend 8192 0,
   .seizeDecideResend 0 (2 ^ 24), .forceCommit 8192 0, .forceCommit 0 (2 ^ 24), .forceAbort 8192 0, .forceAbort 0 (2 ^ 24),
   .txnLookup 8192 0, .txnLookup 0 (2 ^ 24), .promotionSwitch (2 ^ 29), .demotionDone (2 ^ 29), .flush 256, .stackFail 8,
   .zeroFillDone 256, .sledRecover 16, .sledSuspectTimeout 16, .sledFailed 16, .sledIdentified 16 0 0 none,
   .sledIdentified 0 (2 ^ 64) 0 none, .sledIdentified 0 0 (2 ^ 32) none, .fail 16, .rebuild 16] : List Instr).all (fun i => !i.wf) = true := by decide +kernel

/-- Every check of a command's operands refuses a term that only it concerns (4 of 5). -/
theorem test_ill_formed_commands4 : ([
   .accept 256, .rebuildStart 16, .shadowKeep 512 0 0, .shadowKeep 0 1024 0, .shadowKeep 0 0 (2 ^ 32), .shadowCopy 512 0 0,
   .shadowCopy 0 1024 0, .shadowCopy 0 0 (2 ^ 32), .shadowRecon 512 0 0, .shadowRecon 0 1024 0, .shadowRecon 0 0 (2 ^ 32),
   .shadowIdle 512 0 0, .shadowIdle 0 1024 0, .shadowIdle 0 0 (2 ^ 32), .roll 1024, .keyRollover 1024,
   .previousKeyDestroy 1024, .hitch 8192 0 0 false, .hitch 0 1024 0 false, .hitch 0 0 16 false, .modify 8192 0 0 false,
   .modify 0 1024 0 false, .modify 0 0 16 false, .unhitch 8192 0, .unhitch 0 1024, .grant 8192 0 0 0, .grant 0 1024 0 0,
   .grant 0 0 256 0, .grant 0 0 0 8, .revokeGrant 8192 0 0, .revokeGrant 0 1024 0, .revokeGrant 0 0 256,
   .revokeExtent 1024 0 false, .revokeExtent 0 256 false, .reopen 1024 0, .reopen 0 256, .halyardEnable 1024 0 0 0,
   .halyardEnable 0 4 0 0, .halyardEnable 0 0 256 0, .halyardEnable 0 0 0 (2 ^ 32), .stagedWrite (.base 1024 0 false 0),
   .commit 1024 0, .commit 0 65536, .commitCancel 1024, .generationEffect 1024, .deadClient 8192, .deadHelak 512 0,
   .deadHelak 0 8192, .admitShadow 512, .releaseClient 8192, .releaseHelak 512, .tear 1024, .tearDrainEnd 1024,
   .tearSweepEnd 1024, .mend 1024, .profileWriteStart 4, .profileWriteEnd 4 [], .switch 4, .partialConfig 4, .bootWrite 4,
   .floorWrite (2 ^ 64), .powerOn 4 false, .engineReset 16, .partitionReset 1024, .readinessSet 64, .getVersion 256,
   .getCapabilities 256, .negotiateAlgorithms 256 0 0 0, .negotiateAlgorithms 0 256 0 0, .negotiateAlgorithms 0 0 (2 ^ 32) 0,
   .negotiateAlgorithms 0 0 0 (2 ^ 32), .getDigests 256, .getCertificate 256 0 0 0, .getCertificate 0 256 0 0,
   .getCertificate 0 0 65536 0, .getCertificate 0 0 0 (2 ^ 32), .challenge 256 0 0 n32, .challenge 0 256 0 n32,
   .challenge 0 0 256 n32, .challenge 0 0 0 []] : List Instr).all (fun i => !i.wf) = true := by decide +kernel

/-- Every check of a command's operands refuses a term that only it concerns (5 of 5). -/
theorem test_ill_formed_commands5 : ([
   .getMeasurements 256 false 0 n32, .getMeasurements 0 false 256 n32, .getMeasurements 0 false 0 [], .spdmUnsupported 256 0,
   .spdmUnsupported 0 256, .getNonce 256 [], .kemGet 256 [], .keyDeliver 256 [], .lcRequest 256 [], .debugUnlock 256 [],
   .keyInstall 256 [], .keyRevoke 256 [], .mldsaSig 256 [], .tamperEvent 0 false, .tamperEvent 5 false,
   .debugReadSelect (2 ^ 29) 0, .debugReadSelect 0 (2 ^ 48), .sampleTake 16, .pcRecord 16, .partialLineFlush 1026,
   .mark (2 ^ 64), .sampleEnable 16, .watchpointEnable 16, .ringEnable 1024 false false 0 0,
   .ringEnable 0 false false (2 ^ 48) 0, .ringEnable 0 false false 0 32, .setEndpointId 256 0, .setEndpointId 0 256,
   .getEndpointId 256, .getMctpVersionSupport 256 0, .getMctpVersionSupport 0 256, .getMessageTypeSupport 256,
   .mctpUnsupportedType 256 0, .mctpUnsupportedType 0 256, .pldmBaseDiscovery 256 0 0, .pldmBaseDiscovery 0 256 0,
   .pldmBaseDiscovery 0 0 65536, .pldmSensorRead 256 0, .pldmSensorRead 0 65536, .regRead 256 0 0 [], .regRead 0 32 0 [],
   .regRead 0 0 256 [], .regWrite 256 0 [], .regWrite 0 32 [], .registerWrite 4 0 0, .registerWrite 0x200000 0 0,
   .registerWrite 0 (2 ^ 64) 0, .registerWrite 0 0 (2 ^ 64), .pinRefillDone 256] : List Instr).all (fun i => !i.wf) = true := by decide +kernel

/-- With the operand in range each of them is well formed. -/
theorem test_well_formed_commands : ([
   .knotBoundary bnd, .knotSyncSend 0, .delayRequestSend 0, .sync ⟨syncM, 0⟩, .delayRequest ⟨syncM, 0⟩, .delayAnswer ⟨syncM, 0⟩,
   .calTimeWrite 0 0, .codewordReceive 0 goodCw, .laserSpareSwap 0 0, .laneSymbolLimit 0 0, .lossOfLight 0 0,
   .laneChgReceived 0 0 0, .laneChangeEffect 0, .errorWindowEnd 0, .uncorrLimit 0, .laneDisable 0 0, .linkEnable 0,
   .linkDisable 0, .retrain 0, .lightFound 0 0, .equaliseDone 0, .alignDone 0, .measureDone 0 0, .identifyExchange 0 0 0 0,
   .trainTimeout 0, .lanesTimeout 0, .faultRecoveryTimeout 0, .photonicDieReady 0, .portGroupReady false 0, .heartbeat 0 0 loadM,
   .heartbeatSuspect 0, .load loadM, .loadShared loadM, .loadOwn loadM, .loadNa loadM, .store loadM, .storeMasked loadM,
   .writeback loadM, .evictClean loadM, .codedStore loadM, .codedLoad loadM, .atomicAddExact loadM, .atomicFaddExactVec loadM,
   .atomicCas loadM, .atomicSwap loadM, .atomicMin loadM, .atomicMax loadM, .atomicAnd loadM, .atomicOr loadM,
   .atomicXor loadM, .snoopResp (respM 0 5), .snoopResend 0 0, .publish loadM, .doorbell loadM, .spliced spliceM,
   .burstSegment seg1, .peerResponse (respM 0 5), .peerRequestLost 0 0, .sledResponse 0 (respM 0 5), .walkComplete 0 0,
   .invalidatePage 0 0, .invalidateRun 0 0 0, .invalidatePartition 0, .rootWrite 0 0, .rebase 0 0 false false 0,
   .hotRingEnable 0 0 0, .dirLookup 0, .backgroundEvict 0, .acceptLine 0, .acceptPid 0, .set 0 0 0, .add 0 0 0,
   .semValueWrite 0 0 0, .waitLimitReached 0 0, .cacheInvalidate 0 false 0, .cacheMissFill 0 0, .descriptorFetch 0 0 0,
   .descriptorUsable 0 0, .operandBlockRead 0 0, .commandRelease 0 0, .commandComplete 0 0, .nop 0 0, .invalidate 0 0,
   .ringPlace 0 0 false 0 0, .queueIndexWrite 0 0 0 0, .queueEnable 0 0, .queueDisable 0 0, .resume 0 0, .drainDone 0 0,
   .decode 0 0, .encode 0 0, .check 0 0, .loadTable 0 0, .dropTable 0 0, .tableSlotRetired 0 0, .seqOpen 0 0, .seqClose 0 0,
   .seqAdvance 0 0, .gemv 0 0, .kvAppend 0 0, .attend 0 0, .softmax 0 0, .elemwise 0 0, .rmsnorm 0 0, .gather 0 0,
   .scatterAdd 0 0, .scatterWrite 0 0, .rowReplace 0 0, .scan 0 0, .traverse 0 0, .insert 0 0, .delete 0 0, .merge 0 0,
   .mergeResume 0, .fill 0 0, .copy 0 0, .compare 0 0, .digest 0 0, .reduce 0 0, .seize 0 0, .seizePrepareOrigin loadM,
   .preparedRecordDone 0 0 false, .seizeVote loadM, .decisionRecordDone 0 0, .seizeCommit loadM, .seizeAbort loadM,
   .seizeDecide false loadM, .seizeInquire loadM, .seizeApply 0 0, .seizeHoldTimeout 0 0, .seizeInquireTimer 0 0,
   .seizeDecideResend 0 0, .forceCommit 0 0, .forceAbort 0 0, .txnLookup 0 0, .promotionSwitch 0, .demotionDone 0, .flush 0,
   .stackFail 0, .zeroFillDone 0, .sledRecover 0, .sledSuspectTimeout 0, .sledFailed 0, .sledIdentified 0 0 0 none, .fail 0,
   .rebuild 0, .accept 0, .rebuildStart 0, .shadowKeep 0 0 0, .shadowCopy 0 0 0, .shadowRecon 0 0 0, .shadowIdle 0 0 0,
   .roll 0, .keyRollover 0, .previousKeyDestroy 0, .hitch 0 0 0 false, .modify 0 0 0 false, .unhitch 0 0, .grant 0 0 0 0,
   .revokeGrant 0 0 0, .revokeExtent 0 0 false, .reopen 0 0, .halyardEnable 0 0 0 0, .stagedWrite (.base 0 0 false 0),
   .commit 0 0, .commitCancel 0, .generationEffect 0, .deadClient 0, .deadHelak 0 0, .admitShadow 0, .releaseClient 0,
   .releaseHelak 0, .tear 0, .tearDrainEnd 0, .tearSweepEnd 0, .mend 0, .profileWriteStart 0, .profileWriteEnd 0 [], .switch 0,
   .partialConfig 0, .bootWrite 0, .floorWrite 0, .powerOn 0 false, .engineReset 0, .partitionReset 0, .readinessSet 0,
   .getVersion 0, .getCapabilities 0, .negotiateAlgorithms 0 0 0 0, .getDigests 0, .getCertificate 0 0 0 0,
   .challenge 0 0 0 n32, .getMeasurements 0 false 0 n32, .spdmUnsupported 0 0, .getNonce 0 [], .kemGet 0 [], .keyDeliver 0 [],
   .lcRequest 0 [], .debugUnlock 0 [], .keyInstall 0 [], .keyRevoke 0 [], .mldsaSig 0 [], .tamperEvent 1 false,
   .debugReadSelect 0 0, .sampleTake 0, .pcRecord 0, .partialLineFlush 0, .mark 0, .sampleEnable 0, .watchpointEnable 0,
   .ringEnable 0 false false 0 0, .setEndpointId 0 0, .getEndpointId 0, .getMctpVersionSupport 0 0, .getMessageTypeSupport 0,
   .mctpUnsupportedType 0 0, .pldmBaseDiscovery 0 0 0, .pldmSensorRead 0 0, .regRead 0 0 0 [], .regWrite 0 0 [],
   .registerWrite 0 0 0, .pinRefillDone 0] : List Instr).all Instr.wf = true := by decide +kernel

/-! ### The machine as a whole -/

theorem test_hyps_step :
    State.reset.pending = [] ∧ State.reset.pwr.off = true ∧ (after (step { up with pending := [.throttleEnter] })).pending = [] := by
  decide +kernel

/-- 64 KiB less one byte into a unit of the near tier, its last byte. -/
theorem test_hyps_storeReadsAsWritten :
    65535 % 65536 + [(7 : Byte)].length ≤ 65536 ∧ Memory.wf cfgd.toBody = true ∧
    (∀ i, i < [(7 : Byte)].length → isResident cfgd.toBody (65535 + i) = isResident cfgd.toBody 65535 ∧
      writesFar cfgd.toBody (65535 + i) = writesFar cfgd.toBody 65535) ∧
    (cfgd.wr 65535 [7]).rdB 65535 = 7 := by
  refine ⟨by decide, by decide +kernel, fun i h => ?_, by decide +kernel⟩
  have : i = 0 := by simpa using h
  subst this
  exact ⟨rfl, rfl⟩

/-- The invariant of the security root holds of a powered package with a command waiting, and it steps. -/
theorem test_hyps_securityInvariant :
    SecInv { up with pending := [.throttleEnter] } ∧ ∃ t, step { up with pending := [.throttleEnter] } = .next t := by
  refine ⟨⟨by decide +kernel, by decide +kernel, fun b h => ?_, by decide +kernel, by decide +kernel⟩, _, rfl⟩
  have n : ({ up with pending := [Instr.throttleEnter] } : State).sec.burn = none := by decide +kernel
  rw [n] at h
  cases h

/-- The segments of a refused burst are discarded without an answer until 64 knots have gone by, and are orphans then (R91, R93). -/
theorem test_refused_burst :
    (let s := cfgd.upd (fun b => { b with olp := { b.olp with bursts := (List.range 32).map (fun i =>
       { op := opSTORE, m := { headM with tag := 100 + i }, h := 0, index := 0 }) } })
     let t := after (exec (.store headM) s)
     t.out.length = 1 ∧ (after (exec (.burstSegment seg1) (atTick 63 t))).out.length = 1 ∧
      (after (exec (.burstSegment seg1) (atTick 64 t))).out.length = 2) := by decide +kernel

set_option maxRecDepth 20000 in
/-- The last of a block's elements: -2 as MXINT8, NaN as E4M3 and E5M2 (R204). -/
theorem test_hyps_microscaled :
    (List.replicate 31 0 ++ [0x80] : List Byte).length = 32 ∧ (List.replicate 31 0 ++ [0x80] : List Byte)[31]? = some 0x80 ∧
    (mxDec 0xA (List.replicate 31 0 ++ [0x80]) 254)[31]? = some (.fin true 128 121) ∧
    (mxDec 5 (List.replicate 31 0 ++ [0xFF]) 254)[31]? = some .nan ∧
    (mxDec 6 (List.replicate 31 0 ++ [0xFC]) 0)[31]? = some (.inf true) ∧
    (mxDec 6 (List.replicate 31 0 ++ [0x7D]) 0)[31]? = some .nan := by decide

/-- What a port has been handed stays in its retry buffer, and an entry to OFF discards it (R52, R61): an answer of 640 bytes
takes two codewords, and of 255 codewords of traffic the 50,000 B of a knot (R51) let 78 go. -/
theorem test_retry_buffer :
    (let t := portSend (upPort.toBody) 47 (msgBytes 640)
     (t.link 47).unacked = [0, 1] ∧ (t.link 47).txSeq = 2 ∧ (t.link 47).held = 0 ∧
      ((portSend t 47 (640 * 255)).link 47).unacked.length = 80 ∧ ((portSend t 47 (640 * 255)).link 47).held = 177 ∧
      ((enterOff t 47).link 47).unacked = [] ∧ (enterOff t 47).get R.LNK_REPLAY.DROPPED 47 = 2) ∧
    ((after (exec (.knotBoundary bnd) (upPort.set R.LNK_STATUS.ROLE 4 47))).link 47).unacked.length = 1 := by decide +kernel

end Sys2Proof.Tests
end

section
/-!
SUPPORT. The register window (R5, R489 to R500): what a masked write makes of a field's bits, what a request does to one
register, and what the notes and the timestamp of an answer leave unchanged.
-/

namespace Sys2Proof.Machine

/-! ### Bits of a masked write (R5, R494) -/

theorem bitAt_eq_testBit (v i : Nat) : bitAt v i = v.testBit i := by
  rw [Nat.testBit_eq_decide_div_mod_eq, bitAt, Nat.shiftRight_eq_div_pow]
  rfl

theorem bitAt_mod_two_pow {b n : Nat} (v : Nat) (hb : b < n) : bitAt (v % 2 ^ n) b = bitAt v b := by
  simp [bitAt_eq_testBit, hb]

/-- The bits of a field outside `m` are those that the complement of `m` keeps. -/
theorem bitAt_and_compl {b n m : Nat} (v : Nat) (hb : b < n) (hm : m < 2 ^ n) :
    bitAt (v &&& (2 ^ n - 1 - m)) b = (bitAt v b && !bitAt m b) := by
  have hc : 2 ^ n - 1 - m = 2 ^ n - (m + 1) := by omega
  simp [bitAt_eq_testBit, hc, Nat.testBit_two_pow_sub_succ hm, hb]

/-- A masked write takes the bits that the mask names and keeps the others. -/
theorem Wr.bitAt_merge (w : Wr) (f : Fld) (old : Nat) {b : Nat} (hb : b < f.w) :
    bitAt (w.merge f old) b = if bitAt (w.mask / 2 ^ f.lo) b then bitAt (w.data / 2 ^ f.lo) b else bitAt old b := by
  have hkeep := bitAt_and_compl old hb (Nat.mod_lt (w.mask / 2 ^ f.lo) (Nat.two_pow_pos f.w))
  have hmask := bitAt_mod_two_pow (w.mask / 2 ^ f.lo) hb
  have hdata := bitAt_mod_two_pow (w.data / 2 ^ f.lo) hb
  simp only [bitAt_eq_testBit] at hkeep hmask hdata ⊢
  rw [Wr.merge, Nat.testBit_or, hkeep, Nat.testBit_and, hmask, hdata]
  cases (w.mask / 2 ^ f.lo).testBit b <;> simp

theorem Wr.bitAt_wo (w : Wr) (f : Fld) {b : Nat} (hb : b < f.w) :
    bitAt (w.wo f) b = (bitAt (w.mask / 2 ^ f.lo) b && bitAt (w.data / 2 ^ f.lo) b) := by
  rw [Wr.wo, w.bitAt_merge f 0 hb]
  cases bitAt (w.mask / 2 ^ f.lo) b <;> simp [bitAt]

theorem Wr.wo_lt (w : Wr) (f : Fld) : w.wo f < 2 ^ f.w := by
  rw [Wr.wo, Wr.merge, Nat.zero_and, Nat.zero_or]
  exact Nat.and_lt_two_pow _ (Nat.mod_lt _ (Nat.two_pow_pos f.w))

/-- A full mask makes a field that starts at bit 0 what the data say. -/
theorem Wr.merge_full {w : Wr} {f : Fld} (hlo : f.lo = 0) (hm : w.mask = 2 ^ f.w - 1) (hd : w.data < 2 ^ f.w) (old : Nat) :
    w.merge f old = w.data := by
  have hmod : (2 ^ f.w - 1) % 2 ^ f.w = 2 ^ f.w - 1 := Nat.mod_eq_of_lt (Nat.sub_lt (Nat.two_pow_pos _) Nat.one_pos)
  simp [Wr.merge, hlo, hm, hmod, Nat.and_two_pow_sub_one_of_lt_two_pow hd, Nat.mod_eq_of_lt hd]

/-! ### A field's write, by its access type (R5) -/

theorem wrField_stored {f : Fld} (w : Wr) (i j : Nat) (s : Body) (ha : f.acc = .rw ∨ f.acc = .rws) (hv : f.view = false) :
    wrField w i j s f = s.set f (w.fld s f i j) i j := by
  rcases ha with ha | ha <;> simp [wrField, ha, hv]

theorem wrField_w1c {f : Fld} (w : Wr) (i j : Nat) (s : Body) (ha : f.acc = .w1c) :
    wrField w i j s f = s.set f (s.get f i j &&& (2 ^ f.w - 1 - w.wo f)) i j := by
  simp [wrField, ha]

theorem wrField_unwritten {f : Fld} (w : Wr) (i j : Nat) (s : Body) (ha : f.acc = .ro ∨ f.acc = .wo) :
    wrField w i j s f = s := by
  rcases ha with ha | ha <;> simp [wrField, ha]

theorem bitAt_wrField_stored {f : Fld} {b : Nat} (w : Wr) (i j : Nat) (s : Body) (ha : f.acc = .rw ∨ f.acc = .rws)
    (hv : f.view = false) (hb : b < f.w) :
    bitAt ((wrField w i j s f).get f i j) b =
      if bitAt (w.mask / 2 ^ f.lo) b then bitAt (w.data / 2 ^ f.lo) b else bitAt (s.get f i j) b := by
  rw [wrField_stored w i j s ha hv, Body.get_set_self, bitAt_mod_two_pow _ hb, Wr.fld, w.bitAt_merge f _ hb]

theorem bitAt_wrField_w1c {f : Fld} {b : Nat} (w : Wr) (i j : Nat) (s : Body) (ha : f.acc = .w1c) (hb : b < f.w) :
    bitAt ((wrField w i j s f).get f i j) b =
      (bitAt (s.get f i j) b && !(bitAt (w.mask / 2 ^ f.lo) b && bitAt (w.data / 2 ^ f.lo) b)) := by
  rw [wrField_w1c w i j s ha, Body.get_set_self, bitAt_mod_two_pow _ hb, bitAt_and_compl _ hb (w.wo_lt f), w.bitAt_wo f hb]

/-- A field's write reaches no other field. -/
theorem get_wrField_ne {f g : Fld} {i j i' j' : Nat} (w : Wr) (s : Body) (h : f.key i j ≠ g.key i' j') :
    (wrField w i j s f).get g i' j' = s.get g i' j' := by
  cases ha : f.acc <;> cases hv : f.view <;> simp [wrField, ha, hv, Body.get_set_ne _ _ h]

/-! ### A request at one register (R490, R499, R500) -/

section
variable {off : Nat} {w : Wr} {f : RegInfo → Nat → Nat → State → State} {s : State} {r : RegInfo} {n j : Nat}

/-- Nothing happens to a register that is absent, closed or gated, or of an interleave list that names nothing. -/
theorem atReg_dead (h : regAt off = none ∨ regOpen s off = false ∨ ilvShown s off = false) : atReg off w f s = (true, s) := by
  unfold atReg
  cases hr : regAt off with
  | none => rfl
  | some rn =>
    have hd : regOpen s off = false ∨ ilvShown s off = false := h.resolve_left (by simp [hr])
    simp [hd]

theorem atReg_live (hr : regAt off = some (r, n)) (ho : regOpen s off = true) (hi : ilvShown s off = true) :
    atReg off w f s = match selItem s r.sel n with
      | none => (true, s)
      | some j => (false, if w.mask = 0 then s else f r n j s) := by
  unfold atReg
  simp only [hr, ho, hi]
  rfl

theorem atReg_unselected (hr : regAt off = some (r, n)) (ho : regOpen s off = true) (hi : ilvShown s off = true)
    (hj : selItem s r.sel n = none) : atReg off w f s = (true, s) := by
  rw [atReg_live hr ho hi, hj]

theorem atReg_selected (hr : regAt off = some (r, n)) (ho : regOpen s off = true) (hi : ilvShown s off = true)
    (hj : selItem s r.sel n = some j) : atReg off w f s = (false, if w.mask = 0 then s else f r n j s) := by
  rw [atReg_live hr ho hi, hj]

end

theorem exec_registerWrite {s : State} (off data mask : Nat) (h : s.pwr.off = false) :
    exec (.registerWrite off data mask) s = .next (writeReg off { data := data, mask := mask } s).2 :=
  congrArg Host.Outcome.next (live_on _ h)

/-- A write that names some bit of a live register acts as the register's own write says. -/
theorem exec_registerWrite_live {s : State} {off mask n j : Nat} {r : RegInfo} (data : Nat) (h : s.pwr.off = false)
    (hr : regAt off = some (r, n)) (ho : regOpen s off = true) (hi : ilvShown s off = true)
    (hj : selItem s r.sel n = some j) (hm : mask ≠ 0) :
    exec (.registerWrite off data mask) s = .next (wrReg { data := data, mask := mask } r n j s) := by
  rw [exec_registerWrite _ _ _ h, writeReg, atReg_selected hr ho hi hj]
  simp [hm]

/-- A write whose selector names nothing, or that names no bit, changes nothing (R494, R500). -/
theorem exec_registerWrite_ineffective {s : State} {off mask n : Nat} {r : RegInfo} (data : Nat) (h : s.pwr.off = false)
    (hr : regAt off = some (r, n)) (ho : regOpen s off = true) (hi : ilvShown s off = true)
    (hn : selItem s r.sel n = none ∨ mask = 0) : exec (.registerWrite off data mask) s = .next s := by
  rw [exec_registerWrite _ _ _ h, writeReg]
  cases hj : selItem s r.sel n with
  | none => rw [atReg_unselected hr ho hi hj]
  | some j =>
    have hm : mask = 0 := hn.resolve_left (by simp [hj])
    rw [atReg_selected hr ho hi hj]
    simp [hm]

/-- Outside the interleave registers nothing depends on the region that XLT_ILV_SEL selects. -/
theorem ilvShown_above {off : Nat} (s : State) (h : 0x60068 < off) : ilvShown s off = true := by
  simp [ilvShown, h]

/-! ### Two registers that act as their fields' access types state -/

/-- CFG_PARTIAL_T and CFG_EVENT as R501 lists them. -/
def cfgPartialT : RegInfo :=
  { name := "CFG_PARTIAL_T", off := 0x1B0048, stride := 0x8, count := 1, sel := .none, fields := [R.CFG_PARTIAL_T.T] }

def cfgEvent : RegInfo :=
  { name := "CFG_EVENT", off := 0x1B0050, stride := 0x8, count := 1, sel := .none,
    fields := [R.CFG_EVENT.APPLIED, R.CFG_EVENT.REFUSED] }

theorem regAt_cfgPartialT : regAt 0x1B0048 = some (cfgPartialT, 0) := by decide +kernel

theorem regAt_cfgEvent : regAt 0x1B0050 = some (cfgEvent, 0) := by decide +kernel

theorem wrReg_cfgPartialT (w : Wr) (s : State) :
    wrReg w cfgPartialT 0 0 s = s.set R.CFG_PARTIAL_T.T (w.fld s.toBody R.CFG_PARTIAL_T.T) := rfl

theorem wrReg_cfgEvent (w : Wr) (s : State) :
    wrReg w cfgEvent 0 0 s = s.upd (fun b => wrField w 0 0 (wrField w 0 0 b R.CFG_EVENT.APPLIED) R.CFG_EVENT.REFUSED) := rfl

theorem exec_registerWrite_cfgPartialT {s : State} {data : Nat} (h : s.pwr.off = false) (ho : regOpen s 0x1B0048 = true)
    (hd : data < 2 ^ 64) :
    exec (.registerWrite 0x1B0048 data (2 ^ 64 - 1)) s = .next (s.set R.CFG_PARTIAL_T.T data) := by
  rw [exec_registerWrite_live data h regAt_cfgPartialT ho (ilvShown_above s (by decide)) rfl (by decide), wrReg_cfgPartialT,
    Wr.fld, Wr.merge_full rfl rfl hd]

/-- A 1 written to CFG_EVENT.REFUSED clears it and leaves APPLIED, which the mask does not name. -/
theorem exec_registerWrite_cfgEvent {s : State} (h : s.pwr.off = false) (ho : regOpen s 0x1B0050 = true) :
    ∃ t, exec (.registerWrite 0x1B0050 1 1) s = .next t ∧ t.get R.CFG_EVENT.REFUSED = 0 ∧
      bitAt (t.get R.CFG_EVENT.APPLIED) 0 = bitAt (s.get R.CFG_EVENT.APPLIED) 0 ∧
      t = s.upd (fun b => { b with regs := t.regs }) := by
  refine ⟨_, exec_registerWrite_live 1 h regAt_cfgEvent ho (ilvShown_above s (by decide)) rfl (by decide), ?_, ?_, rfl⟩
  · rw [wrReg_cfgEvent, State.upd_toBody, wrField_w1c _ _ _ _ rfl, Body.get_set_self]
    simp [Wr.wo, Wr.merge, R.CFG_EVENT.REFUSED]
  · rw [wrReg_cfgEvent, State.upd_toBody, get_wrField_ne _ _ (by decide), bitAt_wrField_w1c _ _ _ _ rfl (by decide)]
    simp [R.CFG_EVENT.APPLIED, bitAt]

/-! ### Answers of the window: the timestamp, the notes and MGT_WIN_ERR (R42, R43, R495, R499) -/

@[simp] theorem leBytes_length (n v : Nat) : (leBytes n v).length = n := by
  induction n generalizing v with
  | zero => rfl
  | succ n ih => simp [leBytes, ih]

theorem stampBlk_length (s : Body) (region : Nat) (gap : Bool) : (stampBlk s region gap).1.length = 12 := by
  unfold stampBlk
  dsimp only
  split <;> simp

/-- A timestamp draws free values and changes nothing else. -/
theorem stampBlk_drawn (s : Body) (region : Nat) (gap : Bool) :
    (stampBlk s region gap).2 = { s with drawn := (stampBlk s region gap).2.drawn } := by
  unfold stampBlk
  dsimp only
  split <;> rfl

@[simp] theorem stampBlk_regs (s : Body) (region : Nat) (gap : Bool) : (stampBlk s region gap).2.regs = s.regs := by
  rw [stampBlk_drawn]

@[simp] theorem stampBlk_near (s : Body) (region : Nat) (gap : Bool) : (stampBlk s region gap).2.near = s.near := by
  rw [stampBlk_drawn]

@[simp] theorem stampBlk_far (s : Body) (region : Nat) (gap : Bool) : (stampBlk s region gap).2.far = s.far := by
  rw [stampBlk_drawn]

@[simp] theorem stampBlk_acts (s : Body) (region : Nat) (gap : Bool) : (stampBlk s region gap).2.acts = s.acts := by
  rw [stampBlk_drawn]

@[simp] theorem stampBlk_out (s : Body) (region : Nat) (gap : Bool) : (stampBlk s region gap).2.out = s.out := by
  rw [stampBlk_drawn]

/-- An error of the window is recorded in registers alone. -/
theorem winErr_regs (s : State) (cc cmd eid off : Nat) :
    winErr s cc cmd eid off = s.upd (fun b => { b with regs := (winErr s cc cmd eid off).regs }) := rfl

/-- Notes are recorded in registers alone. -/
theorem winNotes_regs (s : State) (cmd eid off : Nat) (ns : List Bool) :
    winNotes s cmd eid off ns = s.upd (fun b => { b with regs := (winNotes s cmd eid off ns).regs }) := by
  unfold winNotes
  split
  · exact winErr_regs ..
  · rfl

@[simp] theorem winNotes_near (s : State) (cmd eid off : Nat) (ns : List Bool) :
    (winNotes s cmd eid off ns).near = s.near := by rw [winNotes_regs]; rfl

@[simp] theorem winNotes_far (s : State) (cmd eid off : Nat) (ns : List Bool) :
    (winNotes s cmd eid off ns).far = s.far := by rw [winNotes_regs]; rfl

@[simp] theorem winNotes_acts (s : State) (cmd eid off : Nat) (ns : List Bool) :
    (winNotes s cmd eid off ns).acts = s.acts := by rw [winNotes_regs]; rfl

@[simp] theorem winNotes_out (s : State) (cmd eid off : Nat) (ns : List Bool) :
    (winNotes s cmd eid off ns).out = s.out := by rw [winNotes_regs]; rfl

@[simp] theorem winNotes_sec (s : State) (cmd eid off : Nat) (ns : List Bool) :
    (winNotes s cmd eid off ns).sec = s.sec := by rw [winNotes_regs]; rfl

/-- A request without a note leaves MGT_WIN_ERR as it is. -/
theorem winNotes_unnoted {s : State} {cmd eid off : Nat} {ns : List Bool} (h : ns.all (fun n => !n) = true) :
    winNotes s cmd eid off ns = s := by
  have hf : (List.range ns.length).find? (fun i => ns.getD i false) = none := by
    refine List.find?_eq_none.2 fun i hi => ?_
    have hlt : i < ns.length := List.mem_range.1 hi
    have hnote := List.all_eq_true.1 h ns[i] (List.getElem_mem hlt)
    rw [List.getD_eq_getElem?_getD, List.getElem?_eq_getElem hlt, Option.getD_some]
    simpa using hnote
  simp only [winNotes, hf]

/-! ### The requests (R493 to R497) -/

/-- The state once the timestamp of an answer is drawn. -/
def stamped (s : State) : State := s.upd (fun d => (stampBlk d 0 false).2)

/-- The note bits of a read of `k` registers from `off`. -/
def readNotes (s : State) (off k : Nat) : List Bool := (List.range k).map (fun i => (readReg s (off + 8 * i)).2)

/-- The data of a read's answer. -/
def readAnswer (s : State) (off k : Nat) (time : List Byte) : List Byte :=
  List.replicate 3 0 ++ time ++ leBytes 8 (noteBits (readNotes s off k)) ++
    (List.range k).flatMap (fun i => leBytes 8 (readReg s (off + 8 * i)).1)

/-- The data of a write's answer. -/
def writeAnswer (time : List Byte) (ns : List Bool) : List Byte := List.replicate 3 0 ++ time ++ leBytes 8 (noteBits ns)

/-- The note bits of a REG_WRITE, and the state that its writes make. -/
def appliedWrites (b : List Byte) (s : State) : List Bool × State :=
  regWrites (le b 4 4) b (List.range (le b 8 1)) (stamped s)

/-- The state that keeps a write and its answer for a repetition (R497). -/
def State.recordWrite (s : State) (inst : Nat) (b : List Byte) (k : Nat) (r : List Byte) : State :=
  { s with mgt := { s.mgt with lastWrite := some (inst, b, k, r) } }

section
variable {s : State} {eid inst cmd : Nat} {b : List Byte}

theorem exec_regRead (h : s.pwr.off = false) : exec (.regRead eid inst cmd b) s = .next (regAccess eid inst cmd b s) :=
  congrArg Host.Outcome.next (live_on _ h)

theorem exec_regWrite (h : s.pwr.off = false) : exec (.regWrite eid inst b) s = .next (regAccess eid inst 2 b s) :=
  congrArg Host.Outcome.next (live_on _ h)

theorem regAccess_refused (h : winCode s eid cmd b ≠ 0) :
    regAccess eid inst cmd b s =
      (winErr s (winCode s eid cmd b) cmd eid (le b 4 4)).send (.mgmt eid 1 (winCode s eid cmd b) []) := if_pos h

theorem regAccess_read (h : winCode s eid 1 b = 0) : regAccess eid inst 1 b s = regRead eid b s := by
  simp [regAccess, h]

theorem regAccess_write (h : winCode s eid 2 b = 0) : regAccess eid inst 2 b s = regWrite eid inst b s := by
  simp [regAccess, h]

theorem regRead_eq (eid : Nat) (b : List Byte) (s : State) :
    regRead eid b s =
      (winNotes (stamped s) 1 eid (le b 4 4) (readNotes s (le b 4 4) (le b 8 1))).send
        (.mgmt eid 1 0 (readAnswer s (le b 4 4) (le b 8 1) (stampBlk s.toBody 0 false).1)) := by
  simp only [regRead, readNotes, readAnswer, List.map_map, List.flatMap_map, Function.comp_def]
  rfl

/-- A write that is repeated in time is answered again, and does nothing else (R497). -/
theorem regWrite_again {k : Nat} {r : List Byte} (hl : s.mgt.lastWrite = some (inst, b, k, r)) (ht : s.tick ≤ k + 400000) :
    regWrite eid inst b s = s.send (.mgmt eid 1 0 r) := by
  simp [regWrite, hl, ht, mgmtSend]

/-- A write that is not a repetition in time is applied, its notes are recorded, and its answer is kept (R496, R497). -/
theorem regWrite_new (h : ∀ k r, s.mgt.lastWrite = some (inst, b, k, r) → k + 400000 < s.tick) :
    regWrite eid inst b s =
      let w := appliedWrites b s
      let r := writeAnswer (stampBlk s.toBody 0 false).1 w.1
      ((winNotes w.2 2 eid (le b 4 4) w.1).recordWrite inst b s.tick r).send (.mgmt eid 1 0 r) := by
  unfold regWrite
  cases hl : s.mgt.lastWrite with
  | none => rfl
  | some l =>
    obtain ⟨i, c, k, r⟩ := l
    have hold : ¬ (i = inst ∧ c = b ∧ s.tick ≤ k + 400000) := by
      rintro ⟨rfl, rfl, ht⟩
      have := h k r hl
      omega
    simp only [if_neg hold]
    rfl

/-- An accepted read answers every register in turn, and disturbs none (R493). -/
theorem exec_regRead_accepted (h : s.pwr.off = false) (hc : winCode s eid 1 b = 0) :
    let off := le b 4 4
    let k := le b 8 1
    ∃ t time, exec (.regRead eid inst 1 b) s = .next t ∧ time.length = 12 ∧
      t.out = .mgmt eid 1 0 (readAnswer s off k time) :: s.out ∧
      ((readNotes s off k).all (fun n => !n) = true → t.regs = s.regs) ∧
      t.near = s.near ∧ t.far = s.far ∧ t.sec = s.sec ∧ t.acts = s.acts := by
  refine ⟨_, (stampBlk s.toBody 0 false).1, by rw [exec_regRead h, regAccess_read hc, regRead_eq], stampBlk_length .., ?_, ?_, ?_⟩
  · simp [State.send, Body.send, stamped]
  · intro hn
    simp [State.send, stamped, winNotes_unnoted hn]
  · simp [State.send, stamped]

/-- An accepted write that is not a repetition applies its registers, and its answer is kept for a repetition (R496, R497). -/
theorem exec_regWrite_new (h : s.pwr.off = false) (hc : winCode s eid 2 b = 0)
    (hl : ∀ k r, s.mgt.lastWrite = some (inst, b, k, r) → k + 400000 < s.tick) :
    ∃ t time, exec (.regWrite eid inst b) s = .next t ∧ time.length = 12 ∧
      let w := appliedWrites b s
      let r := writeAnswer time w.1
      t.out = .mgmt eid 1 0 r :: w.2.out ∧ t.mgt.lastWrite = some (inst, b, s.tick, r) ∧
      (w.1.all (fun n => !n) = true → t.regs = w.2.regs) ∧ t.near = w.2.near ∧ t.acts = w.2.acts ∧ t.sec = w.2.sec := by
  refine ⟨_, (stampBlk s.toBody 0 false).1, by rw [exec_regWrite h, regAccess_write hc, regWrite_new hl], stampBlk_length ..,
    ?_, rfl, ?_, ?_⟩
  · simp [State.send, Body.send, State.recordWrite]
  · intro hn
    simp [State.send, State.recordWrite, winNotes_unnoted hn]
  · simp [State.send, State.recordWrite]

/-- A refused read changes no register but MGT_WIN_ERR (R495). -/
theorem exec_regRead_refused (h : s.pwr.off = false) (hc : winCode s eid cmd b ≠ 0) :
    exec (.regRead eid inst cmd b) s =
      .next ((winErr s (winCode s eid cmd b) cmd eid (le b 4 4)).send (.mgmt eid 1 (winCode s eid cmd b) [])) := by
  rw [exec_regRead h, regAccess_refused hc]

theorem exec_regWrite_refused (h : s.pwr.off = false) (hc : winCode s eid 2 b ≠ 0) :
    exec (.regWrite eid inst b) s =
      .next ((winErr s (winCode s eid 2 b) 2 eid (le b 4 4)).send (.mgmt eid 1 (winCode s eid 2 b) [])) := by
  rw [exec_regWrite h, regAccess_refused hc]

theorem exec_regWrite_again {k : Nat} {r : List Byte} (h : s.pwr.off = false) (hc : winCode s eid 2 b = 0)
    (hl : s.mgt.lastWrite = some (inst, b, k, r)) (ht : s.tick ≤ k + 400000) :
    exec (.regWrite eid inst b) s = .next (s.send (.mgmt eid 1 0 r)) := by
  rw [exec_regWrite h, regAccess_write hc, regWrite_again hl ht]

end

/-! ### The obligation -/

/-- Settles O60. Its three parts are the requests of the endpoint, the write of one register and the bits of one field. -/
theorem registerWindow : Obligations.RegisterWindow := by
  refine ⟨fun s eid inst b h => ?_, fun s off data mask h => ?_, fun s w f i j b hb hv => ?_⟩
  · refine ⟨fun _ => exec_regRead_refused h, exec_regWrite_refused h, exec_regRead_accepted h,
      fun hc => ⟨?_, exec_regWrite_new h hc⟩⟩
    rintro c j r hl rfl ht
    exact exec_regWrite_again h hc hl ht
  · refine ⟨fun hd => ?_, fun r n hr ho hi => ⟨exec_registerWrite_ineffective data h hr ho hi,
      fun j hj hm => exec_registerWrite_live data h hr ho hi hj hm⟩, exec_registerWrite_cfgPartialT h, exec_registerWrite_cfgEvent h⟩
    rw [exec_registerWrite _ _ _ h, writeReg, atReg_dead hd]
  · refine ⟨fun ha => bitAt_wrField_stored w i j s ha hv hb, fun ha => bitAt_wrField_w1c w i j s ha hb, fun ha => ?_⟩
    rw [wrField_unwritten w i j s ha]

end Sys2Proof.Machine
end

section
/-!
SUPPORT. The timebase (R20, R36, R37, R41, R47): what a timer arms, what an armed entry does at its boundary, and what one
knot makes of the log line and of the calendar.
-/

namespace Sys2Proof.Machine

/-! ### Timers and control registers (R36, R37, R47) -/

section
variable {s : State} {b : Body}

theorem syncLoss_due (hd : disc b = discLOCKED) (hl : b.knot.lastSync + 1024 ≤ b.tick) :
    syncLoss b = b.arm (.disc discHOLDOVER) := if_pos ⟨hd, decide_eq_true hl⟩

theorem holdoverEnd_due (hd : disc b = discHOLDOVER) (hk : 2 ^ 23 ≤ b.get R.KNT_HOLD.HOLD_KNOTS + 1) :
    holdoverEnd b = b.arm (.disc discUNLOCKED) := if_pos ⟨hd, hk⟩

theorem exec_syncLossTimeout (h : s.pwr.off = false) : exec .syncLossTimeout s = .next (s.upd syncLoss) :=
  congrArg Host.Outcome.next (live_on _ h)

theorem exec_holdoverExhausted (h : s.pwr.off = false) : exec .holdoverExhausted s = .next (s.upd holdoverEnd) :=
  congrArg Host.Outcome.next (live_on _ h)

/-- ENABLE and ROLE stand in one register, which is open or closed as a whole. -/
theorem exec_discControls (h : s.pwr.off = false) (ho : regOpen s (R.KNT_DISC.ENABLE.at 0) = true) :
    exec .disciplineEnable s = .next (s.set R.KNT_DISC.ENABLE 1) ∧
    exec .disciplineDisable s = .next (s.set R.KNT_DISC.ENABLE 0) ∧
    exec .roleMaster s = .next (s.set R.KNT_DISC.ROLE 1) ∧
    exec .roleFollower s = .next (s.set R.KNT_DISC.ROLE 0) :=
  ⟨congrArg Host.Outcome.next (onReg_on _ h ho), congrArg Host.Outcome.next (onReg_on _ h ho),
    congrArg Host.Outcome.next (onReg_on (f := R.KNT_DISC.ROLE) _ h ho),
    congrArg Host.Outcome.next (onReg_on (f := R.KNT_DISC.ROLE) _ h ho)⟩

theorem exec_calTimeWrite (h : s.pwr.off = false) (ho : regOpen s (R.CAL_TIME.SEC.at 0) = true) (sec frac : Nat) :
    exec (.calTimeWrite sec frac) s = .next (s.upd (fun b => calWrite b sec frac)) :=
  congrArg Host.Outcome.next (onReg_on _ h ho)

/-- In MASTER and LOCKED a calendar write is ignored (R47). -/
theorem calWrite_steered (hd : disc b = discMASTER ∨ disc b = discLOCKED) (sec frac : Nat) : calWrite b sec frac = b :=
  if_pos hd

theorem calWrite_own (hm : disc b ≠ discMASTER) (hl : disc b ≠ discLOCKED) (sec frac : Nat) :
    calWrite b sec frac =
      ({ (b.set R.CAL_TIME.SEC sec).set R.CAL_TIME.FRAC frac with knot := { b.knot with calRem := 0 } }.set
        R.CAL_STATUS.VALID 1).set R.MGT_READY.CAL 1 :=
  if_neg (not_or.2 ⟨hm, hl⟩)

/-- A calendar write outside MASTER and LOCKED sets the time, VALID and the readiness bit CAL, and drops the remainder (R47). -/
theorem exec_calTimeWrite_own (h : s.pwr.off = false) (ho : regOpen s (R.CAL_TIME.SEC.at 0) = true) {sec frac : Nat}
    (hs : sec < 2 ^ 48) (hf : frac < 65536) (hm : disc s.toBody ≠ discMASTER) (hl : disc s.toBody ≠ discLOCKED) :
    ∃ t, exec (.calTimeWrite sec frac) s = .next t ∧ t.get R.CAL_TIME.SEC = sec ∧ t.get R.CAL_TIME.FRAC = frac ∧
      t.get R.CAL_STATUS.VALID = 1 ∧ t.get R.MGT_READY.CAL = 1 ∧
      t = s.upd (fun b => { b with regs := t.regs, knot := { b.knot with calRem := 0 } }) := by
  have hsec : sec % 2 ^ R.CAL_TIME.SEC.w = sec := Nat.mod_eq_of_lt hs
  have hfrac : frac % 2 ^ R.CAL_TIME.FRAC.w = frac := Nat.mod_eq_of_lt hf
  have hnew := calWrite_own hm hl sec frac
  refine ⟨_, exec_calTimeWrite h ho sec frac, ?_, ?_, ?_, ?_, ?_⟩
  · rw [State.upd_toBody, hnew, Body.get_set_ne _ _ (by decide), Body.get_set_ne _ _ (by decide)]
    exact (Body.get_set_ne _ _ (by decide)).trans ((Body.get_set_self ..).trans hsec)
  · rw [State.upd_toBody, hnew, Body.get_set_ne _ _ (by decide), Body.get_set_ne _ _ (by decide)]
    exact (Body.get_set_self ..).trans hfrac
  · rw [State.upd_toBody, hnew, Body.get_set_ne _ _ (by decide), Body.get_set_self]
    rfl
  · rw [State.upd_toBody, hnew, Body.get_set_self]
    rfl
  · refine upd_congr ?_
    rw [State.upd_toBody, hnew]
    rfl

/-! An armed entry is made where its cause still holds (R36). -/

theorem discNow_holdover (hd : disc b = discLOCKED) (hl : b.knot.lastSync + 1024 ≤ b.tick) :
    discNow b discHOLDOVER = enterDisc b discHOLDOVER :=
  (if_pos ⟨hd, decide_eq_true hl⟩ : (if disc b = discLOCKED ∧ syncLost b then enterDisc b discHOLDOVER else b) = _)

theorem discNow_unlocked (hd : disc b = discHOLDOVER) (hk : 2 ^ 23 ≤ b.get R.KNT_HOLD.HOLD_KNOTS) :
    discNow b discUNLOCKED = enterDisc b discUNLOCKED :=
  (if_pos ⟨hd, hk⟩ :
    (if disc b = discHOLDOVER ∧ 2 ^ 23 ≤ b.get R.KNT_HOLD.HOLD_KNOTS then enterDisc b discUNLOCKED else b) = _)

theorem discNow_acquire (hm : disc b ≠ discMASTER) (hi : disc b ≠ discINIT) :
    discNow b discACQUIRE = enterDisc b discACQUIRE := if_neg (not_or.2 ⟨hm, hi⟩)

end

/-! ### The calendar of one knot (R47) -/

/-- A field reads from the registers alone. -/
theorem Body.get_congr {s t : Body} {g : Fld} {i j : Nat} (h : t.regs = s.regs) : t.get g i j = s.get g i j := by
  rw [Body.get, Body.get, h]

theorem calUnits_congr {s t : Body} (hs : t.get R.CAL_TIME.SEC = s.get R.CAL_TIME.SEC)
    (hf : t.get R.CAL_TIME.FRAC = s.get R.CAL_TIME.FRAC) : calUnits t = calUnits s := by
  rw [calUnits, calUnits, hs, hf]

/-- The calendar counts modulo 2^64 units of 1/65,536 s. -/
theorem calUnits_setCal (s : Body) (u : Nat) : calUnits (setCal s u) = u % 2 ^ 64 := by
  have hs : (setCal s u).get R.CAL_TIME.SEC = u / 65536 % 2 ^ 48 := by
    rw [setCal, Body.get_set_ne _ _ (by decide), Body.get_set_self]
    rfl
  have hf : (setCal s u).get R.CAL_TIME.FRAC = u % 65536 % 2 ^ 16 := Body.get_set_self ..
  rw [calUnits, hs, hf]
  omega

theorem get_setCal_ne {g : Fld} {i j : Nat} (s : Body) (u : Nat) (hs : R.CAL_TIME.SEC.key 0 0 ≠ g.key i j)
    (hf : R.CAL_TIME.FRAC.key 0 0 ≠ g.key i j) : (setCal s u).get g i j = s.get g i j := by
  rw [setCal, Body.get_set_ne _ _ hf, Body.get_set_ne _ _ hs]

theorem calUnits_set_steered (s : Body) (v : Nat) : calUnits (s.set R.CAL_STATUS.STEERED v) = calUnits s :=
  calUnits_congr (Body.get_set_ne _ _ (by decide)) (Body.get_set_ne _ _ (by decide))

theorem calTick_valid {s : Body} (h : s.get R.CAL_STATUS.VALID ≠ 0) :
    calTick s = setCal { s with knot := { s.knot with calRem := (s.knot.calRem + 16384) % 1000000 } }
      (calUnits s + (s.knot.calRem + 16384) / 1000000) := if_pos (decide_eq_true h)

theorem calTick_stopped {s : Body} (h : s.get R.CAL_STATUS.VALID = 0) : calTick s = s :=
  if_neg (by simp [Body.on, h])

theorem get_calTick_ne {g : Fld} {i j : Nat} (s : Body) (hs : R.CAL_TIME.SEC.key 0 0 ≠ g.key i j)
    (hf : R.CAL_TIME.FRAC.key 0 0 ≠ g.key i j) : (calTick s).get g i j = s.get g i j := by
  by_cases h : s.get R.CAL_STATUS.VALID = 0
  · rw [calTick_stopped h]
  · rw [calTick_valid h, get_setCal_ne _ _ hs hf]
    exact Body.get_congr rfl

theorem calTick_frame (s : Body) : calTick s = { s with regs := (calTick s).regs, knot := (calTick s).knot } := by
  by_cases h : s.get R.CAL_STATUS.VALID = 0
  · rw [calTick_stopped h]
  · rw [calTick_valid h]
    rfl

/-! ### One knot (R20, R36) -/

/-- The first part of `tickKnot`: the log line, the count of boundaries and HOLD_KNOTS. -/
def lineTick (s : Body) : Body :=
  let s := { s.set R.KNT_COUNT.COUNT (s.now + 1) with tick := s.tick + 1 }
  if disc s = discHOLDOVER then s.sat R.KNT_HOLD.HOLD_KNOTS 1 else s

theorem tickKnot_eq (s : Body) : tickKnot s =
    if disc (lineTick s) = discMASTER || disc (lineTick s) = discLOCKED then
      (setCal (lineTick s) (calOfLine (lineTick s))).set R.CAL_STATUS.STEERED 1
    else calTick ((lineTick s).set R.CAL_STATUS.STEERED 0) := rfl

theorem lineTick_regs (s : Body) : lineTick s = { s with regs := (lineTick s).regs, tick := s.tick + 1 } := by
  unfold lineTick
  dsimp only
  split <;> rfl

/-- The line's part of a knot writes COUNT and HOLD_KNOTS alone. -/
theorem get_lineTick {g : Fld} {i j : Nat} (s : Body) (hc : R.KNT_COUNT.COUNT.key 0 0 ≠ g.key i j)
    (hh : R.KNT_HOLD.HOLD_KNOTS.key 0 0 ≠ g.key i j) : (lineTick s).get g i j = s.get g i j := by
  have hcount := Body.get_set_ne s (s.now + 1) hc
  unfold lineTick
  dsimp only
  split
  · exact (Body.get_set_ne _ _ hh).trans hcount
  · exact hcount

theorem lineTick_now (s : Body) : (lineTick s).now = (s.now + 1) % 2 ^ 64 := by
  have hcount : (s.set R.KNT_COUNT.COUNT (s.now + 1)).get R.KNT_COUNT.COUNT = (s.now + 1) % 2 ^ 64 := Body.get_set_self ..
  unfold lineTick Body.now
  dsimp only
  split
  · exact (Body.get_set_ne _ _ (by decide)).trans hcount
  · exact hcount

theorem disc_lineTick (s : Body) : disc (lineTick s) = disc s := get_lineTick s (by decide) (by decide)

theorem lineTick_holdover {s : Body} (h : disc s = discHOLDOVER) : (lineTick s).get R.KNT_HOLD.HOLD_KNOTS =
    min (s.get R.KNT_HOLD.HOLD_KNOTS + 1) (2 ^ R.KNT_HOLD.HOLD_KNOTS.w - 1) := by
  have hd : disc { s.set R.KNT_COUNT.COUNT (s.now + 1) with tick := s.tick + 1 } = discHOLDOVER :=
    (Body.get_set_ne s _ (by decide)).trans h
  have hk : (s.set R.KNT_COUNT.COUNT (s.now + 1)).get R.KNT_HOLD.HOLD_KNOTS = s.get R.KNT_HOLD.HOLD_KNOTS :=
    Body.get_set_ne s _ (by decide)
  unfold lineTick
  dsimp only
  rw [if_pos hd]
  refine (Body.get_set_self ..).trans ?_
  exact (congrArg (fun k => min (k + 1) (2 ^ 24 - 1) % 2 ^ 24) hk).trans (Nat.mod_eq_of_lt (by omega))

theorem calUnits_lineTick (s : Body) : calUnits (lineTick s) = calUnits s :=
  calUnits_congr (get_lineTick s (by decide) (by decide)) (get_lineTick s (by decide) (by decide))

theorem calOfLine_lineTick (s : Body) : calOfLine (lineTick s) = epochUnits s + (s.now + 1) % 2 ^ 64 * 16384 / 1000000 := by
  rw [calOfLine, lineTick_now, epochUnits, get_lineTick s (by decide) (by decide), get_lineTick s (by decide) (by decide),
    epochUnits]

section
variable {s : Body}

theorem tickKnot_steered (h : disc s = discMASTER ∨ disc s = discLOCKED) :
    tickKnot s = (setCal (lineTick s) (calOfLine (lineTick s))).set R.CAL_STATUS.STEERED 1 := by
  rw [tickKnot_eq, disc_lineTick, if_pos (by simpa using h)]

theorem tickKnot_own (hm : disc s ≠ discMASTER) (hl : disc s ≠ discLOCKED) :
    tickKnot s = calTick ((lineTick s).set R.CAL_STATUS.STEERED 0) := by
  rw [tickKnot_eq, disc_lineTick, if_neg (by simp [hm, hl])]

/-- The calendar's part of a knot writes CAL_TIME, STEERED and the remainder alone. -/
theorem get_tickKnot {g : Fld} {i j : Nat} (hs : R.CAL_TIME.SEC.key 0 0 ≠ g.key i j) (hf : R.CAL_TIME.FRAC.key 0 0 ≠ g.key i j)
    (ht : R.CAL_STATUS.STEERED.key 0 0 ≠ g.key i j) : (tickKnot s).get g i j = (lineTick s).get g i j := by
  rw [tickKnot_eq]
  split
  · rw [Body.get_set_ne _ _ ht, get_setCal_ne _ _ hs hf]
  · rw [get_calTick_ne _ hs hf, Body.get_set_ne _ _ ht]

theorem tickKnot_frame (s : Body) :
    tickKnot s = { s with regs := (tickKnot s).regs, knot := (tickKnot s).knot, tick := s.tick + 1 } := by
  rw [tickKnot_eq, lineTick_regs]
  split
  · rfl
  · rw [calTick_frame]
    rfl

/-- In MASTER and LOCKED the calendar takes the time that the log line stands for (R47). -/
theorem tickKnot_steers (h : disc s = discMASTER ∨ disc s = discLOCKED) :
    calUnits (tickKnot s) = (epochUnits s + (s.now + 1) % 2 ^ 64 * 16384 / 1000000) % 2 ^ 64 ∧
      (tickKnot s).get R.CAL_STATUS.STEERED = 1 := by
  rw [tickKnot_steered h]
  refine ⟨?_, Body.get_set_self ..⟩
  rw [calUnits_set_steered, calUnits_setCal, calOfLine_lineTick]

theorem valid_lineTick (s : Body) :
    ((lineTick s).set R.CAL_STATUS.STEERED 0).get R.CAL_STATUS.VALID = s.get R.CAL_STATUS.VALID :=
  (Body.get_set_ne _ _ (by decide)).trans (get_lineTick s (by decide) (by decide))

theorem lineTick_knot (s : Body) : ((lineTick s).set R.CAL_STATUS.STEERED 0).knot = s.knot := by
  rw [Body.set_knot, lineTick_regs]

/-- Elsewhere a valid calendar goes on by itself (R47). -/
theorem tickKnot_runs (hm : disc s ≠ discMASTER) (hl : disc s ≠ discLOCKED) (hv : s.get R.CAL_STATUS.VALID ≠ 0) :
    calUnits (tickKnot s) = (calUnits s + (s.knot.calRem + 16384) / 1000000) % 2 ^ 64 ∧
      (tickKnot s).knot = { s.knot with calRem := (s.knot.calRem + 16384) % 1000000 } ∧
      (tickKnot s).get R.CAL_STATUS.STEERED = 0 := by
  have hrun := calTick_valid (s := (lineTick s).set R.CAL_STATUS.STEERED 0) (by rwa [valid_lineTick])
  rw [tickKnot_own hm hl]
  refine ⟨?_, ?_, ?_⟩
  · rw [hrun, calUnits_setCal, calUnits_set_steered, calUnits_lineTick, lineTick_knot]
  · rw [hrun, lineTick_knot]
    rfl
  · exact (get_calTick_ne _ (by decide) (by decide)).trans (Body.get_set_self ..)

/-- A calendar that is not valid stands still (log entry 105). -/
theorem tickKnot_stands (hm : disc s ≠ discMASTER) (hl : disc s ≠ discLOCKED) (hv : s.get R.CAL_STATUS.VALID = 0) :
    calUnits (tickKnot s) = calUnits s ∧ (tickKnot s).get R.CAL_STATUS.STEERED = 0 := by
  rw [tickKnot_own hm hl, calTick_stopped (by rwa [valid_lineTick])]
  exact ⟨(calUnits_set_steered ..).trans (calUnits_lineTick s), Body.get_set_self ..⟩

end

theorem cellLoss_off {b : Body} (h : b.pwr.off = true) : cellLoss b = { b with pwr := { b.pwr with cellLost := true } } :=
  if_pos h

theorem cellLoss_on {b : Body} (h : b.pwr.off = false) : cellLoss b = b := if_neg (by simp [h])

/-! ### The obligations -/

/-- Settles O10: the timers arm, the controls are stored, and the boundary makes the entries whose cause still holds. -/
theorem disciplineTimersAndControls : Obligations.DisciplineTimersAndControls := by
  refine ⟨fun s h => ⟨fun hd hl => ?_, fun hd hk => ?_, exec_discControls h, fun ho sec frac hs hf =>
      ⟨exec_calTimeWrite_own h ho hs hf, fun hd => ?_⟩⟩,
    fun b => ⟨discNow_holdover, discNow_unlocked, discNow_acquire⟩⟩
  · exact (exec_syncLossTimeout h).trans (congrArg _ (upd_congr (syncLoss_due hd hl)))
  · exact (exec_holdoverExhausted h).trans (congrArg _ (upd_congr (holdoverEnd_due hd hk)))
  · exact (exec_calTimeWrite h ho sec frac).trans (congrArg _ (upd_congr (g := id) (calWrite_steered hd sec frac)))

/-- Settles O11, by the three ways in which the calendar goes on: steered, by itself, and not at all. -/
theorem logLineAndCalendar : Obligations.LogLineAndCalendar := by
  refine ⟨fun s => ⟨?_, ?_, fun h => ?_, tickKnot_steers, tickKnot_runs, tickKnot_stands, ?_⟩,
    fun s => ⟨fun h => ?_, fun h => ?_⟩⟩
  · exact (get_tickKnot (by decide) (by decide) (by decide)).trans (lineTick_now s)
  · rw [tickKnot_frame]
  · exact (get_tickKnot (by decide) (by decide) (by decide)).trans (lineTick_holdover h)
  · rw [tickKnot_frame]
  · exact congrArg Host.Outcome.next (upd_congr (cellLoss_off h))
  · exact congrArg Host.Outcome.next (upd_congr (g := id) (cellLoss_on h))

end Sys2Proof.Machine
end

section
/-!
SUPPORT. The boundary (R22, R23, R438, R439): the stages of a powered package, and what a POWER reset puts in place of those
that follow it.
-/

namespace Sys2Proof.Machine

/-- The stages that follow the armed actions `as` of a boundary; `n0` messages had been sent before it. -/
def knotRest (n0 : Nat) (as : List Act) (s : State) : State :=
  alertBoundary (knotRecords ((signedNow as (s.upd knotDue)).upd (fun x => knotIssue
    (knotServe (as.contains .obsFlush) (knotSweeps (knotLinks n0 x))))))

section
variable {s : State} {b : BoundaryIn}

theorem knotBoundary_off (h : s.pwr.off = true) : knotBoundary b s = if s.pwr.cellLost then s else s.upd calTick := if_pos h

theorem knotBoundary_on {u : State} (h : s.pwr.off = false) (hu : s.upd (fun s => knotCommit b (knotClose b s)) = u) :
    knotBoundary b s = if (knotActs u).pwr.off then knotActs u else knotRest s.out.length u.acts (knotActs u) := by
  subst hu
  exact if_neg (by simp [h])

/-- The armed actions in their order, then the resets, where no debug read is armed. -/
theorem knotActs_undebugged (h : s.acts.contains .dbgRead = false) :
    knotActs s = resetsNow (s.upd (fun b => b.acts.foldl actNow { b with acts := [] })) (armedResets s.acts) := by
  unfold knotActs
  dsimp only
  rw [if_neg (by rw [h]; decide)]
  rfl

theorem resetsNow_nil (s : State) : resetsNow s [] = s := rfl

/-- A POWER reset governs every other (R439). -/
theorem resetsNow_power {rs : List (Nat × Nat)} {k c : Nat} (h : rs.find? (fun r => r.1 == 4) = some (k, c)) :
    resetsNow s rs = powerReset s c := by
  simp [resetsNow, h]

/-- A POWER reset holds the package until POWER_ON (R438). -/
theorem powerReset_off (s : State) (cause : Nat) : (powerReset s cause).pwr.off = true := rfl

end

/-- Settles O12, by what the armed actions come to: themselves, or a POWER reset in place of all that follows. -/
theorem boundaryRunsArmedActions : Obligations.BoundaryRunsArmedActions := by
  refine fun b s => ⟨fun h => congrArg Host.Outcome.next (knotBoundary_off h), fun h => ?_⟩
  intro u hdbg v
  have hacts : knotActs u = resetsNow v (armedResets u.acts) := knotActs_undebugged hdbg
  have hrun := knotBoundary_on (u := u) h rfl
  refine ⟨fun hnone hon => ?_, fun c hpower => ⟨?_, powerReset_off v c⟩⟩
  · have hv : knotActs u = v := by rw [hacts, hnone, resetsNow_nil]
    rw [hv, if_neg (by simp [hon])] at hrun
    exact congrArg Host.Outcome.next hrun
  · have hv : knotActs u = powerReset v c := by rw [hacts, resetsNow_power hpower]
    rw [hv, if_pos (powerReset_off v c)] at hrun
    exact congrArg Host.Outcome.next hrun

end Sys2Proof.Machine
end

section
/-!
SUPPORT. Orders for the next boundary (R23): what a command does that is given through registers, and arms an action.
-/

namespace Sys2Proof.Machine

/-! ### Closed registers (R490, R499) -/

section
variable {s : State} {f : Fld} {n : Nat} {g : State → State}

theorem via_closed {off : Nat} (h : regOpen s off = false) : via off g s = s := by simp [via, h]

theorem onReg_closed (h : regOpen s (f.at n) = false) : onReg f n g s = s := by
  unfold onReg live
  rw [via_closed h, ite_self]

theorem onPid_closed {pid : Nat} (h : regOpen s (f.at 0) = false) : onPid f pid g s = s := by
  have hv : viaPid (f.at 0) pid g s = s := if_neg (by simp [h])
  unfold onPid live
  rw [hv, ite_self]

theorem onQue_closed {pid q : Nat} (h : regOpen s (f.at 0) = false) : onQue f pid q g s = s := by
  unfold onQue live
  dsimp only
  rw [via_closed h, ite_self]

theorem onLink_closed {k : Nat} (h : regOpen s (f.at n) = false) : onLink k (onReg f n g) s = s := by
  unfold onLink
  rw [onReg_closed h, ite_self]

theorem onOne_closed {m k : Nat} (h : regOpen s (f.at n) = false) : onOne m k (onReg f n g) s = s := by
  unfold onOne
  rw [onReg_closed h, ite_self]

end

/-! ### What an order comes to -/

/-- `t` is what an order makes of `s`: the action `a` is armed where its operands are right and its registers are open, and
nothing happens where one of them is not. -/
def Ordered (s : State) (ok : Bool) (offs : List Nat) (a : Act) (t : State) : Prop :=
  (ok = true → (∀ o ∈ offs, regOpen s o = true) → t = s.arm a) ∧ ((∃ o ∈ offs, regOpen s o = false) → t = s)

section
variable {s : State} {f : Fld} {n : Nat} {g : State → State} {ok : Bool} {a : Act}

/-- An order through one register. -/
theorem ordered_one {off : Nat} {t : State} (ho : ok = true → regOpen s off = true → t = s.arm a)
    (hc : regOpen s off = false → t = s) : Ordered s ok [off] a t :=
  ⟨fun hok h => ho hok (h off (List.mem_singleton.2 rfl)), fun ⟨_, hm, h⟩ => hc (List.mem_singleton.1 hm ▸ h)⟩

theorem ordered_onReg (hon : s.pwr.off = false) (hg : ok = true → g s = s.arm a) : Ordered s ok [f.at n] a (onReg f n g s) :=
  ordered_one (fun hok ho => (onReg_on g hon ho).trans (hg hok)) onReg_closed

theorem ordered_onPid {pid : Nat} (hon : s.pwr.off = false) (hg : g s = s.arm a) :
    Ordered s (pidOk s.toBody pid) [f.at 0] a (onPid f pid g s) :=
  ordered_one (fun hok ho => (onPid_on g hon ho hok).trans hg) onPid_closed

theorem ordered_onQue {pid q : Nat} (hon : s.pwr.off = false) (hg : g s = s.arm a) :
    Ordered s (match partDef s.toBody pid with | some d => decide (q < d.nq) | none => false) [f.at 0] a
      (onQue f pid q g s) := by
  refine ordered_one (fun hok ho => ?_) onQue_closed
  cases hp : partDef s.toBody pid with
  | none => simp [hp] at hok
  | some d => exact (onQue_on g hon ho hp (by simpa [hp] using hok)).trans hg

theorem ordered_onLink (hon : s.pwr.off = false) (hg : g s = s.arm a) :
    Ordered s (decide (n < 48)) [f.at n] a (onLink n (onReg f n g) s) :=
  ordered_one (fun hok ho => (onLink_on _ hon (of_decide_eq_true hok)).trans ((onReg_on g hon ho).trans hg)) onLink_closed

theorem ordered_onOne {k : Nat} (hon : s.pwr.off = false) (hg : g s = s.arm a) :
    Ordered s (decide (n < k)) [f.at n] a (onOne k n (onReg f n g) s) :=
  ordered_one (fun hok ho => (onOne_on _ hon (of_decide_eq_true hok)).trans ((onReg_on g hon ho).trans hg)) onOne_closed

/-- What the package orders of itself goes through no register. -/
theorem ordered_live (hon : s.pwr.off = false) (hg : g s = s.arm a) : Ordered s true [] a (live g s) :=
  ⟨fun _ _ => (live_on g hon).trans hg, fun ⟨_, hm, _⟩ => absurd hm List.not_mem_nil⟩

theorem revokeArm_idle {b : Body} (h : (!b.on R.PRT_CMD_STATUS.BUSY) = true) : revokeArm b a = b.arm a :=
  if_neg (by simpa using h)

/-- A revocation is refused BUSY while one runs (R388). -/
theorem revokeArm_busy {b : Body} (h : b.get R.PRT_CMD_STATUS.BUSY ≠ 0) :
    revokeArm b a = (b.set R.PRT_CMD_STATUS.ERR 1).set R.PRT_CMD_STATUS.CAUSE 1 := if_pos (decide_eq_true h)

/-- Every command of `orderRow` arms its action, or does nothing: what its operands must name decides by which of the gates
above it acts. -/
theorem exec_order {i : Instr} {offs : List Nat} (hrow : orderRow s.toBody i = some (ok, offs, a)) (hon : s.pwr.off = false) :
    ∃ t, exec i s = .next t ∧ Ordered s ok offs a t := by
  cases i <;> cases hrow
  case retrain => exact ⟨_, rfl, ordered_onLink hon rfl⟩
  case rootWrite => exact ⟨_, rfl, ordered_onPid hon rfl⟩
  case resume => exact ⟨_, rfl, ordered_onQue hon rfl⟩
  case cacheInvalidate | sampleEnable => exact ⟨_, rfl, ordered_onOne hon rfl⟩
  case unhitch | revokeGrant | revokeExtent =>
    exact ⟨_, rfl, ordered_onReg hon (fun hok => upd_congr (revokeArm_idle hok))⟩
  case undervolt | overvolt | thermalTrip => exact ⟨_, rfl, ordered_live hon rfl⟩
  case chipReset internal =>
    cases internal with
    | true => exact ⟨_, rfl, ordered_live hon rfl⟩
    | false => exact ⟨_, rfl, ordered_onReg hon (fun _ => rfl)⟩
  all_goals exact ⟨_, rfl, ordered_onReg hon (fun _ => rfl)⟩

end

/-! ### Orders through registers that keep what was written (R106, R134, R196, R338, R367, R462) -/

section
variable {s : State}

theorem low_busy {f : Body → Body} {a : Act} (hb : s.get R.PRT_CMD_STATUS.BUSY ≠ 0) (hf : f s.toBody = revokeArm s.toBody a) :
    low f s = (s.set R.PRT_CMD_STATUS.ERR 1).set R.PRT_CMD_STATUS.CAUSE 1 :=
  low_congr (g := fun b => (b.set R.PRT_CMD_STATUS.ERR 1).set R.PRT_CMD_STATUS.CAUSE 1) (hf.trans (revokeArm_busy hb))

theorem exec_unhitch_busy (hon : s.pwr.off = false) (hb : s.get R.PRT_CMD_STATUS.BUSY ≠ 0)
    (ho : regOpen s (R.PRT_HITCH_CMD.OP.at 0) = true) (c p : Nat) :
    exec (.unhitch c p) s = .next ((s.set R.PRT_CMD_STATUS.ERR 1).set R.PRT_CMD_STATUS.CAUSE 1) :=
  congrArg Host.Outcome.next ((onReg_on _ hon ho).trans (low_busy hb rfl))

theorem exec_revokeGrant_busy (hon : s.pwr.off = false) (hb : s.get R.PRT_CMD_STATUS.BUSY ≠ 0)
    (ho : regOpen s (R.PRT_GRANT_CMD.OP.at 0) = true) (c p x : Nat) :
    exec (.revokeGrant c p x) s = .next ((s.set R.PRT_CMD_STATUS.ERR 1).set R.PRT_CMD_STATUS.CAUSE 1) :=
  congrArg Host.Outcome.next ((onReg_on _ hon ho).trans (low_busy hb rfl))

theorem exec_revokeExtent_busy (hon : s.pwr.off = false) (hb : s.get R.PRT_CMD_STATUS.BUSY ≠ 0)
    (ho : regOpen s (R.PRT_GRANT_CMD.OP.at 0) = true) (p x : Nat) (z : Bool) :
    exec (.revokeExtent p x z) s = .next ((s.set R.PRT_CMD_STATUS.ERR 1).set R.PRT_CMD_STATUS.CAUSE 1) :=
  congrArg Host.Outcome.next ((onReg_on _ hon ho).trans (low_busy hb rfl))

/-- The size that a new base takes is the staged one: the write of the base's register does not reach it (R106). -/
theorem rebaseArm_eq (pid win : Nat) (v wr : Bool) (base : Nat) (b : Body) :
    rebaseArm pid win v wr base b =
      (((b.set R.XLT_WIN_BASE.V (b2n v) win pid).set R.XLT_WIN_BASE.WR (b2n wr) win pid).set R.XLT_WIN_BASE.BASE base win pid).arm
        (.rebase pid win { v := v, wr := wr, base := base, size := b.get R.XLT_WIN_SIZE.SIZE win pid }) := by
  have hsize : ∀ (x : Body) (f : Fld) (n : Nat), f.off = 0x61000 → f.stride = 0x10 → f.lo < 64 →
      (x.set f n win pid).get R.XLT_WIN_SIZE.SIZE win pid = x.get R.XLT_WIN_SIZE.SIZE win pid := by
    intro x f n hoff hstr hlo
    refine Body.get_set_ne x n (Fld.key_ne_off hlo (by decide) ?_)
    simp only [hoff, hstr, R.XLT_WIN_SIZE.SIZE]
    omega
  unfold rebaseArm
  dsimp only
  rw [hsize _ _ _ rfl rfl (by decide), hsize _ _ _ rfl rfl (by decide), hsize _ _ _ rfl rfl (by decide)]

theorem exec_rebase (hon : s.pwr.off = false) (ho : regOpen s (R.XLT_WIN_BASE.BASE.at 0) = true) {pid win : Nat}
    (v wr : Bool) (base : Nat) (hp : pidOk s.toBody pid = true) (hw : win < 64) :
    exec (.rebase pid win v wr base) s =
      .next ((((s.set R.XLT_WIN_BASE.V (b2n v) win pid).set R.XLT_WIN_BASE.WR (b2n wr) win pid).set
        R.XLT_WIN_BASE.BASE base win pid).arm
        (.rebase pid win { v := v, wr := wr, base := base, size := s.get R.XLT_WIN_SIZE.SIZE win pid })) :=
  have harm := congrArg s.upd (funext (rebaseArm_eq pid win v wr base))
  congrArg Host.Outcome.next ((onPid_on _ hon ho hp).trans ((onOne_on _ hon hw).trans harm))

theorem exec_dirLookup (hon : s.pwr.off = false) (ho : regOpen s (R.DIR_LOOK_LINE.LINE.at 0) = true) {line : Nat}
    (hl : line < 2 ^ 38) :
    exec (.dirLookup line) s = .next (((s.set R.DIR_LOOK_LINE.LINE line).set R.DIR_LOOK_LINE.DONE 0).arm (.dirLook line)) := by
  have harm : low (dirLook line) s =
      ((s.set R.DIR_LOOK_LINE.LINE line).set R.DIR_LOOK_LINE.DONE 0).arm (.dirLook (line % 2 ^ 38)) := rfl
  rw [Nat.mod_eq_of_lt hl] at harm
  exact congrArg Host.Outcome.next ((onReg_on _ hon ho).trans harm)

theorem exec_txnLookup (hon : s.pwr.off = false) (ho : regOpen s (R.TXN_SEL.OCID.at 0) = true) {ocid sid : Nat}
    (hc : ocid < 8192) (hs : sid < 2 ^ 24) :
    exec (.txnLookup ocid sid) s = .next (((s.set R.TXN_SEL.OCID ocid).set R.TXN_SEL.ID sid).arm (.txnLook ocid sid)) := by
  have harm : low (txnSel ocid sid) s =
      ((s.set R.TXN_SEL.OCID ocid).set R.TXN_SEL.ID sid).arm (.txnLook (ocid % 8192) (sid % 2 ^ 24)) := rfl
  rw [Nat.mod_eq_of_lt hc, Nat.mod_eq_of_lt hs] at harm
  exact congrArg Host.Outcome.next ((onReg_on _ hon ho).trans harm)

/-- Both values of ENABLE are kept, and ordered for the boundary (R196). -/
theorem exec_queueSwitch (hon : s.pwr.off = false) (ho : regOpen s (R.QUE_CTRL.ENABLE.at 0) = true) {pid q : Nat} {d : PartDef}
    (hp : partDef s.toBody pid = some d) (hq : q < d.nq) :
    exec (.queueEnable pid q) s = .next ((s.set R.QUE_CTRL.ENABLE 1 0 (pid * 64 + q)).arm (.queEnable (pid * 64 + q))) ∧
    exec (.queueDisable pid q) s = .next ((s.set R.QUE_CTRL.ENABLE 0 0 (pid * 64 + q)).arm (.queDisable (pid * 64 + q))) :=
  ⟨congrArg Host.Outcome.next (onQue_on _ hon ho hp hq), congrArg Host.Outcome.next (onQue_on _ hon ho hp hq)⟩

/-- The fields that go with a MODE are kept, and the MODE is ordered (R367). -/
theorem onReg_shadowWrite (hon : s.pwr.off = false) (ho : regOpen s (R.STO_SHADOW.MODE.at 0) = true) {m : Nat} (hm : m < 4)
    (src pid n : Nat) :
    onReg R.STO_SHADOW.MODE 0 (low (shadowWrite m src pid n)) s =
      (((s.set R.STO_SHADOW.SRC_HID src).set R.STO_SHADOW.PID pid).set R.STO_SHADOW.NTRIAL n).arm (.shadowMode m) := by
  have harm : low (shadowWrite m src pid n) s =
      (((s.set R.STO_SHADOW.SRC_HID src).set R.STO_SHADOW.PID pid).set R.STO_SHADOW.NTRIAL n).arm (.shadowMode (m % 4)) := rfl
  rw [onReg_on _ hon ho, harm, Nat.mod_eq_of_lt hm]

theorem exec_debugReadSelect (hon : s.pwr.off = false) (ho : regOpen s (R.SEC_DBG_ADDR.UNIT.at 0) = true)
    (hd : dbgAddrOpen s = true) (unit addr : Nat) :
    exec (.debugReadSelect unit addr) s =
      .next (((s.set R.SEC_DBG_ADDR.UNIT unit).set R.SEC_DBG_ADDR.ADDR addr).arm .dbgRead) :=
  congrArg Host.Outcome.next ((onReg_on _ hon ho).trans (if_pos hd))

end

/-- Settles O34, by `exec_order` for what is armed alone, and one lemma for each command that keeps more. -/
theorem ordersAreArmed : Obligations.OrdersAreArmed := by
  refine ⟨fun i s ok offs a hrow hon => ?_, fun s hon hb => ⟨fun ho => exec_unhitch_busy hon hb ho, fun ho c p x z =>
    ⟨exec_revokeGrant_busy hon hb ho c p x, exec_revokeExtent_busy hon hb ho p x z⟩⟩, fun s hon => ?_⟩
  · obtain ⟨t, hexec, harmed, hclosed⟩ := exec_order hrow hon
    rw [hexec]
    exact ⟨fun hok ho => congrArg _ (harmed hok ho), fun hc => congrArg _ (hclosed hc)⟩
  · refine ⟨fun ho pid win v wr base => exec_rebase hon ho v wr base, fun ho line => exec_dirLookup hon ho,
      fun ho ocid sid => exec_txnLookup hon ho, fun ho pid q d => exec_queueSwitch hon ho, fun ho src pid n => ?_,
      fun ho hd => exec_debugReadSelect hon ho hd⟩
    have hwrite := fun (m : Nat) (hm : m < 4) =>
      congrArg (Host.Outcome.next (φ := Fault) (ρ := Refusal)) (onReg_shadowWrite hon ho hm src pid n)
    exact ⟨hwrite 0 (by decide), hwrite 1 (by decide), hwrite 2 (by decide), hwrite 3 (by decide)⟩

end Sys2Proof.Machine
end

section
/-!
SUPPORT. What stays as it is while records are written and lines are cleared for a write: the bytes of both tiers and the step
cores (R147, R470, R481).
-/

namespace Sys2Proof.Machine

/-- `t` holds the bytes of both tiers and the step cores of `s`. -/
def StoreKept (s t : Body) : Prop := t.near = s.near ∧ t.far = s.far ∧ t.cores = s.cores

section
variable {s t u : Body}

theorem StoreKept.refl (s : Body) : StoreKept s s := ⟨rfl, rfl, rfl⟩

theorem StoreKept.trans (h : StoreKept s t) (h' : StoreKept t u) : StoreKept s u := by
  obtain ⟨hn, hf, hc⟩ := h
  obtain ⟨hn', hf', hc'⟩ := h'
  exact ⟨hn'.trans hn, hf'.trans hf, hc'.trans hc⟩

theorem StoreKept.ite {p : Prop} [Decidable p] (ht : StoreKept s t) (hu : StoreKept s u) : StoreKept s (if p then t else u) := by
  split
  · exact ht
  · exact hu

theorem StoreKept.ctx (h : StoreKept s t) (c x : Nat) : t.ctx c x = s.ctx c x := by
  obtain ⟨-, -, hc⟩ := h
  rw [Body.ctx, Body.ctx, Body.core, Body.core, hc]

theorem StoreKept.obs (h : StoreKept s t) (o : ObsSt) : StoreKept s { t with obs := o } := h

theorem StoreKept.set (h : StoreKept s t) (f : Fld) (v i j : Nat) : StoreKept s (t.set f v i j) := h

theorem StoreKept.count (h : StoreKept s t) (f : Fld) (n i j : Nat) : StoreKept s (t.count f n i j) := by
  rw [Body.count_regs]
  exact h

/-- A fold keeps what each of its steps keeps. -/
theorem storeKept_foldl {α : Type} {f : Body → α → Body} (hf : ∀ s a, StoreKept s (f s a)) (l : List α) (s : Body) :
    StoreKept s (l.foldl f s) := by
  induction l generalizing s with
  | nil => exact .refl s
  | cons a l ih => exact (hf s a).trans (ih (f s a))

end

section
variable {s t : Body} (h : StoreKept s t)
include h

theorem StoreKept.stamp (region : Nat) : StoreKept s (stamp t region).2 := by
  unfold Machine.stamp
  dsimp only
  split <;> (rw [stampBlk_drawn]; exact h)

theorem StoreKept.timeOf (region : Nat) (boundary : Bool) : StoreKept s (timeOf t region boundary).2 := by
  unfold Machine.timeOf
  dsimp only
  split <;> exact h.stamp region

theorem StoreKept.gapWritten (time : List Byte) : StoreKept s (gapWritten t time) := .ite h h

theorem StoreKept.obsDrop (r : ObsRec) : StoreKept s (obsDrop t r) := by
  unfold Machine.obsDrop
  dsimp only
  exact .ite (.set (.count (.obs h _) ..) ..) (.set (.count (.obs h _) ..) ..)

/-- A record goes into staging (R470), not into the store. -/
theorem StoreKept.obsPut (dest ty rflags : Nat) (time body : List Byte) : StoreKept s (obsPut t dest ty rflags time body) := by
  unfold Machine.obsPut
  refine .ite h (.ite (h.obsDrop _) ?_)
  dsimp only
  split
  · exact .gapWritten (.obs h _) time
  · exact .gapWritten (.gapWritten (.obs (h.timeOf 0 true) _) _) _

theorem StoreKept.tracePut (ty : Nat) (time body : List Byte) : StoreKept s (tracePut t ty time body) := .ite h (h.obsPut ..)

/-- A watchpoint's hit is counted and recorded (R482). -/
theorem StoreKept.watchHit (w kind src opcode pid id addr lines tagseq : Nat) :
    StoreKept s (watchHit t w kind src opcode pid id addr lines tagseq) := by
  unfold Machine.watchHit
  extract_lets t₁ act body
  have h₁ : StoreKept s t₁ := h.count ..
  have h₂ := h₁.timeOf 0 false
  generalize Machine.timeOf t₁ 0 false = p at h₂ ⊢
  obtain ⟨time, t₂⟩ := p
  dsimp -zeta only at h₂ ⊢
  extract_lets t₃ t₄ t₅ o₅ t₆
  have h₃ : StoreKept s t₃ := .ite (h₂.tracePut ..) h₂
  have h₄ : StoreKept s t₄ := .ite (h₃.obsPut ..) h₃
  have h₅ : StoreKept s t₅ := .ite (h₄.set ..) h₄
  have h₆ : StoreKept s t₆ := .ite (h₅.obs _) h₅
  exact .ite (.obs (.obs h₆ _) _) (.obs h₆ _)

theorem StoreKept.watch (k kind src opcode pid id tagseq : Nat) (as : List Access) :
    StoreKept s (watch t k kind src opcode pid id tagseq as) := by
  refine h.trans (storeKept_foldl (fun t w => ?_) _ t)
  refine .ite ?_ (.refl t)
  dsimp only
  split
  · exact .refl t
  · exact .watchHit (.refl t) ..

theorem StoreKept.stepHit (c x : Nat) (v : Ctx) (as : List StepAcc) (write : Bool) : StoreKept s (stepHit t c x v as write) :=
  .ite h (h.watch ..)

/-! ### Lines cleared for a write (R147) -/

theorem StoreKept.setEntry (line : Nat) (e : Option DirEntry) : StoreKept s (setEntry t line e) := h

theorem StoreKept.loseLine (e : DirEntry) (cid knot cause : Nat) : StoreKept s (loseLine t e cid knot cause) :=
  .count (.set (.set (.set (.set (.set (h.setEntry ..) ..) ..) ..) ..) ..) ..

theorem StoreKept.reclaim (line : Nat) : StoreKept s (reclaim t line) := by
  unfold Machine.reclaim
  split
  · exact h
  · split
    · split
      · exact .ite (h.loseLine ..) h
      · exact h
    · exact .ite h (h.setEntry ..)
    · exact h

end

/-- One line of `clearForWrite`: whether the controller may write it, and the state. -/
def clearLine (s : Body) (l : Nat) : Bool × Body :=
  let s := reclaim s l
  match entryOf s l with
  | none => (true, s)
  | some e =>
    if e.st = .l then (true, s)
    else if (roundOn s l).isSome then (false, s)
    else if (roundTargets s e none).isEmpty then (true, setEntry s l none)
    else (false, (startRound s e .invalidate none false false).2)

theorem clearForWrite_cons (s : Body) (l : Nat) (ls : List Nat) :
    clearForWrite s (l :: ls) =
      ((clearLine s l).1 && (clearForWrite (clearLine s l).2 ls).1, (clearForWrite (clearLine s l).2 ls).2) := rfl

/-- Where no client holds a line, clearing it starts no round: no byte changes. -/
theorem clearLine_kept {s : Body} {l : Nat} (hok : (clearLine s l).1 = true) : StoreKept s (clearLine s l).2 := by
  have hr := (StoreKept.refl s).reclaim l
  revert hok
  unfold clearLine
  dsimp only
  split
  · exact fun _ => hr
  · split
    · exact fun _ => hr
    · split
      · exact fun _ => hr
      · split
        · exact fun _ => hr.setEntry ..
        · exact fun hok => nomatch hok

theorem clearForWrite_kept {s : Body} {ls : List Nat} (hok : (clearForWrite s ls).1 = true) :
    StoreKept s (clearForWrite s ls).2 := by
  induction ls generalizing s with
  | nil => exact .refl s
  | cons l ls ih =>
    rw [clearForWrite_cons] at hok ⊢
    obtain ⟨hline, hrest⟩ := Bool.and_eq_true_iff.1 hok
    exact (clearLine_kept hline).trans (ih hrest)

end Sys2Proof.Machine
end

section
/-!
SUPPORT. Commit (R22, R147, R148, R161): what a step's end leaves of the store and of its context.
-/

namespace Sys2Proof.Machine

/-! ### Contexts -/

theorem Body.core_setCore (s : Body) (c : Nat) (k : CoreSt) : (s.setCore c k).core c = k := AMap.get_put_self ..

theorem Body.ctx_setCtx (s : Body) (c x : Nat) (v : Ctx) : (s.setCtx c x v).ctx c x = v := by
  rw [Body.ctx, Body.setCtx, Body.core_setCore, AMap.get_put_self]

/-- The data cache takes a write (R165): no context changes. -/
theorem cacheWrite_ctx (s : Body) (c sga : Nat) (b : List Byte) (x : Nat) : (cacheWrite s c sga b).ctx c x = s.ctx c x := by
  unfold cacheWrite
  dsimp only
  split
  · rfl
  · rw [Body.ctx, Body.core_setCore]
    rfl

theorem cacheWrite_cores (s : Body) (c sga : Nat) (b : List Byte) :
    cacheWrite s c sga b = { s with cores := (cacheWrite s c sga b).cores } := by
  unfold cacheWrite
  dsimp only
  split <;> rfl

/-! ### The step's end (R24, R148, R229) -/

theorem foldl_tables {α : Type} {f : Body → α → Body} (hf : ∀ s a, ∃ m, f s a = { s with tables := m }) (l : List α) (s : Body) :
    ∃ m, l.foldl f s = { s with tables := m } := by
  induction l generalizing s with
  | nil => exact ⟨s.tables, rfl⟩
  | cons a l ih =>
    obtain ⟨m, hm⟩ := hf s a
    obtain ⟨m', hm'⟩ := ih (f s a)
    exact ⟨m', by rw [List.foldl_cons, hm', hm]⟩

/-- Released references are counted in the table slots alone (R229). -/
theorem plansDrop_tables (s : Body) (c x : Nat) (ps : List (List Nat)) : ∃ m, plansDrop s c x ps = { s with tables := m } :=
  foldl_tables (fun _ _ => ⟨_, rfl⟩) _ s

theorem plansDrop_kept (s : Body) (c x : Nat) (ps : List (List Nat)) : StoreKept s (plansDrop s c x ps) := by
  obtain ⟨m, hm⟩ := plansDrop_tables s c x ps
  rw [hm]
  exact .refl s

/-- The context of a step that runs again (R24): its command as it stood before the step. -/
theorem stepAgain_ctx (b : Body) (c x : Nat) :
    (stepAgain b c x).ctx c x = { b.ctx c x with
      plans := (b.ctx c x).plans.take (planCount (b.ctx c x)), issued := false, again := true, accs := [], cur := [],
      done := false, planned := none, status := 0, sub := 0, result := 0 } := by
  rw [stepAgain, Body.ctx_setCtx, (plansDrop_kept ..).ctx]

theorem stepAgain_near (b : Body) (c x : Nat) : (stepAgain b c x).near = b.near := by
  obtain ⟨hnear, -, -⟩ := plansDrop_kept b c x ((b.ctx c x).plans.drop (planCount (b.ctx c x)))
  rw [stepAgain, Body.setCtx_near, hnear]

theorem stepAgain_far (b : Body) (c x : Nat) : (stepAgain b c x).far = b.far := by
  obtain ⟨-, hfar, -⟩ := plansDrop_kept b c x ((b.ctx c x).plans.drop (planCount (b.ctx c x)))
  rw [stepAgain, Body.setCtx_far, hfar]

theorem stepAgain_spec (b : Body) (c x : Nat) :
    let t := stepAgain b c x
    (t.ctx c x).issued = false ∧ (t.ctx c x).again = true ∧ (t.ctx c x).accs = [] ∧ (t.ctx c x).steps = (b.ctx c x).steps ∧
      (t.ctx c x).done = false ∧ t.near = b.near ∧ t.far = b.far := by
  dsimp only
  rw [stepAgain_ctx]
  exact ⟨rfl, rfl, rfl, rfl, rfl, stepAgain_near b c x, stepAgain_far b c x⟩

/-! ### A write of one near-tier line (R344, R350, R357) -/

theorem linesOf_one {loc n : Nat} (hfit : loc % 128 + n ≤ 128) (hpos : 0 < n) : linesOf loc n = [loc / 128] := by
  have hlast : (loc + n - 1) / 128 + 1 - loc / 128 = 1 := by omega
  rw [linesOf, if_neg (by omega), hlast]
  rfl

theorem farPieces_one {loc sga n : Nat} (hfit : loc % 128 + n ≤ 128) (hpos : 0 < n) :
    farPieces [(loc, sga, n)] = [(loc, sga, n)] := by
  have hmin : min n (65536 - loc % 65536) = n := by omega
  have hcut : cutPages loc n 18 = [(loc, n)] := by
    rw [cutPages, if_neg (by omega)]
    dsimp only
    rw [hmin, Nat.sub_self, cutPages, if_pos rfl]
  simp [farPieces, hcut]

section
variable {s : Body} {loc : Nat} (ht : tierOf s loc = 3)
include ht

theorem isResident_nearTier : isResident s loc = true := by simp [isResident, ht]

theorem writesFar_nearTier : writesFar s loc = false := by simp [writesFar, ht]

/-- A write to the near tier puts its bytes there, and takes whole lines off the bad-line list (R350, R352). -/
theorem wr_nearTier (b : List Byte) :
    s.wr loc b = { s with near := putBytes s.near loc b, sto := (s.wr loc b).sto } := by
  have hclean : dirtyUnit s loc = s := if_neg (by simp [ht])
  have hfar : writesFar { s with near := putBytes s.near loc b } loc = false := writesFar_nearTier ht
  unfold Body.wr
  rw [hclean]
  dsimp only
  rw [if_pos (isResident_nearTier ht), hfar, if_neg Bool.false_ne_true]
  split <;> rfl

theorem farWrite_nearTier (w : FarFor) (new : List (Nat × List Byte)) (sga n : Nat) :
    farWrite s w new (loc, sga, n) = { s := s } := if_pos (by rw [writesFar_nearTier ht]; rfl)

/-- An engine's write of one near-tier line that is in no group puts its bytes there, with no message and no delta. -/
theorem engPut_nearTier {b : List Byte} {c sga c' x : Nat} (hfit : loc % 128 + b.length ≤ 128) (hpos : 0 < b.length)
    (hl : lineLost s (loc / 128) = false) (hec : ∀ g, regionOfLoc s loc = some g → ecGroup s g.id = none) :
    engPut s c sga loc b (some (c', x)) = cacheWrite ((s.wr loc b).setCtx c' x ((s.wr loc b).ctx c' x)) c sga b := by
  have hgroup : ∀ g, regionOfLoc (s.wr loc b) loc = some g → ecGroup (s.wr loc b) g.id = none := by
    rw [wr_nearTier ht]
    exact hec
  unfold engPut
  simp only [linesOf_one hfit hpos, farPieces_one hfit hpos, List.foldl_cons, List.foldl_nil, hl, Bool.false_eq_true, if_false,
    farWrite_nearTier ht, Option.toList_none, List.append_nil]
  cases hr : regionOfLoc (s.wr loc b) loc with
  | none => simp only [Option.toList_none, List.append_nil]
  | some g => simp only [hgroup g hr, Option.isSome_none, Bool.false_eq_true, if_false, Option.toList_none, List.append_nil]

end

/-! ### The parts of a commit -/

/-- The run for a committing step writes no byte of the store: what it writes is applied by its accesses. -/
theorem stepDone_store (s : Body) (c x : Nat) (f : Ctx → Eng (Nat × Nat × Nat)) :
    (stepDone s c x f).1.near = s.near ∧ (stepDone s c x f).1.far = s.far := by
  unfold stepDone
  dsimp only
  split
  split <;> exact ⟨rfl, rfl⟩

/-- The state in which a committing step's accesses take hold: its plans are released, and its context stands at the next
step. -/
def stepClosed (t : Body) (c x : Nat) (v : Ctx) (p : Nat) : Body :=
  let t := plansDrop t c x (v.plans.take (planCount v))
  let w := t.ctx c x
  t.setCtx c x { w with
    issued := false, again := false, steps := v.steps + 1, accs := [], tape := w.tape ++ w.cur, cur := [],
    plans := w.plans.drop (planCount v), progs := (if w.progs.isEmpty then [0] else w.progs) ++ [p] }

/-- A committed step is marked to the watchpoints and counted. -/
def stepCounted (t : Body) (c x : Nat) (v : Ctx) (as : List StepAcc) : Body :=
  let t := stepHit t c x v as true
  let r := runOf t c x
  (setRun t c x { r with steps := (r.steps + 1) % 2 ^ 32 }).count R.OBS_PART_CTR.COUNT 1 5 v.pid

theorem stepClosed_ctx (t : Body) (c x : Nat) (v : Ctx) (p : Nat) :
    ((stepClosed t c x v p).ctx c x).steps = v.steps + 1 ∧ ((stepClosed t c x v p).ctx c x).issued = false ∧
      ((stepClosed t c x v p).ctx c x).accs = [] := by
  rw [stepClosed, Body.ctx_setCtx]
  exact ⟨rfl, rfl, rfl⟩

/-- Closing a step changes table slots and contexts alone. -/
theorem stepClosed_frame (t : Body) (c x : Nat) (v : Ctx) (p : Nat) :
    ∃ m k, stepClosed t c x v p = { t with tables := m, cores := k } := by
  obtain ⟨m, hm⟩ := plansDrop_tables t c x (v.plans.take (planCount v))
  rw [stepClosed, hm]
  exact ⟨_, _, rfl⟩

theorem stepCounted_kept (t : Body) (c x : Nat) (v : Ctx) (as : List StepAcc) : StoreKept t (stepCounted t c x v as) :=
  .count (.obs ((StoreKept.refl t).stepHit c x v as true) _) ..

theorem commitAcc_put {s : Body} {a : StepAcc} {d : List Byte} {loc : Nat} (c x pid : Nat) (ha : a.act = .put d)
    (hloc : sgaHere s a.sga = some loc) : commitAcc c x pid s a = engPut s c a.sga loc d (some (c, x)) := by
  simp only [commitAcc, ha, hloc]

/-! ### What a commit comes to -/

section
variable {f : Ctx → Eng (Nat × Nat × Nat)} {b : Body} {c x : Nat} {v : Ctx}

theorem commitStep_unissued (hv : b.ctx c x = v) (hi : v.issued = false) : commitStep f b c x = b :=
  if_pos (by rw [hv, hi]; rfl)

/-- A line that is still held, or that a lock stops, makes the step run again. -/
theorem commitStep_held (hv : b.ctx c x = v) (hi : v.issued = true)
    (hs : (clearForWrite b (accLines b v.accs)).1 = false ∨
      (accLines b v.accs).any (fun l => lockBlocks b l true) = true) :
    commitStep f b c x = stepAgain (clearForWrite b (accLines b v.accs)).2 c x := by
  unfold commitStep
  dsimp only
  rw [hv, if_neg (by simp [hi]), if_pos (by simpa using hs)]

section
variable {a : StepAcc} {d : List Byte} (hv : b.ctx c x = v) (hi : v.issued = true)
  (hok : (clearForWrite b (accLines b v.accs)).1 = true)
  (hlock : (accLines b v.accs).any (fun l => lockBlocks b l true) = false) (has : v.accs = [a]) (ha : a.act = .put d)
include hv hi hok hlock has ha

/-- A step of one write commits, or fails at its line. -/
theorem commitStep_put :
    let t := (clearForWrite b (accLines b v.accs)).2
    commitStep f b c x = match writeBad t a.sga a.len with
      | some st => commitFail f t c x st
      | none => stepCounted (v.accs.foldl (commitAcc c x v.pid) (stepClosed (stepDone t c x f).1 c x v (stepDone t c x f).2))
          c x v v.accs := by
  have hgo : ¬ ((!(clearForWrite b (accLines b v.accs)).1) = true ∨
      (accLines b v.accs).any (fun l => lockBlocks b l true) = true) := by simp [hok, hlock]
  intro t
  unfold commitStep
  dsimp only
  rw [hv, if_neg (by simp [hi]), if_neg hgo]
  have hfind : v.accs.findSome? (fun a => if a.act.writes then writeBad t a.sga a.len else none) = writeBad t a.sga a.len := by
    simp [has, ha, EAct.writes]
  rw [if_neg (by simp [has, ha]), hfind]
  cases writeBad t a.sga a.len <;> rfl

end
end

/-! ### A step that cannot write its line (R148, R361) -/

section
variable {f : Ctx → Eng (Nat × Nat × Nat)} {s : Body} {c x st : Nat}

/-- The run ends the command with the line's own failure: the command is done, and the step wrote nothing. -/
theorem commitFail_over {e : Ev} {sub res : Nat} (h : stepRun s c x f = .over e st sub res) :
    let t := commitFail f s c x st
    (t.ctx c x).done = true ∧ (t.ctx c x).status = st ∧ (t.ctx c x).sub = sub ∧ (t.ctx c x).result = res ∧
      (t.ctx c x).planned = some (s.ctx c x).steps ∧ (t.ctx c x).issued = false ∧ (t.ctx c x).accs = [] ∧
      t.near = s.near ∧ t.far = s.far := by
  have hend : commitFail f s c x st = (e.s.storeOf s).setCtx c x { (e.s.storeOf s).ctx c x with
      issued := false, accs := [], cur := [], planned := some (s.ctx c x).steps, status := st, sub := sub, result := res,
      done := true } := by
    simp only [commitFail, h, if_true]
  dsimp only
  rw [hend, Body.ctx_setCtx]
  exact ⟨rfl, rfl, rfl, rfl, rfl, rfl, rfl, rfl, rfl⟩

theorem commitFail_again (h : ∀ e sub res, stepRun s c x f ≠ .over e st sub res) : commitFail f s c x st = stepAgain s c x := by
  unfold commitFail
  dsimp only
  split
  · next e st' sub res hrun =>
    have hst : st' ≠ st := fun he => h e sub res (he ▸ hrun)
    rw [if_neg hst]
  · rfl

end

/-! ### A committed write of one near-tier line -/

theorem lineLost_absent {s : Body} {line : Nat} (h : entryOf s line = none) : lineLost s line = false := by
  have hget : AMap.get none s.dir.entries line = none := h
  simp [lineLost, hget]

/-- The write of a committed step puts its bytes into the home slice, and nothing else of it changes; its context keeps the
state in which the step has been closed. -/
theorem stepCounted_put {u : Body} {a : StepAcc} {d : List Byte} {c x p loc : Nat} {v : Ctx} (ha : a.act = .put d)
    (hloc : sgaHere u a.sga = some loc) (hfit : loc % 128 + d.length ≤ 128) (hpos : 0 < d.length)
    (hent : entryOf u (loc / 128) = none) (ht : tierOf u loc = 3)
    (hec : ∀ g, regionOfLoc u loc = some g → ecGroup u g.id = none) :
    let w := stepClosed u c x v p
    let t := stepCounted (commitAcc c x v.pid w a) c x v [a]
    t.ctx c x = w.ctx c x ∧ t.near = (u.wr loc d).near ∧ t.far = (u.wr loc d).far := by
  intro w t
  obtain ⟨m, k, hw⟩ : ∃ m k, w = { u with tables := m, cores := k } := stepClosed_frame u c x v p
  have htier : tierOf w loc = 3 := by rw [hw]; exact ht
  have hput : commitAcc c x v.pid w a = cacheWrite ((w.wr loc d).setCtx c x ((w.wr loc d).ctx c x)) c a.sga d := by
    rw [commitAcc_put c x v.pid ha (by rw [hw]; exact hloc)]
    exact engPut_nearTier htier hfit hpos (by rw [hw]; exact lineLost_absent hent) (by rw [hw]; exact hec)
  have hkept : StoreKept (commitAcc c x v.pid w a) t := stepCounted_kept ..
  have ⟨hnear, hfar, _⟩ := hkept
  rw [hkept.ctx, hnear, hfar, hput]
  refine ⟨?_, ?_, ?_⟩
  · rw [cacheWrite_ctx, Body.ctx_setCtx, wr_nearTier htier]
    rfl
  · rw [cacheWrite_cores, Body.setCtx_near, wr_nearTier htier, wr_nearTier ht, hw]
  · rw [cacheWrite_cores, Body.setCtx_far, wr_nearTier htier, wr_nearTier ht, hw]

end Sys2Proof.Machine

namespace Sys2Proof

open Machine

/-- Settles O42: a step is held back, fails at its line, or commits its write. (`Machine.stepsCommit` is the model's own.) -/
theorem stepsCommit : Obligations.StepsCommit := by
  intro f b c x v hv
  refine ⟨commitStep_unissued hv, fun hi => ?_, hv ▸ stepAgain_spec b c x⟩
  refine ⟨commitStep_held hv hi, fun hok hlock a d has ha => ?_⟩
  have hcommit := commitStep_put (f := f) hv hi hok hlock has ha
  have hcleared := clearForWrite_kept hok
  have hctx : (clearForWrite b (accLines b v.accs)).2.ctx c x = v := (hcleared.ctx c x).trans hv
  generalize (clearForWrite b (accLines b v.accs)).2 = r at hcommit hcleared hctx ⊢
  dsimp only at hcommit
  refine ⟨fun st hbad => ?_, fun hgood u p loc hdone hloc hfit hpos hent ht hec => ?_⟩
  · rw [hbad] at hcommit
    dsimp only at hcommit ⊢
    rw [hcommit]
    exact ⟨fun e sub res hrun => hctx ▸ commitFail_over hrun, commitFail_again⟩
  · rw [hgood, hdone, has] at hcommit
    dsimp only [List.foldl_cons, List.foldl_nil] at hcommit ⊢
    rw [hcommit]
    obtain ⟨htctx, htnear, htfar⟩ := stepCounted_put (c := c) (x := x) (p := p) (v := v) ha hloc hfit hpos hent ht hec
    obtain ⟨hsteps, hissued, haccs⟩ := stepClosed_ctx u c x v p
    obtain ⟨hnear, hfar⟩ := stepDone_store r c x f
    obtain ⟨hrnear, hrfar, -⟩ := hcleared
    rw [hdone] at hnear hfar
    rw [htctx]
    exact ⟨hsteps, hissued, haccs, hnear.trans hrnear, hfar.trans hrfar, htnear, htfar⟩

end Sys2Proof
end

section
/-!
SUPPORT. Answers and discards (R71, R74, R82): what a counter, an error record and an answer change of the state.
-/

namespace Sys2Proof.Machine

/-! ### What a counter leaves as it is -/

@[simp] theorem Body.count_olp (s : Body) (f : Fld) (n i j : Nat) : (s.count f n i j).olp = s.olp := by rw [Body.count_regs]
@[simp] theorem Body.count_out (s : Body) (f : Fld) (n i j : Nat) : (s.count f n i j).out = s.out := by rw [Body.count_regs]

/-! ### Changes of registers alone -/

/-- `t` differs from `s` in registers at most. -/
def RegsOnly (s t : Body) : Prop := t = { s with regs := t.regs }

section
variable {s t : Body}

theorem RegsOnly.refl (s : Body) : RegsOnly s s := rfl

theorem RegsOnly.set (h : RegsOnly s t) (f : Fld) (v i j : Nat) : RegsOnly s (t.set f v i j) := by
  rw [RegsOnly] at h ⊢
  rw [Body.set, h]

theorem RegsOnly.count (h : RegsOnly s t) (f : Fld) (n i j : Nat) : RegsOnly s (t.count f n i j) := by
  rw [RegsOnly] at h ⊢
  rw [Body.count_regs, h]

theorem RegsOnly.ite {p : Prop} [Decidable p] {u : Body} (ht : RegsOnly s t) (hu : RegsOnly s u) :
    RegsOnly s (if p then t else u) := by
  split
  · exact ht
  · exact hu

/-- The record of a request that was discarded or refused stands in registers. -/
theorem RegsOnly.fabErr (h : RegsOnly s t) (st op link cid tag : Nat) (d : Bool) :
    RegsOnly s (fabErr t st op link cid tag d) :=
  ((((((h.set ..).set ..).set ..).set ..).set ..).set ..).set ..

theorem RegsOnly.fabDiscard (h : RegsOnly s t) (ctr : Fld) (op : Nat) (m : ReqMsg) : RegsOnly s (fabDiscard t ctr op m) :=
  (h.fabErr ..).count ..

theorem RegsOnly.oldKey (h : RegsOnly s t) (prev : Bool) : RegsOnly s (oldKey t prev) := .ite (h.count ..) h

theorem RegsOnly.statusCount (h : RegsOnly s t) (st : Nat) : RegsOnly s (statusCount t st) :=
  .ite (h.count ..) (.ite (h.count ..) (.ite (h.count ..) (.ite (h.count ..) (.ite (h.count ..) (.ite (h.count ..)
    (.ite (h.count ..) h))))))

theorem RegsOnly.suspicion (h : RegsOnly s t) (kind link : Nat) (isHid : Bool) (id : Nat) (clear : Bool) :
    RegsOnly s (suspicion t kind link isHid id clear) := by
  have hlog := (((((h.set R.FLT_SUSP_LOG.KIND kind 0 0).set R.FLT_SUSP_LOG.CLEAR (b2n clear) 0 0).set R.FLT_SUSP_LOG.LINK link
    0 0).set R.FLT_SUSP_LOG.IS_HID (b2n isHid) 0 0).set R.FLT_SUSP_LOG.ID id 0 0)
  exact .set (.ite (hlog.set ..) (.count (hlog.set ..) ..)) ..

end

@[simp] theorem oldKey_olp (s : Body) (prev : Bool) : (oldKey s prev).olp = s.olp := by rw [(RegsOnly.refl s).oldKey prev]
@[simp] theorem oldKey_dir (s : Body) (prev : Bool) : (oldKey s prev).dir = s.dir := by rw [(RegsOnly.refl s).oldKey prev]
@[simp] theorem oldKey_near (s : Body) (prev : Bool) : (oldKey s prev).near = s.near := by rw [(RegsOnly.refl s).oldKey prev]
@[simp] theorem oldKey_far (s : Body) (prev : Bool) : (oldKey s prev).far = s.far := by rw [(RegsOnly.refl s).oldKey prev]
@[simp] theorem oldKey_out (s : Body) (prev : Bool) : (oldKey s prev).out = s.out := by rw [(RegsOnly.refl s).oldKey prev]
@[simp] theorem oldKey_tick (s : Body) (prev : Bool) : (oldKey s prev).tick = s.tick := by rw [(RegsOnly.refl s).oldKey prev]

/-! ### Answers -/

/-- The response `r` answers the message `m`, on its port, to its CID, tag and issue knot (R74). -/
structure IsAnswer (m : ReqMsg) (status sub : Nat) (pay : List Byte) (r : Resp) : Prop where
  link : r.link = m.link
  cid : r.cid = m.cid
  tag : r.tag = m.tag
  issue : r.issue = m.issue
  status : r.status = status
  sub : r.sub = sub
  payload : r.payload = pay

/-- What answering makes of `s`: one answer goes out, registers change, and a free value may be drawn for HINT. -/
def Answers (s : Body) (m : ReqMsg) (status sub : Nat) (pay : List Byte) (t : Body) : Prop :=
  ∃ r, IsAnswer m status sub pay r ∧ t.out = .resp r :: s.out ∧ t = { s with regs := t.regs, out := t.out, drawn := t.drawn }

section
variable {s t u : Body} {m : ReqMsg} {status sub : Nat} {pay : List Byte}

theorem Answers.afterRegs (ha : Answers u m status sub pay t) (h : RegsOnly s u) : Answers s m status sub pay t := by
  obtain ⟨r, hr, hout, ht⟩ := ha
  rw [RegsOnly] at h
  rw [h] at hout ht
  exact ⟨r, hr, hout, ht⟩

theorem Answers.count (ha : Answers s m status sub pay t) (f : Fld) (n i j : Nat) :
    Answers s m status sub pay (t.count f n i j) := by
  obtain ⟨r, hr, hout, ht⟩ := ha
  refine ⟨r, hr, by rw [Body.count_out, hout], ?_⟩
  rw [Body.count_regs, ht]

theorem answers_send {n : Nat} {r : Resp} (ht : RegsOnly { s with drawn := n } t) (hr : IsAnswer m status sub pay r) :
    Answers s m status sub pay (t.send (.resp r)) := by
  rw [RegsOnly] at ht
  rw [ht]
  exact ⟨r, hr, rfl, rfl⟩

theorem answer_answers (s : Body) (op : Nat) (m : ReqMsg) (k : Nat) (prev : Bool) (status sub len arg : Nat) (pay : List Byte) :
    Answers s m status sub pay (answer s op m k prev status sub len arg pay) := by
  unfold answer
  extract_lets s₁ s₂
  have h₂ : RegsOnly s s₂ := .ite (.statusCount (.refl s) _) (.fabErr (.statusCount (.refl s) _) ..)
  split
  next hint s₃ hfree =>
  have h₃ : ∃ n, RegsOnly { s with drawn := n } s₃ := by
    rw [RegsOnly] at h₂
    split at hfree <;> cases hfree
    · exact ⟨s₂.drawn + 1, by rw [h₂]; rfl⟩
    · exact ⟨s.drawn, h₂⟩
  obtain ⟨n, h₃⟩ := h₃
  extract_lets s₄
  have h₄ : RegsOnly { s with drawn := n } s₄ := .ite (h₃.count ..) (.ite (h₃.count ..) h₃)
  exact answers_send h₄ ⟨rfl, rfl, rfl, rfl, rfl, rfl, rfl⟩

end

end Sys2Proof.Machine
end

section
/-!
SUPPORT. Requests and their header check (R71, R82): what a whole request comes to.
-/

namespace Sys2Proof.Machine

/-- Every command of `reqRow` hands its message to the transaction layer; a line given up lets waiting requests go on. -/
theorem exec_request {i : Instr} {op : Nat} {m : ReqMsg} {s : State} (hrow : reqRow i = some (op, m))
    (hon : s.pwr.off = false) :
    exec i s = .next (s.upd (fun b => if givesUp op then settle (receive op m b) else receive op m b)) := by
  cases i with
  | seizeDecide commit _ => cases commit <;> cases hrow <;> exact congrArg Host.Outcome.next (live_on _ hon)
  | _ => cases hrow <;> exact congrArg Host.Outcome.next (live_on _ hon)

section
variable {s : Body} {op : Nat} {m : ReqMsg}

theorem isBurst_iff : isBurst op m = true ↔ (op = opSTORE ∨ op = opCODEDSTORE) ∧ 16 ≤ m.len := by simp [isBurst]

theorem receive_whole (hport : portTakes s m.link = true) (hb : isBurst op m = false) :
    receive op m s = headerRun s op m := by
  have hwhole : ¬ ((op = opSTORE ∨ op = opCODEDSTORE) ∧ 16 ≤ m.len) := by simp [← isBurst_iff, hb]
  simp [receive, hport, hwhole]

theorem receive_head (hport : portTakes s m.link = true) (hb : isBurst op m = true) :
    receive op m s = burstHead s op m := by
  simp [receive, hport, isBurst_iff.1 hb]

/-! ### The four ways that a header check ends (R82) -/

section
variable {pay : List Byte} {prev : Bool} {rsvd : Nat}

theorem headerRun_unverified (hv : verified s op m = none) : headerRun s op m rsvd = fabDiscard s R.FAB_AUTH_FAIL.COUNT op m := by
  rw [verified] at hv
  simp only [headerRun, hv]

theorem headerRun_discard {c : Fld} (hv : verified s op m = some (pay, prev))
    (hc : headerCheck s op { m with rsvd := m.rsvd + rsvd } pay = .discard c) :
    headerRun s op m rsvd = fabDiscard s c op m := by
  rw [verified] at hv
  simp only [headerRun, hv, hc]

theorem headerRun_refuse {st sub : Nat} (hv : verified s op m = some (pay, prev))
    (hc : headerCheck s op { m with rsvd := m.rsvd + rsvd } pay = .refuse st sub) :
    headerRun s op m rsvd = answer (oldKey s prev) op m (fullIssue (s.now + 1) m.issue) prev st sub 0 0 [] := by
  rw [verified] at hv
  simp only [headerRun, hv, hc]

theorem headerRun_pass (hv : verified s op m = some (pay, prev))
    (hc : headerCheck s op { m with rsvd := m.rsvd + rsvd } pay = .pass) :
    headerRun s op m rsvd = crossSnoop (enqueue (oldKey s prev) op m pay prev 0 none) op m pay := by
  rw [verified] at hv
  simp only [headerRun, hv, hc]

end

/-- Only a WRITEBACK or an EVICT_CLEAN answers a snoop (R146). -/
theorem crossSnoop_keeps (hg : givesUp op = false) (pay : List Byte) : crossSnoop s op m pay = s :=
  if_pos (by simpa [givesUp] using hg)

end

/-- The request that waits once its header check has passed (R82, R96). -/
theorem enqueue_waits (s : Body) (op : Nat) (m : ReqMsg) (pay : List Byte) (prev : Bool) (splice : Nat)
    (combined : Option (List Byte)) :
    ∃ r : Req, (enqueue s op m pay prev splice combined).olp.reqs = s.olp.reqs ++ [r] ∧ r.op = op ∧
      r.m = { m with payload := pay } ∧ r.stage = .waiting ∧ r.checked = s.tick ∧ r.id = s.olp.arrivals + 1 ∧
      r.splice = splice :=
  ⟨_, rfl, rfl, rfl, rfl, rfl, rfl, rfl⟩

/-- A whole request comes to its header check. -/
theorem exec_whole {i : Instr} {op : Nat} {m : ReqMsg} {s : State} {b : Body} (hrow : reqRow i = some (op, m))
    (hon : s.pwr.off = false) (hport : portTakes s.toBody m.link = true) (hb : isBurst op m = false)
    (hrun : headerRun s.toBody op m = b) :
    exec i s = .next (s.upd (fun _ => if givesUp op then settle b else b)) := by
  refine (exec_request hrow hon).trans (congrArg _ (upd_congr ?_))
  rw [receive_whole hport hb, hrun]

/-! ### The obligations -/

/-- Settles O20: the header check passes the request into the waiting ones. -/
theorem requestsTakenIn : Obligations.RequestsTakenIn := by
  intro i op m s pay prev hrow hon hport hwhole hv hc b
  have hexec := exec_whole hrow hon hport hwhole (headerRun_pass (rsvd := 0) hv hc)
  refine ⟨fun hg => ?_, fun hg => ?_, ?_⟩
  · rw [hexec, hg, crossSnoop_keeps hg]
    rfl
  · rw [hexec, hg]
    rfl
  · obtain ⟨r, hreqs, hop, hm, hstage, hchecked, hid, hsplice⟩ := enqueue_waits (oldKey s.toBody prev) op m pay prev 0 none
    rw [oldKey_olp] at hreqs hid
    rw [oldKey_tick] at hchecked
    exact ⟨r, hreqs, hop, hm, hstage, hchecked, hid, hsplice, oldKey_near .., oldKey_far .., oldKey_out ..⟩

/-- Settles O21, by the three ways in which a header check turns a request away. -/
theorem requestsTurnedAway : Obligations.RequestsTurnedAway := by
  intro i op m s hrow hon hport hwhole ends
  have hends : ∀ b, headerRun s.toBody op m = b → ends b := fun b => exec_whole hrow hon hport hwhole
  refine ⟨fun hv => ?_, fun pay prev c hv hc => ?_, fun pay prev st sub hv hc => ?_⟩
  · exact ⟨_, hends _ (headerRun_unverified hv), (RegsOnly.refl _).fabDiscard ..⟩
  · exact ⟨_, hends _ (headerRun_discard hv hc), (RegsOnly.refl _).fabDiscard ..⟩
  · obtain ⟨r, hr, hout, hframe⟩ := (answer_answers (oldKey s.toBody prev) op m (fullIssue (s.now + 1) m.issue) prev st sub 0 0
      []).afterRegs ((RegsOnly.refl s.toBody).oldKey prev)
    exact ⟨_, r, hends _ (headerRun_refuse hv hc), hout, hr.status, hr.sub, hr.link, hr.cid, hr.tag, hr.issue, hr.payload,
      hframe⟩

end Sys2Proof.Machine
end

section
/-!
SUPPORT. Bursts and bounds (R88 to R93): heads, segments, and the requests and bursts that are answered because their time is up.
-/

namespace Sys2Proof.Machine

/-! ### Heads (R90, R91) -/

/-- A burst of the head's CID, tag and issue knot is held for its port already (R90). -/
def headHeld (s : Body) (m : ReqMsg) : Bool :=
  s.olp.bursts.any (fun b => b.m.link == m.link && b.m.cid == m.cid && b.m.tag == m.tag && b.m.issue == m.issue)

/-- How many partial bursts a port holds (R91). -/
def heldOn (s : Body) (link : Nat) : Nat := (s.olp.bursts.filter (fun b => b.m.link == link)).length

section
variable {s : Body} {op : Nat} {m : ReqMsg}

theorem burstHead_again (h : headHeld s m = true) : burstHead s op m = fabDiscard s R.FAB_TAG_DUP.COUNT op m := if_pos h

theorem burstHead_held (h : headHeld s m = false) (hn : heldOn s m.link < 32) :
    burstHead s op m = { s with olp := { s.olp with
      bursts := s.olp.bursts ++ [{ op := op, m := m, h := s.tick, index := 0 }] } } :=
  (if_neg (Bool.eq_false_iff.1 h)).trans (if_neg (Nat.not_le.2 hn))

theorem burstHead_refused (h : headHeld s m = false) (hn : 32 ≤ heldOn s m.link) :
    Answers { s with olp := { s.olp with refused := s.olp.refused ++ [(m.link, m.cid, m.tag, m.issue, s.tick)] } }
      m stRETRY 2 [] (burstHead s op m) := by
  have hrun : burstHead s op m = answer { s with olp := { s.olp with
      refused := s.olp.refused ++ [(m.link, m.cid, m.tag, m.issue, s.tick)] } } op m (fullIssue (s.now + 1) m.issue) false
      stRETRY 2 0 0 [] := (if_neg (Bool.eq_false_iff.1 h)).trans (if_pos hn)
  rw [hrun]
  exact answer_answers ..

end

/-! ### Segments (R89, R90, R92, R93) -/

theorem exec_burstSegment {s : State} (g : SegMsg) (hon : s.pwr.off = false) :
    exec (.burstSegment g) s = .next (s.upd (fun b => burstSeg b g)) := congrArg Host.Outcome.next (live_on _ hon)

/-- A segment is the next in its burst: its INDEX follows, within the length of the head, and it is full or the last. -/
def SegInOrder (g : SegMsg) (b : Burst) : Prop :=
  g.index = b.index + 1 ∧ g.index + 15 ≤ b.m.len ∧ (g.last = true ∨ g.seglen = 4096)

theorem segMisplaced_iff (g : SegMsg) (b : Burst) :
    (g.index ≠ b.index + 1 ∨ b.m.len - 14 - 1 < g.index ∨ (!g.last) = true ∧ g.seglen ≠ 4096) ↔ ¬ SegInOrder g b := by
  unfold SegInOrder
  cases g.last <;> simp <;> omega

/-- The head with the bytes of one more segment. -/
def Burst.grown (b : Burst) (g : SegMsg) : ReqMsg := { b.m with payload := b.m.payload ++ slice g.bytes 0 g.seglen }

section
variable {s : Body} {g : SegMsg} {b : Burst}

theorem burstSeg_held (hport : portTakes s g.link = true) (hf : s.olp.bursts.find? (segOf g) = some b)
    (ht : s.tick < b.h + 64) :
    burstSeg s g =
      if g.index ≠ b.index + 1 ∨ b.m.len - 14 - 1 < g.index ∨ (!g.last) = true ∧ g.seglen ≠ 4096 then
        { s with olp := { s.olp with bursts := s.olp.bursts.map (fun c => if segOf g c then { c with bad := true } else c) } }
      else if g.last = true then
        headerRun { s with olp := { s.olp with bursts := s.olp.bursts.filter (fun c => !segOf g c) } } b.op (b.grown g)
          (b.rsvd + g.rsvd)
      else { s with olp := { s.olp with bursts := s.olp.bursts.map (fun c =>
        if segOf g c then { c with m := b.grown g, index := g.index, rsvd := c.rsvd + g.rsvd } else c) } } := by
  have hold : ¬ b.h + 64 ≤ s.tick := by omega
  unfold segOf at hf
  simp only [burstSeg, hport, hf, if_neg hold]
  rfl

theorem burstSeg_misplaced (hport : portTakes s g.link = true) (hf : s.olp.bursts.find? (segOf g) = some b)
    (ht : s.tick < b.h + 64) (ho : ¬ SegInOrder g b) :
    burstSeg s g =
      { s with olp := { s.olp with bursts := s.olp.bursts.map (fun c => if segOf g c then { c with bad := true } else c) } } := by
  rw [burstSeg_held hport hf ht, if_pos ((segMisplaced_iff g b).2 ho)]

theorem burstSeg_next (hport : portTakes s g.link = true) (hf : s.olp.bursts.find? (segOf g) = some b)
    (ht : s.tick < b.h + 64) (ho : SegInOrder g b) (hl : g.last = false) :
    burstSeg s g = { s with olp := { s.olp with bursts := s.olp.bursts.map (fun c =>
      if segOf g c then { c with m := b.grown g, index := g.index, rsvd := c.rsvd + g.rsvd } else c) } } := by
  rw [burstSeg_held hport hf ht, if_neg (fun h => (segMisplaced_iff g b).1 h ho), if_neg (by simp [hl])]

theorem burstSeg_last (hport : portTakes s g.link = true) (hf : s.olp.bursts.find? (segOf g) = some b)
    (ht : s.tick < b.h + 64) (ho : SegInOrder g b) (hl : g.last = true) :
    burstSeg s g =
      headerRun { s with olp := { s.olp with bursts := s.olp.bursts.filter (fun c => !segOf g c) } } b.op (b.grown g)
        (b.rsvd + g.rsvd) := by
  rw [burstSeg_held hport hf ht, if_neg (fun h => (segMisplaced_iff g b).1 h ho), if_pos hl]

/-- A segment whose burst is not held, or has run out of time, is an orphan (R93). -/
theorem burstSeg_orphan (hport : portTakes s g.link = true)
    (hf : ∀ b, s.olp.bursts.find? (segOf g) = some b → b.h + 64 ≤ s.tick) : burstSeg s g = orphanSeg s g := by
  unfold segOf at hf
  unfold burstSeg
  dsimp only
  rw [if_neg (by simp [hport])]
  split
  · rfl
  · next b hb => rw [if_pos (hf b hb)]

theorem burstSeg_noPort (hport : portTakes s g.link = false) : burstSeg s g = s := if_pos (by simp [hport])

theorem orphanSeg_refused (h : s.olp.refused.any (segRecent s g) = true) : orphanSeg s g = s := if_pos h

theorem orphanSeg_known (h : s.olp.refused.any (segRecent s g) = false) (ho : s.olp.orphans.any (segRecent s g) = true) :
    orphanSeg s g = s.count R.FAB_ORPHAN.COUNT := by
  have ho' : (s.count R.FAB_ORPHAN.COUNT).olp.orphans.any (segRecent s g) = true := by rw [Body.count_olp, ho]
  exact (if_neg (Bool.eq_false_iff.1 h)).trans (if_pos ho')

theorem orphanSeg_new (h : s.olp.refused.any (segRecent s g) = false) (ho : s.olp.orphans.any (segRecent s g) = false) :
    ∃ m : ReqMsg, m.link = g.link ∧ m.cid = g.cid ∧ m.tag = g.tag ∧ m.issue = g.issue ∧
      Answers { s with olp := { s.olp with orphans := s.olp.orphans ++ [(g.link, g.cid, g.tag, g.issue, s.tick)] } }
        m stORPHANTAIL 0 [] (orphanSeg s g) := by
  have hcount := (RegsOnly.refl s).count R.FAB_ORPHAN.COUNT 1 0 0
  rw [RegsOnly] at hcount
  unfold segRecent at h ho
  unfold orphanSeg
  dsimp only
  rw [if_neg (by simp [h]), hcount, if_neg (by simp [ho])]
  exact ⟨_, rfl, rfl, rfl, rfl, (answer_answers ..).afterRegs rfl⟩

end

/-! ### Bursts and requests whose time is up (R88, R93) -/

/-- What one answer adds to what has been sent. -/
def Sends (s : Body) (m : ReqMsg) (status sub : Nat) (t : Body) : Prop :=
  ∃ r, IsAnswer m status sub [] r ∧ t.out = .resp r :: s.out

theorem Answers.sends {s t : Body} {m : ReqMsg} {status sub : Nat} (h : Answers s m status sub [] t) : Sends s m status sub t := by
  obtain ⟨r, hr, hout, -⟩ := h
  exact ⟨r, hr, hout⟩

section
variable {α : Type} {f : Body → α → Body} {m : α → ReqMsg} {status sub : Nat}

/-- Where each step sends one answer, all are answered, and nothing else is sent. -/
theorem foldl_sends (hf : ∀ s a, Sends s (m a) status sub (f s a)) (l : List α) (s : Body) :
    ∃ rs : List Resp, (l.foldl f s).out = rs.map .resp ++ s.out ∧ rs.length = l.length ∧
      ∀ a ∈ l, ∃ r ∈ rs, IsAnswer (m a) status sub [] r := by
  induction l generalizing s with
  | nil => exact ⟨[], rfl, rfl, fun _ h => absurd h List.not_mem_nil⟩
  | cons a l ih =>
    obtain ⟨r, hr, hout⟩ := hf s a
    obtain ⟨rs, hrest, hlen, hall⟩ := ih (f s a)
    refine ⟨rs ++ [r], by simp [hrest, hout], by simp [hlen], fun b hb => ?_⟩
    rcases List.mem_cons.1 hb with rfl | hb
    · exact ⟨r, by simp, hr⟩
    · obtain ⟨q, hq, hqa⟩ := hall b hb
      exact ⟨q, by simp [hq], hqa⟩

/-- The same, as it shows in what has been sent. -/
theorem foldl_sends_out (hf : ∀ s a, Sends s (m a) status sub (f s a)) (l : List α) (s : Body) :
    (l.foldl f s).out.length = s.out.length + l.length ∧
      ∀ a ∈ l, ∃ r, .resp r ∈ (l.foldl f s).out ∧ IsAnswer (m a) status sub [] r := by
  obtain ⟨rs, hout, hlen, hall⟩ := foldl_sends hf l s
  refine ⟨by simp [hout, hlen, Nat.add_comm], fun a ha => ?_⟩
  obtain ⟨r, hr, hra⟩ := hall a ha
  exact ⟨r, by simp [hout, hr], hra⟩

end

/-- The answer of a burst whose head was taken in 64 knots ago. -/
def burstExpire (s : Body) (b : Burst) : Body :=
  (answer s b.op b.m (fullIssue s.now b.m.issue) false stBURSTTIMEOUT 0 0 0 []).count R.FAB_BURST_TO.COUNT

theorem burstExpire_answers (s : Body) (b : Burst) : Answers s b.m stBURSTTIMEOUT 0 [] (burstExpire s b) :=
  (answer_answers ..).count ..

/-- The bursts whose time is up, and the state that has forgotten them. -/
def burstsOld (s : Body) : List Burst := s.olp.bursts.filter (fun b => decide (b.h + 64 ≤ s.tick))

def burstsForget (s : Body) : Body :=
  { s with olp := { s.olp with bursts := s.olp.bursts.filter (fun b => !decide (b.h + 64 ≤ s.tick)) } }

theorem burstTimeout_eq (s : Body) : burstTimeout s = (burstsOld s).foldl burstExpire (burstsForget s) := rfl

theorem burstTimeout_frame (s : Body) :
    burstTimeout s = { burstsForget s with
      regs := (burstTimeout s).regs, out := (burstTimeout s).out, drawn := (burstTimeout s).drawn } := by
  rw [burstTimeout_eq]
  refine List.foldlRecOn (motive := fun t => t = { burstsForget s with regs := t.regs, out := t.out, drawn := t.drawn })
    (burstsOld s) burstExpire (b := burstsForget s) rfl (fun t ht b _ => ?_)
  obtain ⟨_, _, _, hframe⟩ := burstExpire_answers t b
  rw [hframe, ht]

theorem exec_burstTimeout {s : State} (hon : s.pwr.off = false) : exec .burstTimeout s = .next (s.upd burstTimeout) :=
  congrArg Host.Outcome.next (live_on _ hon)

/-! A refused request is answered and forgotten; of a combined splice, another member takes on the payload (R88, R97). -/

/-- What refusing requests leaves as it is: both tiers and the directory. -/
def TiersKept (s t : Body) : Prop := t.near = s.near ∧ t.far = s.far ∧ t.dir = s.dir

theorem TiersKept.trans {s t u : Body} (h : TiersKept s t) (h' : TiersKept t u) : TiersKept s u := by
  obtain ⟨hn, hf, hd⟩ := h
  obtain ⟨hn', hf', hd'⟩ := h'
  exact ⟨hn'.trans hn, hf'.trans hf, hd'.trans hd⟩

/-- The numbers of the requests that are known. -/
def reqIds (s : Body) : List Nat := s.olp.reqs.map (fun r => r.id)

theorem putReq_ids (s : Body) (r : Req) : reqIds (putReq s r) = reqIds s := by
  simp only [reqIds, putReq, List.map_map]
  refine List.map_congr_left fun q _ => ?_
  by_cases h : q.id = r.id <;> simp [h]

theorem passCombined_frame (s : Body) (r : Req) :
    ∃ o, passCombined s r = { s with olp := o } ∧ o.reqs.map (fun q => q.id) = reqIds s := by
  unfold passCombined
  split
  · split
    · exact ⟨_, rfl, putReq_ids ..⟩
    · exact ⟨s.olp, rfl, rfl⟩
  · exact ⟨s.olp, rfl, rfl⟩

theorem dropRef_frame (s : Body) (r : Req) : ∃ m, dropRef s r = { s with tables := m } := by
  unfold dropRef
  split
  · exact ⟨_, rfl⟩
  · exact ⟨s.tables, rfl⟩

theorem refuse_answers (s : Body) (r : Req) (status sub : Nat) :
    ∃ o m, o.reqs.map (fun q => q.id) = (reqIds s).filter (fun i => i != r.id) ∧
      Answers { s with olp := o, tables := m } r.m status sub [] (refuse s r status sub) := by
  obtain ⟨o, hpass, hids⟩ := passCombined_frame s r
  obtain ⟨m, hdrop⟩ := dropRef_frame { s with olp := o } r
  refine ⟨{ o with reqs := o.reqs.filter (fun q => q.id != r.id) }, m, ?_, ?_⟩
  · rw [← hids, List.filter_map]
    rfl
  · rw [refuse, hpass, finish, hdrop]
    exact answer_answers ..

theorem refuse_sends (s : Body) (r : Req) (status sub : Nat) : Sends s r.m status sub (refuse s r status sub) := by
  obtain ⟨o, m, -, h⟩ := refuse_answers s r status sub
  exact h.sends

theorem refuse_ids (s : Body) (r : Req) (status sub : Nat) :
    reqIds (refuse s r status sub) = (reqIds s).filter (fun i => i != r.id) := by
  obtain ⟨o, m, hids, _, _, _, hframe⟩ := refuse_answers s r status sub
  rw [reqIds, hframe, ← hids]

theorem refuse_tiers (s : Body) (r : Req) (status sub : Nat) : TiersKept s (refuse s r status sub) := by
  obtain ⟨o, m, -, _, _, _, hframe⟩ := refuse_answers s r status sub
  rw [hframe]
  exact ⟨rfl, rfl, rfl⟩

section
variable (status sub : Nat) (l : List Req) (s : Body)

theorem foldl_refuse_ids :
    reqIds (l.foldl (fun s r => refuse s r status sub) s) = (reqIds s).filter (fun i => !l.any (fun r => r.id == i)) := by
  induction l generalizing s with
  | nil => exact (List.filter_eq_self.2 fun _ _ => rfl).symm
  | cons r l ih =>
    rw [List.foldl_cons, ih, refuse_ids, List.filter_filter]
    refine List.filter_congr fun i _ => ?_
    simp [Bool.and_comm, bne, BEq.comm]

theorem foldl_refuse_tiers : TiersKept s (l.foldl (fun s r => refuse s r status sub) s) :=
  List.foldlRecOn (motive := TiersKept s) l _ (b := s) ⟨rfl, rfl, rfl⟩ fun _ ht r _ => ht.trans (refuse_tiers _ r _ _)

end

theorem exec_admissionTimeout {s : State} (hon : s.pwr.off = false) :
    exec .admissionTimeout s = .next (s.upd admissionTimeout) := congrArg Host.Outcome.next (live_on _ hon)

theorem exec_serviceTimeout {s : State} (hon : s.pwr.off = false) :
    exec .serviceTimeout s = .next (s.upd (fun b => settle (serviceTimeout b))) := congrArg Host.Outcome.next (live_on _ hon)

/-- The requests of `l` are answered ST_RETRY, SUB 4, and forgotten. -/
theorem refused_gone (s : Body) (l : List Req) :
    let b := l.foldl (fun s r => refuse s r stRETRY 4) s
    reqIds b = (s.olp.reqs.filter (fun q => !l.any (fun r => r.id == q.id))).map (fun r => r.id) ∧
      b.out.length = s.out.length + l.length ∧
      (∀ r ∈ l, ∃ a, .resp a ∈ b.out ∧ a.status = stRETRY ∧ a.sub = 4 ∧ a.link = r.m.link ∧ a.cid = r.m.cid ∧
        a.tag = r.m.tag ∧ a.issue = r.m.issue) ∧ TiersKept s b := by
  intro b
  obtain ⟨hlen, hall⟩ := foldl_sends_out (fun s (r : Req) => refuse_sends s r stRETRY 4) l s
  refine ⟨?_, hlen, fun r hr => ?_, foldl_refuse_tiers ..⟩
  · rw [foldl_refuse_ids, reqIds, List.filter_map]
    rfl
  · obtain ⟨a, ha, hans⟩ := hall r hr
    exact ⟨a, ha, hans.status, hans.sub, hans.link, hans.cid, hans.tag, hans.issue⟩

/-! ### The obligations -/

/-- Settles O22, by whether the burst is held already, can be held, or is refused; a refusal outlasts 63 knots. -/
theorem burstHeads : Obligations.BurstHeads := by
  intro i op m s hrow hb hon hport same held
  have hop : givesUp op = false := by
    obtain ⟨rfl | rfl, -⟩ := isBurst_iff.1 hb <;> rfl
  have hexec : exec i s = .next (s.upd (fun b => receive op m b)) := by
    rw [exec_request hrow hon, hop]
    rfl
  have hrun := receive_head hport hb
  refine ⟨fun h => ?_, fun h hn => ?_, fun h hn => ?_, fun g u hlink hcid htag hissue hmem ht hf => ?_⟩
  · exact hexec.trans (congrArg _ (upd_congr (hrun.trans (burstHead_again h))))
  · exact hexec.trans (congrArg _ (upd_congr (hrun.trans (burstHead_held h hn))))
  · obtain ⟨r, hr, hout, hframe⟩ := burstHead_refused (op := op) h hn
    rw [← hrun] at hout hframe
    refine ⟨_, r, hexec, hout, hr.status, hr.sub, hr.link, hr.cid, hr.tag, hr.issue, ?_, upd_congr ?_⟩
    · rw [State.upd_toBody, hframe]
    · rw [State.upd_toBody, hframe]
  · have hrecent : u.olp.refused.any (segRecent u.toBody g) = true :=
      List.any_eq_true.2 ⟨_, hmem, by simp [segRecent, hlink, hcid, htag, hissue, ht]⟩
    have hkeep : burstSeg u.toBody g = u.toBody := by
      cases hp : portTakes u.toBody g.link with
      | false => exact burstSeg_noPort hp
      | true => exact (burstSeg_orphan hp (by simp [hf])).trans (orphanSeg_refused hrecent)
    cases hoff : u.pwr.off with
    | true => exact congrArg Host.Outcome.next (live_off _ hoff)
    | false => exact (exec_burstSegment g hoff).trans (congrArg _ (upd_congr (g := id) hkeep))

/-- Settles O23, by where the segment stands in its burst, by what is known of an orphan, and by one answer for each old burst. -/
theorem burstSegments : Obligations.BurstSegments := by
  intro s hon
  refine ⟨fun g b hport hf ht => ?_, fun g hport hf => ?_, ?_⟩
  · have hexec := exec_burstSegment g hon
    intro m others inOrder
    refine ⟨fun ho hl => ?_, fun ho hl hop pay prev hv hc => ?_, fun ho => ?_⟩
    · exact hexec.trans (congrArg _ (upd_congr (burstSeg_next hport hf ht ho hl)))
    · have hrun := (burstSeg_last hport hf ht ho hl).trans (headerRun_pass hv hc)
      have hg : givesUp b.op = false := by rcases hop with h | h <;> rw [h] <;> rfl
      rw [crossSnoop_keeps hg] at hrun
      obtain ⟨r, hreqs, hrop, hm, hstage, hchecked, -, -⟩ := enqueue_waits
        (oldKey { s.toBody with olp := { s.olp with bursts := others } } prev) b.op m pay prev 0 none
      refine ⟨_, r, hexec, ?_⟩
      rw [State.upd_toBody, hrun]
      exact ⟨congrArg OlpSt.bursts (oldKey_olp ..), hreqs.trans (by rw [oldKey_olp]), hrop, hm, hstage,
        hchecked.trans (oldKey_tick ..), oldKey_near .., oldKey_far .., oldKey_out ..⟩
    · exact hexec.trans (congrArg _ (upd_congr (burstSeg_misplaced hport hf ht ho)))
  · have hexec := exec_burstSegment g hon
    have horphan := burstSeg_orphan hport hf
    refine ⟨fun h => ?_, fun h hk => ?_, fun h hk => ?_⟩
    · exact hexec.trans (congrArg _ (upd_congr (g := id) (horphan.trans (orphanSeg_refused h))))
    · exact hexec.trans (congrArg _ (upd_congr (horphan.trans (orphanSeg_known h hk))))
    · obtain ⟨m, hlink, hcid, htag, hissue, r, hr, hout, hframe⟩ := orphanSeg_new h hk
      rw [← horphan] at hout hframe
      refine ⟨_, r, hexec, hout, hr.status, hr.link.trans hlink, hr.cid.trans hcid, hr.tag.trans htag, hr.issue.trans hissue,
        ?_, upd_congr ?_⟩
      · rw [State.upd_toBody, hframe]
      · rw [State.upd_toBody, hframe]
  · intro old
    obtain ⟨hlen, hall⟩ := foldl_sends_out (fun s b => (burstExpire_answers s b).sends) (burstsOld s.toBody) (burstsForget s.toBody)
    have hframe := burstTimeout_frame s.toBody
    refine ⟨_, exec_burstTimeout hon, ?_, hlen, fun b hb => ?_, upd_congr ?_⟩
    · rw [State.upd_toBody, hframe]
      rfl
    · obtain ⟨r, hr, hans⟩ := hall b hb
      exact ⟨r, hr, hans.status, hans.link, hans.cid, hans.tag, hans.issue⟩
    · rw [State.upd_toBody, hframe]
      rfl

/-- Settles O24: both bounds refuse the requests that have reached them. -/
theorem requestTimeouts : Obligations.RequestTimeouts := by
  intro s hon late old gone
  have hgone : ∀ l : List Req, gone l (l.foldl (fun s r => refuse s r stRETRY 4) s.toBody) := by
    intro l
    obtain ⟨hids, hlen, hall, hnear, hfar, hdir⟩ := refused_gone s.toBody l
    exact ⟨hids, hlen, hall, hnear, hfar, hdir⟩
  have hlate : admissionTimeout s.toBody = late.foldl (fun s r => refuse s r stRETRY 4) s.toBody := rfl
  have hold : serviceTimeout s.toBody = old.foldl (fun s r => refuse s r stRETRY 4) s.toBody := rfl
  refine ⟨⟨_, exec_admissionTimeout hon, ?_⟩, ⟨_, (exec_serviceTimeout hon).trans ?_, hgone old⟩⟩
  · rw [State.upd_toBody, hlate]
    exact hgone late
  · exact congrArg _ (upd_congr (congrArg settle hold))

end Sys2Proof.Machine
end

section
/-!
SUPPORT. Splices (R94 to R98): what a SPLICED request and each of its members come to.
-/

namespace Sys2Proof.Machine

/-- An earlier entry of the list names the same CID and tag (R96). -/
def memberRepeats (x : SpliceMsg) (ie : Nat × SpliceMember) : Bool :=
  (x.members.take ie.1).any (fun e => e.cid == ie.2.cid && e.tag == ie.2.tag)

/-- One entry of the list: dropped where it repeats an earlier one, taken by itself otherwise. -/
def memberTake (x : SpliceMsg) (sid : Nat) (d : Body) (ie : Nat × SpliceMember) : Body :=
  if memberRepeats x ie then d.count R.FAB_TAG_DUP.COUNT else spliceMember x sid d ie

theorem receiveSplice_members {x : SpliceMsg} {s : Body} (hport : portTakes s x.hdr.link = true)
    (hcheck : crc64 (reqHdr opSPLICED x.hdr ++ spliceBody x) = x.hdr.check.toNat)
    (hsrc : sourceOk s x.hdr.link x.hdr.cid = true) (hrole : roleAllows s x.hdr.link opSPLICED = true) :
    receiveSplice x s = ((List.range x.members.length).zip x.members).foldl (memberTake x (s.olp.arrivals + 1))
      (s.count R.FAB_SPLICE_MEM.COUNT x.members.length) := by
  rw [← Body.count_olp s R.FAB_SPLICE_MEM.COUNT x.members.length 0 0]
  unfold receiveSplice
  dsimp only
  rw [if_neg (by simp [hport]), if_neg (by simp [hcheck]), if_neg (by simp [hsrc]), if_neg (by simp [hrole])]
  rfl

section
variable {x : SpliceMsg} {sid : Nat} {d : Body} {ie : Nat × SpliceMember}

/-- What the home bars is answered to every member, whatever its own checks would say (R97, R98). -/
theorem spliceMember_barred {st sub : Nat} (h : spliceBar d x = some (st, sub)) :
    Answers d (memberMsg x ie.1 ie.2) st sub [] (spliceMember x sid d ie) := by
  simp only [spliceMember, h]
  exact answer_answers ..

theorem spliceBar_closed (h : d.get R.FAB_CTRL.SPLICE_IN = 0) : spliceBar d x = some (stBADOPCODE, 5) :=
  if_pos (by simp [Body.on, h])

/-- A member of a splice that is not COMBINED waits once its own checks have passed (R96). -/
theorem spliceMember_pass {pay : List Byte} {prev : Bool} (hbar : spliceBar d x = none) (hc : x.combined = false)
    (hv : verified d x.op (memberMsg x ie.1 ie.2) = some (pay, prev))
    (hsrc : sourceOk d (memberMsg x ie.1 ie.2).link (memberMsg x ie.1 ie.2).cid = true)
    (hrole : roleAllows d (memberMsg x ie.1 ie.2).link x.op = true)
    (hcheck : checks4to8 d x.op { memberMsg x ie.1 ie.2 with rsvd := (memberMsg x ie.1 ie.2).rsvd + spliceRsvd x ie.2 } pay
      (spliceFault x) = .pass) :
    spliceMember x sid d ie = enqueue (oldKey d prev) x.op (memberMsg x ie.1 ie.2) pay prev sid none := by
  rw [verified] at hv
  simp only [spliceMember, hbar, hc, hv, hsrc, hrole, hcheck, Bool.false_eq_true, if_false, Bool.not_true]

end

theorem exec_spliced {s : State} (x : SpliceMsg) (hon : s.pwr.off = false) :
    exec (.spliced x) s = .next (s.upd (receiveSplice x)) := congrArg Host.Outcome.next (live_on _ hon)

/-- Settles O25, by what the list comes to, and what each entry of it comes to. -/
theorem splicesAreTakenApart : Obligations.SplicesAreTakenApart := by
  intro x s hon hport hcheck hsrc hrole
  refine ⟨?_, fun d ie sid => ⟨fun hin => ?_, fun pay prev hbar hc hv hs hr hpass => ?_⟩⟩
  · exact (exec_spliced x hon).trans (congrArg _ (upd_congr (receiveSplice_members hport hcheck hsrc hrole)))
  · obtain ⟨r, hr, hout, hframe⟩ := spliceMember_barred (sid := sid) (ie := ie) (spliceBar_closed (x := x) hin)
    exact ⟨r, hout, hr.status, hr.sub, hr.cid, hr.tag, by rw [hframe]⟩
  · rw [spliceMember_pass hbar hc hv hs hr hpass]
    obtain ⟨r, hreqs, -, hm, hstage, -, -, hsplice⟩ := enqueue_waits (oldKey d prev) x.op (memberMsg x ie.1 ie.2) pay prev sid none
    rw [oldKey_olp] at hreqs
    exact ⟨r, hreqs, hsplice, by rw [hm]; rfl, by rw [hm]; rfl, by rw [hm], hstage, oldKey_out ..⟩

end Sys2Proof.Machine
end

section
/-!
SUPPORT. Snoop answers and resent snoops (R78, R138, R139, R142).
-/

namespace Sys2Proof.Machine

theorem exec_snoopResp {s : State} (m : RespMsg) (hon : s.pwr.off = false) :
    exec (.snoopResp m) s = .next (s.upd (fun b => snoopResp b m)) := congrArg Host.Outcome.next (live_on _ hon)

theorem exec_snoopRoundComplete {s : State} (rid : Nat) (hon : s.pwr.off = false) :
    exec (.snoopRoundComplete rid) s = .next (s.upd (roundComplete rid)) := congrArg Host.Outcome.next (live_on _ hon)

theorem exec_snoopResend {s : State} (rid cid : Nat) (hon : s.pwr.off = false) :
    exec (.snoopResend rid cid) s = .next (s.upd (fun b => snoopResend b rid cid)) :=
  congrArg Host.Outcome.next (live_on _ hon)

/-- CHECK of a SNOOP_RESP (R71, R72). -/
def snoopVerified (s : Body) (m : RespMsg) : Option (List Byte × Bool) :=
  verify s (respWords { m with op := opSNOOPRESP }) m.enc m.pid (nonce (fullIssue s.now m.issue) m.cid false true m.tag) m.check
    m.payload

/-- A SNOOP_RESP names this target: its CID, its port, and a tag and issue knot of its snoops (R142). -/
def snoopNames (m : RespMsg) (o : SnoopOut) : Bool := o.cid == m.cid && o.link == m.link && o.tags.contains (m.tag, m.issue)

section
variable {s : Body} {m : RespMsg} {pay : List Byte} {prev : Bool}

theorem snoopResp_unverified (hv : snoopVerified s m = none) : RegsOnly s (snoopResp s m) := by
  have hrun : snoopResp s m = (fabErr s 0 opSNOOPRESP m.link m.cid m.tag true).count R.FAB_AUTH_FAIL.COUNT := by
    unfold snoopVerified respWords at hv
    simp only [snoopResp, hv]
  rw [hrun]
  exact ((RegsOnly.refl s).fabErr ..).count ..

/-- An old key's count stands in no field that check 2 reads. -/
theorem get_oldKey {f : Fld} {i j : Nat} (hlo : f.lo < 63) (hpos : f.lo ≠ 0) : (oldKey s prev).get f i j = s.get f i j := by
  unfold oldKey
  split
  · exact Body.get_count_ne s 1 (Fld.key_ne_lo (by decide) (by omega) (Ne.symm hpos))
      (Fld.key_ne_lo (by decide) (by omega) (show 63 ≠ f.lo by omega))
  · rfl

theorem sourceOk_oldKey (link cid : Nat) : sourceOk (oldKey s prev) link cid = sourceOk s link cid := by
  have hrole : (oldKey s prev).get R.LNK_STATUS.ROLE link = s.get R.LNK_STATUS.ROLE link := get_oldKey (by decide) (by decide)
  have hpeer : (oldKey s prev).get R.LNK_PEER.PEER_ID link = s.get R.LNK_PEER.PEER_ID link := get_oldKey (by decide) (by decide)
  have himg : (oldKey s prev).img = s.img := by rw [(RegsOnly.refl s).oldKey prev]; rfl
  rw [sourceOk, roleOf, hrole, hpeer, himg, sourceOk, roleOf]

theorem cidFenced_oldKey (cid : Nat) : cidFenced (oldKey s prev) cid = cidFenced s cid := by
  rw [(RegsOnly.refl s).oldKey prev]
  rfl

section
variable (hv : snoopVerified s m = some (pay, prev)) (hsrc : sourceOk s m.link m.cid = true)
include hv hsrc

theorem snoopResp_fenced (hf : cidFenced s m.cid = true) : RegsOnly s (snoopResp s m) := by
  have hrun : snoopResp s m = (oldKey s prev).count R.DIR_FENCED_RESP.COUNT := by
    unfold snoopVerified respWords at hv
    simp only [snoopResp, hv, sourceOk_oldKey, hsrc, cidFenced_oldKey, hf, Bool.not_true, Bool.false_eq_true, if_false, if_true]
  rw [hrun]
  exact ((RegsOnly.refl s).oldKey prev).count ..

/-- An answer that is well formed is taken as that of the target whose tag it names. -/
theorem snoopResp_taken {r : Round} {o : SnoopOut} (hf : cidFenced s m.cid = false)
    (hok : snoopRespOk { m with payload := pay } = true)
    (hr : s.dir.rounds.find? (fun r => r.waiting.any (snoopNames m)) = some r)
    (ho : r.waiting.find? (snoopNames m) = some o) :
    snoopResp s m = snoopAnswer (oldKey s prev) r o (m.arg % 4) (if m.arg % 4 = 2 then some pay else none) := by
  unfold snoopVerified respWords at hv
  unfold snoopNames at hr ho
  simp only [snoopResp, hv, sourceOk_oldKey, hsrc, cidFenced_oldKey, hf, hok, oldKey_dir, hr, ho, Bool.not_true,
    Bool.false_eq_true, if_false]

end

/-- What an answer makes of its round: the target is no longer awaited, and the data of a DIRTY answer stays with it. -/
theorem snoopAnswer_round (s : Body) (r : Round) (o : SnoopOut) (result : Nat) (data : Option (List Byte)) :
    ∃ r', snoopAnswer s r o result data = putRound s r' ∧ r'.waiting = r.waiting.filter (fun q => q != o) ∧
      r'.data = (if result = 2 then data else r.data) ∧ r'.id = r.id ∧ r'.line = r.line ∧ r'.purpose = r.purpose :=
  ⟨_, rfl, rfl, rfl, rfl, rfl, rfl⟩

end

/-! ### A snoop that is sent again (R87, R139, R142) -/

section
variable {s : Body} {r : Round} {o : SnoopOut} {e : DirEntry}

/-- With a tag free, a snoop goes out to its target for the line of its entry. -/
theorem snoopSend_sent (r : Round) (e : DirEntry) (cid link : Nat) (resend : Bool) (h : (snoopTags s link).length < 4096) :
    ∃ tag m rg ol, snoopSend s r e cid link resend =
        ({ cid := cid, link := link, tags := [(tag, s.now % 2 ^ 24)], sentAt := s.tick },
          { s with regs := rg, olp := ol,
                   out := .req (if r.purpose.snoop.1 then opSNOOPSHARE else opSNOOPINV) m :: s.out }) ∧
      m.tag = tag ∧ m.link = link ∧ m.cid = cid ∧ m.pid = e.pid ∧ m.space = e.space ∧ m.addr = e.raddr ∧ m.cls = r.cls ∧
      m.issue = s.now % 2 ^ 24 ∧ m.arg = b2n r.purpose.snoop.2 + 2 * b2n resend := by
  unfold snoopSend
  dsimp only
  rw [if_neg (Nat.not_le.2 h), Body.count_regs]
  exact ⟨_, _, _, _, rfl, rfl, rfl, rfl, rfl, rfl, rfl, rfl, rfl, rfl⟩

/-- The target's record once its snoop has gone out again. -/
def SnoopOut.again (o p : SnoopOut) (tick : Nat) : SnoopOut :=
  { o with tags := o.tags ++ p.tags, sentAt := tick, tries := o.tries + 1 }

/-- The round with that record. -/
def Round.again (r : Round) (o p : SnoopOut) (tick : Nat) : Round :=
  { r with waiting := r.waiting.map (fun q => if q = o then o.again p tick else q) }

theorem snoopResend_due (hr : s.dir.rounds.find? (fun q => q.id == r.id) = some r)
    (ho : r.waiting.find? (fun q => q.cid == o.cid) = some o) (he : entryOf s r.line = some e) (ht : o.tags ≠ [])
    (hdue : o.sentAt + max 1 (s.get R.DIR_CTRL.RESEND) * 64 ≤ s.tick) :
    let p := snoopSend s r e o.cid o.link true
    RegsOnly (putRound p.2 (r.again o p.1 p.2.tick)) (snoopResend s r.id o.cid) := by
  intro p
  unfold snoopResend
  simp only [hr, ho, he]
  rw [if_neg (by simp [ht, hdue])]
  refine .ite (.suspicion ?_ ..) ?_ <;> exact .set (.set (.set (.set (.count (.refl _) ..) ..) ..) ..) ..

end

/-- Settles O26, by the checks of an answer, the end of a round, and a snoop that is due again. -/
theorem snoopRounds : Obligations.SnoopRounds := by
  intro s hon
  refine ⟨fun m => ?_, fun rid => ?_, fun r o e hr ho he ht hdue htags => ?_⟩
  · intro chk mine
    have hexec := exec_snoopResp m hon
    refine ⟨fun hv => ?_, fun pay prev hv hsrc hf => ?_, fun pay prev r o hv hsrc hf hok hr ho => ?_⟩
    · exact ⟨_, hexec, upd_congr (snoopResp_unverified hv)⟩
    · exact ⟨_, hexec, upd_congr (snoopResp_fenced hv hsrc hf)⟩
    · obtain ⟨r', hans, hwaiting, hdata, hid, hline, hpurpose⟩ := snoopAnswer_round (oldKey s.toBody prev) r o (m.arg % 4)
        (if m.arg % 4 = 2 then some pay else none)
      have hrun := (snoopResp_taken hv hsrc hf hok hr ho).trans hans
      rw [(RegsOnly.refl s.toBody).oldKey prev] at hrun
      refine ⟨_, r', hexec, ?_, hwaiting, ?_, hid, hline, hpurpose, upd_congr ?_⟩
      · rw [State.upd_toBody, hrun, ← hid]
        rfl
      · rw [hdata]
        split <;> rfl
      · rw [State.upd_toBody, hrun]
        rfl
  · refine (exec_snoopRoundComplete rid hon).trans (congrArg _ ?_)
    by_cases h : s.dir.rounds.any (fun r => r.id == rid && r.waiting.isEmpty) = true
    · rw [if_pos h]
      exact upd_congr (if_pos h)
    · rw [if_neg h]
      exact upd_congr (g := id) (if_neg h)
  · obtain ⟨tag, m, rg, ol, hsend, htag, hlink, hcid, hpid, hspace, haddr, hcls, hissue, harg⟩ :=
      snoopSend_sent r e o.cid o.link true htags
    have hrun := snoopResend_due hr ho he ht hdue
    rw [hsend] at hrun
    dsimp only [RegsOnly] at hrun
    refine ⟨_, m, exec_snoopResend r.id o.cid hon, ?_, hlink, hcid, hpid, hspace, haddr, hcls, hissue, harg, ?_⟩
    · rw [State.upd_toBody, hrun]
      rfl
    · rw [State.upd_toBody, hrun, htag]
      exact ⟨rfl, rfl, rfl, rfl⟩

end Sys2Proof.Machine
end

section
/-!
SUPPORT. Answers of other Helaks and of the sleds (R71, R81, R86, R88, R359, R395).
-/

namespace Sys2Proof.Machine

theorem exec_peerResponse {s : State} (m : RespMsg) (hon : s.pwr.off = false) :
    exec (.peerResponse m) s = .next (s.upd (fun b => settle (seizeProgress (peerResponse m b)))) :=
  congrArg Host.Outcome.next (live_on _ hon)

theorem exec_peerRequestLost {s : State} (link tag : Nat) (hon : s.pwr.off = false) :
    exec (.peerRequestLost link tag) s = .next (s.upd (fun b => settle (seizeProgress (peerLost link tag b)))) :=
  congrArg Host.Outcome.next (live_on _ hon)

theorem exec_sledResponse {s : State} (n : Nat) (m : RespMsg) (hon : s.pwr.off = false) :
    exec (.sledResponse n m) s = .next (s.upd (fun b => settle (sledAnswer b { m with link := n }))) :=
  congrArg Host.Outcome.next (live_on _ hon)

/-! ### Other Helaks -/

section
variable {s : Body} {m : RespMsg} {p : PeerOut} {link tag : Nat}

theorem peerResponse_unmatched (h : peerMatch s m = none) : peerResponse m s = s := by simp only [peerResponse, h]

/-- An answer that verifies and fits its request is taken by the request's purpose. -/
theorem peerResponse_taken {pay : List Byte} {prev : Bool} (h : peerMatch s m = some p)
    (hv : verify s (respWords m) m.enc m.pid (nonce p.knot m.cid true true m.tag) m.check m.payload = some (pay, prev))
    (hhid : m.hid = p.hid) (hpid : m.pid = p.pid) (hpay : peerPayOk (oldKey s prev) p m.status pay.length = true)
    (hst : m.status ≠ stFENCED) :
    peerResponse m s = settle (peerGot (oldKey s prev) p m.status m.sub pay) := by
  unfold respWords at hv
  unfold peerResponse
  simp only [h, hv]
  rw [if_neg (by simp [hhid, hpid, hpay]), if_neg hst]

section
variable (h : s.peers.find? (fun p => !p.waits && p.link == link && p.tag == tag) = some p)
include h

theorem peerLost_early (ht : s.now < p.knot + 4096) : peerLost link tag s = s := by
  simp only [peerLost, h, if_pos ht]

/-- A lost vote, inquiry or decision is forgotten: its own timers send it again (R335). -/
theorem peerLost_forgotten (ht : p.knot + 4096 ≤ s.now)
    (hp : p.purpose = .vote ∨ p.purpose = .inquire ∨ ∃ o i x, p.purpose = .decide o i x) :
    peerLost link tag s = peerDone (suspicion s 3 0x3F true p.hid false) p := by
  simp only [peerLost, h, if_neg (Nat.not_lt.2 ht)]
  rcases hp with hp | hp | ⟨o, i, x, hp⟩ <;> simp only [hp]

theorem peerLost_delta (ht : p.knot + 4096 ≤ s.now) (hp : ∃ o i, p.purpose = .delta o i) :
    peerLost link tag s =
      peerSend (peerDone (suspicion s 3 0x3F true p.hid false) p) p.hid p.op p.addr p.arg p.pid p.payload p.purpose := by
  obtain ⟨o, i, hp⟩ := hp
  simp only [peerLost, h, if_neg (Nat.not_lt.2 ht), hp]

end
end

/-! ### Sleds -/

/-- The store-profile request that a sled's response names (R86). -/
def sledAsked (s : Body) (m : RespMsg) : Option SledOut :=
  s.sto.asked.find? (fun o => o.sent && o.m.link == m.link && o.m.tag == m.tag && o.m.issue == m.issue && o.op == m.op)

/-- The state that has taken a request off what was asked of the sleds. -/
def sledTaken (s : Body) (o : SledOut) : Body :=
  { s with sto := { s.sto with asked := s.sto.asked.filter (fun q => q.id != o.id) } }

section
variable {s : Body} {m : RespMsg} {o : SledOut}

theorem sledAnswer_unasked (h : sledAsked s m = none) : sledAnswer s m = s := by
  unfold sledAsked at h
  simp only [sledAnswer, h]

section
variable (h : sledAsked s m = some o) (he : m.enc = false) (hc : crc64 (respWords m ++ m.payload) = m.check.toNat)
include h he hc

theorem sledAnswer_checked (hst : m.status = stOK ∨ m.status = stUNCORRECTABLE ∨
      (m.status = stINTERNAL ∨ m.status = stALIGN ∨ m.status = stBADOPCODE)) :
    sledAnswer s m = farAnswer (if m.status = stINTERNAL ∨ m.status = stALIGN ∨ m.status = stBADOPCODE then
      (sledTaken s o).arm (.posFail o.pos 3) else sledTaken s o) o.id m.status := by
  unfold sledAsked at h
  unfold respWords at hc
  unfold sledAnswer
  simp only [h]
  rw [if_neg (not_or.2 ⟨Bool.eq_false_iff.1 he, not_not_intro hc⟩), if_neg (not_not_intro hst)]
  rfl

theorem sledAnswer_data (hst : m.status = stOK ∨ m.status = stUNCORRECTABLE) :
    sledAnswer s m = farAnswer (sledTaken s o) o.id m.status := by
  have hgood : ¬ (m.status = stINTERNAL ∨ m.status = stALIGN ∨ m.status = stBADOPCODE) := by
    rcases hst with hst | hst <;> rw [hst] <;> decide
  rw [sledAnswer_checked h he hc (hst.imp_right .inl), if_neg hgood]

/-- A status that only a broken sled gives arms the failure of its position (R359). -/
theorem sledAnswer_faulty (hst : m.status = stINTERNAL ∨ m.status = stALIGN ∨ m.status = stBADOPCODE) :
    sledAnswer s m = farAnswer ((sledTaken s o).arm (.posFail o.pos 3)) o.id m.status := by
  rw [sledAnswer_checked h he hc (.inr (.inr hst)), if_pos hst]

end
end

/-- Settles O27, by what `peerResponse`, `peerLost` and `sledAnswer` come to. -/
theorem peerAndSledAnswers : Obligations.PeerAndSledAnswers := by
  intro s hon
  refine ⟨fun m h => ?_, fun m p pay prev h hv hhid hpid hpay hst => ?_, fun link tag p h => ?_, fun n h => ?_⟩
  · exact (exec_peerResponse m hon).trans (congrArg _ (upd_congr (by rw [peerResponse_unmatched h])))
  · exact (exec_peerResponse m hon).trans (congrArg _ (upd_congr (by rw [peerResponse_taken h hv hhid hpid hpay hst])))
  · have hexec := exec_peerRequestLost link tag hon
    refine ⟨fun ht => ?_, fun ht => ⟨fun hp => ?_, fun hp => ?_⟩⟩
    · exact hexec.trans (congrArg _ (upd_congr (by rw [peerLost_early h ht])))
    · exact hexec.trans (congrArg _ (upd_congr (by rw [peerLost_forgotten h ht hp])))
    · exact hexec.trans (congrArg _ (upd_congr (by rw [peerLost_delta h ht hp])))
  · intro m asked
    have hexec := exec_sledResponse n h hon
    refine ⟨fun hnone => ?_, fun o ho he hc => ?_⟩
    · exact hexec.trans (congrArg _ (upd_congr (congrArg settle (sledAnswer_unasked hnone))))
    · exact ⟨fun hst => hexec.trans (congrArg _ (upd_congr (congrArg settle (sledAnswer_data ho he hc hst)))),
        fun hst => hexec.trans (congrArg _ (upd_congr (congrArg settle (sledAnswer_faulty ho he hc hst))))⟩

end Sys2Proof.Machine
end

section
/-!
SUPPORT. What a request does at its place (R75, R76, R77, R143), on one piece of one page.
-/

namespace Sys2Proof.Machine

/-! ### Bytes -/

theorem slice_whole (l : List Byte) : slice l 0 l.length = l := by simp [slice]

theorem cutPages_within {loc n : Nat} (k : Nat) (hpos : 0 < n) (hfit : loc % 65536 + n ≤ 65536) :
    cutPages loc n (k + 1) = [(loc, n)] := by
  have hmin : min n (65536 - loc % 65536) = n := by omega
  have hend : ∀ a, cutPages a 0 k = [] := by
    intro a
    cases k <;> simp [cutPages]
  simp [cutPages, hmin, hend, Nat.pos_iff_ne_zero.1 hpos]

/-! A write of the home slice is none of the transaction layer's. -/

theorem dirtyUnit_olp (s : Body) (loc : Nat) : (dirtyUnit s loc).olp = s.olp := by
  unfold dirtyUnit
  dsimp only
  split
  · split
    · split
      · exact Body.count_olp ..
      · rfl
    · rfl
  · rfl

theorem wr_olp (s : Body) (loc : Nat) (b : List Byte) : (s.wr loc b).olp = s.olp := by
  rw [← dirtyUnit_olp s loc, Body.wr]
  dsimp only
  split <;> split <;> split <;> rfl

/-! ### One piece -/

section
variable {s : Body} {r : Req} {loc sga n : Nat} (hseg : r.segs = some [(loc, sga, n)])
include hseg

theorem segsOf_piece : segsOf r = [(loc, sga, n)] := by simp [segsOf, hseg]

theorem reqLoc_piece : reqLoc r = loc := by simp [reqLoc, hseg]

theorem reqLines_lost : (reqLines r).any (fun l => lineLost s l) = (linesOf loc n).any (lineLost s) := by
  rw [Bool.eq_iff_iff]
  simp [reqLines, segsOf_piece hseg]

/-- With no line of an owner kept, a read returns the home's bytes (R143). -/
theorem readBytes_home (hk : r.keep = []) : readBytes s r = s.rd loc n := by
  simp [readBytes, segsOf_piece hseg, hk]

/-- Where no line is lost, data of the piece's length is written as one (R75). -/
theorem storeOver_piece {data : List Byte} (hpos : 0 < n) (hfit : loc % 65536 + n ≤ 65536) (hlen : data.length = n)
    (hlost : (linesOf loc n).any (lineLost s) = false) : storeOver s (segsOf r) data = (true, s.wr loc data) := by
  subst hlen
  rw [segsOf_piece hseg]
  simp [storeOver, hlost, cutPages_within 17 hpos hfit, slice_whole]

end

/-! ### The effects, by opcode -/

/-- The opcodes whose effect is decided last: the atomics (R75, R76). -/
def isAtomOp (op : Nat) : Bool :=
  !isRead op && op != opWRITEBACK && op != opEVICTCLEAN && op != opSTORE && op != opSTOREMASKED && op != opCODEDSTORE &&
    op != opPUBLISH

/-- What an atomic of one element answers: the old value where it is asked for (R76). -/
def atomAnswer (ret : Prop) [Decidable ret] (old : List Byte) (t : Body) : Nat × Nat × Nat × List Byte × Body :=
  if ret then (stOK, 0, 1, oldWord old, t) else (stOK, 0, 0, [], t)

theorem atomAnswer_ok (ret : Prop) [Decidable ret] (old : List Byte) (t : Body) :
    ∃ len pay, atomAnswer ret old t = (stOK, 0, len, pay, t) ∧ (ret → len = 1 ∧ pay = slice old 0 8) := by
  unfold atomAnswer
  split
  · exact ⟨_, _, rfl, fun _ => ⟨rfl, rfl⟩⟩
  · next hret => exact ⟨_, _, rfl, fun h => absurd h hret⟩

/-- What an add answers, from the old values and the state that its groups leave (R77). -/
def addAnswer (r : Req) (a : List Byte × Body) : Nat × Nat × Nat × List Byte × Body :=
  if !atomRet r.m then (stOK, 0, 0, [], a.2)
  else if r.op = opADDEXACT then (stOK, 0, 1, oldWord a.1, a.2) else (stOK, 0, r.m.len, a.1, a.2)

theorem addAnswer_exact {r : Req} (hop : r.op = opADDEXACT) (a : List Byte × Body) :
    addAnswer r a = atomAnswer (atomRet r.m = true) a.1 a.2 := by
  unfold addAnswer atomAnswer
  cases atomRet r.m
  · rfl
  · exact if_pos hop

/-- The old value of the element of an atomic, and the value that it leaves (R76). -/
def atomOld (s : Body) (r : Req) : Nat := leNat (s.rd (reqLoc r) (atomSize (atomTy r.m)))

def atomNew (s : Body) (r : Req) : Nat :=
  atomResult r.op (atomTy r.m) (atomOld s r) (le r.m.payload 0 (atomSize (atomTy r.m)))
    (le r.m.payload 8 (atomSize (atomTy r.m)))

/-- The state that an atomic leaves: a CAS that finds another value writes nothing. -/
def atomLeft (s : Body) (r : Req) : Body :=
  if r.op = opCAS ∧ atomNew s r = atomOld s r then s else s.wr (reqLoc r) (leBytes (atomSize (atomTy r.m)) (atomNew s r))

section
variable {s : Body} {r : Req}

theorem effect_store {g : Region} (hop : r.op = opSTORE) (hg : regionOfLoc s (reqLoc r) = some g)
    (hc : isCompanion s g = false) :
    effect s r = (if (storeOver s (segsOf r) r.m.payload).1 then stOK else stLOSTLINE, 0, 0, [],
      (storeOver s (segsOf r) r.m.payload).2) := by
  have hread : isRead r.op = false := by rw [hop]; decide
  have hgive : ¬ (r.op = opWRITEBACK ∨ r.op = opEVICTCLEAN) := by rw [hop]; decide
  simp only [effect, hread, Bool.false_eq_true, if_false, if_neg hgive, if_pos hop, hg, hc]

section
variable (hlost : (reqLines r).any (fun l => lineLost s l) = false)
include hlost

theorem effect_read (hr : isRead r.op = true) (hc : r.op ≠ opCODEDLOAD) :
    effect s r = (stOK, 0, r.m.len, readBytes s r,
      if r.op = opLOADSHARED ∨ r.op = opLOADOWN then grant s r (reqLoc r / 128) else s) := by
  simp only [effect, hr, hlost, if_true, Bool.false_eq_true, if_false, if_neg hc]

theorem effect_atomic (ha : isAtomOp r.op = true) :
    effect s r = if isAdd r.op then addAnswer r (addEffect s r)
      else atomAnswer (r.op = opCAS ∨ r.op = opSWAP ∨ atomRet r.m = true) (leBytes (atomSize (atomTy r.m)) (atomOld s r))
        (atomLeft s r) := by
  simp only [isAtomOp, Bool.and_eq_true, Bool.not_eq_true', bne_iff_ne] at ha
  obtain ⟨⟨⟨⟨⟨⟨hr, hwb⟩, hec⟩, hst⟩, hsm⟩, hcs⟩, hpub⟩ := ha
  simp only [effect, hr, hwb, hec, hst, hsm, hcs, hpub, hlost, or_self, Bool.false_eq_true, if_false]
  rfl

end
end

/-! ### The entry of a line that nobody holds (R143) -/

section
variable {s : Body} {r : Req} {line : Nat}

/-- LOAD_OWN makes its client the owner, LOAD_SHARED the only sharer. -/
theorem grant_new (he : entryOf s line = none) :
    grant s r line = newEntry s r line (if r.op = opLOADOWN then .x else .s) := by
  unfold grant
  split
  · rfl
  · simp only [he]

theorem newEntry_same (s : Body) (r : Req) (line : Nat) (st : DState) :
    entryOf (newEntry s r line st) line = some {
      line := line, st := st, space := r.m.space, raddr := r.m.addr, pid := r.m.pid, ptrs := [(r.m.cid, r.m.link)],
      used := s.dir.clock } := by
  simp only [entryOf, newEntry, setEntry, AMap.get_put_self]

theorem newEntry_other {l : Nat} (s : Body) (r : Req) (st : DState) (h : l ≠ line) :
    entryOf (newEntry s r line st) l = entryOf s l := by
  simp only [entryOf, newEntry, setEntry, AMap.get_put_ne _ _ _ _ (Ne.symm h)]

end

/-! ### A group of one location (R77) -/

section
variable {s : Body} {a loc ty rnd : Nat}

theorem groupNew_store (as : List Addend) :
    let w := s.wr loc (leBytes (atomSize ty) (addRound ty rnd (leNat (s.rd loc (atomSize ty))) as))
    (groupNew s a loc ty rnd as).2.near = w.near ∧ (groupNew s a loc ty rnd as).2.far = w.far := by
  simp only [groupNew, addRound, and_self]

/-- A group that has acted answers every later member with the value before it. -/
theorem groupDone_groupNew (as : List Addend) (h : groupDone s a loc ty rnd = none) :
    groupDone (groupNew s a loc ty rnd as).2 a loc ty rnd = some (leNat (s.rd loc (atomSize ty))) := by
  have hnone : s.olp.groups.find? (fun g => g.isOf a loc ty rnd) = none := Option.map_eq_none_iff.1 h
  unfold AddGroup.isOf at hnone
  simp [groupDone, groupNew, wr_olp, List.find?_append, hnone, AddGroup.isOf]

/-- An ATOMIC_ADD_EXACT adds to one element; where its group has not acted yet, it does now. -/
theorem addEffect_first {r : Req} (hop : r.op = opADDEXACT)
    (h : groupDone s r.admitted (reqLoc r) (atomTy r.m) (atomRnd r.m) = none) :
    addEffect s r =
      let g := groupNew s r.admitted (reqLoc r) (atomTy r.m) (atomRnd r.m)
        (groupAdds s r.admitted (reqLoc r) (atomTy r.m) (atomRnd r.m))
      (leBytes (atomSize (atomTy r.m)) g.1, g.2) := by
  have hcount : addCount r = 1 := if_pos hop
  simp only [addEffect, hcount, List.range_one, List.foldl_cons, List.foldl_nil, Nat.mul_zero, Nat.add_zero, h, groupAct,
    List.nil_append]

end

/-- Settles O30, one opcode after the other. -/
theorem requestEffects : Obligations.RequestEffects := by
  intro s r loc sga n hseg hpos hfit hpiece hkeep
  have hlost : (reqLines r).any (fun l => lineLost s l) = false := (reqLines_lost hseg).trans hpiece
  have hloc := reqLoc_piece hseg
  have hbytes := readBytes_home (s := s) hseg hkeep
  refine ⟨fun hop hlen g hg hc => ?_, fun hop => ?_, fun hop he => ?_, fun hop => ?_, fun hop hnew => ?_⟩
  · rw [effect_store hop (hloc ▸ hg) hc, storeOver_piece hseg hpos hfit hlen hpiece]
    rfl
  · have hr : isRead r.op = true ∧ r.op ≠ opCODEDLOAD ∧ ¬ (r.op = opLOADSHARED ∨ r.op = opLOADOWN) := by
      rcases hop with h | h <;> rw [h] <;> decide
    obtain ⟨hread, hcoded, hcaching⟩ := hr
    rw [effect_read hlost hread hcoded, if_neg hcaching, hbytes]
  · have hr : isRead r.op = true ∧ r.op ≠ opCODEDLOAD := by
      rcases hop with h | h <;> rw [h] <;> decide
    obtain ⟨hread, hcoded⟩ := hr
    rw [effect_read hlost hread hcoded, if_pos hop, hbytes, hloc, grant_new he]
    exact ⟨_, _, rfl, newEntry_same .., rfl, rfl, rfl, rfl, rfl, fun l hl => newEntry_other s r _ hl, rfl, rfl⟩
  · have hops : ∀ op ∈ [opCAS, opSWAP, opMIN, opMAX, opAND, opOR, opXOR], isAtomOp op = true ∧ isAdd op = false := by decide
    obtain ⟨hatom, hadd⟩ := hops r.op hop
    obtain ⟨len, pay, hans, hret⟩ := atomAnswer_ok (r.op = opCAS ∨ r.op = opSWAP ∨ atomRet r.m = true)
      (leBytes (atomSize (atomTy r.m)) (atomOld s r)) (atomLeft s r)
    have hrun := (effect_atomic hlost hatom).trans ((if_neg (Bool.eq_false_iff.1 hadd)).trans hans)
    rw [← hloc]
    exact ⟨len, pay, _, hrun, rfl, hret⟩
  · have hops : isAtomOp r.op = true ∧ isAdd r.op = true := by rw [hop]; decide
    obtain ⟨hatom, hadd⟩ := hops
    obtain ⟨len, pay, hans, hret⟩ := atomAnswer_ok (atomRet r.m = true) (addEffect s r).1 (addEffect s r).2
    have hrun := (effect_atomic hlost hatom).trans ((if_pos hadd).trans ((addAnswer_exact hop _).trans hans))
    rw [← hloc] at hnew ⊢
    rw [addEffect_first hop hnew] at hrun hret
    obtain ⟨hnear, hfar⟩ := groupNew_store (s := s) (a := r.admitted) (loc := reqLoc r) (ty := atomTy r.m) (rnd := atomRnd r.m)
      (groupAdds s r.admitted (reqLoc r) (atomTy r.m) (atomRnd r.m))
    exact ⟨len, pay, _, hrun, hnear, hfar, groupDone_groupNew _ hnew, hret⟩

end Sys2Proof.Machine
end

section
/-!
SUPPORT. Invalidations of the translation cache (R117, R118): how one starts, what it takes out, and when it is over.
-/

namespace Sys2Proof.Machine

@[simp] theorem Body.count_xlt (s : Body) (f : Fld) (n i j : Nat) : (s.count f n i j).xlt = s.xlt := by rw [Body.count_regs]

/-! ### The start (R117) -/

/-- An invalidation is in force from the next boundary on. -/
def Body.invBegun (b : Body) (v : InvScope) : Body :=
  ({ b with xlt := { b.xlt with inv := some (v, b.now + 1) } } : Body).set R.XLT_INV_STATUS.BUSY 1

section
variable {b : Body} {v : InvScope}

theorem invStart_busy (hb : b.get R.XLT_INV_STATUS.BUSY ≠ 0) : invStart b v = b.set R.XLT_INV_STATUS.OVERRUN 1 :=
  if_pos (decide_eq_true hb)

theorem invStart_malformed (hb : b.get R.XLT_INV_STATUS.BUSY = 0) (hm : v.malformed = true) :
    invStart b v = b.set R.XLT_INV_STATUS.BADCMD 1 := by
  rw [invStart, Body.on, if_neg (by simp [hb]), if_pos hm]

theorem invStart_formed (hb : b.get R.XLT_INV_STATUS.BUSY = 0) (hm : v.malformed = false) :
    invStart b v = b.invBegun v := by
  rw [invStart, Body.on, if_neg (by simp [hb]), if_neg (by simp [hm]), Body.invBegun]

/-- Operands in their fields' widths are taken as they are. -/
theorem invWrite_eq {pid size count : Nat} (scope : Nat) (hp : pid < 1024) (hz : size < 4) (hc : count < 2 ^ 26) :
    invWrite scope pid size count b = invStart b {
      scope := scope, pid := pid, size := size, count := count, cva := b.get R.XLT_INV_ADDR.CVA * 65536 } := by
  rw [invWrite, Nat.mod_eq_of_lt hp, Nat.mod_eq_of_lt hz, Nat.mod_eq_of_lt hc]

end

/-! The four commands write one register (R117). -/

section
variable {s : State} (hon : s.pwr.off = false) (ho : regOpen s (R.XLT_INV_CMD.SCOPE.at 0) = true)
include hon ho

theorem onReg_invWrite_busy (hb : s.get R.XLT_INV_STATUS.BUSY ≠ 0) (scope pid size count : Nat) :
    onReg R.XLT_INV_CMD.SCOPE 0 (low (invWrite scope pid size count)) s = s.set R.XLT_INV_STATUS.OVERRUN 1 :=
  (onReg_on _ hon ho).trans (low_congr (invStart_busy hb))

variable (hb : s.get R.XLT_INV_STATUS.BUSY = 0) {pid size count : Nat} (hp : pid < 1024) (hz : size < 4) (hc : count < 2 ^ 26)
include hb hp hz hc

theorem onReg_invWrite_malformed {scope : Nat}
    (hm : InvScope.malformed { scope, pid, size, count, cva := s.get R.XLT_INV_ADDR.CVA * 65536 } = true) :
    onReg R.XLT_INV_CMD.SCOPE 0 (low (invWrite scope pid size count)) s = s.set R.XLT_INV_STATUS.BADCMD 1 :=
  (onReg_on _ hon ho).trans (low_congr ((invWrite_eq scope hp hz hc).trans (invStart_malformed hb hm)))

theorem onReg_invWrite_formed {scope : Nat}
    (hm : InvScope.malformed { scope, pid, size, count, cva := s.get R.XLT_INV_ADDR.CVA * 65536 } = false) :
    onReg R.XLT_INV_CMD.SCOPE 0 (low (invWrite scope pid size count)) s =
      s.upd (fun b => b.invBegun { scope, pid, size, count, cva := s.get R.XLT_INV_ADDR.CVA * 65536 }) :=
  (onReg_on _ hon ho).trans (low_congr ((invWrite_eq scope hp hz hc).trans (invStart_formed hb hm)))

end

/-! ### The effect (R118) -/

section
variable {b : Body} {v : InvScope}

theorem invBoundary_due (h : b.xlt.inv = some (v, b.now)) : invBoundary b = invEffect b v := by
  simp only [invBoundary, h, if_true]

theorem mem_invEffect_tlb {e : TlbEntry} : e ∈ (invEffect b v).xlt.tlb ↔
    e ∈ b.xlt.tlb ∧ v.covers e.pid (e.page * 2 ^ pageLog e.size) ((e.page + 1) * 2 ^ pageLog e.size) = false := by
  simp only [invEffect, List.mem_filter, Bool.not_eq_true']

/-! ### The end (R118) -/

variable {k : Nat} (h : b.xlt.inv = some (v, k))
include h

theorem invComplete_served (hk : k ≤ b.now) (hh : invHolds b v k = false) :
    invComplete b = ((({ b with xlt := { b.xlt with inv := none } } : Body).set R.XLT_INV_STATUS.BUSY 0).set
      R.XLT_INV_STATUS.DONE_KNOT b.now).count R.XLT_INV.COUNT := by
  simp only [invComplete, h]
  exact if_pos ⟨hk, hh⟩

theorem invComplete_unserved (hw : b.now < k ∨ invHolds b v k = true) : invComplete b = b := by
  have hnot : ¬ (k ≤ b.now ∧ invHolds b v k = false) := by
    rintro ⟨hk, hh⟩
    rcases hw with hlt | hheld
    · exact absurd hk (Nat.not_le.2 hlt)
    · exact absurd hheld (by simp [hh])
  simp only [invComplete, h]
  exact if_neg hnot

end

theorem exec_invalidationComplete {s : State} (hon : s.pwr.off = false) :
    exec .invalidationComplete s = .next (s.upd invComplete) := congrArg Host.Outcome.next (live_on _ hon)

/-- Settles O31: the start by the state of BUSY and the operands, the effect, and the end. -/
theorem cacheInvalidations : Obligations.CacheInvalidations := by
  refine ⟨fun s hon ho => ⟨fun hb pid size count => ?_, fun hb pid size count hp hc => ?_⟩, fun b v h => ?_,
    fun s hon v k h => ?_⟩
  · have hover := onReg_invWrite_busy hon ho hb
    exact ⟨congrArg _ (hover 0 pid size 0), congrArg _ (hover 1 pid size count), congrArg _ (hover 2 pid 0 0),
      congrArg _ (hover 3 0 0 0)⟩
  · have hz0 : 0 < 4 := by decide
    have hc0 : 0 < 2 ^ 26 := by decide
    refine ⟨fun hz => congrArg _ (onReg_invWrite_formed hon ho hb hp (by omega) hc0 ?_),
      fun hz hpos => congrArg _ (onReg_invWrite_formed hon ho hb hp (by omega) hc ?_),
      congrArg _ (onReg_invWrite_malformed hon ho hb hp (by decide) hc0 rfl),
      fun hz hbad => congrArg _ (onReg_invWrite_malformed hon ho hb hp hz hc ?_),
      congrArg _ (onReg_invWrite_formed hon ho hb hp hz0 hc0 rfl),
      congrArg _ (onReg_invWrite_formed hon ho hb (by decide) hz0 hc0 rfl)⟩
    · have : size ≠ 3 := by omega
      simp [InvScope.malformed, this]
    · have : size ≠ 3 ∧ count ≠ 0 := by omega
      simp [InvScope.malformed, this]
    · simpa [InvScope.malformed] using hbad
  · rw [invBoundary_due h]
    exact ⟨fun _ => mem_invEffect_tlb, rfl, rfl⟩
  · rw [exec_invalidationComplete hon]
    refine ⟨fun hk hh => ⟨_, rfl, ?_⟩, fun hw => congrArg _ (upd_congr (g := id) (invComplete_unserved h hw))⟩
    rw [State.upd_toBody, invComplete_served h hk hh]
    refine ⟨by simp, ?_, ?_, by simp⟩
    · rw [Body.get_count_ne _ _ (by decide) (by decide), Body.get_set_ne _ _ (by decide), Body.get_set_self, Nat.zero_mod]
    · rw [Body.get_count_ne _ _ (by decide) (by decide), Body.get_set_self]

end Sys2Proof.Machine
end

section
/-!
SUPPORT. Page walks, the partition's share of the translation cache, hot rings and access counters (R107 to R113, R125, R127).
-/

namespace Sys2Proof.Machine

/-! ### The end of a walk (R113) -/

theorem exec_walkComplete {s : State} (pid page : Nat) (hon : s.pwr.off = false) :
    exec (.walkComplete pid page) s = .next (s.upd (fun b => walkComplete b pid page)) :=
  congrArg Host.Outcome.next (live_on _ hon)

/-- The walk has ended and gives its walker back. -/
def Body.walkOver (b : Body) (w : Walk) : Body := { b with xlt := { b.xlt with walks := b.xlt.walks.filter (fun v => v != w) } }

section
variable {b : Body} {pid page : Nat}

theorem walkComplete_absent (h : b.xlt.walks.find? (fun w => w.pid == pid && w.page == page) = none) :
    walkComplete b pid page = b := by
  simp only [walkComplete, h]

variable {w : Walk} (h : b.xlt.walks.find? (fun w => w.pid == pid && w.page == page) = some w)
include h

theorem walkComplete_unread (hr : w.res = none) : walkComplete b pid page = b := by
  simp only [walkComplete, h, hr, Option.isSome_none, Bool.false_eq_true, if_false]

theorem walkComplete_leaf {l : Leaf} {n : Nat} (hr : w.res = some (.leaf l n)) : walkComplete b pid page =
    settle (walkWake ((tlbInsert (b.walkOver w) pid (page * 65536) l).count R.XLT_WALK_READS.COUNT n)) := by
  simp only [walkComplete, h, hr, Option.isSome_some, if_true, Body.walkOver]

theorem walkComplete_err {e : XErr} {n : Nat} (hr : w.res = some (.err e n)) : walkComplete b pid page =
    settle (walkWake (walkFault ((b.walkOver w).count R.XLT_WALK_READS.COUNT n) w e)) := by
  simp only [walkComplete, h, hr, Option.isSome_some, if_true, Body.walkOver]

end

/-- A fault of a walk answers the one request of its partition where its first page with no translation is the walk's (R116). -/
theorem walkFault_one {b : Body} {w : Walk} {e : XErr} {r : Req} {p : Nat × Nat}
    (hone : b.olp.reqs.filter (fun r => r.stage == .walk && r.m.pid == w.pid) = [r]) (hop : r.op < opSEIZEPREPARE)
    (hcva : r.m.space = false)
    (hp : (cutPages r.m.addr (reqLen r.op r.m) 18).find? (fun p => (tlbFind b r.m.pid p.1).isNone) = some p) :
    walkFault b w e =
      if p.1 >>> 16 = w.page then refuse (xltFault b e 0 w.pid r.m.cid p.1) r e.status e.sub else b := by
  obtain ⟨a, n⟩ := p
  simp only [walkFault, hone, List.foldl_cons, List.foldl_nil, if_neg (Nat.not_le.2 hop), hcva, Bool.false_eq_true, if_false, hp]

/-! ### Loading a leaf (R111, R112) -/

theorem lruTlb_mem {v : TlbEntry} : ∀ {l : List TlbEntry}, lruTlb l = some v → v ∈ l
  | e :: t, h => by
    cases ht : lruTlb t with
    | none =>
      simp only [lruTlb, ht, Option.some.injEq] at h
      exact h ▸ List.mem_cons_self
    | some f =>
      simp only [lruTlb, ht] at h
      split at h <;> cases h
      · exact List.mem_cons_of_mem _ (lruTlb_mem ht)
      · exact List.mem_cons_self

/-- The cached translations of a partition. -/
def tlbOwn (b : Body) (pid : Nat) : List TlbEntry := b.xlt.tlb.filter (fun e => e.pid == pid)

/-- A cached translation of a partition is of the page that a leaf maps. -/
def samePage (pid cva : Nat) (l : Leaf) (e : TlbEntry) : Bool :=
  e.pid == pid && e.size == l.size && e.page == cva >>> pageLog l.size

/-- What stays of the cache where the page of a leaf is loaded anew. -/
def tlbRest (b : Body) (pid cva : Nat) (l : Leaf) : List TlbEntry := b.xlt.tlb.filter (fun e => !samePage pid cva l e)

/-- The page of a leaf is cached and pinned: its entry stays as it is (R112). -/
def pagePinned (b : Body) (pid cva : Nat) (l : Leaf) : Bool :=
  (tlbOwn b pid).any (fun e => e.size == l.size && e.page == cva >>> pageLog l.size && e.pinned)

/-- The entry of a leaf, in a share of `n` entries: a CLEAT pins it while fewer than half of them are pinned (R112). -/
def tlbNew (b : Body) (pid cva n : Nat) (l : Leaf) : TlbEntry :=
  { pid := pid, page := cva >>> pageLog l.size, size := l.size, sga := l.sga, perm := l.perm, used := b.xlt.clock,
    pinned := l.cleat && decide (((tlbOwn b pid).filter (fun e => e.pinned)).length * 2 < n) }

/-- The cache holds these entries, and its clock has gone on. -/
def Body.tlbLoaded (b : Body) (es : List TlbEntry) : Body :=
  { b with xlt := { b.xlt with tlb := es, clock := b.xlt.clock + 1 } }

section
variable {b : Body} {pid cva : Nat} {l : Leaf} {e : TlbEntry}

theorem mem_tlbOwn : e ∈ tlbOwn b pid ↔ e ∈ b.xlt.tlb ∧ e.pid = pid := by simp [tlbOwn]

theorem mem_tlbRest : e ∈ tlbRest b pid cva l ↔
    e ∈ b.xlt.tlb ∧ (e.pid = pid → e.size = l.size → e.page ≠ cva >>> pageLog l.size) := by
  rw [tlbRest, List.mem_filter, Bool.not_eq_true', ← Bool.not_eq_true]
  simp only [samePage, Bool.and_eq_true, beq_iff_eq, not_and, and_imp, ne_eq]

theorem pagePinned_iff : pagePinned b pid cva l = true ↔
    ∃ e ∈ tlbOwn b pid, (e.size = l.size ∧ e.page = cva >>> pageLog l.size) ∧ e.pinned = true := by simp [pagePinned]

/-- What other partitions hold, and what is pinned, stays where the page is loaded. -/
theorem mem_tlbRest_of_kept (hfree : pagePinned b pid cva l ≠ true) (he : e ∈ b.xlt.tlb)
    (hkept : e.pid ≠ pid ∨ e.pinned = true) : e ∈ tlbRest b pid cva l := by
  refine mem_tlbRest.2 ⟨he, fun hpid hsize hpage => hfree (pagePinned_iff.2 ?_)⟩
  exact ⟨e, mem_tlbOwn.2 ⟨he, hpid⟩, ⟨hsize, hpage⟩, hkept.resolve_left (fun hne => hne hpid)⟩

/-- Without one of the partition's own entries there is room for another in what it held. -/
theorem length_tlbRest_without {v : TlbEntry} (hv : v ∈ tlbRest b pid cva l) (hpid : v.pid = pid) :
    (((tlbRest b pid cva l).filter (fun e => e != v)).filter (fun e => e.pid == pid)).length < (tlbOwn b pid).length := by
  calc (((tlbRest b pid cva l).filter (fun e => e != v)).filter (fun e => e.pid == pid)).length
      = (((tlbRest b pid cva l).filter (fun e => e.pid == pid)).filter (fun e => e != v)).length := by
        rw [List.filter_filter, List.filter_filter]
        exact congrArg (fun p => ((tlbRest b pid cva l).filter p).length) (funext fun _ => Bool.and_comm ..)
    _ < ((tlbRest b pid cva l).filter (fun e => e.pid == pid)).length :=
        List.length_filter_lt_length_iff_exists.2 ⟨v, List.mem_filter.2 ⟨hv, by simp [hpid]⟩, by simp⟩
    _ ≤ (tlbOwn b pid).length := (List.filter_sublist.filter _).length_le

variable {d : PartDef} (hd : partDef b pid = some d)
include hd

/-- The three ways of a load: a pinned entry of the page stays as it is, the new one joins the rest, or one makes place for it. -/
theorem tlbInsert_eq : tlbInsert b pid cva l =
    if d.xltShare * 64 = 0 ∨ pagePinned b pid cva l = true then b
    else if ((tlbRest b pid cva l).filter (fun e => e.pid == pid)).length < d.xltShare * 64 then
      b.tlbLoaded (tlbRest b pid cva l ++ [tlbNew b pid cva (d.xltShare * 64) l])
    else (lruTlb ((tlbRest b pid cva l).filter (fun e => e.pid == pid && !e.pinned))).elim b
      (fun v => b.tlbLoaded ((tlbRest b pid cva l).filter (fun e => e != v) ++ [tlbNew b pid cva (d.xltShare * 64) l])) := by
  simp only [tlbInsert, hd, tlbOwn, tlbRest, samePage, pagePinned, tlbNew, Body.tlbLoaded]
  generalize lruTlb _ = victim
  cases victim <;> rfl

/-- With room in the share, the leaf of a page that is not cached joins what is there (R111). -/
theorem tlbInsert_room (hroom : (tlbOwn b pid).length < d.xltShare * 64)
    (hnew : ∀ e ∈ tlbOwn b pid, e.size = l.size → e.page ≠ cva >>> pageLog l.size) :
    tlbInsert b pid cva l = b.tlbLoaded (b.xlt.tlb ++ [tlbNew b pid cva (d.xltShare * 64) l]) := by
  have hrest : tlbRest b pid cva l = b.xlt.tlb := List.filter_eq_self.2 fun e he =>
    (List.mem_filter.1 (mem_tlbRest.2 ⟨he, fun hpid => hnew e (mem_tlbOwn.2 ⟨he, hpid⟩)⟩)).2
  have hfree : ¬ (d.xltShare * 64 = 0 ∨ pagePinned b pid cva l = true) := by
    rw [pagePinned_iff]
    rintro (h | ⟨e, he, ⟨hsize, hpage⟩, -⟩)
    · exact absurd hroom (by omega)
    · exact hnew e he hsize hpage
  rw [tlbInsert_eq hd, if_neg hfree, hrest]
  exact if_pos hroom

/-- What a load can do: nothing, or the new entry joins some of the old ones, among which all that other partitions hold and
all that is pinned, and the share has room for it (R111, R112). -/
theorem tlbInsert_cases : tlbInsert b pid cva l = b ∨ ∃ es,
    tlbInsert b pid cva l = b.tlbLoaded (es ++ [tlbNew b pid cva (d.xltShare * 64) l]) ∧
    (∀ e ∈ b.xlt.tlb, e.pid ≠ pid ∨ e.pinned = true → e ∈ es) ∧
    ((tlbOwn b pid).length ≤ d.xltShare * 64 → (es.filter (fun e => e.pid == pid)).length < d.xltShare * 64) := by
  rw [tlbInsert_eq hd]
  split
  · exact .inl rfl
  next hnot =>
  have hkept := fun e => mem_tlbRest_of_kept (e := e) (fun h => hnot (.inr h))
  split
  · next hroom => exact .inr ⟨_, rfl, hkept, fun _ => hroom⟩
  cases hv : lruTlb ((tlbRest b pid cva l).filter (fun e => e.pid == pid && !e.pinned)) with
  | none => exact .inl rfl
  | some v =>
    obtain ⟨hrest, hmine⟩ := List.mem_filter.1 (lruTlb_mem hv)
    simp only [Bool.and_eq_true, Bool.not_eq_true', beq_iff_eq] at hmine
    obtain ⟨hpid, hunpinned⟩ := hmine
    refine .inr ⟨_, rfl, fun e he hother => List.mem_filter.2 ⟨hkept e he hother, bne_iff_ne.2 (fun hev => ?_)⟩,
      fun hle => Nat.lt_of_lt_of_le (length_tlbRest_without hrest hpid) hle⟩
    subst hev
    simp [hpid, hunpinned] at hother

theorem tlbInsert_keeps (he : e ∈ b.xlt.tlb) (hother : e.pid ≠ pid ∨ e.pinned = true) :
    e ∈ (tlbInsert b pid cva l).xlt.tlb := by
  obtain heq | ⟨es, heq, hkept, -⟩ := tlbInsert_cases (cva := cva) (l := l) hd <;> rw [heq]
  · exact he
  · exact List.mem_append_left _ (hkept e he hother)

/-- The cache keeps to the partition's share (R111). -/
theorem tlbInsert_share (hle : (tlbOwn b pid).length ≤ d.xltShare * 64) :
    (tlbOwn (tlbInsert b pid cva l) pid).length ≤ d.xltShare * 64 := by
  obtain heq | ⟨es, heq, -, hroom⟩ := tlbInsert_cases (cva := cva) (l := l) hd <;> rw [heq]
  · exact hle
  · have hown : tlbOwn (b.tlbLoaded (es ++ [tlbNew b pid cva (d.xltShare * 64) l])) pid =
        es.filter (fun e => e.pid == pid) ++ [tlbNew b pid cva (d.xltShare * 64) l] := by
      simp [tlbOwn, Body.tlbLoaded, tlbNew]
    rw [hown, List.length_append, List.length_singleton]
    exact hroom hle

theorem tlbInsert_frame : tlbInsert b pid cva l = { b with xlt := (tlbInsert b pid cva l).xlt } := by
  obtain heq | ⟨es, heq, -⟩ := tlbInsert_cases (cva := cva) (l := l) hd
  · rw [heq]
  · rw [heq]
    rfl

end

/-! ### Hot rings (R127) -/

theorem exec_hotRingEnable {s : State} {pid ring sizeLog : Nat} (hon : s.pwr.off = false)
    (ho : regOpen s (R.XLT_PART_HOT.EN.at 0) = true) (hp : pidOk s.toBody pid = true) :
    exec (.hotRingEnable pid ring sizeLog) s = .next (s.upd (fun b => hotRingWrite b pid true ring sizeLog)) :=
  congrArg Host.Outcome.next (onPid_on _ hon ho hp)

/-- A view's field is none of the fields of another register. -/
theorem Fld.key_ne_view {f g : Fld} (j : Nat) (hf : f.lo < 64) (hg : g.lo < 64)
    (h : f.off ≠ g.off ∧ f.off < windowSize ∧ g.off < windowSize) : f.key 0 j ≠ g.key 0 0 := by
  refine Fld.key_ne_off hf hg ?_
  unfold windowSize at *
  omega

section
variable {b : Body} {f : Fld} {i j : Nat} (hf : f.key i j ≠ R.CFG_STATUS.HID.key 0 0)
include hf

theorem sgaLoc_set (v a : Nat) : sgaLoc (b.set f v i j) a = sgaLoc b a := by
  have hhid : (b.set f v i j).hid = b.hid := Body.get_set_ne b v hf
  unfold sgaLoc
  rw [hhid]
  rfl

/-- Where a ring lies depends on one register field alone, the HID. -/
theorem ringPlaced_set (v pid base n : Nat) : ringPlaced (b.set f v i j) pid base n = ringPlaced b pid base n := by
  simp only [ringPlaced, sgaLoc_set hf]
  rfl

end

theorem hotRingWrite_regs (b : Body) (pid : Nat) (en : Bool) (ring sizeLog : Nat) :
    RegsOnly b (hotRingWrite b pid en ring sizeLog) := (((RegsOnly.refl b).set ..).set ..).set ..

section
variable (b : Body) (pid ring sizeLog : Nat) (en : Bool)

theorem hotRingWrite_ring :
    (hotRingWrite b pid en ring sizeLog).get R.XLT_PART_HOT.RING 0 pid = ring % 2 ^ R.XLT_PART_HOT.RING.w := by
  unfold hotRingWrite
  rw [Body.get_set_ne _ _ (Fld.key_ne_lo (by decide) (by decide) (by decide)),
    Body.get_set_ne _ _ (Fld.key_ne_lo (by decide) (by decide) (by decide)), Body.get_set_self]

theorem hotRingWrite_sizeLog :
    (hotRingWrite b pid en ring sizeLog).get R.XLT_PART_HOT.SIZE_LOG 0 pid = sizeLog % 2 ^ R.XLT_PART_HOT.SIZE_LOG.w := by
  unfold hotRingWrite
  rw [Body.get_set_ne _ _ (Fld.key_ne_lo (by decide) (by decide) (by decide)), Body.get_set_self]

theorem hotRingWrite_en : (hotRingWrite b pid true ring sizeLog).get R.XLT_PART_HOT.EN 0 pid =
    if 12 ≤ sizeLog ∧ sizeLog ≤ 24 ∧ ringPlaced b pid (ring * 4096) (2 ^ sizeLog) = true then 1 else 0 := by
  unfold hotRingWrite
  rw [Body.get_set_self, ringPlaced_set (Fld.key_ne_view pid (by decide) (by decide) (by decide)),
    ringPlaced_set (Fld.key_ne_view pid (by decide) (by decide) (by decide))]
  simp only [Bool.true_and, b2n, Bool.and_eq_true, decide_eq_true_eq, and_assoc]
  split <;> rfl

end

/-! ### Access counters (R125) -/

theorem exec_accessDecay {s : State} (hon : s.pwr.off = false) : exec .accessDecay s = .next (s.upd accessDecay) :=
  congrArg Host.Outcome.next (live_on _ hon)

/-- What the sweep at the boundary makes of one counter: a unit that it visits is halved, and no longer HOT below half the
threshold. -/
def decayOne (b : Body) (e : Nat × Nat) : Nat × Nat :=
  if e.1 % decayKnots b = b.now % decayKnots b then
    (e.1, e.2 % 128 / 2 + (if e.2 % 128 / 2 < b.get R.XLT_CTRL.HOT_THRESH / 2 then 0 else e.2 / 128 * 128))
  else e

section
variable {b : Body}

theorem accessDecay_again (h : b.xlt.decayed = b.now + 1) : accessDecay b = b := if_pos h

theorem accessDecay_first (h : b.xlt.decayed ≠ b.now + 1) : accessDecay b = { b with xlt := { b.xlt with
    acc := (b.xlt.acc.map (decayOne b)).filter (fun e => e.2 != 0), decayed := b.now + 1 } } := if_neg h

theorem ite_zero_mul (p : Prop) [Decidable p] (a n : Nat) : (if p then 0 else a) * n = if p then 0 else a * n := by
  split
  · exact Nat.zero_mul n
  · rfl

/-- A counter stays unless it comes to 0. -/
theorem mem_accessDecay {e e' : Nat × Nat} (h : b.xlt.decayed ≠ b.now + 1) (he : e ∈ b.xlt.acc) (hto : decayOne b e = e')
    (hne : e'.2 ≠ 0) : e' ∈ (accessDecay b).xlt.acc := by
  rw [accessDecay_first h]
  exact List.mem_filter.2 ⟨hto ▸ List.mem_map_of_mem he, bne_iff_ne.2 hne⟩

theorem accessDecay_length (h : b.xlt.decayed ≠ b.now + 1) : (accessDecay b).xlt.acc.length ≤ b.xlt.acc.length := by
  rw [accessDecay_first h]
  exact Nat.le_trans (List.length_filter_le ..) (Nat.le_of_eq (List.length_map ..))

end

/-! ### The obligation -/

/-- Settles O32: the end of a walk by what its reads have found, the load of its leaf, the fault's answer, the hot ring and the
decay. -/
theorem pageWalks : Obligations.PageWalks := by
  refine ⟨fun s pid page hon => ?_, fun b pid cva l d hd => ?_, fun b w e r p => walkFault_one, fun s hon =>
    ⟨fun pid ring sizeLog ho hp hr hz => ?_, fun hdec => ?_, fun hdec => ?_⟩⟩
  · rw [exec_walkComplete pid page hon]
    exact ⟨fun h => congrArg _ (upd_congr (g := id) (walkComplete_absent h)), fun w h =>
      ⟨fun hr => congrArg _ (upd_congr (g := id) (walkComplete_unread h hr)),
        fun l n hr => congrArg _ (upd_congr (walkComplete_leaf h hr)),
        fun e n hr => congrArg _ (upd_congr (walkComplete_err h hr))⟩⟩
  · exact ⟨fun hroom hnew => congrArg (fun t : Body => t.xlt.tlb) (tlbInsert_room hd hroom hnew),
      fun e he => tlbInsert_keeps hd he, tlbInsert_share hd, tlbInsert_frame hd⟩
  · refine ⟨_, exec_hotRingEnable hon ho hp, ?_, ?_, hotRingWrite_en .., upd_congr (hotRingWrite_regs ..)⟩
    · exact (hotRingWrite_ring ..).trans (Nat.mod_eq_of_lt hr)
    · exact (hotRingWrite_sizeLog ..).trans (Nat.mod_eq_of_lt hz)
  · rw [exec_accessDecay hon]
    exact congrArg _ (upd_congr (g := id) (accessDecay_again hdec))
  · refine ⟨_, exec_accessDecay hon, ?_, fun u c hmem hu hc => ?_, fun u c hmem hu hc => ?_, accessDecay_length hdec, ?_⟩
    · rw [State.upd_toBody, accessDecay_first hdec]
    · exact mem_accessDecay hdec hmem (if_neg hu) hc
    · refine ⟨_, mem_accessDecay hdec hmem ((if_pos hu).trans ?_) ?_, rfl⟩
      · rw [ite_zero_mul]
      · exact Nat.ne_of_gt (Nat.add_pos_left (Nat.pos_of_ne_zero hc) _)
    · refine upd_congr ?_
      rw [State.upd_toBody, accessDecay_first hdec]

end Sys2Proof.Machine
end

section
/-!
SUPPORT. What orders do at their boundary: windows and roots (R106, R119), queues (R196), hitches and grants (R377, R380).
-/

namespace Sys2Proof.Machine

@[simp] theorem Body.count_prt (s : Body) (f : Fld) (n i j : Nat) : (s.count f n i j).prt = s.prt := by rw [Body.count_regs]

/-! ### Windows and roots (R106, R119) -/

section
variable {b : Body} {pid w : Nat} {win : Win}

theorem winOf_rebaseEffect_self : winOf (rebaseEffect b pid w win) pid w = win := by
  simp only [winOf, rebaseEffect, Body.set_xlt, AMap.get_put_self]

theorem winOf_rebaseEffect_ne {p x : Nat} (hw : w < 64) (hx : x < 64) (hne : (p, x) ≠ (pid, w)) :
    winOf (rebaseEffect b pid w win) p x = winOf b p x := by
  have hkey : pid * 64 + w ≠ p * 64 + x := fun h => hne (Prod.ext_iff.2 ⟨by omega, by omega⟩)
  simp only [winOf, rebaseEffect, Body.set_xlt, AMap.get_put_ne _ _ _ _ hkey]

theorem rebaseEffect_gen : (rebaseEffect b pid w win).get R.XLT_WIN_BASE.GEN w pid =
    (b.get R.XLT_WIN_BASE.GEN w pid + 1) % 2 ^ R.XLT_WIN_BASE.GEN.w := Body.get_set_self ..

/-- The scope of a partition covers exactly what is the partition's. -/
theorem covers_partition {i : InvScope} (hscope : i.scope = 2) (p lo hi : Nat) : i.covers p lo hi = decide (i.pid = p) := by
  by_cases hp : i.pid = p <;> simp [InvScope.covers, hscope, hp]

/-- The new root stands in the partition's registers. -/
def Body.rooted (b : Body) (pid root : Nat) : Body := (b.set R.XLT_PART_ROOT.ROOT root 0 pid).set R.XLT_PART_ROOT.V 1 0 pid

theorem rooted_now (root : Nat) : (b.rooted pid root).now = b.now :=
  (Body.get_set_ne _ _ (Fld.key_ne_view pid (by decide) (by decide) (by decide))).trans
    (Body.get_set_ne _ _ (Fld.key_ne_view pid (by decide) (by decide) (by decide)))

theorem rooted_v (root : Nat) : (b.rooted pid root).get R.XLT_PART_ROOT.V 0 pid = 1 := Body.get_set_self ..

theorem rooted_root (root : Nat) :
    (b.rooted pid root).get R.XLT_PART_ROOT.ROOT 0 pid = root % 2 ^ R.XLT_PART_ROOT.ROOT.w := by
  rw [Body.rooted, Body.get_set_ne _ _ (Fld.key_ne_lo (by decide) (by decide) (by decide)), Body.get_set_self]

theorem rootEffect_ignored {root : Nat} (h : tableLoc b (root * 4096) = none) : rootEffect b pid root = b := by
  simp only [rootEffect, h]

theorem rootEffect_taken {root : Nat} (h : (tableLoc b (root * 4096)).isSome = true) :
    rootEffect b pid root = invEffect
      { b.rooted pid root with xlt := { b.xlt with roots := b.xlt.roots ++ [(pid, b.now)] } }
      { scope := 2, pid := pid, size := 0, count := 0, cva := 0 } := by
  obtain ⟨loc, hloc⟩ := Option.isSome_iff_exists.1 h
  rw [← rooted_now (pid := pid) root]
  simp only [rootEffect, hloc]
  rfl

end

/-! ### Hitches (R377) -/

section
variable {b : Body}

theorem prtErr_cause {c : Nat} (hc : c < 16) : (prtErr b c).get R.PRT_CMD_STATUS.CAUSE = c :=
  (Body.get_set_self ..).trans (Nat.mod_eq_of_lt hc)

/-- An index of the hitch table is free below the number of hitches, or is that number. -/
theorem hitchFree_unused {g : Hitch} (hg : g ∈ b.prt.hitches) : g.idx ≠ hitchFree b := by
  unfold hitchFree
  cases hfind : (List.range (b.prt.hitches.length + 1)).find? (fun i => !b.prt.hitches.any (fun h => h.idx == i)) with
  | some i =>
    have hfree := List.find?_some hfind
    simp only [Bool.not_eq_true', List.any_eq_false, beq_iff_eq] at hfree
    exact hfree g hg
  | none =>
    have hall : List.range (b.prt.hitches.length + 1) ⊆ b.prt.hitches.map (fun h => h.idx) := by
      intro i hi
      simpa using List.find?_eq_none.1 hfind i hi
    have hlen := List.nodup_range.length_le_of_subset hall
    simp only [List.length_range, List.length_map] at hlen
    omega

variable {cid pid stages : Nat} {sga : Bool}

theorem hitchNow_unknown (hd : partDef b pid = none) : hitchNow b 1 cid pid stages sga = prtErr b 10 := by
  simp [hitchNow, hd]

theorem hitchNow_again (hd : (partDef b pid).isSome = true) (hh : (hitchOf b cid pid).isSome = true) :
    hitchNow b 1 cid pid stages sga = prtErr b 2 := by
  simp [hitchNow, Option.isNone_eq_false_iff.2 hd, hh]

theorem hitchNow_added (hd : (partDef b pid).isSome = true) (hh : hitchOf b cid pid = none)
    (hroom : b.prt.hitches.length < 16384) :
    hitchNow b 1 cid pid stages sga = (hitchAdd b cid pid stages sga).count R.PRT_HITCH_OPS.COUNT := by
  simp [hitchNow, Option.isNone_eq_false_iff.2 hd, hh, Nat.not_le.2 hroom]

theorem hitchNow_modify_absent (hh : hitchOf b cid pid = none) : hitchNow b 3 cid pid stages sga = prtErr b 3 := by
  simp [hitchNow, hh]

theorem hitchOf_count (f : Fld) (n i j : Nat) : hitchOf (b.count f n i j) cid pid = hitchOf b cid pid := by
  rw [hitchOf, Body.count_prt, hitchOf]

/-- The pair's new hitch is the one just added. -/
theorem hitchOf_hitchAdd (hh : hitchOf b cid pid = none) : hitchOf (hitchAdd b cid pid stages sga) cid pid =
    some { idx := hitchFree b, cid := cid, pid := pid, stages := stages, sgaOk := sga, state := 1 } := by
  unfold hitchOf at hh
  simp [hitchOf, hitchAdd, List.find?_append, hh]

/-! ### Grants (R380) -/

theorem grantNow_new {x rights : Nat} {h : Hitch} {e : Extent} (hh : hitchOf b cid pid = some h) (hactive : h.state = 1)
    (hopen : e.fenced = false) (he : (b.part pid).cur.exts.find? (fun e => e.idx == x) = some e)
    (hg : grantOf b cid pid x = none) (hroom : b.prt.grants.length < 65536) :
    grantNow b cid pid x rights = { b with prt := { b.prt with
      grants := b.prt.grants ++ [{ cid := cid, pid := pid, ext := x, rights := rights, fenced := false }] } } := by
  simp [grantNow, hh, he, hopen, hactive, hg, Nat.not_le.2 hroom]

end

/-! ### Queues (R196) -/

section
variable {b : Body} {key : Nat}

theorem queEnableNow_off (hst : b.get R.QUE_STATUS.STATE 0 key = 0) (hq : (queCore b key).isSome = true) :
    queEnableNow b key = b.set R.QUE_STATUS.STATE 1 0 key := if_pos ⟨hq, hst⟩

theorem queEnableNow_on (hst : b.get R.QUE_STATUS.STATE 0 key ≠ 0) : queEnableNow b key = b := if_neg (fun h => hst h.2)

theorem queDisableNow_running (hst : b.get R.QUE_STATUS.STATE 0 key = 1 ∨ b.get R.QUE_STATUS.STATE 0 key = 3) :
    queDisableNow b key = (b.set R.QUE_STATUS.STATE 2 0 key).set R.QUE_STATUS.CAUSE 0 0 key := if_pos hst

theorem queResumeNow_error (hst : b.get R.QUE_STATUS.STATE 0 key = 3) :
    queResumeNow b key = (b.set R.QUE_STATUS.STATE 1 0 key).set R.QUE_STATUS.CAUSE 0 0 key := if_pos hst

theorem queResumeNow_other (hst : b.get R.QUE_STATUS.STATE 0 key ≠ 3) : queResumeNow b key = b := if_neg hst

/-- CAUSE and STATE of a queue are two fields. -/
theorem get_state_setCause (v : Nat) :
    (b.set R.QUE_STATUS.CAUSE v 0 key).get R.QUE_STATUS.STATE 0 key = b.get R.QUE_STATUS.STATE 0 key :=
  Body.get_set_ne b v (Fld.key_ne_lo (by decide) (by decide) (by decide))

end

/-! ### The obligation -/

/-- Settles O35, one kind of order after the other. -/
theorem ordersTakeEffect : Obligations.OrdersTakeEffect := by
  refine fun b => ⟨fun pid w win hw => ?_, fun pid root => ⟨rootEffect_ignored, fun h => ?_⟩, fun key => ?_,
    fun cid pid stages sga => ?_, fun cid pid x rights h e hh hactive hopen he hg hroom => ?_⟩
  · refine ⟨winOf_rebaseEffect_self, ?_, fun p x hx => winOf_rebaseEffect_ne hw hx, rebaseEffect_gen, rfl⟩
    exact congrArg (fun v : Win => v.size * 65536) winOf_rebaseEffect_self
  · simp only [actNow, rootEffect_taken h]
    refine ⟨rooted_v root, rooted_root root, rfl, fun e => ?_⟩
    rw [mem_invEffect_tlb, covers_partition rfl, decide_eq_false_iff_not, ne_comm]
  · refine ⟨fun hst hq => ?_, fun hst => ?_, fun hst => ?_, queResumeNow_other, queEnableNow_on⟩
    · simp only [actNow, queEnableNow_off hst hq, Body.get_set_self]
      rfl
    · simp only [actNow, queDisableNow_running hst, get_state_setCause, Body.get_set_self]
      rfl
    · simp only [actNow, queResumeNow_error hst, get_state_setCause, Body.get_set_self]
      exact ⟨rfl, rfl⟩
  · refine ⟨fun hd => ?_, fun hd hh => ?_, fun hd hh hroom => ?_, fun hh => ?_⟩
    · rw [actNow, hitchNow_unknown hd, prtErr_cause (by decide)]
    · rw [actNow, hitchNow_again hd hh, prtErr_cause (by decide)]
    · rw [actNow, hitchNow_added hd hh hroom]
      exact ⟨_, (hitchOf_count ..).trans (hitchOf_hitchAdd hh), rfl, rfl, rfl, fun g => hitchFree_unused⟩
    · rw [actNow, hitchNow_modify_absent hh, prtErr_cause (by decide)]
  · rw [actNow, grantNow_new hh hactive hopen he hg hroom]
    refine ⟨{ cid := cid, pid := pid, ext := x, rights := rights, fenced := false }, ?_, rfl, rfl⟩
    unfold grantOf at hg
    simp [grantOf, List.find?_append, hg]

end Sys2Proof.Machine
end

section
/-!
SUPPORT. The directory's upkeep (R150, R151, R153): what a round and a back-invalidation send and leave as it is, the
background eviction of a set, the end of a reclaim sweep, and the acceptance of a lost line.
-/

namespace Sys2Proof.Machine

theorem exec_backgroundEvict {s : State} (setNo : Nat) (hon : s.pwr.off = false) :
    exec (.backgroundEvict setNo) s = .next (s.upd (fun b => bgEvict b setNo)) := congrArg Host.Outcome.next (live_on _ hon)

theorem exec_reclaimSweepEnd {s : State} (hon : s.pwr.off = false) :
    exec .reclaimSweepEnd s = .next (s.upd sweepEnd) := congrArg Host.Outcome.next (live_on _ hon)

@[simp] theorem Body.count_dir (s : Body) (f : Fld) (n i j : Nat) : (s.count f n i j).dir = s.dir := by rw [Body.count_regs]

/-- An update that leaves the body as it is. -/
theorem upd_unchanged {s : State} {f : Body → Body} (h : f s.toBody = s.toBody) : s.upd f = s :=
  (upd_congr (g := fun b => b) h).trans s.upd_self

section
variable {s : Body} {l line : Nat} {e : Option DirEntry}

theorem entryOf_setEntry_same : entryOf (setEntry s line e) line = e := AMap.get_put_self ..

theorem entryOf_setEntry_other (h : l ≠ line) : entryOf (setEntry s line e) l = entryOf s l :=
  AMap.get_put_ne _ _ _ _ (Ne.symm h)

end

/-! ### Counters leave the targets of a round as they are (R137, R140, R143) -/

/-- `t` differs from `s` in counters at most: a counter stands at bit 0 of its register and its OVF at bit 63. -/
def CountersOnly (s t : Body) : Prop :=
  RegsOnly s t ∧ ∀ (f : Fld) (i j : Nat), 0 < f.lo → f.lo < 63 → t.get f i j = s.get f i j

section
variable {s t u : Body}

theorem CountersOnly.refl (s : Body) : CountersOnly s s := ⟨.refl s, fun _ _ _ _ _ => rfl⟩

theorem CountersOnly.count (h : CountersOnly s t) {f : Fld} (hf : f.lo = 0) (n i j : Nat) :
    CountersOnly s (t.count f n i j) := by
  obtain ⟨hregs, hget⟩ := h
  refine ⟨hregs.count .., fun g i' j' hpos hlt => ?_⟩
  have hcount : f.key i j ≠ g.key i' j' := Fld.key_ne_lo (by omega) (by omega) (by omega)
  have hovf : ({ f with lo := 63, w := 1, acc := .w1c } : Fld).key i j ≠ g.key i' j' :=
    Fld.key_ne_lo (show 63 < 64 by decide) (by omega) (show 63 ≠ g.lo by omega)
  rw [Body.get_count_ne t n hcount hovf, hget g i' j' hpos hlt]

theorem CountersOnly.ite {p : Prop} [Decidable p] (ht : CountersOnly s t) (hu : CountersOnly s u) :
    CountersOnly s (if p then t else u) := by
  split
  · exact ht
  · exact hu

section
variable (h : CountersOnly s t)
include h

theorem CountersOnly.dir : t.dir = s.dir := by
  obtain ⟨hregs, -⟩ := h
  rw [hregs]

theorem CountersOnly.storeKept : StoreKept s t := by
  obtain ⟨hregs, -⟩ := h
  rw [hregs]
  exact .refl s

/-- A client's port is found from ROLE and PEER_ID of the ports, which no counter overlays. -/
theorem CountersOnly.portOf (cid : Nat) : portOf t cid = portOf s cid := by
  obtain ⟨hregs, hget⟩ := h
  have hrole : ∀ n, t.get R.LNK_STATUS.ROLE n = s.get R.LNK_STATUS.ROLE n := fun n => hget _ n 0 (by decide) (by decide)
  have hpeer : ∀ n, t.get R.LNK_PEER.PEER_ID n = s.get R.LNK_PEER.PEER_ID n := fun n => hget _ n 0 (by decide) (by decide)
  have holp : t.olp = s.olp := by rw [hregs]
  simp only [Machine.portOf, hrole, hpeer, holp]

theorem CountersOnly.cidFenced (cid : Nat) : cidFenced t cid = cidFenced s cid := by
  obtain ⟨hregs, -⟩ := h
  rw [hregs]
  rfl

theorem CountersOnly.sharingSet (pid : Nat) : sharingSet t pid = sharingSet s pid := by
  obtain ⟨hregs, -⟩ := h
  rw [hregs]
  rfl

theorem CountersOnly.roundTargets (e : DirEntry) (without : Option Nat) :
    roundTargets t e without = roundTargets s e without := by
  simp only [Machine.roundTargets, h.portOf, h.cidFenced, h.sharingSet]

end
end

/-! ### The start of a round (R138, R139) -/

/-- `t` differs from `s` at most in registers, in tags and in what has been sent. -/
def SnoopsOnly (s t : Body) : Prop := t = { s with regs := t.regs, olp := t.olp, out := t.out }

section
variable {s t u : Body}

theorem SnoopsOnly.trans (h : SnoopsOnly s t) (h' : SnoopsOnly t u) : SnoopsOnly s u := by
  rw [SnoopsOnly] at h h' ⊢
  rw [h', h]

theorem SnoopsOnly.dir (h : SnoopsOnly s t) : t.dir = s.dir := by rw [h]

theorem SnoopsOnly.storeKept (h : SnoopsOnly s t) : StoreKept s t := by
  rw [h]
  exact .refl s

/-- A snoop goes to its target, or is kept back for want of a tag (R87). -/
theorem snoopSend_spec (s : Body) (r : Round) (e : DirEntry) (cid link : Nat) (resend : Bool) :
    let p := snoopSend s r e cid link resend
    (p.1.cid, p.1.link) = (cid, link) ∧ SnoopsOnly s p.2 := by
  by_cases hfree : (snoopTags s link).length < 4096
  · obtain ⟨tag, m, rg, ol, hsend, -⟩ := snoopSend_sent r e cid link resend hfree
    rw [hsend]
    exact ⟨rfl, rfl⟩
  · have hkept : snoopSend s r e cid link resend = ({ cid := cid, link := link, tags := [], sentAt := s.tick }, s) :=
      if_pos (Nat.not_lt.1 hfree)
    rw [hkept]
    exact ⟨rfl, rfl⟩

/-- Each target is awaited, in order, and the directory is left as it is. -/
theorem snoopAll_spec (s : Body) (r : Round) (e : DirEntry) (resend : Bool) (targets : List (Nat × Nat)) :
    let p := snoopAll s r e resend targets
    p.1.map (fun o => (o.cid, o.link)) = targets ∧ SnoopsOnly s p.2 := by
  induction targets generalizing s with
  | nil => exact ⟨rfl, rfl⟩
  | cons a targets ih =>
    obtain ⟨cid, link⟩ := a
    obtain ⟨hone, hsent⟩ := snoopSend_spec s r e cid link resend
    obtain ⟨hrest, hsents⟩ := ih (snoopSend s r e cid link resend).2
    exact ⟨congr (congrArg _ hone) hrest, hsent.trans hsents⟩

/-- The snoops of a round are sent, and the round is noted with the targets it awaits and counted (R138). -/
def roundLaunched (s : Body) (e : DirEntry) (r : Round) (resend : Bool) (targets : List (Nat × Nat)) : Body :=
  let p := snoopAll s r e resend targets
  let u := { p.2 with dir := { p.2.dir with
    nextRound := r.id + 1, rounds := p.2.dir.rounds ++ [{ r with waiting := p.1 }] } }.count R.DIR_ROUNDS.COUNT
  if e.st = .sb then u.count R.DIR_BCAST.COUNT else u

section
variable (s : Body) (e : DirEntry) (r : Round) (resend : Bool) (targets : List (Nat × Nat))

theorem roundLaunched_regs :
    let p := snoopAll s r e resend targets
    RegsOnly { p.2 with dir := { p.2.dir with
      nextRound := r.id + 1, rounds := p.2.dir.rounds ++ [{ r with waiting := p.1 }] } } (roundLaunched s e r resend targets) :=
  .ite (.count (.count (.refl _) ..) ..) (.count (.refl _) ..)

theorem roundLaunched_rounds : (roundLaunched s e r resend targets).dir.rounds =
    s.dir.rounds ++ [{ r with waiting := (snoopAll s r e resend targets).1 }] := by
  obtain ⟨-, hsent⟩ := snoopAll_spec s r e resend targets
  rw [roundLaunched_regs, ← hsent.dir]

theorem roundLaunched_entries : (roundLaunched s e r resend targets).dir.entries = s.dir.entries := by
  obtain ⟨-, hsent⟩ := snoopAll_spec s r e resend targets
  rw [roundLaunched_regs, ← hsent.dir]

theorem roundLaunched_storeKept : StoreKept s (roundLaunched s e r resend targets) := by
  obtain ⟨-, hsent⟩ := snoopAll_spec s r e resend targets
  rw [roundLaunched_regs]
  exact hsent.storeKept

end

/-- The round of an entry, before its snoops are sent. -/
def freshRound (s : Body) (e : DirEntry) (purpose : RoundFor) (without : Option Nat) (cls : Bool) : Round := {
  id := s.dir.nextRound, line := e.line, purpose := purpose, waiting := [], cls := cls, without := without, started := s.now }

section
variable {e : DirEntry} (s : Body) (purpose : RoundFor) (without : Option Nat) (cls resend : Bool)

theorem startRound_unmarked (hmark : e.reissue = none) : startRound s e purpose without cls resend =
    (s.dir.nextRound,
      roundLaunched s e (freshRound s e purpose without cls) resend (roundTargets s e without)) := by
  have hall : (roundTargets s e without).filter (fun _ => true) = roundTargets s e without :=
    List.filter_eq_self.2 (fun _ _ => rfl)
  obtain ⟨⟩ := e
  cases hmark
  exact congrArg (fun l => (s.dir.nextRound, roundLaunched s _ (freshRound s _ purpose without cls) resend l)) hall

/-- An entry marked REISSUE loses its mark, and its old round goes out again (R154). -/
theorem startRound_marked {d : Redo} (hmark : e.reissue = some d) : ∃ targets,
    startRound s e purpose without cls resend = (s.dir.nextRound,
      roundLaunched (setEntry s e.line (some { e with reissue := none })) e
        (freshRound s e (.reissue d) d.without cls) true targets) := by
  obtain ⟨⟩ := e
  cases hmark
  exact ⟨_, rfl⟩

/-- No byte of the store changes when a round starts. -/
theorem startRound_storeKept (e : DirEntry) : StoreKept s (startRound s e purpose without cls resend).2 := by
  cases hmark : e.reissue with
  | none =>
    rw [startRound_unmarked s purpose without cls resend hmark]
    exact roundLaunched_storeKept ..
  | some d =>
    obtain ⟨targets, hrun⟩ := startRound_marked s purpose without cls resend hmark
    rw [hrun]
    exact ((StoreKept.refl s).setEntry ..).trans (roundLaunched_storeKept ..)

/-- The round of an unmarked entry awaits every target, and no entry changes. -/
theorem startRound_spec (hmark : e.reissue = none) :
    let p := startRound s e purpose without cls resend
    ∃ r, p.2.dir.rounds = s.dir.rounds ++ [r] ∧ r.line = e.line ∧ r.purpose = purpose ∧ r.cls = cls ∧ p.1 = r.id ∧
      r.waiting.map (fun o => (o.cid, o.link)) = roundTargets s e without ∧ p.2.dir.entries = s.dir.entries := by
  obtain ⟨hwait, -⟩ := snoopAll_spec s (freshRound s e purpose without cls) e resend (roundTargets s e without)
  rw [startRound_unmarked s purpose without cls resend hmark]
  exact ⟨_, roundLaunched_rounds .., rfl, rfl, rfl, rfl, hwait, roundLaunched_entries ..⟩

end
end

/-! ### Back-invalidations (R150) -/

section
variable {b : Body} {e : DirEntry}

/-- A back-invalidation is counted; then it frees the way of an entry that nobody holds, and starts a round otherwise. -/
theorem backInvalidate_counted (b : Body) (e : DirEntry) (by_ : Option Nat) :
    ∃ c, CountersOnly b c ∧ backInvalidate b e by_ =
      if roundTargets b e none = [] then (none, setEntry c e.line none)
      else (some (startRound c e .backinv none false false).1, (startRound c e .backinv none false false).2) := by
  unfold backInvalidate
  extract_lets c₁ c₂
  have hone : CountersOnly b c₁ := .count (.refl b) rfl ..
  have hboth : CountersOnly b c₂ := by
    simp only [c₂]
    split
    · exact .ite hone (.ite hone (hone.count rfl ..))
    · exact hone
  refine ⟨c₂, hboth, ?_⟩
  simp only [hboth.roundTargets, List.isEmpty_iff]

theorem backInvalidate_storeKept (b : Body) (e : DirEntry) (by_ : Option Nat) : StoreKept b (backInvalidate b e by_).2 := by
  obtain ⟨c, hc, hrun⟩ := backInvalidate_counted b e by_
  rw [hrun]
  split
  · exact hc.storeKept.setEntry ..
  · exact hc.storeKept.trans (startRound_storeKept ..)

theorem backInvalidate_unheld (by_ : Option Nat) (h : roundTargets b e none = []) :
    let p := backInvalidate b e by_
    p.1 = none ∧ entryOf p.2 e.line = none ∧ (∀ l, l ≠ e.line → entryOf p.2 l = entryOf b l) ∧
      p.2.dir.rounds = b.dir.rounds := by
  obtain ⟨c, hc, hrun⟩ := backInvalidate_counted b e by_
  rw [if_pos h] at hrun
  rw [hrun]
  refine ⟨rfl, entryOf_setEntry_same, fun l hl => ?_, ?_⟩
  · rw [entryOf_setEntry_other hl, entryOf, hc.dir, entryOf]
  · change c.dir.rounds = b.dir.rounds
    rw [hc.dir]

theorem backInvalidate_held (by_ : Option Nat) (h : roundTargets b e none ≠ []) (hmark : e.reissue = none) :
    let p := backInvalidate b e by_
    ∃ r, p.2.dir.rounds = b.dir.rounds ++ [r] ∧ r.line = e.line ∧ r.purpose = .backinv ∧ r.cls = false ∧ p.1 = some r.id ∧
      r.waiting.map (fun o => (o.cid, o.link)) = roundTargets b e none ∧ p.2.dir.entries = b.dir.entries := by
  obtain ⟨c, hc, hrun⟩ := backInvalidate_counted b e by_
  obtain ⟨r, hrounds, hline, hpurpose, hcls, hid, hwait, hentries⟩ := startRound_spec c .backinv none false false hmark
  rw [if_neg h] at hrun
  rw [hrun, ← hc.dir, ← hc.roundTargets]
  exact ⟨r, hrounds, hline, hpurpose, hcls, congrArg some hid, hwait, hentries⟩

end

/-! ### The background eviction of a set (R150) -/

/-- The state once LOST_LINE_MARK has reclaimed what fenced clients held of a set (R151). -/
def setReclaimed (b : Body) (setNo : Nat) : Body := ((waysOf b setNo).map (fun e => e.line)).foldl reclaim b

/-- The ways of a set that no back-invalidation is about to free. -/
def heldWays (b : Body) (setNo : Nat) : List DirEntry :=
  (waysOf b setNo).filter (fun e => match roundOn b e.line with | some r => r.purpose != .backinv | none => true)

/-- The entry of a set that goes first: the least recently used one that is neither lost nor in a round. -/
def oldestWay (b : Body) (setNo : Nat) : Option DirEntry :=
  lruEntry ((heldWays b setNo).filter (fun e => e.st != .l && (roundOn b e.line).isNone))

section
variable {s : Body} {setNo : Nat}

theorem bgEvict_eq (s : Body) (setNo : Nat) : bgEvict s setNo =
    let b := setReclaimed s setNo
    if b.on R.DIR_CTRL.BG_EVICT && decide (16 < (heldWays b setNo).length + b.get R.DIR_CTRL.FREE_WAYS) then
      (oldestWay b setNo).elim b (fun e => (backInvalidate b e none).2)
    else b := by
  have hmatch : ∀ (o : Option DirEntry) (b : Body), (match o with | some e => (backInvalidate b e none).2 | none => b) =
      o.elim b (fun e => (backInvalidate b e none).2) := fun o _ => by cases o <;> rfl
  exact congrArg (ite _ · _) (hmatch (oldestWay (setReclaimed s setNo) setNo) _)

theorem bgEvict_kept (h : let b := setReclaimed s setNo
      b.get R.DIR_CTRL.BG_EVICT = 0 ∨ (heldWays b setNo).length + b.get R.DIR_CTRL.FREE_WAYS ≤ 16 ∨ oldestWay b setNo = none) :
    bgEvict s setNo = setReclaimed s setNo := by
  rw [bgEvict_eq]
  rcases h with hoff | hfree | hnone
  · simp [Body.on, hoff]
  · simp [Nat.not_lt.2 hfree]
  · simp [hnone]

theorem bgEvict_evicts {e : DirEntry} (hon : (setReclaimed s setNo).get R.DIR_CTRL.BG_EVICT = 1)
    (hfull : 16 < (heldWays (setReclaimed s setNo) setNo).length + (setReclaimed s setNo).get R.DIR_CTRL.FREE_WAYS)
    (he : oldestWay (setReclaimed s setNo) setNo = some e) :
    bgEvict s setNo = (backInvalidate (setReclaimed s setNo) e none).2 := by
  simp [bgEvict_eq, Body.on, hon, hfull, he]

end

/-! ### The end of a reclaim sweep (R151) -/

/-- What a sweep's end notes of a verdict: those before the sweep's start are swept (R404). -/
def Sweep.mark (w : Sweep) (f : Fence) : Fence := if f.knot ≤ w.started then { f with swept := true } else f

section
variable {b : Body} {w : Sweep}

theorem sweepEnd_idle (h : b.dir.sweep = none) : sweepEnd b = b := by simp only [sweepEnd, h]

theorem sweepEnd_running (h : b.dir.sweep = some w) (hw : w.next < 2 ^ 22) : sweepEnd b = b := by
  simp only [sweepEnd, h, if_pos hw]

theorem sweepEnd_over (h : b.dir.sweep = some w) (hw : 2 ^ 22 ≤ w.next) :
    sweepEnd b = sweepStart { b with dir := { b.dir with sweep := none }, fences := b.fences.map w.mark } := by
  simp only [sweepEnd, h, if_neg (Nat.not_lt.2 hw)]
  rfl

/-- Only the directory changes when a sweep starts. -/
theorem sweepStart_frame (b : Body) : sweepStart b = { b with dir := (sweepStart b).dir } := by
  unfold sweepStart
  split <;> rfl

/-- Where none is running, a sweep starts for all that waits, if anything does. -/
theorem sweepStart_sweep (h : b.dir.sweep = none) : (sweepStart b).dir.sweep =
    if b.dir.nextCids = [] ∧ b.dir.nextAccept = [] then none
    else some { next := 0, cids := b.dir.nextCids, accept := b.dir.nextAccept, started := b.now } := by
  have hcond : (b.dir.sweep.isSome || (b.dir.nextCids.isEmpty && b.dir.nextAccept.isEmpty)) = true ↔
      b.dir.nextCids = [] ∧ b.dir.nextAccept = [] := by simp [h]
  simp only [sweepStart, hcond]
  split
  · exact h
  · rfl

theorem Sweep.mark_before {f : Fence} (h : f.knot ≤ w.started) : w.mark f = { f with swept := true } := if_pos h

theorem Sweep.mark_after {f : Fence} (h : w.started < f.knot) : w.mark f = f := if_neg (Nat.not_le.2 h)

end

/-! ### The acceptance of a lost line (R153) -/

theorem acceptLineNow_lost {b : Body} {line : Nat} (h : lineLost b line = true) :
    entryOf (acceptLineNow b line) line = none := by
  rw [acceptLineNow, if_pos h, clearLost, entryOf, Body.count_dir]
  exact entryOf_setEntry_same

theorem acceptLineNow_unlost {b : Body} {line : Nat} (h : lineLost b line = false) : acceptLineNow b line = b :=
  if_neg (Bool.eq_false_iff.1 h)

/-! ### The obligation -/

/-- Settles O33, by one lemma for each way in which an eviction, a back-invalidation, a sweep's end or an acceptance goes. -/
theorem directoryUpkeep : Obligations.DirectoryUpkeep := by
  refine ⟨fun s setNo hon => ?_, fun b e by_ => ?_, fun s hon => ?_, fun b line => ?_⟩
  · rw [exec_backgroundEvict setNo hon]
    exact ⟨fun h => congrArg _ (upd_congr (bgEvict_kept h)),
      fun e hbg hfull he => congrArg _ (upd_congr (bgEvict_evicts hbg hfull he))⟩
  · obtain ⟨hnear, hfar, -⟩ := backInvalidate_storeKept b e by_
    exact ⟨hnear, hfar, backInvalidate_unheld by_, backInvalidate_held by_⟩
  · rw [exec_reclaimSweepEnd hon]
    refine ⟨fun h => congrArg _ (upd_unchanged (sweepEnd_idle h)),
      fun w h hw => congrArg _ (upd_unchanged (sweepEnd_running h hw)),
      fun w h hw => ⟨_, rfl, ?_⟩⟩
    have hframe := (sweepEnd_over h hw).trans (sweepStart_frame _)
    have hfences : (sweepEnd s.toBody).fences = s.fences.map w.mark := congrArg Body.fences hframe
    simp only [State.upd_toBody, hfences]
    refine ⟨?_, List.length_map _, fun f hf hk => ?_, fun f hf hk => ?_, ?_⟩
    · rw [sweepEnd_over h hw]
      exact sweepStart_sweep rfl
    · exact List.mem_map.2 ⟨f, hf, w.mark_before hk⟩
    · exact List.mem_map.2 ⟨f, hf, w.mark_after hk⟩
    · refine upd_congr ?_
      rw [← hfences]
      exact hframe.trans (by rw [hframe])
  · exact ⟨acceptLineNow_lost, acceptLineNow_unlost⟩

end Sys2Proof.Machine
end

section
/-!
SUPPORT. The registers of a queue (R181, R182, R196): what a placement of a ring and a write of the indices come to, and the
end of a drain.
-/

namespace Sys2Proof.Machine

section
variable {s : State} {pid q : Nat} {d : PartDef} (hon : s.pwr.off = false) (hd : partDef s.toBody pid = some d) (hq : q < d.nq)
include hon hd hq

theorem exec_queueIndexWrite (ho : regOpen s (R.QUE_IDX.PI.at 0) = true) (pi fi : Nat) :
    exec (.queueIndexWrite pid q pi fi) s = .next (s.upd (queueIndexWrite pid q pi fi)) :=
  congrArg Host.Outcome.next (onQue_on _ hon ho hd hq)

theorem exec_ringPlace_descriptors (ho : regOpen s (R.QUE_DRING.BASE.at 0) = true) (base n : Nat) :
    exec (.ringPlace pid q false base n) s = .next (s.upd (ringPlace pid q false base n)) :=
  congrArg Host.Outcome.next (onQue_on _ hon ho hd hq)

theorem exec_ringPlace_records (ho : regOpen s (R.QUE_CRING.BASE.at 0) = true) (base n : Nat) :
    exec (.ringPlace pid q true base n) s = .next (s.upd (ringPlace pid q true base n)) :=
  congrArg Host.Outcome.next (onQue_on _ hon ho hd hq)

end

theorem exec_drainDone {s : State} (pid q : Nat) (hon : s.pwr.off = false) :
    exec (.drainDone pid q) s = .next (s.upd (drainDone pid q)) := congrArg Host.Outcome.next (live_on _ hon)

/-! ### The rules of placement (R181, R182) -/

theorem ringFits_iff {b : Body} {pid a size : Nat} :
    ringFits b pid a size = true ↔ a % size = 0 ∧ ringPlaced b pid a size = true := by
  simp [ringFits]

theorem idxFits_iff {pi fi n : Nat} : idxFits pi fi n = true ↔ (pi + 2 ^ 32 - fi) % 2 ^ 32 ≤ 2 ^ n := decide_eq_true_iff

/-- A write of QUE_DRING is taken (R181, R182, R196): the queue is in OFF, the ring fits, a completion ring that has been placed
fits its length too, and it holds the descriptors that are there. -/
def DescriptorRingOk (b : Body) (pid q base n : Nat) : Prop :=
  let key := queKey pid q
  let records := b.get R.QUE_CRING.BASE 0 key
  b.get R.QUE_STATUS.STATE 0 key = 0 ∧ (queCore b key).isSome = true ∧ 4 ≤ n ∧ n ≤ 16 ∧
    ringFits b pid (base * 4096) (64 * 2 ^ n) = true ∧ (ringFits b pid (records * 4096) (32 * 2 ^ n) = true ∨ records = 0) ∧
    idxFits (b.get R.QUE_IDX.PI 0 key) (b.get R.QUE_IDX.FI 0 key) n = true

/-- A write of QUE_CRING is taken (R181, R196): the queue is in OFF, and the ring fits at the length that QUE_DRING gives. -/
def RecordRingOk (b : Body) (pid q base : Nat) : Prop :=
  let key := queKey pid q
  let n := b.get R.QUE_DRING.LOG2N 0 key
  b.get R.QUE_STATUS.STATE 0 key = 0 ∧ (queCore b key).isSome = true ∧ 4 ≤ n ∧ n ≤ 16 ∧
    ringFits b pid (base * 4096) (32 * 2 ^ n) = true

/-- `u` marks the fenced rings of every queue but `key` as `b` does (R197). -/
def FencedRingsKept (b : Body) (key : Nat) (u : QueSt) : Prop :=
  ∀ k, k ≠ key → u.revoked.contains k = b.que.revoked.contains k

theorem fencedRingsKept_filter (b : Body) (key : Nat) :
    FencedRingsKept b key { b.que with revoked := b.que.revoked.filter (fun k => k != key) } := by
  intro k hk
  simp [List.contains_eq_mem, List.mem_filter, hk]

/-- A placement changes registers, and of the queues' own state its own queue's mark alone. -/
theorem next_placed {s : State} {f : Body → Body} {key : Nat} {u : QueSt} {r : AMap Nat}
    (h : f s.toBody = { s.toBody with regs := r, que := u }) (hkept : FencedRingsKept s.toBody key u) :
    ∃ t : State, (Host.Outcome.next (s.upd f) : Host.Outcome State Fault Refusal) = .next t ∧ t.regs = r ∧
      t = s.upd (fun b => { b with regs := t.regs, que := t.que }) ∧
      ∀ k, k ≠ key → t.que.revoked.contains k = s.que.revoked.contains k := by
  refine ⟨_, rfl, congrArg Body.regs h, upd_congr ?_, ?_⟩
  · rw [State.upd_toBody, h]
  · rw [State.upd_toBody, h]
    exact hkept

section
variable {b : Body} {pid q base n : Nat}

theorem ringPlace_descriptors (h : DescriptorRingOk b pid q base n) :
    ∃ u, FencedRingsKept b (queKey pid q) u ∧ ringPlace pid q false base n b =
      (({ b with que := u }).set R.QUE_DRING.BASE base 0 (queKey pid q)).set R.QUE_DRING.LOG2N n 0 (queKey pid q) := by
  obtain ⟨hoff, hcore, hlo, hhi, hfits, hrecords, hidx⟩ := h
  have hrecords := Bool.or_eq_true_iff.2 (hrecords.imp_right beq_iff_eq.2)
  unfold ringPlace
  simp only [Bool.false_eq_true, if_false]
  rw [if_neg (by simp [hoff, Option.isSome_iff_ne_none.1 hcore, Nat.not_lt.2 hlo, Nat.not_lt.2 hhi, hfits, hrecords, hidx])]
  split
  · exact ⟨_, fencedRingsKept_filter b _, rfl⟩
  · exact ⟨b.que, fun _ _ => rfl, rfl⟩

theorem ringPlace_descriptors_refused (h : ¬ DescriptorRingOk b pid q base n) : ringPlace pid q false base n b = b := by
  refine if_pos (Classical.byContradiction fun hgo => h ?_)
  simp only [DescriptorRingOk, Classical.or_iff_not_imp_left]
  simpa [Option.isSome_iff_ne_none, and_assoc] using hgo

theorem ringPlace_records (h : RecordRingOk b pid q base) :
    ∃ u, FencedRingsKept b (queKey pid q) u ∧
      ringPlace pid q true base n b = ({ b with que := u }).set R.QUE_CRING.BASE base 0 (queKey pid q) := by
  obtain ⟨hoff, hcore, hlo, hhi, hfits⟩ := h
  unfold ringPlace
  simp only [if_true]
  rw [if_neg (by simp [hoff, Option.isSome_iff_ne_none.1 hcore, Nat.not_lt.2 hlo, Nat.not_lt.2 hhi, hfits])]
  split
  · exact ⟨_, fencedRingsKept_filter b _, rfl⟩
  · exact ⟨b.que, fun _ _ => rfl, rfl⟩

theorem ringPlace_records_refused (h : ¬ RecordRingOk b pid q base) : ringPlace pid q true base n b = b := by
  refine if_pos (Classical.byContradiction fun hgo => h ?_)
  simpa [RecordRingOk, Option.isSome_iff_ne_none] using hgo

/-! ### Indices and drains (R182, R196) -/

variable {pi fi : Nat}

theorem queueIndexWrite_eq (hpi : pi < 2 ^ 32) (hfi : fi < 2 ^ 32) : queueIndexWrite pid q pi fi b =
    if b.get R.QUE_STATUS.STATE 0 (queKey pid q) ≠ 0 ∨
      (!idxFits pi fi (b.get R.QUE_DRING.LOG2N 0 (queKey pid q))) = true then b
    else (b.set R.QUE_IDX.PI pi 0 (queKey pid q)).set R.QUE_IDX.FI fi 0 (queKey pid q) := by
  simp only [queueIndexWrite, Nat.mod_eq_of_lt hpi, Nat.mod_eq_of_lt hfi]

theorem queueIndexWrite_taken (hpi : pi < 2 ^ 32) (hfi : fi < 2 ^ 32) (hoff : b.get R.QUE_STATUS.STATE 0 (queKey pid q) = 0)
    (hheld : idxFits pi fi (b.get R.QUE_DRING.LOG2N 0 (queKey pid q)) = true) : queueIndexWrite pid q pi fi b =
      (b.set R.QUE_IDX.PI pi 0 (queKey pid q)).set R.QUE_IDX.FI fi 0 (queKey pid q) := by
  rw [queueIndexWrite_eq hpi hfi, if_neg (by simp [hoff, hheld])]

theorem queueIndexWrite_ignored (hpi : pi < 2 ^ 32) (hfi : fi < 2 ^ 32)
    (h : b.get R.QUE_STATUS.STATE 0 (queKey pid q) ≠ 0 ∨ idxFits pi fi (b.get R.QUE_DRING.LOG2N 0 (queKey pid q)) = false) :
    queueIndexWrite pid q pi fi b = b := by
  rw [queueIndexWrite_eq hpi hfi, if_pos (by simpa using h)]

theorem drainDone_drained (hst : b.get R.QUE_STATUS.STATE 0 (queKey pid q) = 2) (hnone : queCtxs b (queKey pid q) = []) :
    drainDone pid q b = b.set R.QUE_STATUS.STATE 0 0 (queKey pid q) := if_pos ⟨hst, by rw [hnone]; rfl⟩

theorem drainDone_held (h : queCtxs b (queKey pid q) ≠ []) : drainDone pid q b = b :=
  if_neg fun ⟨_, hnone⟩ => h (List.isEmpty_iff.1 hnone)

end

/-! ### The obligation -/

/-- Settles O40: a placement by the rules of its ring, a write of the indices by the state and the count, a drain by its contexts. -/
theorem queuesInOff : Obligations.QueuesInOff := by
  intro s pid q d hon hd hq _ key held off n0 cb lies
  refine ⟨fun ho pi fi hpi hfi => ?_, fun ho hcore base n hlo hhi => ?_, fun ho hcore hlo hhi base n hoff hring => ?_,
    fun hod hor cring base n hno => ?_, fun hst hnone => ?_, fun hsome => ?_⟩
  · rw [exec_queueIndexWrite hon hd hq ho]
    refine ⟨fun hoff hheld => ?_, fun hno => ?_⟩
    · exact congrArg _ (upd_congr (g := fun b => (b.set R.QUE_IDX.PI pi 0 key).set R.QUE_IDX.FI fi 0 key)
        (queueIndexWrite_taken hpi hfi hoff (idxFits_iff.2 hheld)))
    · exact congrArg _ (upd_unchanged (queueIndexWrite_ignored hpi hfi
        (hno.imp_right fun hmany => decide_eq_false (Nat.not_le.2 hmany))))
  · rw [exec_ringPlace_descriptors hon hd hq ho]
    refine ⟨fun hoff hring hrecords hheld => ?_, fun hplaced hno => congrArg _ (upd_unchanged (ringPlace_descriptors_refused ?_))⟩
    · have hok : DescriptorRingOk s.toBody pid q base n := ⟨hoff, hcore, hlo, hhi, ringFits_iff.2 hring,
        hrecords.symm.imp_left ringFits_iff.2, idxFits_iff.2 hheld⟩
      obtain ⟨u, hkept, hrun⟩ := ringPlace_descriptors hok
      exact next_placed hrun hkept
    · rintro ⟨-, -, -, -, -, hrecords, -⟩
      exact hrecords.elim (fun hfits => hno (ringFits_iff.1 hfits)) hplaced
  · rw [exec_ringPlace_records hon hd hq ho]
    obtain ⟨u, hkept, hrun⟩ := ringPlace_records (n := n) ⟨hoff, hcore, hlo, hhi, ringFits_iff.2 hring⟩
    exact next_placed hrun hkept
  · cases cring with
    | false =>
      rw [exec_ringPlace_descriptors hon hd hq hod]
      refine congrArg _ (upd_unchanged (ringPlace_descriptors_refused ?_))
      rintro ⟨hoff, -, hlo, -, hfits, -, -⟩
      rcases hno with hon' | ⟨hshort, -⟩ | hno
      · exact hon' hoff
      · omega
      · exact hno (ringFits_iff.1 hfits)
    | true =>
      rw [exec_ringPlace_records hon hd hq hor]
      refine congrArg _ (upd_unchanged (ringPlace_records_refused ?_))
      rintro ⟨hoff, -, -, -, hfits⟩
      rcases hno with hon' | ⟨-, hfalse⟩ | hno
      · exact hon' hoff
      · cases hfalse
      · exact hno (ringFits_iff.1 hfits)
  · rw [exec_drainDone pid q hon]
    exact congrArg _ (upd_congr (drainDone_drained hst hnone))
  · rw [exec_drainDone pid q hon]
    exact congrArg _ (upd_unchanged (drainDone_held hsome))

end Sys2Proof.Machine
end

section
/-!
SUPPORT. The end of a command (R161, R187, R194): what the rows of NOP and INVALIDATE come to, and how a command that kept
nothing of its engines writes its completion record and leaves its context.
-/

namespace Sys2Proof.Machine

/-! ### The rows -/

section
variable {s : State} {c x : Nat} (hon : s.pwr.off = false) (hc : c < 16) (hx : x < 19)
include hon hc hx

theorem exec_nop : exec (.nop c x) s = .next (s.upd (nopRow c x)) := congrArg Host.Outcome.next (onCtx_on _ hon hc hx)

theorem exec_invalidate : exec (.invalidate c x) s = .next (s.upd (invalidateRow c x)) :=
  congrArg Host.Outcome.next (onCtx_on _ hon hc hx)

theorem exec_commandComplete :
    exec (.commandComplete c x) s = .next (s.upd (fun b => syncFlush (kicksApply (commandComplete c x b)))) :=
  congrArg Host.Outcome.next (onCtx_on _ hon hc hx)

end

theorem syncFlush_none {b : Body} (h : b.obs.syncs = []) : syncFlush b = b := by
  unfold syncFlush
  rw [h]
  change { b with obs := { b.obs with syncs := [] } } = b
  rw [← h]

theorem kicksApply_none {b : Body} (h : b.que.kicks = []) : kicksApply b = b := by
  unfold kicksApply
  rw [h]
  change { b with que := { b.que with kicks := [] } } = b
  rw [← h]

/-- Where no KICK and no sync record is left, a completion's row ends with the completion (R185, R472). -/
theorem syncFlush_kicksApply_none {b : Body} (hs : b.obs.syncs = []) (hk : b.que.kicks = []) :
    syncFlush (kicksApply b) = b := by
  rw [kicksApply_none hk, syncFlush_none hs]

section
variable {b : Body} {c x : Nat} {v : Ctx}

theorem nopRow_due (h : Due b c x 0 0 v) :
    nopRow c x b = b.setCtx c x { v with done := true, planned := some 0, tried := b.now + 1 } := by
  obtain ⟨hv, hdue⟩ := h
  rw [nopRow, if_pos hdue, hv]

/-- Another context of the core has an invalidation of the partition under way (R118, R187). -/
def invOther (b : Body) (c x pid : Nat) : Bool :=
  (b.core c).ctxs.any (fun w => w.1 != x && w.2.pid == pid && w.2.inv.isSome)

theorem invalidateRow_due (h : Due b c x 0 1 v) (hinv : v.inv = none) : invalidateRow c x b =
    if invOther b c x v.pid then b else b.setCtx c x { v with inv := some (invOf v, b.now + 1) } := by
  obtain ⟨hv, hdue⟩ := h
  simp only [invalidateRow, hv, hdue, hinv, Option.isNone_none, Bool.true_and, Bool.not_eq_true', ← Bool.not_eq_true]
  exact ite_not ..

theorem commandComplete_goesOn (h : ctxDone b (b.ctx c x) = false) : commandComplete c x b = b :=
  if_pos (.inr (by rw [h]; rfl))

/-! ### The completion record (R194) -/

@[simp] theorem Body.set_ctx (b : Body) (f : Fld) (n i j c x : Nat) : (b.set f n i j).ctx c x = b.ctx c x := rfl

@[simp] theorem crBytes_length (b : Body) (v : Ctx) (status sub result waited run : Nat) :
    (crBytes b v status sub result waited run).length = 32 := by
  simp [crBytes]

theorem crBytes_cores (k : AMap CoreSt) (status sub result waited run : Nat) :
    crBytes { b with cores := k } v status sub result waited run = crBytes b v status sub result waited run := rfl

theorem reclaim_unheld {line : Nat} (h : entryOf b line = none) : reclaim b line = b := by
  simp only [reclaim, h]

/-- A line that the directory has no entry of may be written as it is (R147). -/
theorem clearForWrite_unheld {line : Nat} (h : entryOf b line = none) : clearForWrite b [line] = (true, b) := by
  simp only [clearForWrite, reclaim_unheld h, h, Bool.and_self]

theorem cacheWrite_regs (sga : Nat) (d : List Byte) : (cacheWrite b c sga d).regs = b.regs := by rw [cacheWrite_cores]

theorem wr_nearTier_near {loc : Nat} (ht : tierOf b loc = 3) (d : List Byte) : (b.wr loc d).near = putBytes b.near loc d := by
  rw [wr_nearTier ht]

theorem wr_nearTier_far {loc : Nat} (ht : tierOf b loc = 3) (d : List Byte) : (b.wr loc d).far = b.far := by
  rw [wr_nearTier ht]

theorem wr_nearTier_ctx {loc : Nat} (ht : tierOf b loc = 3) (d : List Byte) : (b.wr loc d).ctx c x = b.ctx c x := by
  rw [wr_nearTier ht]
  rfl

theorem wr_nearTier_regs {loc : Nat} (ht : tierOf b loc = 3) (d : List Byte) : (b.wr loc d).regs = b.regs := by
  rw [wr_nearTier ht]

/-- A write of one near-tier line that no context waits for puts its bytes there, with no message and no delta. -/
theorem engPut_nearTier_unwaited {loc sga : Nat} {d : List Byte} (ht : tierOf b loc = 3) (hfit : loc % 128 + d.length ≤ 128)
    (hpos : 0 < d.length) (hl : lineLost b (loc / 128) = false)
    (hec : ∀ g, regionOfLoc b loc = some g → ecGroup b g.id = none) :
    engPut b c sga loc d = cacheWrite (b.wr loc d) c sga d := by
  have hgroup : ∀ g, regionOfLoc (b.wr loc d) loc = some g → ecGroup (b.wr loc d) g.id = none := by
    rw [wr_nearTier ht]
    exact hec
  unfold engPut
  simp only [linesOf_one hfit hpos, farPieces_one hfit hpos, List.foldl_cons, List.foldl_nil, hl, Bool.false_eq_true, if_false,
    farWrite_nearTier ht]
  cases hr : regionOfLoc (b.wr loc d) loc with
  | none => rfl
  | some g => simp only [hgroup g hr, Option.isSome_none, Bool.false_eq_true, if_false]

/-- The record of `v` can be written now: its ring has not been fenced, and its place `loc` lies here, in a near-tier line that
can be read, that the directory has no entry of and no lock is on, in no group, under a key that is held. -/
structure RecordFree (b : Body) (v : Ctx) (loc : Nat) : Prop where
  unfenced : b.que.revoked.contains (queKey v.pid v.queue) = false
  here : sgaHere b (crSga b v) = some loc
  fits : loc % 128 + 32 ≤ 128
  unheld : entryOf b (loc / 128) = none
  readable : unreadable b (loc / 128) = false
  near : tierOf b loc = 3
  unlocked : lockBlocks b (loc / 128) true = false
  ready : farHeld b true (loc / 128 * 128) = false
  keyed : keyless b (crSga b v) = false
  ungrouped : ∀ g, regionOfLoc b loc = some g → ecGroup b g.id = none

section
variable {loc : Nat} (hv : b.ctx c x = v) (h : RecordFree b v loc)
include hv h

theorem crWrite_free (status sub result waited run : Nat) : crWrite b c x status sub result waited run =
    (cacheWrite (b.wr loc (crBytes b v status sub result waited run)) c (crSga b v)
      (crBytes b v status sub result waited run)).count R.QUE_CR.COUNT := by
  have hput := engPut_nearTier_unwaited (c := c) (sga := crSga b v) (d := crBytes b v status sub result waited run) h.near
    (by rw [crBytes_length]; exact h.fits) (by rw [crBytes_length]; decide) (lineLost_absent h.unheld) h.ungrouped
  unfold crWrite
  simp only [hv, h.unfenced, h.here, reclaim_unheld h.unheld, h.keyed, lineLost_absent h.unheld, h.readable, Bool.false_eq_true,
    if_false, hput]

/-- A record goes into its line, and changes nothing else but registers, bad lines and the core's cache. -/
theorem crWrite_frame (status sub result waited run : Nat) :
    ∃ r o k, crWrite b c x status sub result waited run =
      { b with regs := r, near := putBytes b.near loc (crBytes b v status sub result waited run), sto := o, cores := k } := by
  rw [crWrite_free hv h]
  generalize crBytes b v status sub result waited run = d
  rw [Body.count_regs, cacheWrite_cores, wr_nearTier h.near]
  exact ⟨_, _, _, rfl⟩

theorem crWrite_ctx (status sub result waited run : Nat) : (crWrite b c x status sub result waited run).ctx c x = v := by
  rw [crWrite_free hv h, ((StoreKept.refl _).count ..).ctx, cacheWrite_ctx, wr_nearTier_ctx h.near, hv]

theorem crWrite_done (status sub result waited run key : Nat) :
    (crWrite b c x status sub result waited run).get R.QUE_DONE.DONE 0 key = b.get R.QUE_DONE.DONE 0 key := by
  rw [crWrite_free hv h]
  generalize crBytes b v status sub result waited run = d
  have hcount : R.QUE_DONE.DONE.key 0 key ≠ R.QUE_CR.COUNT.key 0 0 := Fld.key_ne_view key (by decide) (by decide) (by decide)
  have hovf : R.QUE_DONE.DONE.key 0 key ≠ R.QUE_CR.OVF.key 0 0 := Fld.key_ne_view key (by decide) (by decide) (by decide)
  rw [Body.get_count_ne _ _ hcount.symm hovf.symm]
  exact Body.get_congr ((cacheWrite_regs ..).trans (wr_nearTier_regs h.near d))

end

/-! ### The end of a NOP (R161, R187) -/

theorem mtxDrop_none (h : (b.ctx c x).snaps = []) : mtxDrop b c x = b.setCtx c x (b.ctx c x) := by
  have hsame : { b.ctx c x with snaps := [] } = b.ctx c x := by rw [← h]
  simp only [mtxDrop, h, List.foldl_nil, hsame]

theorem slotsDrop_none (hr : (b.ctx c x).refs = []) (hp : (b.ctx c x).plans = []) :
    slotsDrop b c x = b.setCtx c x (b.ctx c x) := by
  have hsame : { b.ctx c x with refs := [], plans := [] } = b.ctx c x := by rw [← hr, ← hp]
  simp only [slotsDrop, plansDrop, hr, hp, List.flatten_cons, List.flatten_nil, List.append_nil, List.foldl_nil, hsame]

/-- A NOP of a queue whose row has run (R187): nothing of it is outstanding, it signals nothing, and it kept nothing of an
engine. -/
structure NopOver (b : Body) (v : Ctx) : Prop where
  running : v.phase = .running
  engine : v.engine = 0
  opcode : v.opcode = 0
  done : v.done = true
  planned : v.planned = some 0
  status : v.status = stOK
  sub : v.sub = 0
  unissued : v.issued = false
  rounds : v.rounds = []
  peerWait : v.peerWait = 0
  peerAt : v.peerAt ≠ b.now + 1
  tried : v.tried ≠ b.now + 1
  farOps : v.farOps = []
  hook : v.hook = .none
  snaps : v.snaps = []
  refs : v.refs = []
  plans : v.plans = []
  arrivals : v.arrivals = []
  cls : v.cls = false
  sig0 : (v.sig 0).op = 0
  sig1 : (v.sig 1).op = 0
  released : v.unreleased = false

theorem NopOver.ctxDone (h : NopOver b v) : ctxDone b v = true := by
  simp [Machine.ctxDone, farWaits, h.running, h.engine, h.opcode, h.done, h.planned, h.unissued, h.rounds, h.peerWait, h.peerAt,
    h.tried, h.farOps]

theorem signal_none {y : SyncW} (h : y.op = 0) : signal b c x y = b := if_pos h

/-- Whether a record can be written does not depend on the contexts. -/
theorem RecordFree.cores {loc : Nat} (h : RecordFree b v loc) (k : AMap CoreSt) : RecordFree { b with cores := k } v loc := by
  obtain ⟨hopen, hhere, hfits, hunheld, hreadable, hnear, hunlocked, hready, hkeyed, hungrouped⟩ := h
  exact ⟨hopen, hhere, hfits, hunheld, hreadable, hnear, hunlocked, hready, hkeyed, hungrouped⟩

section
variable (hv : b.ctx c x = v) (hn : NopOver b v)
include hv hn

theorem crReady_nop {loc : Nat} (hx : x < 16) (hr : RecordFree b v loc) : crReady b c x = (true, b) := by
  have hlines : crLines b x (b.ctx c x) ++ hookLines b c x = [loc / 128] := by
    simp [crLines, hookLines, hv, Nat.not_le.2 hx, hr.here, hn.hook]
  unfold crReady
  rw [hlines]
  simp [hr.unlocked, hr.ready, clearForWrite_unheld hr.unheld]

/-- A NOP has taken nothing from the engines that it would have to give back: its context holds what it held. -/
theorem drops_nop : let u := slotsDrop (mtxDrop b c x) c x; u.ctx c x = v ∧ ∃ k, u = { b with cores := k } := by
  dsimp only
  have hctx : (b.setCtx c x v).ctx c x = v := Body.ctx_setCtx ..
  rw [mtxDrop_none (by rw [hv, hn.snaps]), hv, slotsDrop_none (by rw [hctx, hn.refs]) (by rw [hctx, hn.plans]), hctx]
  exact ⟨Body.ctx_setCtx .., _, rfl⟩

/-- A NOP that is over writes its record, is counted in DONE, and leaves its context: with status OK, CLASS 0 and no engine, it
misses no budget and takes no other branch of a command's end. -/
theorem finishCtx_nop {loc : Nat} (hx : x < 16) (hr : RecordFree b v loc) : ∃ k,
    let u : Body := { b with cores := k }
    let t := crWrite u c x stOK 0 v.result (v.release - v.usable) (b.now - v.release)
    let key := queKey v.pid v.queue
    u.ctx c x = v ∧
      finishCtx b c x = (t.set R.QUE_DONE.DONE ((t.get R.QUE_DONE.DONE 0 key + 1) % 2 ^ 32) 0 key).setCtx c x {} := by
  obtain ⟨hctx, k, hdrop⟩ := drops_nop hv hn
  rw [hdrop] at hctx
  refine ⟨k, hctx, ?_⟩
  have hhook : hookRun b c x = b := by simp only [hookRun, hv, hn.hook]
  have hlive : stOK ≠ stREVOKED ∧ stOK ≠ stJOBTORN := by decide
  have hsig : ∀ u : Body, (List.range 2).foldl (fun s i => signal s c x (v.sig i)) u = u := fun u => by
    simp [List.range_succ, signal_none hn.sig0, signal_none hn.sig1]
  have harrivals := fun st sub res w r => crWrite_ctx hctx (hr.cores k) st sub res w r
  unfold finishCtx
  simp [hhook, hv, hn.status, hn.engine, hn.cls, countCommand, hlive, hdrop, hsig, Nat.not_le.2 hx, hn.released, hn.sub,
    harrivals, hn.arrivals]

theorem commandComplete_nop {loc : Nat} (hx : x < 16) (hr : RecordFree b v loc) : commandComplete c x b = finishCtx b c x := by
  have hgo : ¬ (x = 17 ∨ (!ctxDone b (b.ctx c x)) = true) := by
    rw [hv, hn.ctxDone]
    have hqueue : x ≠ 17 := by omega
    simp [hqueue]
  refine (if_neg hgo).trans ?_
  rw [crReady_nop hv hn hx hr]
  simp [hv, hn.opcode]

/-- The completion of a NOP writes its record, counts DONE, frees the context, and sends nothing. -/
theorem commandComplete_nop_spec {loc : Nat} (hx : x < 16) (hr : RecordFree b v loc) :
    let t := commandComplete c x b
    let w := b.wr loc (crBytes b v stOK 0 v.result (v.release - v.usable) (b.now - v.release))
    t.ctx c x = {} ∧ t.get R.QUE_DONE.DONE 0 (queKey v.pid v.queue) =
        (b.get R.QUE_DONE.DONE 0 (queKey v.pid v.queue) + 1) % 2 ^ 32 ∧
      t.near = w.near ∧ t.far = w.far ∧ t.out = b.out ∧ t.que = b.que ∧ t.obs = b.obs := by
  obtain ⟨k, hctx, hend⟩ := finishCtx_nop hv hn hx hr
  obtain ⟨r, o, k', hframe⟩ := crWrite_frame hctx (hr.cores k) stOK 0 v.result (v.release - v.usable) (b.now - v.release)
  rw [← commandComplete_nop hv hn hx hr, crWrite_done hctx (hr.cores k), hframe, crBytes_cores] at hend
  dsimp only
  generalize crBytes b v stOK 0 v.result (v.release - v.usable) (b.now - v.release) = d at hend ⊢
  rw [hend]
  refine ⟨Body.ctx_setCtx .., ?_, ?_, ?_, rfl, rfl, rfl⟩
  · rw [Body.setCtx_get, Body.get_set_self]
    exact Nat.mod_mod ..
  · rw [Body.setCtx_near, Body.set_near, wr_nearTier_near hr.near]
  · rw [Body.setCtx_far, Body.set_far, wr_nearTier_far hr.near]

end
end

/-! ### The obligation -/

/-- Settles O39, by the rows of NOP and INVALIDATE, and by whether the command that completes has something left to commit. -/
theorem commandsEnd : Obligations.CommandsEnd := by
  intro s c x v hon hc hx
  have hx' : x < 19 := Nat.lt_trans hx (by decide)
  rw [exec_nop hon hc hx', exec_invalidate hon hc hx', exec_commandComplete hon hc hx']
  refine ⟨fun hdue => congrArg _ (upd_congr (nopRow_due hdue)), fun hdue hinv => ⟨fun hother => ?_, fun hother => ?_⟩,
    fun hs hk hmore => ?_, ?_⟩
  · exact congrArg _ (upd_congr ((invalidateRow_due hdue hinv).trans (if_neg (Bool.eq_false_iff.1 hother))))
  · exact congrArg _ (upd_unchanged ((invalidateRow_due hdue hinv).trans (if_pos hother)))
  · refine congrArg _ (upd_unchanged ?_)
    rw [commandComplete_goesOn hmore, syncFlush_kicksApply_none hs hk]
  · intro hv running engine opcode done planned status sub unissued rounds peerWait peerAt tried farOps hook snaps refs plans
      arrivals cls sig0 sig1 released hs hk key unfenced loc here fits unheld readable near unlocked ready keyed ungrouped
    obtain ⟨hctx, hdone, hnear, hfar, hout, hque, hobs⟩ := commandComplete_nop_spec hv
      (NopOver.mk running engine opcode done planned status sub unissued rounds peerWait peerAt tried farOps hook snaps refs plans
        arrivals cls sig0 sig1 released) hx
      (RecordFree.mk unfenced here fits unheld readable near unlocked ready keyed ungrouped)
    refine ⟨_, rfl, ?_⟩
    rw [State.upd_toBody, syncFlush_kicksApply_none (by rw [hobs, hs]) (by rw [hque, hk])]
    exact ⟨hctx, hdone, hnear, hfar, hout⟩

end Sys2Proof.Machine
end

section
/-!
SUPPORT. Two's complement and byte order (R3): the signed reading as the balanced remainder, and the bytes of a number.
-/

namespace Sys2Proof.Machine

theorem bits_eq_div_mod (v hi lo : Nat) : bits v hi lo = v / 2 ^ lo % 2 ^ (hi + 1 - lo) := by
  rw [bits, Nat.shiftRight_eq_div_pow]

/-- The top bit of a `w`-bit pattern says whether it lies in the upper half. -/
theorem bitAt_top_iff (w v : Nat) : bitAt v w = true ↔ 2 ^ w ≤ v % 2 ^ (w + 1) := by
  have hsplit : v % 2 ^ (w + 1) = v % 2 ^ w + 2 ^ w * (v / 2 ^ w % 2) := by rw [Nat.pow_succ, Nat.mod_mul]
  have hlow : v % 2 ^ w < 2 ^ w := Nat.mod_lt _ (Nat.two_pow_pos w)
  rw [bitAt, Nat.shiftRight_eq_div_pow, beq_iff_eq, hsplit]
  rcases Nat.mod_two_eq_zero_or_one (v / 2 ^ w) with h | h <;> simp [h, hlow]

/-- The signed reading is the remainder that lies about 0. -/
theorem toSigned_eq_bmod (w v : Nat) : toSigned (w + 1) v = (v : Int).bmod (2 ^ (w + 1)) := by
  have hmod : (v : Int) % ((2 ^ (w + 1) : Nat) : Int) = ((v % 2 ^ (w + 1) : Nat) : Int) := (Int.natCast_emod _ _).symm
  have hpow : ((2 ^ (w + 1) : Nat) : Int) = 2 ^ (w + 1) := Int.natCast_pow 2 (w + 1)
  have hhalf : ((2 ^ (w + 1) : Nat) + 1 : Int) / 2 = (2 ^ w : Nat) := by
    rw [Nat.pow_succ]
    omega
  have htop := bitAt_top_iff w v
  rw [toSigned, Int.bmod_def, hmod, hhalf, Nat.add_sub_cancel]
  by_cases hb : bitAt v w = true
  · have hge := htop.1 hb
    rw [if_pos hb, if_neg (by omega), ← hpow, hmod]
  · have hlt := mt htop.2 hb
    rw [if_neg hb, if_pos (by omega), ← hpow, hmod]

theorem natCast_ofSigned (w : Nat) (x : Int) : (ofSigned w x : Int) = x % ((2 ^ w : Nat) : Int) := by
  have hpow : ((2 ^ w : Nat) : Int) = 2 ^ w := Int.natCast_pow 2 w
  have hne : ((2 ^ w : Nat) : Int) ≠ 0 := Int.natCast_ne_zero.2 (Nat.ne_of_gt (Nat.two_pow_pos w))
  rw [ofSigned, ← hpow, Int.toNat_of_nonneg (Int.emod_nonneg x hne)]

/-- Writing an integer in `w` bits and reading it back keeps its remainder about 0. -/
theorem toSigned_ofSigned {w : Nat} (hw : 0 < w) (x : Int) : toSigned w (ofSigned w x) = x.bmod (2 ^ w) := by
  obtain ⟨k, rfl⟩ := Nat.exists_eq_add_one_of_ne_zero (Nat.ne_of_gt hw)
  rw [toSigned_eq_bmod, natCast_ofSigned, Int.emod_bmod]

/-- The pattern of a sum that is kept modulo 2^`w` is the sum of the patterns modulo 2^`w`. -/
theorem ofSigned_bmod_add (w : Nat) (x y : Int) :
    ofSigned w ((x + y).bmod (2 ^ w)) = (ofSigned w x + ofSigned w y) % 2 ^ w := by
  apply Int.ofNat.inj
  show ((ofSigned w ((x + y).bmod (2 ^ w)) : Nat) : Int) = (((ofSigned w x + ofSigned w y) % 2 ^ w : Nat) : Int)
  rw [Int.natCast_emod, Int.natCast_add]
  simp only [natCast_ofSigned]
  rw [Int.bmod_emod]
  exact Int.add_emod x y _

/-- The `n` bytes of a number spell its remainder. -/
theorem leNat_leBytes (n v : Nat) : leNat (leBytes n v) = v % 256 ^ n := by
  induction n generalizing v with
  | zero => simp [leNat, leBytes, Nat.mod_one]
  | succ n ih => rw [leBytes, leNat, ih, BitVec.toNat_ofNat, Nat.pow_succ' (m := 256), Nat.mod_mul]

/-- Byte `i` of the number that the bytes spell is the byte at `i`. -/
theorem leNat_byte {l : List Byte} {i : Nat} {b : Byte} (h : l[i]? = some b) : leNat l / 256 ^ i % 256 = b.toNat := by
  induction l generalizing i with
  | nil => simp at h
  | cons a t ih =>
    have ha := a.isLt
    cases i with
    | zero =>
      obtain rfl : a = b := by simpa using h
      rw [leNat]
      omega
    | succ i =>
      have hrest : leNat (a :: t) / 256 = leNat t := by
        rw [leNat]
        omega
      rw [Nat.pow_succ', ← Nat.div_div_eq_div_mul, hrest]
      exact ih (by simpa using h)

end Sys2Proof.Machine
end

section
/-!
SUPPORT. Exact sums (R207 to R209, R77): VALUE adds modulo 2^312, every entry into an accumulator commutes with every other,
and a group of adds is such a sum.
-/

namespace Sys2Proof.Machine

/-! ### VALUE modulo 2^312 (R209) -/

theorem accWrap_eq_bmod (x : Int) : accWrap x = x.bmod (2 ^ 312) := toSigned_ofSigned (by decide) x

theorem accWrap_accWrap_add (x y : Int) : accWrap (accWrap x + y) = accWrap (x + y) := by
  simp only [accWrap_eq_bmod, Int.bmod_add_bmod]

theorem accWrap_add_accWrap (x y : Int) : accWrap (x + accWrap y) = accWrap (x + y) := by
  simp only [accWrap_eq_bmod, Int.add_bmod_bmod]

theorem accWrap_idem (x : Int) : accWrap (accWrap x) = accWrap x := by
  simp only [accWrap_eq_bmod, Int.bmod_bmod]

/-- VALUE of a sum, as the image holds it. -/
theorem ofSigned_accWrap_add (x y : Int) :
    ofSigned 312 (accWrap (x + y)) = (ofSigned 312 x + ofSigned 312 y) % 2 ^ 312 := by
  rw [accWrap_eq_bmod]
  exact ofSigned_bmod_add 312 x y

/-! ### Combination (R209) -/

theorem LAcc.comb_comm (a b : LAcc) : a.comb b = b.comb a := by
  simp [LAcc.comb, Int.add_comm, Bool.or_comm]

theorem LAcc.comb_assoc (a b c : LAcc) : (a.comb b).comb c = a.comb (b.comb c) := by
  simp [LAcc.comb, accWrap_accWrap_add, accWrap_add_accWrap, Int.add_assoc, Bool.or_assoc]

/-- The flags of `b` ORed into `a`, with VALUE left as it is: how a term that is no finite value enters (R208). -/
def LAcc.flag (a b : LAcc) : LAcc := { a.comb b with v := a.v }

theorem LAcc.flag_right_comm (a b c : LAcc) : (a.flag b).flag c = (a.flag c).flag b := by
  simp [LAcc.flag, LAcc.comb, Bool.or_right_comm]

theorem LAcc.comb_flag (a b c : LAcc) : (a.comb b).flag c = (a.flag c).comb b := by
  simp [LAcc.flag, LAcc.comb, Bool.or_right_comm]

/-! ### Entries (R208, R209) -/

/-- What enters an accumulator either combines with it or sets flags of it. -/
def LAcc.Entry (f : LAcc → LAcc) : Prop := ∃ b : LAcc, (∀ a, f a = a.comb b) ∨ (∀ a, f a = a.flag b)

theorem LAcc.entry_comb (b : LAcc) : LAcc.Entry (fun a => a.comb b) := ⟨b, .inl fun _ => rfl⟩

theorem LAcc.entry_term (x : Num) : LAcc.Entry (fun a => a.term x) := by
  have hpinf : LAcc.Entry (fun a => { a with pinf := true }) :=
    ⟨{ pinf := true }, .inr fun a => by simp [LAcc.flag, LAcc.comb]⟩
  have hninf : LAcc.Entry (fun a => { a with ninf := true }) :=
    ⟨{ ninf := true }, .inr fun a => by simp [LAcc.flag, LAcc.comb]⟩
  match x with
  | .nan => exact ⟨{ nan := true }, .inr fun a => by simp [LAcc.term, LAcc.flag, LAcc.comb]⟩
  | .inf false => exact hpinf
  | .inf true => exact hninf
  | .fin neg m e =>
    unfold LAcc.term
    dsimp only
    by_cases hbig : 2 ^ 128 * (dyQ m e).2 ≤ (dyQ m e).1
    · simp only [if_pos hbig]
      cases neg
      · exact hpinf
      · exact hninf
    · simp only [if_neg hbig]
      exact ⟨{ v := _, tiny := _ }, .inl fun a => by simp only [LAcc.comb, Bool.or_false]; rfl⟩

/-- Two entries may change places. -/
theorem LAcc.Entry.comm {f g : LAcc → LAcc} (hf : LAcc.Entry f) (hg : LAcc.Entry g) (a : LAcc) : g (f a) = f (g a) := by
  obtain ⟨b, hf | hf⟩ := hf <;> obtain ⟨c, hg | hg⟩ := hg <;> simp only [hf, hg]
  · rw [LAcc.comb_assoc, LAcc.comb_comm b, ← LAcc.comb_assoc]
  · exact LAcc.comb_flag a b c
  · exact (LAcc.comb_flag a c b).symm
  · exact LAcc.flag_right_comm a b c

/-- Entries in any order give the same accumulator. -/
theorem LAcc.foldl_entry_perm {α : Type} {f : LAcc → α → LAcc} (hf : ∀ x, LAcc.Entry (fun a => f a x)) {xs ys : List α}
    (h : xs.Perm ys) (a : LAcc) : xs.foldl f a = ys.foldl f a :=
  h.foldl_eq' (fun x _ y _ z => (hf x).comm (hf y) z) a

/-! ### Grouping (R209) -/

/-- VALUE lies in its range: what the accumulators of a machine do. -/
def LAcc.Wrapped (a : LAcc) : Prop := accWrap a.v = a.v

theorem LAcc.wrapped_zero : LAcc.Wrapped {} := by
  show accWrap 0 = 0
  rw [accWrap_eq_bmod, Int.zero_bmod]

theorem LAcc.Wrapped.comb_zero {a : LAcc} (ha : a.Wrapped) : a.comb {} = a := by
  have hv : accWrap a.v = a.v := ha
  simp [LAcc.comb, hv]

theorem LAcc.Entry.wrapped {f : LAcc → LAcc} (hf : LAcc.Entry f) {a : LAcc} (ha : a.Wrapped) : (f a).Wrapped := by
  obtain ⟨b, hf | hf⟩ := hf <;> rw [hf]
  · exact accWrap_idem _
  · exact ha

/-- An entry is the combination with what it makes of an empty accumulator. -/
theorem LAcc.Entry.eq_comb {f : LAcc → LAcc} (hf : LAcc.Entry f) {a : LAcc} (ha : a.Wrapped) : f a = a.comb (f {}) := by
  have hv : accWrap a.v = a.v := ha
  obtain ⟨b, hf | hf⟩ := hf <;> simp only [hf]
  · rw [← LAcc.comb_assoc, ha.comb_zero]
  · simp [LAcc.flag, LAcc.comb, hv]

/-- Terms that enter an accumulator may be summed apart and combined with it. -/
theorem LAcc.foldl_term_eq_comb {a : LAcc} (ha : a.Wrapped) (xs : List Num) :
    xs.foldl LAcc.term a = a.comb (xs.foldl LAcc.term {}) := by
  induction xs generalizing a with
  | nil => exact ha.comb_zero.symm
  | cons x xs ih =>
    have hx := LAcc.entry_term x
    calc (x :: xs).foldl LAcc.term a
        = (a.term x).comb (xs.foldl LAcc.term {}) := ih (hx.wrapped ha)
      _ = (a.comb (LAcc.term {} x)).comb (xs.foldl LAcc.term {}) := by rw [hx.eq_comb ha]
      _ = a.comb ((LAcc.term {} x).comb (xs.foldl LAcc.term {})) := LAcc.comb_assoc ..
      _ = a.comb ((x :: xs).foldl LAcc.term {}) := congrArg a.comb (ih (hx.wrapped LAcc.wrapped_zero)).symm

theorem LAcc.wrapped_foldl_term {a : LAcc} (ha : a.Wrapped) (xs : List Num) : (xs.foldl LAcc.term a).Wrapped := by
  induction xs generalizing a with
  | nil => exact ha
  | cons x xs ih => exact ih ((LAcc.entry_term x).wrapped ha)

/-! ### Groups of adds (R76, R77) -/

theorem addSum_perm (ty : Nat) (sum : List Byte) {as bs : List Addend} (h : as.Perm bs) :
    addSum ty sum as = addSum ty sum bs := by
  unfold addSum
  cases atomFmt ty with
  | none =>
    refine congrArg (leBytes 8) (h.foldl_eq' (fun x _ y _ z => ?_) _)
    cases x <;> cases y <;> simp only [Nat.add_right_comm]
  | some f =>
    refine congrArg LAcc.image (LAcc.foldl_entry_perm (fun x => ?_) h _)
    cases x with
    | val v => exact LAcc.entry_term (f.dec v)
    | img b => exact LAcc.entry_comb b

theorem atomFmt_of_int {ty : Nat} (h : ty < 4) : atomFmt ty = none := by
  unfold atomFmt
  rw [if_neg (by omega), if_neg (by omega), if_neg (by omega)]

theorem atomSize_of_int {ty : Nat} (h : ty < 4) : atomSize ty = 4 ∨ atomSize ty = 8 := by
  unfold atomSize
  rw [if_neg (by omega), if_neg (by omega : ¬ty = 5)]
  split <;> simp

/-- An integer add wraps in its own width, even where the group's sum leaves its 8 bytes. -/
theorem addRound_vals {ty : Nat} (h : ty < 4) (rnd m : Nat) (vs : List Nat) :
    addRound ty rnd m (vs.map .val) = (m + vs.sum) % 2 ^ (8 * atomSize ty) := by
  have hsum : addSum ty (addBase ty) (vs.map .val) = leBytes 8 vs.sum := by
    simp [addSum, addBase, atomFmt_of_int h, List.foldl_map, List.sum_eq_foldl, leNat_leBytes]
  have hleft : addRound ty rnd m (vs.map .val) = (m + vs.sum % 256 ^ 8) % 2 ^ (8 * atomSize ty) := by
    rw [addRound, addLeft, atomFmt_of_int h, hsum]
    dsimp only
    rw [leNat_leBytes]
  rw [hleft]
  rcases atomSize_of_int h with hs | hs <;> rw [hs] <;> omega

/-! ### The obligation -/

/-- Settles O28: VALUE adds modulo 2^312 and the flags are ORed; terms and images are entries, and entries commute. -/
theorem exactAddsIgnoreOrder : Obligations.ExactAddsIgnoreOrder := by
  refine ⟨fun a b => ⟨ofSigned_accWrap_add a.v b.v, rfl, rfl, rfl, rfl, rfl⟩,
    fun a b c => ⟨a.comb_assoc b c, a.comb_comm b⟩,
    fun a xs ys h => LAcc.foldl_entry_perm LAcc.entry_comb h a,
    fun a xs ys h => LAcc.foldl_entry_perm LAcc.entry_term h a,
    fun ty rnd m as bs h => congrArg (addLeft ty rnd m) (addSum_perm ty _ h),
    fun xs ys => ?_, fun ty rnd m a b hty _ => ?_⟩
  · rw [List.foldl_append]
    exact LAcc.foldl_term_eq_comb (LAcc.wrapped_foldl_term LAcc.wrapped_zero xs) ys
  · simpa [Nat.add_assoc] using addRound_vals hty rnd m [a, b]

end Sys2Proof.Machine
end

section
/-!
SUPPORT. Elements of a microscaled block (R200, R203, R204): where an element stands, its value before the scale, and what the
scale makes of it.
-/

namespace Sys2Proof.Machine

/-! ### An element of 8 bits and its scale (R203) -/

theorem bitElem_eight {elems : List Byte} {i : Nat} {b : Byte} (h : elems[i]? = some b) : bitElem 8 elems i = b.toNat := by
  have hw : 8 * i + 8 - 1 + 1 - 8 * i = 8 := by omega
  rw [bitElem, bits_eq_div_mod, hw, Nat.pow_mul]
  exact leNat_byte h

/-- Under any scale but 0xFF, an element is its own value times a power of two. -/
theorem mxDec_getElem? {elems : List Byte} {code scale i : Nat} {b : Byte} (hcode : elemBits code = 8)
    (hlen : elems.length = 32) (hscale : scale < 0xFF) (h : elems[i]? = some b) :
    (mxDec code elems scale)[i]? = some ((mxRaw code b.toNat).scale ((scale : Int) - 127)) := by
  have hi : i < 32 := hlen ▸ (List.getElem?_eq_some_iff.1 h).1
  rw [mxDec, List.getElem?_map, List.getElem?_range hi, Option.map_some, if_neg (by omega), hcode, bitElem_eight h]

@[simp] theorem Num.scale_nan (k : Int) : Num.nan.scale k = .nan := rfl

@[simp] theorem Num.scale_inf (k : Int) (neg : Bool) : (Num.inf neg).scale k = .inf neg := rfl

@[simp] theorem Num.scale_fin (k : Int) (neg : Bool) (m : Nat) (e : Int) : (Num.fin neg m e).scale k = .fin neg m (e + k) := rfl

theorem Num.scale_finite {x : Num} (k : Int) (h : ∃ neg m e, x = .fin neg m e) :
    ∃ neg m e, x.scale k = .fin neg m e := by
  obtain ⟨neg, m, e, rfl⟩ := h
  exact ⟨neg, m, e + k, rfl⟩

/-! ### The values of the elements (R200, R204) -/

theorem mxRaw_mxint8 (b : Byte) : mxRaw 0xA b.toNat = .fin (decide (b.toInt < 0)) b.toInt.natAbs (-6) := by
  show (Num.ofInt (toSigned 8 b.toNat)).scale (-6) = _
  rw [toSigned_eq_bmod, ← BitVec.toInt_eq_toNat_bmod]
  rfl

/-- Only the encodings of the Inf and NaN columns of R200 are not finite. -/
theorem FFmt.dec_finite {f : FFmt} {x : Nat} (hieee : f.ieee = true → bits x (f.eb + f.mb - 1) f.mb ≠ 2 ^ f.eb - 1)
    (htop : f.nanTop = true → bits x (f.eb + f.mb - 1) f.mb = 2 ^ f.eb - 1 → x % 2 ^ f.mb ≠ 2 ^ f.mb - 1) :
    ∃ neg m e, f.dec x = .fin neg m e := by
  have hno : ¬(f.ieee && bits x (f.eb + f.mb - 1) f.mb == 2 ^ f.eb - 1) = true := by simpa using hieee
  have hno' : ¬(f.nanTop && bits x (f.eb + f.mb - 1) f.mb == 2 ^ f.eb - 1 && x % 2 ^ f.mb == 2 ^ f.mb - 1) = true := by
    simpa using htop
  unfold FFmt.dec
  dsimp only
  rw [if_neg hno, if_neg hno']
  split
  · exact ⟨_, _, _, rfl⟩
  · exact ⟨_, _, _, rfl⟩

/-- The exponent of all ones of an IEEE format: infinities and NaNs (R200). -/
theorem FFmt.dec_ieee_top {f : FFmt} {x : Nat} (hieee : f.ieee = true)
    (hex : bits x (f.eb + f.mb - 1) f.mb = 2 ^ f.eb - 1) :
    f.dec x = if x % 2 ^ f.mb = 0 then .inf (bitAt x (f.eb + f.mb)) else .nan := by
  simp [FFmt.dec, hieee, hex]

/-- A format whose only NaN is the all-ones exponent and mantissa (R200). -/
theorem FFmt.dec_nanTop {f : FFmt} {x : Nat} (hieee : f.ieee = false) (htop : f.nanTop = true)
    (hex : bits x (f.eb + f.mb - 1) f.mb = 2 ^ f.eb - 1) (hmant : x % 2 ^ f.mb = 2 ^ f.mb - 1) : f.dec x = .nan := by
  simp [FFmt.dec, hieee, htop, hex, hmant]

/-- E4M3 has one NaN for each sign and no infinity (R200). -/
theorem dec_e4m3 (x : Nat) :
    if x % 128 = 127 then fE4M3.dec x = .nan else ∃ neg m e, fE4M3.dec x = .fin neg m e := by
  have hex : bits x (fE4M3.eb + fE4M3.mb - 1) fE4M3.mb = x / 8 % 16 := bits_eq_div_mod x 6 3
  split
  next h =>
    have hones : x / 8 % 16 = 15 := by omega
    have hmant : x % 2 ^ 3 = 7 := by omega
    exact FFmt.dec_nanTop rfl rfl (hex.trans hones) hmant
  next h =>
    refine FFmt.dec_finite (fun hieee => absurd hieee (by decide)) (fun _ hones => ?_)
    rw [hex] at hones
    simp only [fE4M3] at hones ⊢
    omega

/-- E5M2 is an IEEE format: above its one infinity of each sign lie three NaNs (R200). -/
theorem dec_e5m2 {x : Nat} (hx : x < 256) :
    if 0x7C < x % 128 then fE5M2.dec x = .nan
    else if x % 128 = 0x7C then fE5M2.dec x = .inf (decide (128 ≤ x))
    else ∃ neg m e, fE5M2.dec x = .fin neg m e := by
  have hex : bits x (fE5M2.eb + fE5M2.mb - 1) fE5M2.mb = x / 4 % 32 := bits_eq_div_mod x 6 2
  have htop (hones : x / 4 % 32 = 31) : fE5M2.dec x = if x % 4 = 0 then .inf (bitAt x 7) else .nan :=
    FFmt.dec_ieee_top rfl (hex.trans hones)
  have hsign : bitAt x 7 = decide (128 ≤ x) := by
    rw [Bool.eq_iff_iff, bitAt_top_iff, decide_eq_true_iff]
    omega
  split
  next h => rw [htop (by omega), if_neg (by omega)]
  next h =>
    split
    next h' => rw [htop (by omega), if_pos (by omega), hsign]
    next h' =>
      refine FFmt.dec_finite (fun _ hones => ?_) (fun hnan => absurd hnan (by decide))
      rw [hex] at hones
      simp only [fE5M2] at hones
      omega

/-! ### The obligation -/

/-- Settles O29, by the value of one element of each format; a scale keeps a NaN, an infinity and a finite value what they are. -/
theorem microscaledElements : Obligations.MicroscaledElements := by
  intro elems scale i b hlen hscale hb
  have hint := mxDec_getElem? (code := 0xA) rfl hlen hscale hb
  have he4m3 : (mxDec 5 elems scale)[i]? = some ((fE4M3.dec b.toNat).scale ((scale : Int) - 127)) :=
    mxDec_getElem? rfl hlen hscale hb
  have he5m2 : (mxDec 6 elems scale)[i]? = some ((fE5M2.dec b.toNat).scale ((scale : Int) - 127)) :=
    mxDec_getElem? rfl hlen hscale hb
  rw [mxRaw_mxint8, Num.scale_fin] at hint
  have hlow := BitVec.le_toInt b
  have hhigh := BitVec.toInt_lt (x := b)
  refine ⟨⟨hint, by omega, by omega⟩, ?_, ?_⟩
  · have hval := dec_e4m3 b.toNat
    rw [he4m3]
    split
    next h =>
      rw [if_pos h] at hval
      rw [hval, Num.scale_nan]
    next h =>
      rw [if_neg h] at hval
      simpa only [Option.some.injEq] using Num.scale_finite _ hval
  · have hval := dec_e5m2 b.isLt
    rw [he5m2]
    split
    next h =>
      rw [if_pos h] at hval
      rw [hval, Num.scale_nan]
    next h =>
      rw [if_neg h] at hval
      split
      next h' =>
        rw [if_pos h'] at hval
        rw [hval, Num.scale_inf]
      next h' =>
        rw [if_neg h'] at hval
        simpa only [Option.some.injEq] using Num.scale_finite _ hval

end Sys2Proof.Machine
end

section
/-!
SUPPORT. RAW blocks (R222, R231, R233): the fields of a RAW block's header, and what a block stored under it decodes to.
-/

namespace Sys2Proof.Machine

/-! ### The header of a RAW block (R222) -/

theorem crc32c_lt (l : List Byte) : crc32c l < 2 ^ 32 := by
  have hfold : ∀ c < 2 ^ 32, l.foldl (fun c b => crc32cByte c b.toNat) c < 2 ^ 32 := by
    induction l with
    | nil => exact fun c hc => hc
    | cons b l ih => exact fun c hc => ih _ (crc32cByte_lt hc (Nat.lt_trans b.isLt (by decide)))
  exact Nat.xor_lt_two_pow (hfold _ (by decide)) (by decide)

theorem le_append_left {l : List Byte} {o n : Nat} (l' : List Byte) (h : o + n ≤ l.length) : le (l ++ l') o n = le l o n := by
  have htake : ((l ++ l').drop o).take n = (l.drop o).take n := by
    rw [List.drop_append_of_le_length (by omega), List.take_append_of_le_length (by rw [List.length_drop]; omega)]
  rw [le, le, slice, slice, htake]

theorem le_append_right (l l' : List Byte) (o n : Nat) : le (l ++ l') (l.length + o) n = le l' o n := by
  rw [le, le, slice, slice, List.drop_length_add_append]

/-- The header's bytes before CRC, and those behind it: they are the same for every block. -/
def rawHdrHead : List Byte := [1, 1] ++ List.replicate 10 0

def rawHdrTail : List Byte := List.replicate 32 0 ++ leBytes 4 65536 ++ List.replicate 12 0

section
variable (raw : List Byte)

theorem rawHdr_eq : rawHdr raw = rawHdrHead ++ (leBytes 4 (crc32c raw) ++ rawHdrTail) := by
  simp only [rawHdr, rawHdrHead, rawHdrTail, List.append_assoc]

theorem le_rawHdr_head {o n : Nat} (h : o + n ≤ 12) : le (rawHdr raw) o n = le rawHdrHead o n := by
  rw [rawHdr_eq]
  exact le_append_left _ h

theorem le_rawHdr_crc : le (rawHdr raw) 12 4 = crc32c raw :=
  calc le (rawHdr raw) 12 4
    _ = le (leBytes 4 (crc32c raw) ++ rawHdrTail) 0 4 := by rw [rawHdr_eq]; exact le_append_right rawHdrHead _ 0 4
    _ = leNat (leBytes 4 (crc32c raw)) := rfl
    _ = crc32c raw := by rw [leNat_leBytes]; exact Nat.mod_eq_of_lt (crc32c_lt raw)

theorem le_rawHdr_tail (o n : Nat) : le (rawHdr raw) (16 + o) n = le rawHdrTail o n := by
  rw [rawHdr_eq, ← List.append_assoc]
  exact le_append_right (rawHdrHead ++ leBytes 4 (crc32c raw)) rawHdrTail o n

theorem blkHdr_rawHdr : blkHdr (rawHdr raw) = {
    ver := 1, kind := 1, planes := 1, gen := 0, tableId := 0, tag := 0, crc := crc32c raw, lens := List.replicate 16 0,
    payload := 65536, reserved := 0 } := by
  have hpayload : le (rawHdr raw) 48 4 = le rawHdrTail 32 4 := le_rawHdr_tail raw 32 4
  have hreserved : le (rawHdr raw) 52 12 = le rawHdrTail 36 12 := le_rawHdr_tail raw 36 12
  simp only [blkHdr, le_rawHdr_head, le_rawHdr_crc, le_rawHdr_tail, hpayload, hreserved, Nat.reduceAdd, Nat.reduceLeDiff]
  rfl

theorem isEmptyBlk_rawHdr : isEmptyBlk (rawHdr raw) = false := rfl

theorem hdrOk_rawHdr : hdrOk (rawHdr raw) = true := by
  rw [hdrOk, blkHdr_rawHdr, isEmptyBlk_rawHdr]
  rfl

theorem lensOk_rawHdr : lensOk (rawHdr raw) = true := by
  rw [lensOk, blkHdr_rawHdr, isEmptyBlk_rawHdr]
  rfl

end

/-! ### Decoding (R231, R233) -/

theorem decodeBlock_header {h : List Byte} (s : Body) (pid : Nat) (pay : List Byte) (hbad : hdrOk h = false) :
    decodeBlock s pid h pay = .error (stBADOPCODE, 3, 1, 31) := if_pos (by rw [hbad]; rfl)

/-- Under a RAW header 64 KiB are returned as they are stored, or not at all, as the CRC says. -/
theorem decodeBlock_rawHdr {pay : List Byte} (s : Body) (pid : Nat) (raw : List Byte) (hlen : pay.length = 65536) :
    decodeBlock s pid (rawHdr raw) pay = if crc32c pay = crc32c raw then .ok pay else .error (stBADOPCODE, 3, 4, 31) := by
  have hwhole : slice pay 0 65536 = pay := by rw [← hlen, slice_whole]
  simp only [decodeBlock, decodeWith, hdrOk_rawHdr, lensOk_rawHdr, isEmptyBlk_rawHdr, blkHdr_rawHdr, hwhole]
  rfl

/-! ### The obligation -/

/-- Settles O44, by the CRC of what is stored under a RAW header, and by the check of the header that comes first. -/
theorem rawBlocks : Obligations.RawBlocks := by
  intro s pid raw hlen
  refine ⟨?_, fun other hother hcrc => ?_, fun h hbad => decodeBlock_header s pid raw hbad⟩
  · rw [decodeBlock_rawHdr s pid raw hlen, if_pos rfl]
  · rw [decodeBlock_rawHdr s pid raw hother, if_neg hcrc]

end Sys2Proof.Machine
end

section
/-!
SUPPORT. Table slots, sequence slots, journaled merges and the prepares of SEIZE (R230, R250, R312, R339).
-/

namespace Sys2Proof.Machine

/-! ### The rows -/

section
variable {s : State} {c x : Nat} (hon : s.pwr.off = false) (hc : c < 16) (hx : x < 19)
include hon

theorem exec_tableSlotRetired (pid n : Nat) : exec (.tableSlotRetired pid n) s = .next (s.upd (slotRetired pid n)) :=
  congrArg Host.Outcome.next (live_on _ hon)

include hc

theorem exec_mergeResume : exec (.mergeResume c) s = .next (s.upd (mergeResume c)) :=
  congrArg Host.Outcome.next (onOne_on _ hon hc)

include hx

theorem exec_loadTable : exec (.loadTable c x) s = .next (s.upd (loadTable c x)) :=
  congrArg Host.Outcome.next (onCtx_on _ hon hc hx)

theorem exec_dropTable : exec (.dropTable c x) s = .next (s.upd (dropTable c x)) :=
  congrArg Host.Outcome.next (onCtx_on _ hon hc hx)

theorem exec_seqClose : exec (.seqClose c x) s = .next (s.upd (seqCloseRow c x)) :=
  congrArg Host.Outcome.next (onCtx_on _ hon hc hx)

end

/-! ### Slots, and commands that are due -/

@[simp] theorem Body.slot_setSlot (b : Body) (pid n : Nat) (t : TableSlot) : (b.setSlot pid n t).slot pid n = t :=
  AMap.get_put_self ..

@[simp] theorem Body.ctx_setSlot (b : Body) (pid n : Nat) (t : TableSlot) (c x : Nat) :
    (b.setSlot pid n t).ctx c x = b.ctx c x := rfl

@[simp] theorem Body.seq_setSeq (b : Body) (n : Nat) (q : SeqSlot) : (b.setSeq n q).seq n = q := AMap.get_put_self ..

@[simp] theorem Body.ctx_setSeq (b : Body) (n : Nat) (q : SeqSlot) (c x : Nat) : (b.setSeq n q).ctx c x = b.ctx c x := rfl

section
variable {b : Body} {c x engine opcode : Nat} {v : Ctx}

theorem Due.ctx (h : Due b c x engine opcode v) : b.ctx c x = v := by
  obtain ⟨hv, -⟩ := h
  exact hv

theorem Due.row (h : Due b c x engine opcode v) : v.phase = .running ∧ v.engine = engine ∧ v.opcode = opcode := by
  obtain ⟨rfl, hdue⟩ := h
  simp only [engDue, Bool.and_eq_true, beq_iff_eq] at hdue
  obtain ⟨⟨⟨⟨⟨⟨⟨-, hrun⟩, heng⟩, hop⟩, -⟩, -⟩, -⟩, -⟩ := hdue
  exact ⟨hrun, heng, hop⟩

/-! ### Table slots (R230) -/

/-- The slot that a LOAD_TABLE or DROP_TABLE names. -/
def Ctx.tableSlot (v : Ctx) (b : Body) : TableSlot := b.slot v.pid (v.op 1 % 4)

section
variable (hv : b.ctx c x = v)
include hv

/-- A READY slot retires for the command. -/
theorem tableTake_ready (ht : (v.tableSlot b).state = 2) : tableTake b c x =
    b.setSlot v.pid (v.op 1 % 4) { v.tableSlot b with state := 3, waiter := some (c, x, v.opcode == 4) } := by
  subst hv
  exact if_pos ht

/-- A slot that is LOADING or RETIRING is waited for. -/
theorem tableTake_busy (ht : (v.tableSlot b).state = 1 ∨ (v.tableSlot b).state = 3) : tableTake b c x = b := by
  subst hv
  unfold tableTake
  exact (if_neg (show ¬ ((b.ctx c x).tableSlot b).state = 2 by omega)).trans
    (if_pos (show ((b.ctx c x).tableSlot b).state ≠ 0 by omega))

theorem tableTake_empty (ht : (v.tableSlot b).state = 0) : tableTake b c x =
    if v.opcode == 4 then b.setSlot v.pid (v.op 1 % 4) { state := 1, waiter := some (c, x, true) }
    else b.setCtx c x { v with done := true, planned := some 0, status := stOK } := by
  subst hv
  unfold tableTake
  exact (if_neg (show ¬ ((b.ctx c x).tableSlot b).state = 2 by omega)).trans
    (if_neg (show ¬ ((b.ctx c x).tableSlot b).state ≠ 0 by omega))

end

/-- A LOAD_TABLE reads its image once the slot is LOADING for it. -/
theorem loadTable_due {u : Body} (h : Due b c x 1 4 v) (hu : tableTake b c x = u) (hctx : u.ctx c x = v) : loadTable c x b =
    if (v.tableSlot u).state = 1 ∧ (v.tableSlot u).waiter = some (c, x, true) then
      codecLoadEnd (issueStep codecLoad c x u) c x else u := by
  obtain ⟨-, hdue⟩ := h
  subst hu
  rw [← hctx]
  exact if_neg (by rw [hdue]; decide)

section
variable (h : Due b c x 1 4 v)
include h

theorem loadTable_ready (ht : (v.tableSlot b).state = 2) : loadTable c x b =
    b.setSlot v.pid (v.op 1 % 4) { v.tableSlot b with state := 3, waiter := some (c, x, true) } := by
  obtain ⟨-, -, hload⟩ := h.row
  have hu := tableTake_ready h.ctx ht
  rw [hload] at hu
  exact (loadTable_due h hu h.ctx).trans (if_neg (by simp [Ctx.tableSlot]))

theorem loadTable_empty (ht : (v.tableSlot b).state = 0) : loadTable c x b =
    codecLoadEnd (issueStep codecLoad c x (b.setSlot v.pid (v.op 1 % 4) { state := 1, waiter := some (c, x, true) })) c x := by
  obtain ⟨-, -, hload⟩ := h.row
  have hu := (tableTake_empty h.ctx ht).trans (if_pos (by rw [hload]; rfl))
  exact (loadTable_due h hu h.ctx).trans (if_pos (by simp [Ctx.tableSlot]))

theorem loadTable_loading (ht : (v.tableSlot b).state = 1) (hw : (v.tableSlot b).waiter = some (c, x, true)) :
    loadTable c x b = codecLoadEnd (issueStep codecLoad c x b) c x := by
  exact (loadTable_due h (tableTake_busy h.ctx (.inl ht)) h.ctx).trans (if_pos ⟨ht, hw⟩)

/-- A slot that retires, or is LOADING for another command, is waited for. -/
theorem loadTable_waits
    (ht : (v.tableSlot b).state = 3 ∨ (v.tableSlot b).state = 1 ∧ (v.tableSlot b).waiter ≠ some (c, x, true)) :
    loadTable c x b = b := by
  have hbusy : (v.tableSlot b).state = 1 ∨ (v.tableSlot b).state = 3 := by omega
  refine (loadTable_due h (tableTake_busy h.ctx hbusy) h.ctx).trans (if_neg fun hmine => ?_)
  obtain ⟨hloading, hw⟩ := hmine
  rcases ht with hretiring | ⟨-, hother⟩
  · omega
  · exact hother hw

end

section
variable (h : Due b c x 1 5 v)
include h

theorem dropTable_due : dropTable c x b = tableTake b c x := by
  obtain ⟨-, hdue⟩ := h
  exact if_pos hdue

theorem dropTable_ready (ht : (v.tableSlot b).state = 2) : dropTable c x b =
    b.setSlot v.pid (v.op 1 % 4) { v.tableSlot b with state := 3, waiter := some (c, x, false) } := by
  obtain ⟨-, -, hdrop⟩ := h.row
  have hu := tableTake_ready h.ctx ht
  rw [hdrop] at hu
  exact (dropTable_due h).trans hu

theorem dropTable_empty (ht : (v.tableSlot b).state = 0) :
    dropTable c x b = b.setCtx c x { v with done := true, planned := some 0, status := stOK } := by
  obtain ⟨-, -, hdrop⟩ := h.row
  exact (dropTable_due h).trans ((tableTake_empty h.ctx ht).trans (if_neg (by rw [hdrop]; decide)))

theorem dropTable_waits (ht : (v.tableSlot b).state = 1 ∨ (v.tableSlot b).state = 3) : dropTable c x b = b := by
  exact (dropTable_due h).trans (tableTake_busy h.ctx ht)

end

section
variable {pid n : Nat}

theorem slotRetired_referenced (h : (b.slot pid n).state ≠ 3 ∨ (b.slot pid n).refs ≠ 0) : slotRetired pid n b = b := if_pos h

section
variable (hstate : (b.slot pid n).state = 3) (hrefs : (b.slot pid n).refs = 0)
include hstate hrefs

theorem slotRetired_load (hw : (b.slot pid n).waiter = some (c, x, true)) :
    slotRetired pid n b = b.setSlot pid n { state := 1, waiter := some (c, x, true) } := by
  simp [slotRetired, hstate, hrefs, hw]

theorem slotRetired_unawaited (hw : (b.slot pid n).waiter = none) : slotRetired pid n b = b.setSlot pid n {} := by
  simp [slotRetired, hstate, hrefs, hw]

/-- The slot is EMPTY, and the DROP_TABLE that waits for it, if it still runs, is done. -/
theorem slotRetired_drop (hw : (b.slot pid n).waiter = some (c, x, false)) (hv : b.ctx c x = v) : slotRetired pid n b =
    if v.phase = .running ∧ v.engine = 1 ∧ v.opcode = 5 ∧ v.pid = pid then
      (b.setSlot pid n {}).setCtx c x { v with done := true, planned := some 0, status := stOK }
    else b.setSlot pid n {} := by
  simp [slotRetired, hstate, hrefs, hw, hv]

end
end

/-! ### Sequence slots (R250) -/

theorem seqTryFree_referenced {n : Nat} (h : (b.seq n).refs ≠ 0) : seqTryFree b n = b := if_pos (.inr h)

/-- A CLOSING slot without references is FREE, and the SEQ_CLOSE that waits for it is done. -/
theorem seqTryFree_closing {n : Nat} (hstate : (b.seq n).state = 2) (hrefs : (b.seq n).refs = 0)
    (hcloser : (b.seq n).closer = some (c, x)) (hv : b.ctx c x = v) (hrun : v.phase = .running ∧ v.engine = 2 ∧ v.opcode = 2) :
    seqTryFree b n =
      (b.setSeq n {}).setCtx c x { v with done := true, planned := some 0, status := stOK, result := (b.seq n).len } := by
  simp [seqTryFree, hstate, hrefs, hcloser, hv, hrun]

/-- Slot `n` is CLOSING for a SEQ_CLOSE. -/
def Body.seqClosing (b : Body) (n c x : Nat) : Body := b.setSeq n { b.seq n with state := 2, closer := some (c, x) }

section
variable (h : Due b c x 2 2 v) (hform : v.opform = 0) (h0 : v.op 0 = 0) (h1 : v.op 1 < 64) (h2 : v.op 2 = 0)
  (hown : seqOwned b v.pid (v.op 1) = true) (hopen : (b.seq (v.op 1)).state = 1)
include h hform h0 h1 h2 hown hopen

theorem seqCloseRow_due : seqCloseRow c x b = seqTryFree (b.seqClosing (v.op 1) c x) (v.op 1) := by
  obtain ⟨rfl, hdue⟩ := h
  simp [seqCloseRow, hdue, hform, h0, Nat.not_le.2 h1, h2, hown, hopen, Body.seqClosing]

theorem seqCloseRow_referenced (hrefs : (b.seq (v.op 1)).refs ≠ 0) : seqCloseRow c x b = b.seqClosing (v.op 1) c x := by
  rw [seqCloseRow_due h hform h0 h1 h2 hown hopen]
  exact seqTryFree_referenced (by simpa [Body.seqClosing] using hrefs)

theorem seqCloseRow_unreferenced (hrefs : (b.seq (v.op 1)).refs = 0) : seqCloseRow c x b =
    ((b.seqClosing (v.op 1) c x).setSeq (v.op 1) {}).setCtx c x
      { v with done := true, planned := some 0, status := stOK, result := (b.seq (v.op 1)).len } := by
  have hslot := Body.seq_setSeq b (v.op 1) { b.seq (v.op 1) with state := 2, closer := some (c, x) }
  have hfree := seqTryFree_closing (b := b.seqClosing (v.op 1) c x) (congrArg (·.state) hslot)
    ((congrArg (·.refs) hslot).trans hrefs) (congrArg (·.closer) hslot) h.ctx h.row
  rw [seqCloseRow_due h hform h0 h1 h2 hown hopen, hfree]
  exact congrArg (fun n => Body.setCtx _ c x { v with done := true, planned := some 0, status := stOK, result := n })
    (congrArg (·.len) hslot)

end
end

/-! ### Journaled merges (R312) -/

/-- The descriptor of a MERGE that goes on: OPCODE 5 of ENGINE 4, with its operands in a block (R187). -/
def mergeDesc : List Byte := leBytes 8 (0x5 + 4 * 256 + 4096) ++ List.replicate 56 0

/-- The context outside every queue in which a journaled merge goes on. -/
def resumedCtx (b : Body) (m : MergeRec) : Ctx := {
  phase := .running, pid := m.pid, desc := mergeDesc,
  ops := leBytes 8 (b2n m.compact) ++ leBytes 8 m.hdr ++ leBytes 8 m.build ++ leBytes 8 0,
  usable := b.now, release := b.now, since := b.now }

theorem resumedCtx_engine (b : Body) (m : MergeRec) : (resumedCtx b m).engine = 4 := show bits (le mergeDesc 0 8) 11 8 = 4 by decide

theorem resumedCtx_opcode (b : Body) (m : MergeRec) : (resumedCtx b m).opcode = 5 := show bits (le mergeDesc 0 8) 7 0 = 5 by decide

/-- The merge of core `c` goes on in that context. -/
def mergeResumed (b : Body) (c : Nat) (m : MergeRec) : Body :=
  ({ b.setCtx c 16 (resumedCtx b m) with merges := b.merges.map (fun q =>
    if q.core = c ∧ q.ctx = none then { q with ctx := some 16, resumed := true } else q) } : Body).set R.SRH_EVENT.MERGE_RESUMED 1

section
variable {b : Body} {c : Nat} {m : MergeRec}

theorem mergeResume_unjournaled (h : b.merges.find? (fun m => m.core == c && m.ctx.isNone) = none) : mergeResume c b = b := by
  simp only [mergeResume, h]

section
variable (h : b.merges.find? (fun m => m.core == c && m.ctx.isNone) = some m)
include h

theorem mergeResume_closed (hsrh : b.get R.MGT_READY.SRH = 0) : mergeResume c b = b := by
  simp [mergeResume, h, Body.on, hsrh]

theorem mergeResume_undefined (hsrh : b.get R.MGT_READY.SRH = 1) (hpart : partDef b m.pid = none) :
    mergeResume c b = mergeAbandon b m := by
  simp [mergeResume, h, Body.on, hsrh, hpart]

theorem mergeResume_resumed {k : ChanDef} (hsrh : b.get R.MGT_READY.SRH = 1) (hpart : (partDef b m.pid).isSome = true)
    (hchan : chanOf b 4 c = some k) (hunits : k.units ≠ 0) (howner : k.owner = m.pid) :
    mergeResume c b = mergeResumed b c m := by
  obtain ⟨d, hd⟩ := Option.isSome_iff_exists.1 hpart
  simp only [mergeResume, h, Body.on, hsrh, hd, hchan]
  rw [if_neg (by decide), if_neg (by simp [hunits, howner])]
  rfl

end
end

/-! ### Requests to other Helaks and the prepares of SEIZE (R80, R339) -/

/-- `t` differs from `s` at most in the requests to other Helaks, in their tags, and in what has been drawn and sent for them. -/
def PeersOnly (s t : Body) : Prop := t = { s with olp := t.olp, peers := t.peers, out := t.out, drawn := t.drawn }

theorem PeersOnly.trans {s t u : Body} (h : PeersOnly s t) (h' : PeersOnly t u) : PeersOnly s u := by
  rw [PeersOnly] at h h' ⊢
  rw [h', h]

theorem peerLaunch_only (s : Body) (p : PeerOut) : PeersOnly s (peerLaunch s p) := by
  unfold peerLaunch
  dsimp only
  split
  · rfl
  · split <;> rfl

theorem foldl_peersOnly {α : Type} {f : Body → α → Body} {l : List α} (s : Body)
    (hf : ∀ t, PeersOnly s t → ∀ a ∈ l, PeersOnly t (f t a)) : PeersOnly s (l.foldl f s) :=
  List.foldlRecOn l f (motive := PeersOnly s) rfl (fun t ht a ha => ht.trans (hf t ht a ha))

/-- A SEIZE takes the next identifier, and is noted as waiting for one answer to each prepare. -/
def seizeNoted (b : Body) (c x : Nat) (secs : List (List Byte)) : Body := { b with txn := { b.txn with
  nextId := (b.txn.nextId % 2 ^ 24 + 1) % 2 ^ 24
  origins := b.txn.origins ++ [{
    core := c, ctx := x, sid := b.txn.nextId % 2 ^ 24, pid := (b.ctx c x).pid, waiting := secs.length,
    coord := (ctlBlk (secs.headD [])).parts.headD 0 }] } }

/-- The prepares of a SEIZE whose participants are all at other homes leave everything but the requests to them alone. -/
theorem seizeSend_remote {b : Body} {secs : List (List Byte)} (c x : Nat) (own : List OwnPart)
    (h : ∀ sec ∈ secs, (ctlBlk sec).parts.getD (ctlBlk sec).index 0 ≠ b.hid) :
    PeersOnly (seizeNoted b c x secs) (seizeSend b c x secs own) := by
  refine foldl_peersOnly (seizeNoted b c x secs) fun t ht p hp => ?_
  have hid : t.hid = b.hid := by rw [ht]; rfl
  dsimp only
  rw [if_neg (hid ▸ h p.1 (List.of_mem_zip hp).1)]
  exact peerLaunch_only ..

/-! ### The obligation -/

/-- Settles O43: the table slots and the sequence slots by their states, a merge by what the image still has for it, and a SEIZE
by what its prepares leave alone. -/
theorem slotsMergesSeizings : Obligations.SlotsMergesSeizings := by
  intro s c x v hon hc hx
  rw [exec_loadTable hon hc hx, exec_dropTable hon hc hx, exec_seqClose hon hc hx, exec_mergeResume hon hc]
  refine ⟨?load, ?drop, ?retire, ?keep, ?close, fun hnone => ?unjournaled, ?merge, fun b secs own hhid => ?seize⟩
  case load =>
    exact fun hdue => ⟨fun ht => congrArg _ (upd_congr (loadTable_ready hdue ht)),
      fun ht => congrArg _ (upd_congr (loadTable_empty hdue ht)),
      fun ht hw => congrArg _ (upd_congr (loadTable_loading hdue ht hw)),
      fun ht => congrArg _ (upd_unchanged (loadTable_waits hdue ht))⟩
  case drop =>
    exact fun hdue => ⟨fun ht => congrArg _ (upd_congr (dropTable_ready hdue ht)),
      fun ht => congrArg _ (upd_congr (dropTable_empty hdue ht)),
      fun ht => congrArg _ (upd_unchanged (dropTable_waits hdue ht))⟩
  case retire =>
    intro pid n hstate hrefs
    rw [exec_tableSlotRetired hon]
    refine ⟨fun hw => congrArg _ (upd_congr (slotRetired_load hstate hrefs hw)), fun hw => ⟨_, rfl, ?_⟩,
      fun hw => congrArg _ (upd_congr (slotRetired_unawaited hstate hrefs hw))⟩
    rw [State.upd_toBody, slotRetired_drop hstate hrefs hw rfl]
    have hempty := Body.slot_setSlot s.toBody pid n {}
    split
    next => exact ⟨hempty, rfl, fun hv _ _ _ _ => hv ▸ Body.ctx_setCtx ..⟩
    next hover => exact ⟨hempty, rfl, fun hv hrun heng hop hpid => absurd (hv ▸ ⟨hrun, heng, hop, hpid⟩) hover⟩
  case keep =>
    intro pid n h
    rw [exec_tableSlotRetired hon]
    exact congrArg _ (upd_unchanged (slotRetired_referenced h))
  case close =>
    intro hdue hform h0 h1 h2 hown hopen
    refine ⟨fun hrefs => ⟨_, rfl, ?_⟩,
      fun hrefs => congrArg _ (upd_congr (seqCloseRow_referenced hdue hform h0 h1 h2 hown hopen hrefs))⟩
    rw [State.upd_toBody, seqCloseRow_unreferenced hdue hform h0 h1 h2 hown hopen hrefs, Body.ctx_setCtx]
    have hfree := Body.seq_setSeq (s.seqClosing (v.op 1) c x) (v.op 1) {}
    exact ⟨hfree, rfl, rfl, rfl, rfl⟩
  case unjournaled => exact congrArg _ (upd_unchanged (mergeResume_unjournaled hnone))
  case merge =>
    intro m hm
    refine ⟨fun hsrh => congrArg _ (upd_unchanged (mergeResume_closed hm hsrh)),
      fun hsrh hpart => congrArg _ (upd_congr (mergeResume_undefined hm hsrh hpart)), fun hsrh hpart hchan => ⟨_, rfl, ?_⟩⟩
    obtain ⟨k, hk, hunits, howner⟩ := hchan
    have hctx : (mergeResumed s.toBody c m).ctx c 16 = resumedCtx s.toBody m := Body.ctx_setCtx ..
    rw [State.upd_toBody, mergeResume_resumed hm hsrh hpart hk hunits howner, hctx]
    exact ⟨rfl, rfl, rfl, resumedCtx_engine .., resumedCtx_opcode .., Body.get_set_self .., rfl⟩
  case seize =>
    have hsent := seizeSend_remote c x own hhid
    dsimp only
    rw [hsent]
    exact ⟨rfl, rfl, rfl, rfl, rfl⟩

end Sys2Proof.Machine
end

section
/-!
SUPPORT. The bytes of the two tiers (R344, R350, R351): what copies between the byte maps leave and take on, where a byte is kept,
and what a write of the home slice makes of both.
-/

namespace Sys2Proof.Machine

/-! ### Byte maps -/

section
variable {m src dst : AMap Byte} {lo hi x : Nat}

theorem AMap.get_filter {α : Type} (d : α) (p : Nat → Bool) (m : AMap α) :
    AMap.get d (m.filter (fun e => p e.1)) x = if p x then AMap.get d m x else d := by
  induction m with
  | nil => simp [AMap.get]
  | cons e t ih =>
    obtain ⟨k, v⟩ := e
    by_cases hk : k = x
    · subst hk
      cases hp : p k <;> simp_all [AMap.get]
    · cases hp : p k <;> simp [AMap.get, hp, hk, ih]

theorem putBytes_get_out {loc : Nat} (b : List Byte) (h : x < loc ∨ loc + b.length ≤ x) :
    AMap.get 0 (putBytes m loc b) x = AMap.get 0 m x := by
  induction b generalizing m loc with
  | nil => rfl
  | cons v t ih =>
    rw [List.length_cons] at h
    rw [putBytes, ih (by omega), AMap.get_put_ne _ _ _ _ (by omega)]

theorem putBytes_get_in {loc i : Nat} {b : List Byte} (h : i < b.length) : AMap.get 0 (putBytes m loc b) (loc + i) = b[i] := by
  induction b generalizing m loc i with
  | nil => exact absurd h (Nat.not_lt_zero i)
  | cons v t ih =>
    cases i with
    | zero => exact (putBytes_get_out t (by omega)).trans (AMap.get_put_self ..)
    | succ i =>
      rw [List.length_cons] at h
      rw [show loc + (i + 1) = loc + 1 + i by omega]
      exact ih (by omega)

/-- The entries of `es`, put one after the other. -/
def putAll (es m : AMap Byte) : AMap Byte := es.foldl (fun m e => AMap.put 0 m e.1 e.2) m

theorem get_putAll_absent {es : AMap Byte} (h : ∀ e ∈ es, e.1 ≠ x) : AMap.get 0 (putAll es m) x = AMap.get 0 m x := by
  induction es generalizing m with
  | nil => rfl
  | cons e t ih =>
    have hne : e.1 ≠ x := h e (by simp)
    exact (ih fun e he => h e (by simp [he])).trans (AMap.get_put_ne _ _ _ _ hne)

theorem get_putAll {es : AMap Byte} (h : AMap.sorted es = true) :
    AMap.get 0 (putAll es m) x = AMap.get (AMap.get 0 m x) es x := by
  induction es generalizing m with
  | nil => rfl
  | cons e t ih =>
    obtain ⟨k, v⟩ := e
    obtain ⟨hk, ht⟩ := List.pairwise_cons.1 ((AMap.sorted_iff _).1 h)
    by_cases hx : k = x
    · subst hx
      have hrest : ∀ e ∈ t, e.1 ≠ k := fun e he => Nat.ne_of_gt (hk e he)
      rw [AMap.get, if_pos rfl]
      exact (get_putAll_absent hrest).trans (AMap.get_put_self ..)
    · rw [AMap.get, if_neg hx]
      refine (ih ((AMap.sorted_iff _).2 ht)).trans ?_
      rw [AMap.get_put_ne _ _ _ _ hx]

/-- `dst` with the bytes of `src` from `lo` to `hi` − 1 in place of its own. -/
def copyBytes (src dst : AMap Byte) (lo hi : Nat) : AMap Byte :=
  putAll (src.filter (fun e => decide (lo ≤ e.1) && decide (e.1 < hi))) (AMap.clear dst lo hi)

theorem get_copyBytes_out (h : x < lo ∨ hi ≤ x) : AMap.get 0 (copyBytes src dst lo hi) x = AMap.get 0 dst x := by
  refine (get_putAll_absent fun e he => ?_).trans (AMap.get_clear_out 0 dst h)
  simp only [List.mem_filter, Bool.and_eq_true, decide_eq_true_eq] at he
  omega

theorem get_copyBytes_in (hsrc : AMap.wf 0 src = true) (hlo : lo ≤ x) (hhi : x < hi) :
    AMap.get 0 (copyBytes src dst lo hi) x = AMap.get 0 src x := by
  rw [AMap.wf, Bool.and_eq_true] at hsrc
  have hsorted := hsrc.1
  rw [AMap.sorted_iff] at hsorted
  rw [copyBytes, get_putAll ((AMap.sorted_iff _).2 (hsorted.filter _)), AMap.get_clear_in 0 dst hlo hhi,
    AMap.get_filter 0 (fun k => decide (lo ≤ k) && decide (k < hi))]
  simp [hlo, hhi]

end

/-! ### Where a byte is kept (R344) -/

/-- Image, compositions and HID, which say which policy a local offset has, are the same. -/
def SamePlaces (s t : Body) : Prop := t.cfg = s.cfg ∧ t.parts = s.parts ∧ t.hid = s.hid

/-- The same units have a frame of their own. -/
def SameFrames (s t : Body) : Prop := ∀ a, framed t a = framed s a

section
variable {s t u : Body}

theorem SamePlaces.refl (s : Body) : SamePlaces s s := ⟨rfl, rfl, rfl⟩

theorem SamePlaces.trans (h : SamePlaces s t) (h' : SamePlaces t u) : SamePlaces s u := by
  obtain ⟨hcfg, hparts, hhid⟩ := h
  obtain ⟨hcfg', hparts', hhid'⟩ := h'
  exact ⟨hcfg'.trans hcfg, hparts'.trans hparts, hhid'.trans hhid⟩

section
variable (h : SamePlaces s t)
include h

theorem SamePlaces.img : t.img = s.img := by
  obtain ⟨hcfg, -, -⟩ := h
  rw [Body.img, hcfg, Body.img]

theorem SamePlaces.protOf (rid : Nat) : protOf t rid = protOf s rid := by rw [Machine.protOf, h.img, Machine.protOf]

theorem SamePlaces.homeList (grace : Bool) (r : Region) : homeList t grace r = homeList s grace r := by
  obtain ⟨-, hparts, -⟩ := h
  simp only [Machine.homeList, Body.part, hparts]

theorem SamePlaces.isCompanion (r : Region) : isCompanion t r = isCompanion s r := by
  rw [Machine.isCompanion, h.protOf, Machine.isCompanion]

theorem SamePlaces.localSize (r : Region) : localSize t r = localSize s r := by
  obtain ⟨-, -, hhid⟩ := id h
  rw [Machine.localSize, h.isCompanion, h.homeList, hhid, Machine.localSize]

theorem SamePlaces.regionOfLoc (a : Nat) : regionOfLoc t a = regionOfLoc s a := by
  simp only [Machine.regionOfLoc, h.img, h.localSize]

theorem SamePlaces.tierOf (a : Nat) : tierOf t a = tierOf s a := by
  simp only [Machine.tierOf, h.regionOfLoc, h.protOf]

end

section
variable (hp : SamePlaces s t) {a : Nat} (hf : framed t a = framed s a)
include hp hf

theorem isResident_congr : isResident t a = isResident s a := by simp only [isResident, hp.tierOf, hf]

theorem writesFar_congr : writesFar t a = writesFar s a := by simp only [writesFar, hp.tierOf, hf]

end

theorem framed_unit {a b : Nat} (h : a / 65536 = b / 65536) : framed s a = framed s b := by simp only [framed, unitOf, h]

theorem isResident_of_framed {a : Nat} (h : framed s a = true) : isResident s a = true := by simp [isResident, h]

/-- A unit of a WT or WB region is resident where it has a frame of its own. -/
theorem isResident_framed {a : Nat} (h : tierOf s a = 1 ∨ tierOf s a = 2) : isResident s a = framed s a := by
  rcases h with h | h <;> simp [isResident, h]

theorem Body.rdB_near {a : Nat} (h : isResident s a = true) : s.rdB a = AMap.get 0 s.near a := if_pos h

theorem Body.rdB_far {a : Nat} (h : isResident s a = false) : s.rdB a = AMap.get 0 s.far a :=
  if_neg (by rw [h]; exact Bool.false_ne_true)

/-! ### Registers of the store -/

/-- `t` differs from `s` at most in registers, and neither in the HID nor in the log line. -/
def StoreRegsOnly (s t : Body) : Prop := RegsOnly s t ∧ t.hid = s.hid ∧ t.now = s.now

theorem StoreRegsOnly.refl (s : Body) : StoreRegsOnly s s := ⟨.refl s, rfl, rfl⟩

theorem Body.get_count_off {f g : Fld} (s : Body) (n : Nat) (hf : f.lo < 64) (hg : g.lo < 64) (h : f.off ≠ g.off) :
    (s.count f n).get g = s.get g := by
  have hoff : f.off + f.stride * 0 + windowSize * 0 ≠ g.off + g.stride * 0 + windowSize * 0 := by simpa using h
  exact Body.get_count_ne s n (Fld.key_ne_off hf hg hoff) (Fld.key_ne_off (show 63 < 64 by decide) hg hoff)

theorem StoreRegsOnly.count (h : StoreRegsOnly s t) {f : Fld} (n : Nat) (hlo : f.lo < 64)
    (hoff : f.off ≠ R.CFG_STATUS.HID.off ∧ f.off ≠ R.KNT_COUNT.COUNT.off) : StoreRegsOnly s (t.count f n) := by
  obtain ⟨hregs, hhid, hnow⟩ := h
  obtain ⟨hid, hcount⟩ := hoff
  exact ⟨hregs.count .., (Body.get_count_off t n hlo (by decide) hid).trans hhid,
    (Body.get_count_off t n hlo (by decide) hcount).trans hnow⟩

section
variable (h : StoreRegsOnly s t)
include h

theorem StoreRegsOnly.samePlaces : SamePlaces s t := by
  obtain ⟨hregs, hhid, -⟩ := h
  rw [hregs] at hhid ⊢
  exact ⟨rfl, rfl, hhid⟩

theorem StoreRegsOnly.near : t.near = s.near := by rw [h.1]

theorem StoreRegsOnly.far : t.far = s.far := by rw [h.1]

theorem StoreRegsOnly.sto : t.sto = s.sto := by rw [h.1]

end

/-! ### What is read as before -/

/-- Bytes are kept in the same places, those of the near tier are the same, and those of the far store are the same wherever
they are read from it. -/
structure ReadsKept (s t : Body) : Prop where
  places : SamePlaces s t
  frames : SameFrames s t
  near : t.near = s.near
  far : ∀ a, isResident s a = false → AMap.get 0 t.far a = AMap.get 0 s.far a

theorem ReadsKept.refl (s : Body) : ReadsKept s s := ⟨.refl s, fun _ => rfl, rfl, fun _ _ => rfl⟩

theorem ReadsKept.resident (h : ReadsKept s t) (a : Nat) : isResident t a = isResident s a :=
  isResident_congr h.places (h.frames a)

theorem ReadsKept.trans (h : ReadsKept s t) (h' : ReadsKept t u) : ReadsKept s u where
  places := h.places.trans h'.places
  frames a := (h'.frames a).trans (h.frames a)
  near := h'.near.trans h.near
  far a ha := (h'.far a ((h.resident a).trans ha)).trans (h.far a ha)

theorem ReadsKept.rdB (h : ReadsKept s t) (a : Nat) : t.rdB a = s.rdB a := by
  have hres := h.resident a
  cases ha : isResident s a with
  | true => rw [Body.rdB_near (hres.trans ha), Body.rdB_near ha, h.near]
  | false => rw [Body.rdB_far (hres.trans ha), Body.rdB_far ha, h.far a ha]

theorem StoreRegsOnly.readsKept (h : StoreRegsOnly s t) : ReadsKept s t where
  places := h.samePlaces
  frames a := by rw [framed, h.sto, framed]
  near := h.near
  far a _ := by rw [h.far]

/-- Frames and dirty marks of the resident units do not matter to a read. -/
theorem readsKept_sto (v : StoSt) (h : v.resident.map (·.unit) = s.sto.resident.map (·.unit)) :
    ReadsKept s { s with sto := v } where
  places := ⟨rfl, rfl, rfl⟩
  frames a := by
    have hany := congrArg (fun l => l.any (fun n => n == unitOf a)) h
    rw [List.any_map, List.any_map] at hany
    exact hany
  near := rfl
  far _ _ := rfl

/-! ### Write-backs (R351) -/

theorem backLines_eq (s : Body) (u a b : Nat) :
    backLines s u a b = { s with far := copyBytes s.near s.far (u * 65536 + a * 128) (u * 65536 + b * 128) } := rfl

/-- A write-back moves bytes to the far copy of a unit that is read from its frame. -/
theorem backLines_readsKept {n a b : Nat} (hf : framed s (n * 65536) = true) (hb : b ≤ 512 ∨ b ≤ a) :
    ReadsKept s (backLines s n a b) where
  places := ⟨rfl, rfl, rfl⟩
  frames _ := rfl
  near := rfl
  far x hx := by
    refine get_copyBytes_out ?_
    refine Decidable.byContradiction fun hin => ?_
    have hunit : x / 65536 = n * 65536 / 65536 := by omega
    have hres := isResident_of_framed ((framed_unit hunit).trans hf)
    rw [hx] at hres
    exact Bool.false_ne_true hres

theorem backSome_readsKept {n : Nat} (done : Nat) (hf : framed s (n * 65536) = true) :
    ReadsKept s (backSome s n done).2 := by
  have hb : (backSome s n done).1 ≤ 512 ∨ (backSome s n done).1 ≤ done := by
    have hmod : ∀ v, v % (513 - min 512 done) < 513 - min 512 done := fun v => Nat.mod_lt v (by omega)
    have hlt := hmod (s.free 16).1
    show done + (s.free 16).1 % (513 - min 512 done) ≤ 512 ∨ done + (s.free 16).1 % (513 - min 512 done) ≤ done
    omega
  have hdrawn : ReadsKept s (s.free 16).2 := ⟨⟨rfl, rfl, rfl⟩, fun _ => rfl, rfl, fun _ _ => rfl⟩
  exact hdrawn.trans (backLines_readsKept hf hb)

end

end Sys2Proof.Machine
end

section
/-!
SUPPORT. A write of the home slice (R344, R350, R351): what it leaves as it was, and where it puts its bytes.
-/

namespace Sys2Proof.Machine

/-! ### What a write does to the tiers -/

/-- A unit is marked dirty. -/
def unitMarked (s : Body) (n : Nat) : Body := { s with sto := { s.sto with
  resident := s.sto.resident.map (fun (r : Resident) => if r.unit = n then { r with dirty := true } else r) } }

section
variable (s : Body) (loc : Nat) (b : List Byte)

theorem unitMarked_readsKept (n : Nat) : ReadsKept s (unitMarked s n) := by
  refine readsKept_sto _ ?_
  rw [List.map_map]
  refine List.map_congr_left fun r _ => ?_
  rw [Function.comp_apply]
  split <;> rfl

/-- A write that overtakes a write-back changes no byte that is read before it puts its own (R351). -/
theorem dirtyUnit_readsKept : ReadsKept s (dirtyUnit s loc) := by
  unfold dirtyUnit
  dsimp only
  split
  next h =>
    obtain ⟨-, hframed⟩ := h
    have hmarked := unitMarked_readsKept s (unitOf loc)
    have hunit : framed (unitMarked s (unitOf loc)) (unitOf loc * 65536) = true := by
      rw [hmarked.frames, ← hframed]
      exact framed_unit (by simp [unitOf])
    split
    next demote done _ _ =>
      have hback := hmarked.trans (backSome_readsKept done hunit)
      cases demote with
      | true => exact (hback.trans ((StoreRegsOnly.refl _).count 1 (by decide) (by decide)).readsKept).trans (readsKept_sto _ rfl)
      | false => exact hback.trans (readsKept_sto _ rfl)
    next => exact hmarked
  next => exact .refl s

/-- A write's bytes go to the frame where one is resident. -/
def nearPut : Body := if isResident s loc then { s with near := putBytes s.near loc b } else s

/-- A write's bytes go to the far copy where the policy says so. -/
def farPut : Body := if writesFar s loc then { s with far := putBytes s.far loc b } else s

/-- The lines that a write covers whole leave the bad-line list. -/
def linesGood : Body :=
  if s.sto.bad.isEmpty then s
  else { s with sto := { s.sto with
      bad := s.sto.bad.filter (fun l => !(decide (loc ≤ l * 128) && decide (l * 128 + 128 ≤ loc + b.length))) } }

theorem wr_stages : s.wr loc b = linesGood (farPut (nearPut (dirtyUnit s loc) loc b) loc b) loc b := by
  rw [Body.wr]
  generalize dirtyUnit s loc = t
  rfl

theorem nearPut_eq : nearPut s loc b = { s with near := if isResident s loc then putBytes s.near loc b else s.near } := by
  unfold nearPut
  split <;> rfl

theorem farPut_eq : farPut s loc b = { s with far := if writesFar s loc then putBytes s.far loc b else s.far } := by
  unfold farPut
  split <;> rfl

theorem linesGood_eq : linesGood s loc b = { s with sto := (linesGood s loc b).sto } := by
  unfold linesGood
  split <;> rfl

theorem linesGood_resident : (linesGood s loc b).sto.resident = s.sto.resident := by
  unfold linesGood
  split <;> rfl

theorem wr_near : (s.wr loc b).near = if isResident s loc then putBytes s.near loc b else s.near := by
  have hk := dirtyUnit_readsKept s loc
  rw [wr_stages, linesGood_eq, farPut_eq, nearPut_eq, hk.resident, hk.near]

theorem wr_far :
    (s.wr loc b).far = if writesFar s loc then putBytes (dirtyUnit s loc).far loc b else (dirtyUnit s loc).far := by
  have hk := dirtyUnit_readsKept s loc
  have hput (m : AMap Byte) : writesFar { dirtyUnit s loc with near := m } loc = writesFar s loc :=
    writesFar_congr hk.places (hk.frames loc)
  rw [wr_stages, linesGood_eq, farPut_eq, nearPut_eq, hput]

theorem wr_sto_resident : (s.wr loc b).sto.resident = (dirtyUnit s loc).sto.resident := by
  rw [wr_stages, linesGood_resident, farPut_eq, nearPut_eq]

theorem wr_places : SamePlaces s (s.wr loc b) := by
  rw [wr_stages, linesGood_eq, farPut_eq, nearPut_eq]
  exact (dirtyUnit_readsKept s loc).places

theorem wr_frames : SameFrames s (s.wr loc b) := by
  intro a
  rw [← (dirtyUnit_readsKept s loc).frames a, framed, wr_sto_resident, framed]

theorem wr_resident (a : Nat) : isResident (s.wr loc b) a = isResident s a :=
  isResident_congr (wr_places s loc b) (wr_frames s loc b a)

/-! ### What is read after a write -/

theorem wr_bytesKept : bytesKept s (s.wr loc b) loc b.length := by
  intro a ha
  have hres := wr_resident s loc b a
  cases h : isResident s a with
  | true =>
    rw [Body.rdB_near (hres.trans h), Body.rdB_near h, wr_near]
    split
    · exact putBytes_get_out b ha
    · rfl
  | false =>
    rw [Body.rdB_far (hres.trans h), Body.rdB_far h, wr_far, ← (dirtyUnit_readsKept s loc).far a h]
    split
    · exact putBytes_get_out b ha
    · rfl

variable {s loc b}

/-- Outside a WB region no write makes a unit dirty. -/
theorem dirtyUnit_clean (h : tierOf s loc ≠ 2) : dirtyUnit s loc = s := if_neg (fun hdirty => h hdirty.1)

/-- A byte that the write puts into some tier reads as written. -/
theorem wr_rdB_in {i : Nat} (hi : i < b.length) (hres : isResident s (loc + i) = isResident s loc)
    (hkept : isResident s loc = true ∨ writesFar s loc = true) : (s.wr loc b).rdB (loc + i) = b[i] := by
  have hres' := (wr_resident s loc b (loc + i)).trans hres
  cases h : isResident s loc with
  | true =>
    rw [Body.rdB_near (hres'.trans h), wr_near, if_pos h]
    exact putBytes_get_in hi
  | false =>
    have hfar : writesFar s loc = true := hkept.resolve_left (by simp [h])
    rw [Body.rdB_far (hres'.trans h), wr_far, if_pos hfar]
    exact putBytes_get_in hi

/-- Each of the four policies of R344 puts a write into some tier. -/
theorem kept_of_tier (h : tierOf s loc ≤ 3) : isResident s loc = true ∨ writesFar s loc = true := by
  have htier : tierOf s loc = 0 ∨ tierOf s loc = 1 ∨ tierOf s loc = 2 ∨ tierOf s loc = 3 := by omega
  cases hf : framed s loc <;> rcases htier with ht | ht | ht | ht <;> simp [isResident, writesFar, ht, hf]

end

/-- What O8 says holds under the four policies of R344, which are all that an image can give (`parseProt`). -/
theorem wr_readsAsWritten {s : Body} {loc : Nat} {b : List Byte} (ht : tierOf s loc ≤ 3)
    (hres : ∀ i, i < b.length → isResident s (loc + i) = isResident s loc) :
    (∀ i, (h : i < b.length) → (s.wr loc b).rdB (loc + i) = b[i]) ∧ bytesKept s (s.wr loc b) loc b.length ∧
      (Memory.wf s = true → Memory.wf (s.wr loc b) = true) :=
  ⟨fun i hi => wr_rdB_in hi (hres i hi) (kept_of_tier ht), wr_bytesKept s loc b, Body.wr_wf s loc b⟩

/-! ### The obligation -/

/-- A region of one unit. -/
def unitRegion0 : Region :=
  { id := 0, gLog := 16, lLog := 0, shared := false, coded := false, base := 0, size := 65536, localBase := 0, hdrBase := 0,
    keyOwner := 0, list := [0], pids := [] }

/-- A PROT entry whose policy is none of R344. -/
def prot4 : ProtDef :=
  { region := 0, tier := 4, swap := false, scheme := 0, member := 0, group := 0, rowBase := 0, nRows := 0, quota := 0 }

/-- A controller of that region under that policy, with no byte written. -/
def unknownPolicy : Body := { cfg := { img := some { emptyImage with regions := [unitRegion0], prots := [prot4] } } }

/-- Under that policy a byte is neither resident nor written to the far store. -/
theorem unknownPolicy_loses_write : (unknownPolicy.wr 0 [1]).rdB 0 = 0 := by
  have hresident : isResident unknownPolicy 0 = false := rfl
  have hfar : writesFar unknownPolicy 0 = false := rfl
  have hclean := dirtyUnit_clean (s := unknownPolicy) (loc := 0) (by decide)
  rw [Body.rdB_far ((wr_resident ..).trans hresident), wr_far, hfar, hclean]
  rfl

/-- Refutes O8: its states may give a region a policy beyond the four of R344, and there a byte is neither resident nor written to
the far store, so that the write is lost. Under the four policies the statement holds (`wr_readsAsWritten`). -/
theorem not_storeReadsAsWritten : ¬ Obligations.StoreReadsAsWritten := by
  unfold Obligations.StoreReadsAsWritten
  intro h
  have hone : ∀ i, i < [(1 : Byte)].length → isResident unknownPolicy (0 + i) = isResident unknownPolicy 0 ∧
      writesFar unknownPolicy (0 + i) = writesFar unknownPolicy 0 := by
    intro i hi
    obtain rfl : i = 0 := by simpa using hi
    exact ⟨rfl, rfl⟩
  obtain ⟨hread, -, -⟩ := h unknownPolicy 0 [1] (by decide) hone
  exact absurd ((unknownPolicy_loses_write).symm.trans (hread 0 (by decide))) (by decide)

end Sys2Proof.Machine
end

section
/-!
SUPPORT. Promotion, demotion and flush (R350, R351): what each leaves of a unit's frame, of its dirty mark and of its bytes.
-/

namespace Sys2Proof.Machine

/-! ### What the store has come to is armed (R23) -/

theorem live_stoArm {s : State} (ev : StoEv) (hon : s.pwr.off = false) :
    live (stoArm ev) s = s.upd (fun b => { b with acts := b.acts ++ [.sto ev] }) := live_on _ hon

theorem onOne_stoArm {s : State} {n k : Nat} (ev : StoEv) (hon : s.pwr.off = false) (hn : n < k) :
    onOne k n (stoArm ev) s = s.upd (fun b => { b with acts := b.acts ++ [.sto ev] }) := onOne_on _ hon hn

/-! ### Counters of the store -/

section
variable {s t : Body} (h : StoreRegsOnly s t)
include h

theorem StoreRegsOnly.set {f : Fld} (v : Nat) (hlo : f.lo < 64)
    (hoff : f.off ≠ R.CFG_STATUS.HID.off ∧ f.off ≠ R.KNT_COUNT.COUNT.off) : StoreRegsOnly s (t.set f v) := by
  obtain ⟨hregs, hhid, hnow⟩ := h
  obtain ⟨hid, hcount⟩ := hoff
  exact ⟨hregs.set .., (Body.get_set_ne t v (Fld.key_ne_off hlo (by decide) (by simpa using hid))).trans hhid,
    (Body.get_set_ne t v (Fld.key_ne_off hlo (by decide) (by simpa using hcount))).trans hnow⟩

end

/-- What a write-back moves on the sleds is counted. -/
theorem countBack_regs (s : Body) (n : Nat) : StoreRegsOnly s (countBack s n) := by
  have hback := (StoreRegsOnly.refl s).count (f := R.STO_WRITEBACK.COUNT) 1 (by decide) (by decide)
  unfold countBack
  dsimp only
  split
  · exact hback
  · split
    · exact ((hback.count 1536 (by decide) (by decide)).count 1536 (by decide) (by decide)).count 512 (by decide) (by decide)
    · exact hback.count _ (by decide) (by decide)

/-! ### Promotion (R350) -/

/-- A unit's frame, filled from its far copy, serves. -/
def switched (s : Body) (n f : Nat) : Body := { s with
  near := copyBytes s.far s.near (n * 65536) (n * 65536 + 65536)
  sto := { s.sto with
    migrations := s.sto.migrations.filter (fun m => m != Migration.promote n f)
    resident := s.sto.resident ++ [{ unit := n, frame := f, dirty := false }] } }

theorem framed_switched (s : Body) (n f a : Nat) : framed (switched s n f) a = (framed s a || n == a / 65536) := by
  simp [framed, switched, unitOf]

theorem switched_migrations {s : Body} {n f : Nat} (hm : s.sto.migrations = [.promote n f]) :
    (switched s n f).sto.migrations = [] := by simp [switched, hm]

section
variable {s : Body} {n f : Nat} (hq : quiet s = false) (hm : s.sto.migrations = [.promote n f])
  (hfar : (List.range 512).all (fun i => farReadable s (n * 65536 + i * 128)) = true)
include hq hm hfar

theorem promotionSwitch_due :
    promotionSwitch n s = ((switched s n f).count R.STO_PROMOTE.COUNT).count R.STO_FAR_RD.COUNT 512 := by
  have hfind : (promoting s).find? (fun x => x.1 == n) = some (n, f) := by simp [promoting, hm]
  simp only [promotionSwitch, hq, hfind, hfar]
  rfl

theorem promotionSwitch_switched : StoreRegsOnly (switched s n f) (promotionSwitch n s) := by
  rw [promotionSwitch_due hq hm hfar]
  exact ((StoreRegsOnly.refl _).count 1 (by decide) (by decide)).count 512 (by decide) (by decide)

end

section
variable {s : Body} {n : Nat} (hwf : Memory.wf s = true)
include hwf

/-- The frame holds what was read from the far copy. -/
theorem switched_rdB (f : Nat) (ht : ∀ a, a / 65536 = n → tierOf s a = 1 ∨ tierOf s a = 2)
    (hun : framed s (n * 65536) = false) (a : Nat) : (switched s n f).rdB a = s.rdB a := by
  have hp : SamePlaces s (switched s n f) := ⟨rfl, rfl, rfl⟩
  by_cases ha : a / 65536 = n
  · have hunit : framed s a = false := (framed_unit (by omega)).trans hun
    have hbefore : isResident s a = false := (isResident_framed (ht a ha)).trans hunit
    have hafter : isResident (switched s n f) a = true := isResident_of_framed (by rw [framed_switched, hunit]; simp [ha])
    rw [Body.rdB_near hafter, Body.rdB_far hbefore]
    exact get_copyBytes_in (Memory.wf_far hwf) (by omega) (by omega)
  · have hf : framed (switched s n f) a = framed s a := by
      rw [framed_switched, beq_false_of_ne (Ne.symm ha), Bool.or_false]
    have hres := isResident_congr hp hf
    cases hr : isResident s a with
    | true =>
      rw [Body.rdB_near (hres.trans hr), Body.rdB_near hr]
      exact get_copyBytes_out (by omega)
    | false => exact (Body.rdB_far (hres.trans hr)).trans (Body.rdB_far hr).symm

end

/-! ### Demotion (R351) -/

/-- A unit has lost its frame. -/
def unitFreed (s : Body) (n : Nat) : Body := { s with
  near := AMap.clear s.near (n * 65536) ((n + 1) * 65536)
  sto := { s.sto with
    resident := s.sto.resident.filter (fun x => x.unit != n)
    migrations := s.sto.migrations.filter (fun m => !m.backs n) } }

theorem freeUnit_eq (s : Body) (n : Nat) : freeUnit s n = (unitFreed s n).count R.STO_DEMOTE.COUNT := rfl

theorem StoreRegsOnly.unitFreed {s t : Body} (h : StoreRegsOnly s t) (n : Nat) :
    StoreRegsOnly (unitFreed s n) (unitFreed t n) := by
  obtain ⟨hregs, hhid, hnow⟩ := h
  refine ⟨?_, hhid, hnow⟩
  rw [hregs]
  rfl

theorem framed_unitFreed (s : Body) (n a : Nat) : framed (unitFreed s n) a = (framed s a && n != a / 65536) := by
  have hany := List.any_filter (l := s.sto.resident) (p := fun x => x.unit != n) (q := fun x => x.unit == unitOf a)
  rw [framed, unitFreed, hany, Bool.eq_iff_iff]
  simp only [framed, unitOf, List.any_eq_true, Bool.and_eq_true, bne_iff_ne, beq_iff_eq, ne_eq]
  constructor
  · rintro ⟨x, hx, hne, hu⟩
    exact ⟨⟨x, hx, hu⟩, fun h => hne (hu.trans h.symm)⟩
  · rintro ⟨⟨x, hx, hu⟩, hne⟩
    exact ⟨x, hx, fun h => hne (h.symm.trans hu), hu⟩

/-- A unit has lost its frame, whose bytes its far copy holds. -/
def demoted (s : Body) (n : Nat) : Body := unitFreed (backLines s n 0 512) n

theorem demoted_migrations {s : Body} {n k : Nat} {demote again : Bool}
    (hm : s.sto.migrations = [.writeback n demote k again]) : (demoted s n).sto.migrations = [] := by
  simp [demoted, unitFreed, backLines_eq, hm, Migration.backs]

theorem demoted_wf {s : Body} (n : Nat) (hwf : Memory.wf s = true) : Memory.wf (demoted s n) = true :=
  have hback := backLines_wf s n 0 512 hwf
  have hfar : AMap.wf 0 (demoted s n).far = true := Memory.wf_far (s := backLines s n 0 512) hback
  Memory.wf_mk (AMap.wf_clear 0 _ _ (Memory.wf_near hback)) hfar

theorem demotionDone_demoted {s : Body} {n : Nat} {again : Bool} (hq : quiet s = false)
    (hm : s.sto.migrations = [.writeback n true 0 again]) : StoreRegsOnly (demoted s n) (demotionDone n s) := by
  have hdue : demotionDone n s = freeUnit (countBack (backLines s n 0 512) n) n := by
    simp [demotionDone, hq, hm, Migration.backs]
  rw [hdue, freeUnit_eq]
  exact ((countBack_regs _ n).unitFreed n).count 1 (by decide) (by decide)

section
variable {s : Body} {n : Nat} (hwf : Memory.wf s = true)
include hwf

theorem demoted_rdB (ht : ∀ a, a / 65536 = n → tierOf s a = 2) (hun : framed s (n * 65536) = true) (a : Nat) :
    (demoted s n).rdB a = s.rdB a := by
  have hp : SamePlaces s (demoted s n) := ⟨rfl, rfl, rfl⟩
  by_cases ha : a / 65536 = n
  · have hunit : framed s a = true := (framed_unit (by omega)).trans hun
    have hlost : framed (demoted s n) a = false := by
      rw [demoted, framed_unitFreed]
      simp [ha]
    have hafter : isResident (demoted s n) a = false :=
      (isResident_framed (.inr ((hp.tierOf a).trans (ht a ha)))).trans hlost
    rw [Body.rdB_far hafter, Body.rdB_near (isResident_of_framed hunit)]
    exact get_copyBytes_in (Memory.wf_near hwf) (by omega) (by omega)
  · have hf : framed (demoted s n) a = framed s a := by
      rw [demoted, framed_unitFreed, bne_iff_ne.2 (Ne.symm ha), Bool.and_true]
      rfl
    have hres := isResident_congr hp hf
    cases hr : isResident s a with
    | true =>
      rw [Body.rdB_near (hres.trans hr), Body.rdB_near hr]
      exact AMap.get_clear_out _ _ (by omega)
    | false =>
      rw [Body.rdB_far (hres.trans hr), Body.rdB_far hr]
      exact get_copyBytes_out (by omega)

end

/-! ### A flush of one unit (R351) -/

/-- A unit's far copy holds its frame's bytes, it is not dirty, and no flush is in progress. -/
def flushed (s : Body) (x : Resident) : Body := { backLines s x.unit 0 512 with sto := { s.sto with
  resident := [{ x with dirty := false }], migrations := [], flush := none } }

section
variable {s : Body} {x : Resident} {rid : Nat} (hr : s.sto.resident = [x])
include hr

theorem framed_one : framed s (x.unit * 65536) = true := by simp [framed, hr, unitOf]

theorem flushed_readsKept : ReadsKept s (flushed s x) :=
  (backLines_readsKept (framed_one hr) (.inl (Nat.le_refl _))).trans
    (readsKept_sto _ (by rw [backLines_eq]; simp [hr]))

section
variable (hq : quiet s = false) (hflush : s.sto.flush = some (rid, [x.unit]))
  (hm : s.sto.migrations = [.writeback x.unit false 0 false])
include hq hflush hm

theorem flushComplete_due : flushComplete s =
    ({ countBack (backLines s x.unit 0 512) x.unit with sto := (flushed s x).sto } : Body).set R.STO_CMD_STATUS.BUSY 0 := by
  have hsto := (countBack_regs (backLines s x.unit 0 512) x.unit).sto
  have hbacked : (backLines s x.unit 0 512).sto = s.sto := rfl
  have hunit : flushUnit s x.unit = { countBack (backLines s x.unit 0 512) x.unit with sto := { s.sto with
      migrations := [], resident := [{ x with dirty := false }] } } := by
    simp [flushUnit, hm, Migration.backs, hsto, hbacked, hr]
  simp only [flushComplete, hq, hflush, List.foldl_cons, List.foldl_nil, hunit]
  rfl

theorem flushComplete_flushed : StoreRegsOnly (flushed s x) (flushComplete s) := by
  have hback := countBack_regs (backLines s x.unit 0 512) x.unit
  have hsto : StoreRegsOnly (flushed s x) { countBack (backLines s x.unit 0 512) x.unit with sto := (flushed s x).sto } := by
    obtain ⟨hregs, hhid, hnow⟩ := hback
    refine ⟨?_, hhid, hnow⟩
    rw [hregs]
    rfl
  rw [flushComplete_due hr hq hflush hm]
  exact hsto.set 0 (by decide) (by decide)

end
end

/-! ### The obligation -/

/-- Settles O45: what is read is compared before and after for the unit that moves, which its frame and its far copy hold alike,
and for the other units, which stay where they are. -/
theorem tiersKeepBytes : Obligations.TiersKeepBytes := by
  refine ⟨fun s u hon => ⟨congrArg _ (live_stoArm _ hon), congrArg _ (live_stoArm _ hon), congrArg _ (live_stoArm _ hon)⟩,
    fun s u hq hwf => ⟨fun f hm ht htier hun hfar => ?promoted, fun again hm ht htier hun => ?demoted,
      fun rid x hflush hm hr hx ht => ?flushed⟩⟩
  case promoted =>
    have hs := promotionSwitch_switched hq hm hfar
    have hread := hs.readsKept
    have htiers : ∀ a, a / 65536 = u → tierOf s a = 1 ∨ tierOf s a = 2 := fun a ha => (htier a ha).symm ▸ ht
    refine ⟨?_, ?_, fun a => (hread.rdB a).trans (switched_rdB hwf f htiers hun a), hs.far, promotionSwitch_wf u s hwf⟩
    · exact (hread.frames _).trans (by rw [framed_switched]; simp)
    · exact (congrArg (·.migrations) hs.sto).trans (switched_migrations hm)
  case demoted =>
    have hs := demotionDone_demoted hq hm
    have hread := hs.readsKept
    refine ⟨?_, ?_, fun a => (hread.rdB a).trans (demoted_rdB hwf htier hun a), ?_⟩
    · exact (hread.frames _).trans (by rw [demoted, framed_unitFreed]; simp)
    · exact (congrArg (·.migrations) hs.sto).trans (demoted_migrations hm)
    · exact Memory.wf_of_eq (demoted_wf u hwf) hs.near hs.far
  case flushed =>
    subst hx
    have hs := flushComplete_flushed hr hq hflush hm
    refine ⟨congrArg (·.resident) hs.sto, congrArg (·.flush) hs.sto, ?_,
      fun a => (hs.readsKept.rdB a).trans ((flushed_readsKept hr).rdB a), fun a ha => ?_, ?_⟩
    · exact (congrArg (fun t : Body => t.get R.STO_CMD_STATUS.BUSY) (flushComplete_due hr hq hflush hm)).trans
        (Body.get_set_self ..)
    · exact (congrArg (fun m => AMap.get 0 m a) hs.far).trans
        (get_copyBytes_in (Memory.wf_near hwf) (by omega) (by omega))
    · exact Memory.wf_of_eq (backLines_wf s x.unit 0 512 hwf) hs.near hs.far

end Sys2Proof.Machine
end

section
/-!
SUPPORT. Shadowing (R367, R368): the state that FILL, VERIFY and a trial entry come to.
-/

namespace Sys2Proof.Machine

/-! ### The two ends -/

section
variable (b : Body) (status phase region entry : Nat)

/-- The log of a failure of shadowing (STO_SHADOW_LOG). -/
def shadowLogged : Body :=
  (((b.set R.STO_SHADOW_LOG.STATUS status).set R.STO_SHADOW_LOG.PHASE phase).set R.STO_SHADOW_LOG.REGION region).set
    R.STO_SHADOW_LOG.ENTRY entry

theorem shadowFail_get (f : Fld) : (shadowFail b status phase region entry).get f =
    (((shadowLogged b status phase region entry).set R.STO_SHADOW.STATE 5).set R.STO_EVENT.SHADOW_DONE 1).get f := rfl

theorem shadowFail_state : (shadowFail b status phase region entry).get R.STO_SHADOW.STATE = 5 := by
  rw [shadowFail_get, Body.get_set_ne _ _ (by decide), Body.get_set_self]
  rfl

theorem shadowFail_done : (shadowFail b status phase region entry).get R.STO_EVENT.SHADOW_DONE = 1 := by
  rw [shadowFail_get, Body.get_set_self]
  rfl

theorem shadowFail_status (h : status < 256) : (shadowFail b status phase region entry).get R.STO_SHADOW_LOG.STATUS = status := by
  rw [shadowFail_get, Body.get_set_ne _ _ (by decide), Body.get_set_ne _ _ (by decide), shadowLogged,
    Body.get_set_ne _ _ (by decide), Body.get_set_ne _ _ (by decide), Body.get_set_ne _ _ (by decide), Body.get_set_self]
  exact Nat.mod_eq_of_lt h

theorem shadowReady_state : (shadowReady b).get R.STO_SHADOW.STATE = 4 :=
  (Body.get_set_ne _ _ (by decide)).trans (Body.get_set_self ..)

theorem shadowReady_done : (shadowReady b).get R.STO_EVENT.SHADOW_DONE = 1 := Body.get_set_self ..

end

/-! ### FILL and VERIFY (R367) -/

section
variable {b : Body}

theorem shadowFillDone_over (hst : b.get R.STO_SHADOW.STATE = 1) (hfill : b.sto.fillDone = true)
    (hrebuild : b.get R.STO_REBUILD.ACTIVE = 0) : shadowFillDone b = b.set R.STO_SHADOW.STATE 2 :=
  if_pos ⟨hst, hfill, by simp [Body.on, hrebuild]⟩

theorem shadowFillDone_early (h : b.get R.STO_SHADOW.STATE ≠ 1 ∨ b.sto.fillDone = false) : shadowFillDone b = b := by
  refine if_neg fun ⟨hst, hfill, _⟩ => ?_
  rcases h with h | h
  · exact h hst
  · exact absurd (hfill.symm.trans h) (by decide)

/-- With no trial entry TRIAL passes at once. -/
theorem trialBegin_empty (h : b.get R.STO_SHADOW.NTRIAL = 0) :
    trialBegin b = shadowReady { b.set R.STO_SHADOW.STATE 3 with sto := { b.sto with trialNext := 0 } } :=
  if_pos (show (b.set R.STO_SHADOW.STATE 3).get R.STO_SHADOW.NTRIAL = 0 from (Body.get_set_ne b 3 (by decide)).trans h)

theorem shadowVerifyDone_other (rows : List Nat) (ds : List (Nat × List Byte)) (h : b.get R.STO_SHADOW.STATE ≠ 2) :
    shadowVerifyDone rows ds b = b := if_pos h

section
variable (hst : b.get R.STO_SHADOW.STATE = 2)
include hst

theorem shadowVerifyDone_keep (rows : List Nat) (ds : List (Nat × List Byte)) (hmode : b.get R.STO_SHADOW.MODE = 1) :
    shadowVerifyDone rows ds b = trialBegin (rows.foldl verifyRow b) := by
  simp [shadowVerifyDone, hst, hmode]

/-- Under COPY a region whose digest is not that of its source ends shadowing. -/
theorem shadowVerifyDone_mismatch {rid : Nat} {r : Region} {d : List Byte} (rows : List Nat)
    (hmode : b.get R.STO_SHADOW.MODE = 2) (hr : b.img.regions.find? (fun r => r.id == rid) = some r)
    (hfills : fillsRegion b 2 r = true) (hd : regionDigest b r ≠ d) :
    shadowVerifyDone rows [(rid, d)] b = shadowFail b stSHADOWMISMATCH 2 rid 0 := by
  simp [shadowVerifyDone, hst, hmode, hr, hfills, hd]

end

/-! ### TRIAL (R368) -/

theorem shadowTrialEntry_other (h : b.get R.STO_SHADOW.STATE ≠ 3) : shadowTrialEntry b = b := if_pos h

section
variable {e : Nat} (he : b.sto.trialNext = e) (hst : b.get R.STO_SHADOW.STATE = 3)
include he hst

theorem shadowTrialEntry_idle (hidle : (b.ctx (e % 16) 17).phase = .idle) : shadowTrialEntry b = trialStart b e := by
  subst he
  exact (if_neg (by simp [hst])).trans (if_pos hidle)

theorem shadowTrialEntry_runs (hphase : (b.ctx (e % 16) 17).phase ≠ .idle) (hruns : ctxDone b (b.ctx (e % 16) 17) = false) :
    shadowTrialEntry b = b := by
  subst he
  exact (if_neg (by simp [hst])).trans ((if_neg hphase).trans (if_pos (by rw [trialCore, hruns]; rfl)))

section
variable (hphase : (b.ctx (e % 16) 17).phase ≠ .idle) (hdone : ctxDone b (b.ctx (e % 16) 17) = true)
include hphase hdone

theorem shadowTrialEntry_failed (hend : goodEnd (b.ctx (e % 16) 17).status = false) :
    shadowTrialEntry b = shadowFail (finishCtx b (e % 16) 17) (b.ctx (e % 16) 17).status 3 0 e := by
  subst he
  simp [shadowTrialEntry, hst, trialCore, hphase, hdone, hend]

/-- An entry whose command ended well is judged by the digest of its output. -/
theorem shadowTrialEntry_judged {r d : List Byte} (hend : goodEnd (b.ctx (e % 16) 17).status = true)
    (hread : trialRead (finishCtx b (e % 16) 17) e = .ok r) (hdigest : trialDigest (finishCtx b (e % 16) 17) e r = .ok d) :
    shadowTrialEntry b =
      let u := finishCtx b (e % 16) 17
      let v : Body := { u with sto := { u.sto with trialNext := e + 1 } }
      if d ≠ slice r 80 48 then shadowFail u stSHADOWMISMATCH 3 0 e
      else if u.get R.STO_SHADOW.NTRIAL ≤ e + 1 then shadowReady v else trialStart v (e + 1) := by
  subst he
  have hboth : (do
      let r ← trialRead (finishCtx b (b.sto.trialNext % 16) 17) b.sto.trialNext
      return (r, ← trialDigest (finishCtx b (b.sto.trialNext % 16) 17) b.sto.trialNext r) : Except Stop _) = .ok (r, d) := by
    rw [hread]
    exact (congrArg (fun x => do return (r, ← x) : Except Stop _ → Except Stop _) hdigest).trans rfl
  simp only [shadowTrialEntry, trialCore, hst, hphase, hdone, hend, hboth, bne_iff_ne]
  rfl

end
end
end

/-! ### The obligation -/

/-- Settles O48, state by state. -/
theorem shadowing : Obligations.Shadowing := by
  refine ⟨fun b status phase region entry hst =>
      ⟨shadowFail_state .., shadowFail_done .., shadowFail_status _ _ _ _ _ hst, rfl, rfl⟩,
    fun s hon => ⟨fun rows ds =>
      ⟨congrArg _ (live_stoArm _ hon), congrArg _ (live_stoArm _ hon), congrArg _ (live_stoArm _ hon)⟩,
      shadowFillDone_over, shadowFillDone_early, fun ds hst hmode hnone => ?keep,
      fun rid r d rows hst hmode hr hfills hd => shadowVerifyDone_mismatch hst rows hmode hr hfills hd,
      fun rows ds hst => shadowVerifyDone_other rows ds hst, shadowTrialEntry_other, fun hst => ?trial⟩⟩
  case keep =>
    have hready := (shadowVerifyDone_keep hst [] ds hmode).trans (trialBegin_empty hnone)
    dsimp only [actNow, stoNow]
    rw [hready]
    exact ⟨shadowReady_state _, shadowReady_done _, rfl, rfl⟩
  case trial =>
    refine ⟨shadowTrialEntry_idle rfl hst, shadowTrialEntry_runs rfl hst, fun hphase hdone =>
      ⟨shadowTrialEntry_failed rfl hst hphase hdone, fun r d hend hread hdigest => ?_⟩⟩
    have hjudged := shadowTrialEntry_judged rfl hst hphase hdone hend hread hdigest
    dsimp only [actNow, stoNow] at hjudged ⊢
    rw [hjudged]
    refine ⟨fun hd => if_pos hd, fun hd => ⟨fun hlast => ?_, fun hmore => ?_⟩⟩
    · rw [if_neg (fun hne => hne hd), if_pos hlast]
      exact ⟨shadowReady_state _, shadowReady_done _, rfl, rfl⟩
    · rw [if_neg (fun hne => hne hd), if_neg (Nat.not_le.2 hmore)]

end Sys2Proof.Machine
end

section
/-!
SUPPORT. Positions, sleds and the rebuild outside SP-2 mode (R359 to R363): what a failure, a sled that takes a position and the
rows of a rebuild leave behind.
-/

namespace Sys2Proof.Machine

/-! ### Registers, the store's bookkeeping and messages -/

/-- `t` differs from `s` at most in registers, in the store's bookkeeping and in what has been sent. -/
def StoOnly (s t : Body) : Prop := t = { s with regs := t.regs, sto := t.sto, out := t.out }

section
variable {s t u : Body}

theorem StoOnly.refl (s : Body) : StoOnly s s := rfl

theorem StoOnly.trans (h : StoOnly s t) (h' : StoOnly t u) : StoOnly s u := by
  rw [StoOnly] at h h' ⊢
  rw [h', h]

section
variable (h : StoOnly s t)
include h

theorem StoOnly.near : t.near = s.near := by rw [h]

theorem StoOnly.far : t.far = s.far := by rw [h]

theorem StoOnly.cfg : t.cfg = s.cfg := by rw [h]

theorem StoOnly.img : t.img = s.img := by rw [Body.img, h.cfg, Body.img]

end

/-- `t` differs from `s` at most in the messages to the sleds, asked and sent. -/
def SledMsgsOnly (s t : Body) : Prop := t = { s with
  sto := { s.sto with asked := t.sto.asked, posted := t.sto.posted, tags := t.sto.tags }, out := t.out }

theorem SledMsgsOnly.refl (s : Body) : SledMsgsOnly s s := rfl

theorem SledMsgsOnly.trans (h : SledMsgsOnly s t) (h' : SledMsgsOnly t u) : SledMsgsOnly s u := by
  rw [SledMsgsOnly] at h h' ⊢
  rw [h', h]

section
variable (h : SledMsgsOnly s t)
include h

theorem SledMsgsOnly.stoOnly : StoOnly s t := by
  rw [SledMsgsOnly] at h
  rw [h]
  rfl

theorem SledMsgsOnly.get (f : Fld) (i j : Nat) : t.get f i j = s.get f i j := by rw [h]; rfl

theorem SledMsgsOnly.rebuild : t.sto.rebuild = s.sto.rebuild := by rw [h]

end

theorem sledLaunch_only (s : Body) (o : SledOut) : SledMsgsOnly s (sledLaunch s o) := by
  unfold sledLaunch
  dsimp only
  split <;> rfl

theorem sledAsk_only (s : Body) (pos op addr len : Nat) (cls : Bool) (pay : List Byte) :
    SledMsgsOnly s (sledAsk s pos op addr len cls pay).2 :=
  SledMsgsOnly.trans (t := { s with sto := { s.sto with posted := s.sto.posted + 1 } }) rfl (sledLaunch_only ..)

theorem sledSend_only (s : Body) (pos addr n : Nat) (cls : Bool) (data : Option (List Byte)) :
    SledMsgsOnly s (sledSend s pos addr n cls data).2 := by
  refine List.foldlRecOn _ _ (motive := fun a : List Nat × Body => SledMsgsOnly s a.2) (.refl s) fun a ha c _ => ?_
  cases data with
  | none => exact ha.trans (sledAsk_only ..)
  | some d => exact ha.trans (sledAsk_only ..)

theorem metaPut_only (s : Body) (qs : List Nat) (off : Nat) (b : List Byte) : SledMsgsOnly s (metaPut s qs off b) :=
  List.foldlRecOn qs _ (motive := SledMsgsOnly s) (.refl s) fun _ ht _ _ => ht.trans (sledSend_only ..)

end

/-! ### Positions (R360) -/

section
variable {b : Body} {q : Nat}

theorem sledRecover_due (hq : q < 16) (hst : b.get R.STO_SLED.STATE q = 2)
    (hup : linkUp b (32 + b.get R.STO_SLED.PORT q) = true) (hmiss : b.get R.LNK_HB.MISS (32 + b.get R.STO_SLED.PORT q) = 0) :
    sledRecover q b = b.set R.STO_SLED.STATE 1 q := if_pos ⟨hq, hst, hup, hmiss⟩

theorem sledRecover_other (hst : b.get R.STO_SLED.STATE q ≠ 2) : sledRecover q b = b := if_neg fun ⟨_, h, _⟩ => hst h

theorem sledSuspectTimeout_due (hq : q < 16) (hst : b.get R.STO_SLED.STATE q = 2)
    (ht : AMap.get 0 b.suspectAt q + max 1 (b.get R.STO_CTRL.FAIL_KNOTS) ≤ b.tick) :
    sledSuspectTimeout q b = positionFailed b q 2 := if_pos ⟨hq, hst, ht⟩

theorem sledSuspectTimeout_early
    (h : b.get R.STO_SLED.STATE q ≠ 2 ∨ b.tick < AMap.get 0 b.suspectAt q + max 1 (b.get R.STO_CTRL.FAIL_KNOTS)) :
    sledSuspectTimeout q b = b := by
  refine if_neg fun ⟨_, hst, ht⟩ => ?_
  rcases h with h | h
  · exact h hst
  · exact Nat.not_le.2 h ht

/-- The armed actions that are no failure of position `q`. -/
def actsApart (b : Body) (q : Nat) : List Act := b.acts.filter (fun a => match a with
  | .portFailed p => posOfPort b p != some q
  | .posFail p _ => p != q
  | _ => true)

theorem mem_actsApart {a : Act} : a ∈ actsApart b q ↔
    a ∈ b.acts ∧ (∀ p, a = .portFailed p → posOfPort b p ≠ some q) ∧ ∀ d, a ≠ .posFail q d := by
  rw [actsApart, List.mem_filter]
  refine and_congr_right fun _ => ?_
  split
  next p => simp
  next p c => simp
  next hport hpos => simpa using ⟨fun p h => (hport p h).elim, fun d h => hpos q d h⟩

theorem sledFailedRow_unarmed (h : armedFail b q = none) : sledFailedRow q b = b := by simp only [sledFailedRow, h]

/-- What has been armed against a position becomes one failure. -/
theorem sledFailedRow_armed {c : Nat} (h : armedFail b q = some c) :
    sledFailedRow q b = { b with acts := actsApart b q ++ [.posFail q c] } := by
  simp only [sledFailedRow, h]
  rfl

end

/-! ### Lost regions (R361) -/

theorem regionLost_only (s : Body) (rid : Nat) : StoOnly s (regionLost s rid) := by
  unfold regionLost
  split <;> rfl

theorem regionsCheck_only (s : Body) : StoOnly s (regionsCheck s) := by
  refine List.foldlRecOn _ _ (motive := StoOnly s) (.refl s) fun t ht p _ => ?_
  split
  · exact ht.trans (regionLost_only ..)
  · exact ht

section
variable {g : Fld} {i : Nat} (hlo : g.lo < 64 ∧ g.lo ≠ 62 ∧ g.lo ≠ 3)
  (hoff : g.off + g.stride * i < R.STO_ERR_LOG.STATUS.off ∨ R.STO_ERR_KNOT.KNOT.off < g.off + g.stride * i)
include hlo hoff

theorem get_stoErr (s : Body) (status cause pos region row addr : Nat) :
    (stoErr s status cause pos region row addr).get g i = s.get g i := by
  have hne {f : Fld} (t : Body) (v : Nat) (hf : f.lo < 64)
      (hlog : R.STO_ERR_LOG.STATUS.off ≤ f.off ∧ f.off ≤ R.STO_ERR_KNOT.KNOT.off) : (t.set f v).get g i = t.get g i :=
    Body.get_set_ne t v (Fld.key_ne_off hf hlo.1 (by omega))
  unfold stoErr
  dsimp only
  rw [hne _ _ (by decide) (by decide), hne _ _ (by decide) (by decide), hne _ _ (by decide) (by decide),
    hne _ _ (by decide) (by decide), hne _ _ (by decide) (by decide), hne _ _ (by decide) (by decide),
    hne _ _ (by decide) (by decide)]

theorem get_regionLost (s : Body) (rid : Nat) : (regionLost s rid).get g i = s.get g i := by
  obtain ⟨hlt, hlost, hloss⟩ := id hlo
  unfold regionLost
  split
  · rfl
  · extract_lets base u v
    have herr : u.get g i = s.get g i := get_stoErr hlo hoff ..
    have hmarked : v.get g i = u.get g i :=
      (Body.get_set_ne (f := R.STO_EVENT.LOSS) _ 1 (Fld.key_ne_lo (by decide) hlt (Ne.symm hloss))).trans
        (Body.get_set_ne (f := R.STO_RGN.LOST) u 1 (Fld.key_ne_lo (by decide) hlt (Ne.symm hlost)))
    clear_value v
    exact hmarked.trans herr

theorem get_regionsCheck (s : Body) : (regionsCheck s).get g i = s.get g i := by
  refine List.foldlRecOn _ _ (motive := fun t : Body => t.get g i = s.get g i) rfl fun t ht p _ => ?_
  split
  · exact (get_regionLost hlo hoff ..).trans ht
  · exact ht

end

/-! ### A position fails (R360) -/

/-- A position is FAILED with a cause. -/
def failedMarked (s : Body) (q c : Nat) : Body :=
  ((s.set R.STO_SLED.STATE 3 q).set R.STO_SLED.CAUSE c q).set R.STO_EVENT.SLED_FAILED 1

section
variable {s : Body} {q : Nat} (hq : q < 16) (c : Nat)

theorem failedMarked_state : (failedMarked s q c).get R.STO_SLED.STATE q = 3 := by
  rw [failedMarked, Body.get_set_ne _ _ (Fld.key_ne_lo (by decide) (by decide) (by decide)),
    Body.get_set_ne _ _ (Fld.key_ne_lo (by decide) (by decide) (by decide)), Body.get_set_self]
  rfl

theorem failedMarked_cause : (failedMarked s q c).get R.STO_SLED.CAUSE q = c % 2 ^ R.STO_SLED.CAUSE.w := by
  rw [failedMarked, Body.get_set_ne _ _ (Fld.key_ne_lo (by decide) (by decide) (by decide)), Body.get_set_self]

theorem failedMarked_event : (failedMarked s q c).get R.STO_EVENT.SLED_FAILED = 1 := Body.get_set_self ..

theorem farPosLost_idle {t : Body} (h : t.sto.ops = []) (q : Nat) :
    farPosLost t q = { t with sto := { t.sto with asked := (farPosLost t q).sto.asked } } := by
  unfold farPosLost
  dsimp only
  rw [h]
  rfl

theorem spareTakeover_noSpares {t : Body} (h : t.img.sp2 = false) (q : Nat) : spareTakeover t q = t :=
  if_pos (.inl (by simp [h]))

include hq in
/-- With no rebuild, no seizing and no access of the far store under way a failure reaches the regions alone. -/
theorem positionFailed_alone (hsp2 : s.img.sp2 = false) (hst : s.get R.STO_SLED.STATE q ≠ 3) (hrebuild : s.sto.rebuild = none)
    (hrecs : s.txn.recs = []) (hops : s.sto.ops = []) :
    positionFailed s q c = regionsCheck (farPosLost (failedMarked s q c) q) := by
  have hmarked : positionFailed s q c =
      spareTakeover (regionsCheck (farPosLost (txnSledLost (failedMarked s q c) q) q)) q := by
    unfold positionFailed
    rw [if_neg (by simp [Nat.not_le.2 hq, hst])]
    dsimp only [Body.set_sto]
    rw [hrebuild]
    rfl
  have htxn : txnSledLost (failedMarked s q c) q = failedMarked s q c := by
    unfold txnSledLost
    rw [show (failedMarked s q c).txn.recs = [] from hrecs]
    rfl
  have himg : (regionsCheck (farPosLost (failedMarked s q c) q)).img = s.img := by
    rw [(regionsCheck_only _).img, farPosLost_idle (t := failedMarked s q c) hops]
    rfl
  rw [hmarked, htxn, spareTakeover_noSpares (himg ▸ hsp2)]

section
variable (hops : s.sto.ops = [])
include hops

theorem failed_only : StoOnly s (regionsCheck (farPosLost (failedMarked s q c) q)) := by
  have hlost := farPosLost_idle (t := failedMarked s q c) hops q
  refine StoOnly.trans ?_ (regionsCheck_only _)
  rw [hlost]
  rfl

theorem failed_get {g : Fld} {i : Nat} (hlo : g.lo < 64 ∧ g.lo ≠ 62 ∧ g.lo ≠ 3)
    (hoff : g.off + g.stride * i < R.STO_ERR_LOG.STATUS.off ∨ R.STO_ERR_KNOT.KNOT.off < g.off + g.stride * i) :
    (regionsCheck (farPosLost (failedMarked s q c) q)).get g i = (failedMarked s q c).get g i := by
  rw [get_regionsCheck hlo hoff, farPosLost_idle (t := failedMarked s q c) hops]
  rfl

end
end

end Sys2Proof.Machine
end

section
/-!
SUPPORT. Sleds that take their positions, and the rebuild (R355, R360, R362, R363), outside SP-2 mode.
-/

namespace Sys2Proof.Machine

/-! ### A position's registers -/

section
variable (s : Body) (q port st : Nat)

theorem placeSled_only : StoOnly s (placeSled s q port st) := rfl

theorem placeSled_state : (placeSled s q port st).get R.STO_SLED.STATE q = st % 2 ^ R.STO_SLED.STATE.w := by
  rw [placeSled, Body.get_set_ne _ _ (Fld.key_ne_lo (by decide) (by decide) (by decide)),
    Body.get_set_ne _ _ (Fld.key_ne_lo (by decide) (by decide) (by decide)),
    Body.get_set_ne _ _ (Fld.key_ne_lo (by decide) (by decide) (by decide)), Body.get_set_self]

theorem placeSled_port : (placeSled s q port st).get R.STO_SLED.PORT q = port % 2 ^ R.STO_SLED.PORT.w := by
  rw [placeSled, Body.get_set_ne _ _ (Fld.key_ne_lo (by decide) (by decide) (by decide)),
    Body.get_set_ne _ _ (Fld.key_ne_lo (by decide) (by decide) (by decide)), Body.get_set_self]

theorem placeSled_serial : (placeSled s q port st).get R.STO_SLED_ID.SERIAL q =
    ((sledOn s port).getD {}).serial % 2 ^ R.STO_SLED_ID.SERIAL.w := Body.get_set_self ..

end

/-! ### A sled whose label matches (R355, R360) -/

/-- The sled on a port is known. -/
def sledKnown (s : Body) (port : Nat) (x : Sled) : Body :=
  { s with sto := { s.sto with sleds := AMap.put {} s.sto.sleds port x } }

theorem AMap.find_insert {α : Type} (m : AMap α) (k : Nat) (v : α) (h : ∀ e ∈ m, e.1 ≠ k) :
    (AMap.insert m k v).find? (fun e => e.1 == k) = some (k, v) := by
  induction m with
  | nil => simp [AMap.insert]
  | cons e t ih =>
    obtain ⟨k', w⟩ := e
    have hne : k' ≠ k := h (k', w) (by simp)
    rw [AMap.insert]
    split
    · simp
    · simpa [hne] using ih fun e he => h e (by simp [he])

theorem sledOn_known {x : Sled} (s : Body) (port : Nat) (h : x ≠ {}) : sledOn (sledKnown s port x) port = some x := by
  have hput : AMap.put {} s.sto.sleds port x = AMap.insert (AMap.erase s.sto.sleds port) port x := if_neg h
  have hfind := AMap.find_insert (AMap.erase s.sto.sleds port) port x fun e he => (AMap.mem_erase he).2
  rw [sledOn, sledKnown]
  dsimp only
  rw [hput, hfind]

/-- First initialisation is for positions that are all ABSENT. -/
theorem firstInit_unfresh {s : Body} {q : Nat} (hq : q < 16) (h : s.get R.STO_SLED.STATE q ≠ 0) : firstInit s = s := by
  have hfresh : (List.range 16).all (fun q => s.get R.STO_SLED.STATE q == 0) = false := by
    rw [List.all_eq_false]
    exact ⟨q, List.mem_range.2 hq, by simpa using h⟩
  simp [firstInit, hfresh]

section
variable {s : Body} {q : Nat} {x : Sled} {l : SledLabel} (hrebuild : s.sto.rebuild = none) (hlabel : x.label = some l)
  (hrows : rowTop s ≤ x.rows) (hok : labelOk s q false l = true)
include hrebuild hlabel hrows hok

theorem sledTakes_labelled (port : Nat) : sledTakes s q port x = placeSled s q port 1 := by
  simp [sledTakes, hrebuild, hlabel, Nat.not_lt.2 hrows, hok]

/-- Outside SP-2 mode a sled whose label matches puts its ABSENT position IN. -/
theorem sledIdentified_labelled (hq : q < 16) (hsp2 : s.img.sp2 = false) (himg : s.cfg.img.isSome = true)
    (hst : s.get R.STO_SLED.STATE q = 0) : sledIdentified q x s = placeSled (sledKnown s q x) q q 1 := by
  have htakes : sledTakes (sledKnown s q x) q q x = placeSled (sledKnown s q x) q q 1 :=
    sledTakes_labelled (s := sledKnown s q x) hrebuild hlabel hrows hok q
  have hin : firstInit (placeSled (sledKnown s q x) q q 1) = placeSled (sledKnown s q x) q q 1 :=
    firstInit_unfresh hq (by rw [placeSled_state]; decide)
  have hport : portPlace s q ≠ 0xFF := by
    simp only [portPlace, hsp2]
    exact Nat.ne_of_lt (Nat.lt_trans hq (by decide))
  have hgate : ¬(16 ≤ q ∨ s.cfg.img.isNone = true ∨ portPlace s q = 0xFF) := by
    rw [Option.isNone_eq_false_iff.2 himg]
    simp [Nat.not_le.2 hq, hport]
  unfold sledIdentified
  rw [if_neg hgate]
  have hplain : ¬(sledKnown s q x).img.sp2 = true := ne_true_of_eq_false hsp2
  refine (if_neg hplain).trans ((if_pos hst).trans ?_)
  exact (congrArg firstInit htakes).trans hin

end

/-! ### The start of a rebuild (R362) -/

theorem stoRebuild_first {b : Body} {q : Nat} (hq : q < 16) (h : b.sto.rebuildNamed = []) :
    stoRebuild q b = { b with sto := { b.sto with rebuildNamed := [q] } } := by
  rw [stoRebuild, h, Nat.mod_eq_of_lt hq]
  rfl

section
variable (s : Body) (place port st q : Nat) (spare : Bool)

theorem writeLabel_only : StoOnly s (writeLabel s port q spare) := by
  unfold writeLabel
  split <;> rfl

/-- The label that is written goes out to the sled; registers show the position first. -/
theorem labelSled_msgs :
    SledMsgsOnly (placeSled (writeLabel s port q spare) place port st) (labelSled s place port st q spare) := by
  unfold labelSled
  dsimp only
  split
  · exact metaPut_only ..
  · exact .refl _

theorem labelSled_only : StoOnly s (labelSled s place port st q spare) :=
  ((writeLabel_only ..).trans (placeSled_only ..)).trans (labelSled_msgs ..).stoOnly

theorem labelSled_state : (labelSled s place port st q spare).get R.STO_SLED.STATE place = st % 2 ^ R.STO_SLED.STATE.w :=
  ((labelSled_msgs ..).get ..).trans (placeSled_state ..)

end

theorem rowNext_congr {s t : Body} (h : t.img = s.img) (r : Nat) : rowNext t r = rowNext s r := by
  rw [rowNext, h, rowNext]

/-- The registers of a rebuild that begins. -/
def rebuildShown (s : Body) (q port next : Nat) : Body :=
  ((((s.set R.STO_REBUILD.ACTIVE 1).set R.STO_REBUILD.RESUMED 0).set R.STO_REBUILD.POS q).set R.STO_REBUILD.PORT port).set
    R.STO_REBUILD.NEXT next

section
variable (s : Body) (q port next : Nat)

theorem rebuildShown_state (i : Nat) : (rebuildShown s q port next).get R.STO_SLED.STATE i = s.get R.STO_SLED.STATE i := by
  have hne {f : Fld} (t : Body) (v : Nat) (hf : f.lo < 64) (h : f.lo ≠ R.STO_SLED.STATE.lo) :
      (t.set f v).get R.STO_SLED.STATE i = t.get R.STO_SLED.STATE i := Body.get_set_ne t v (Fld.key_ne_lo hf (by decide) h)
  rw [rebuildShown, hne _ _ (by decide) (by decide), hne _ _ (by decide) (by decide), hne _ _ (by decide) (by decide),
    hne _ _ (by decide) (by decide), hne _ _ (by decide) (by decide)]

theorem rebuildShown_active : (rebuildShown s q port next).get R.STO_REBUILD.ACTIVE = 1 := by
  rw [rebuildShown, Body.get_set_ne _ _ (by decide), Body.get_set_ne _ _ (by decide), Body.get_set_ne _ _ (by decide),
    Body.get_set_ne _ _ (by decide), Body.get_set_self]
  rfl

theorem rebuildShown_pos : (rebuildShown s q port next).get R.STO_REBUILD.POS = q % 2 ^ R.STO_REBUILD.POS.w := by
  rw [rebuildShown, Body.get_set_ne _ _ (by decide), Body.get_set_ne _ _ (by decide), Body.get_set_self]

theorem rebuildBegin_get (spare : Bool) (f : Fld) (i : Nat) : (rebuildBegin s q port spare).get f i =
    (rebuildShown (labelSled s q port 4 q false) q port ((rowNext (labelSled s q port 4 q false) 0).getD 0)).get f i := rfl

theorem rebuildBegin_rebuild (spare : Bool) : ∃ m, (rebuildBegin s q port spare).sto.rebuild = some m ∧ m.pos = q ∧
    m.next = (rowNext s 0).getD 0 :=
  ⟨_, rfl, rfl, congrArg (·.getD 0) (rowNext_congr (labelSled_only s q port 4 q false).img 0)⟩

end

theorem rebuildStart_named {s : Body} {q : Nat} {x : Sled} (hq : q < 16) (hrebuild : s.sto.rebuild = none)
    (hst : s.get R.STO_SLED.STATE q = 3) (himg : s.cfg.img.isSome = true) (hsp2 : s.img.sp2 = false)
    (hx : sledOn s q = some x) (hnamed : s.sto.rebuildNamed = [q]) (hup : linkUp s (32 + q) = true)
    (hpass : sledPasses s q x = true) : rebuildStart q s = rebuildBegin s q q false := by
  have himg' : s.cfg.img ≠ none := Option.isSome_iff_ne_none.1 himg
  simp [rebuildStart, hrebuild, Nat.not_le.2 hq, hst, himg', hsp2, hx, hnamed, hup, hpass]

end Sys2Proof.Machine
end

section
/-!
SUPPORT. The rows of a rebuild (R362, R363): what a row that is rebuilt leaves, where the rebuild ends, and where it waits.
-/

namespace Sys2Proof.Machine

/-! ### A row -/

/-- Row `r` is rebuilt on position `q`: its chunk there is written, from the others' where they hold it. -/
def rowWritten (s : Body) (q r : Nat) : Body := match chunkLoc s r q with
  | none => s
  | some (p, loc) =>
    let others := if p.scheme = 0 then [] else rowOthers s p.scheme r q
    let t := match loc with
      | some l => if chunkHolds s p r q then s else { s with far := AMap.clear s.far l (l + 65536) }
      | none => s
    (t.count R.STO_FAR_RD.COUNT (512 * others.length)).count R.STO_FAR_WR.COUNT 512

/-- The row is counted, and the next one named. -/
def rowCounted (s : Body) (q r : Nat) : Body :=
  ((rowWritten s q r).count R.STO_REBUILD_ROWS.COUNT).set R.STO_REBUILD.NEXT (r + 1)

/-- The journal has the record of a rebuild whose row `r` is done. -/
def rowDone (s : Body) (m : RebuildRec) (r : Nat) : Body :=
  let u := rowCounted s m.pos r
  rebuildJournal { u with sto := { u.sto with rebuildStart := u.tick, rebuild := some { m with next := r + 1 } } }

theorem rowWritten_spec (s : Body) (q r : Nat) : ∃ far, StoreRegsOnly { s with far := far } (rowWritten s q r) := by
  have hcounted : ∀ (t : Body) (n : Nat),
      StoreRegsOnly t ((t.count R.STO_FAR_RD.COUNT n).count R.STO_FAR_WR.COUNT 512) := fun t n =>
    ((StoreRegsOnly.refl t).count n (by decide) (by decide)).count 512 (by decide) (by decide)
  unfold rowWritten
  split
  · exact ⟨s.far, .refl s⟩
  · dsimp only
    split
    · split
      · exact ⟨s.far, hcounted s _⟩
      · exact ⟨_, hcounted _ _⟩
    · exact ⟨s.far, hcounted s _⟩

theorem rowCounted_spec (s : Body) (q r : Nat) : ∃ far, StoreRegsOnly { s with far := far } (rowCounted s q r) := by
  obtain ⟨far, h⟩ := rowWritten_spec s q r
  exact ⟨far, (h.count 1 (by decide) (by decide)).set _ (by decide) (by decide)⟩

theorem rebuildJournal_msgs {s : Body} {m : RebuildRec} (h : s.sto.rebuild = some m) :
    SledMsgsOnly { s with sto := { s.sto with rebuild := some { m with knot := s.now, slot := 1 - m.slot } } }
      (rebuildJournal s) := by
  simp only [rebuildJournal, h]
  exact metaPut_only ..

/-- What is left of a row: the record in the journal, and the near tier and the image as they were. -/
theorem rowDone_spec (s : Body) (m : RebuildRec) (r : Nat) :
    (rowDone s m r).sto.rebuild = some { m with next := r + 1, knot := s.now, slot := 1 - m.slot } ∧
      (rowDone s m r).near = s.near ∧ (rowDone s m r).img = s.img := by
  obtain ⟨far, hregs, -, hnow⟩ := rowCounted_spec s m.pos r
  have hmsgs := rebuildJournal_msgs (s := { rowCounted s m.pos r with sto := { (rowCounted s m.pos r).sto with
    rebuildStart := (rowCounted s m.pos r).tick, rebuild := some { m with next := r + 1 } } }) rfl
  refine ⟨?_, ?_, ?_⟩
  · exact hmsgs.rebuild.trans (congrArg (fun k => some { m with next := r + 1, knot := k, slot := 1 - m.slot }) hnow)
  · exact hmsgs.stoOnly.near.trans (congrArg (·.near) hregs)
  · exact hmsgs.stoOnly.img.trans (congrArg (·.img) hregs)

/-! ### The rebuild goes on, ends, or waits -/

section
variable {s : Body} {m : RebuildRec} (hm : s.sto.rebuild = some m)
include hm

theorem rebuildStep_row {r : Nat} (hq : quiet s = false) (hactive : s.get R.STO_REBUILD.ACTIVE ≠ 0)
    (hpaused : s.sto.rebuildPaused = false) (hpool : s.get R.MGT_READY.POOL = 1)
    (hcore : bitAt (s.get R.MGT_READY.CORE) (s.get R.STO_REBUILD.CHAN) = true)
    (hdue : s.sto.rebuildStart + max 1 (s.get R.STO_REBUILD.INTERVAL) ≤ s.tick) (hr : rowNext s m.next = some r) :
    rebuildStep s = if (rowNext (rowDone s m r) (r + 1)).isNone then rebuildDone (rowDone s m r) m.pos else rowDone s m r := by
  simp only [rebuildStep, hm]
  rw [if_neg (by simp [hq, Body.on, hactive, hpaused, hpool, hcore, Nat.not_lt.2 hdue])]
  simp only [hr]
  rfl

theorem rebuildStep_waits (h : s.sto.rebuildPaused = true ∨
    s.tick < s.sto.rebuildStart + max 1 (s.get R.STO_REBUILD.INTERVAL)) : rebuildStep s = s := by
  simp only [rebuildStep, hm]
  refine if_pos ?_
  rcases h with h | h
  · exact .inr (.inr (.inl h))
  · exact .inr (.inr (.inr (.inr (.inr h))))

theorem rebuildResume_paused (hpaused : s.sto.rebuildPaused = true) (hpool : s.get R.MGT_READY.POOL = 1)
    (hcore : bitAt (s.get R.MGT_READY.CORE) (s.get R.STO_REBUILD.CHAN) = true) :
    rebuildResume s = { s with sto := { s.sto with rebuildPaused := false, rebuildStart := s.tick } } := by
  simp [rebuildResume, hm, hpaused, Body.on, hpool, hcore]

end

section
variable (s : Body) (q : Nat)

theorem rebuildDone_get (f : Fld) (i : Nat) : (rebuildDone s q).get f i =
    (((s.set R.STO_SLED.STATE 1 q).set R.STO_REBUILD.ACTIVE 0).set R.STO_EVENT.REBUILD_DONE 1).get f i := rfl

theorem rebuildDone_state : (rebuildDone s q).get R.STO_SLED.STATE q = 1 := by
  rw [rebuildDone_get, Body.get_set_ne _ _ (Fld.key_ne_lo (by decide) (by decide) (by decide)),
    Body.get_set_ne _ _ (Fld.key_ne_lo (by decide) (by decide) (by decide)), Body.get_set_self]
  rfl

theorem rebuildDone_active : (rebuildDone s q).get R.STO_REBUILD.ACTIVE = 0 := by
  rw [rebuildDone_get, Body.get_set_ne _ _ (by decide), Body.get_set_self]
  rfl

theorem rebuildDone_event : (rebuildDone s q).get R.STO_EVENT.REBUILD_DONE = 1 := by
  rw [rebuildDone_get, Body.get_set_self]
  rfl

end

/-! ### The rows of the table -/

theorem exec_sledFailed {s : State} {q : Nat} (hon : s.pwr.off = false) (hq : q < 16) :
    exec (.sledFailed q) s = .next (s.upd (sledFailedRow q)) := congrArg Host.Outcome.next (onOne_on _ hon hq)

theorem exec_rebuild {s : State} {q : Nat} (hon : s.pwr.off = false) (ho : regOpen s (R.STO_CMD.OP.at 0) = true) :
    exec (.rebuild q) s = .next (s.upd (stoRebuild q)) := congrArg Host.Outcome.next (onReg_on _ hon ho)

/-! ### The obligation -/

/-- Settles O47: positions by their state, a failure by what it reaches beside its registers, a sled by its label, and the rebuild
from its start, row by row, to its end. -/
theorem sledsAndRebuild : Obligations.SledsAndRebuild := by
  refine ⟨fun s q serial rows l hon hq => ⟨congrArg _ (onOne_stoArm _ hon hq), congrArg _ (onOne_stoArm _ hon hq),
      congrArg _ (onOne_stoArm _ hon hq), congrArg _ (onOne_stoArm _ hon hq), congrArg _ (live_stoArm _ hon),
      congrArg _ (live_stoArm _ hon)⟩,
    fun s q hon hq => ⟨sledRecover_due hq, sledSuspectTimeout_due hq, sledSuspectTimeout_early, sledRecover_other,
      fun hnone => ?unarmed, fun c hc => ?armed, fun c hsp2 hst hrebuild hrecs hops => ?failed,
      fun serial rows l hsp2 himg hst hrebuild hrows hok => ?identified, fun ho hnone => ?named,
      fun x hrebuild hst himg hsp2 hx hnamed hup hpass => ?begins,
      fun m r hm hpos hquiet hactive hpaused hpool hcore hdue hr => ?row, fun m hm hwait => rebuildStep_waits hm hwait,
      fun m hm hpaused hpool hcore => rebuildResume_paused hm hpaused hpool hcore⟩⟩
  case unarmed =>
    rw [exec_sledFailed hon hq]
    exact congrArg _ (upd_unchanged (sledFailedRow_unarmed hnone))
  case armed =>
    rw [exec_sledFailed hon hq]
    exact ⟨actsApart s.toBody q, congrArg _ (upd_congr (sledFailedRow_armed hc)), rfl, fun a => mem_actsApart⟩
  case failed =>
    have halone := positionFailed_alone hq c hsp2 hst hrebuild hrecs hops
    have hkept := failed_only (q := q) c hops
    dsimp only
    rw [halone]
    refine ⟨?_, ?_, ?_, hkept.near, hkept.far⟩
    · exact (failed_get c hops (by decide) (.inr (by simp [R.STO_SLED.STATE, R.STO_ERR_KNOT.KNOT]; omega))).trans
        (failedMarked_state c)
    · exact (failed_get c hops (by decide) (.inr (by simp [R.STO_SLED.CAUSE, R.STO_ERR_KNOT.KNOT]; omega))).trans
        (failedMarked_cause c)
    · exact (failed_get c hops (by decide) (.inl (by decide))).trans (failedMarked_event c)
  case identified =>
    have htaken := sledIdentified_labelled (x := { serial := serial, rows := rows, label := some l }) hrebuild rfl hrows hok hq
      hsp2 himg hst
    dsimp only [actNow, stoNow]
    rw [htaken]
    refine ⟨placeSled_state .., (placeSled_port ..).trans (Nat.mod_eq_of_lt hq), ?_, rfl, rfl, rfl⟩
    rw [placeSled_serial, sledOn_known s.toBody q (by simp)]
    rfl
  case named =>
    rw [exec_rebuild hon ho]
    exact congrArg _ (upd_congr (stoRebuild_first hq hnone))
  case begins =>
    have hbegin := rebuildStart_named hq hrebuild hst himg hsp2 hx hnamed hup hpass
    obtain ⟨m, hm, hmpos, hnext⟩ := rebuildBegin_rebuild s.toBody q q false
    dsimp only [actNow, stoNow]
    rw [hbegin]
    refine ⟨m, ?_, ?_, ?_, hm, hmpos, hnext⟩
    · rw [rebuildBegin_get, rebuildShown_state, labelSled_state]
      rfl
    · rw [rebuildBegin_get, rebuildShown_active]
    · rw [rebuildBegin_get, rebuildShown_pos]
      exact Nat.mod_eq_of_lt hq
  case row =>
    obtain ⟨hrebuild, hnear, himg⟩ := rowDone_spec s.toBody m r
    have hstep := rebuildStep_row hm hquiet hactive hpaused hpool hcore hdue hr
    rw [rowNext_congr himg] at hstep
    subst hpos
    dsimp only [actNow, stoNow]
    rw [hstep]
    refine ⟨fun hlast => ?_, fun hmore => ?_⟩
    · rw [hlast]
      exact ⟨rebuildDone_state .., rebuildDone_active .., rebuildDone_event .., rfl, hnear⟩
    · have hgoesOn : ¬(rowNext s.toBody (r + 1)).isNone = true := by simpa using Option.isSome_iff_ne_none.1 hmore
      rw [if_neg hgoesOn]
      exact ⟨hnear, hrebuild⟩

end Sys2Proof.Machine
end

section
/-!
SUPPORT. What a command can reach (R434, R438, R446): a command that goes through a gate of `Machine.Operands` changes the body
alone, and nothing while the package is off; the others are listed with what they do.
-/

namespace Sys2Proof.Machine

/-! ### Commands that change the body alone -/

/-- Nothing but the body differs: the security root, the management endpoint and the queue are kept. -/
def BodyOnly (s t : State) : Prop := t = { s with toBody := t.toBody }

/-- The body alone differs, and with the package off nothing does (R434, R438). -/
def Tame (s t : State) : Prop := (s.pwr.off = true → t = s) ∧ BodyOnly s t

section
variable {s t u : State}

theorem BodyOnly.refl (s : State) : BodyOnly s s := rfl

theorem BodyOnly.upd (s : State) (f : Body → Body) : BodyOnly s (s.upd f) := rfl

theorem BodyOnly.low (s : State) (f : Body → Body) : BodyOnly s (low f s) := rfl

theorem BodyOnly.trans (h : BodyOnly s t) (h' : BodyOnly t u) : BodyOnly s u := by
  unfold BodyOnly at h'
  rw [h', h]
  exact rfl

theorem BodyOnly.ite {p : Prop} [Decidable p] (ht : BodyOnly s t) (hu : BodyOnly s u) : BodyOnly s (if p then t else u) := by
  split
  · exact ht
  · exact hu

theorem BodyOnly.sec (h : BodyOnly s t) : t.sec = s.sec := by rw [h]

theorem BodyOnly.pending (h : BodyOnly s t) : t.pending = s.pending := by rw [h]

end

/-! ### The gates -/

section
variable {s : State} {f : Body → Body} {g : State → State}

theorem Tame.ite_off {p : Prop} [Decidable p] {t : State} (hp : s.pwr.off = true → p) (ht : BodyOnly s t) :
    Tame s (if p then s else t) :=
  ⟨fun hoff => if_pos (hp hoff), .ite (.refl s) ht⟩

theorem tame_live (hg : BodyOnly s (g s)) : Tame s (live g s) := .ite_off id hg

theorem tame_onLink {n : Nat} (hg : BodyOnly s (g s)) : Tame s (onLink n g s) := .ite_off .inl hg

theorem tame_onOne {k n : Nat} (hg : BodyOnly s (g s)) : Tame s (onOne k n g s) := .ite_off .inl hg

theorem tame_onCtx {c x : Nat} (hg : BodyOnly s (g s)) : Tame s (onCtx c x g s) := .ite_off .inl hg

theorem tame_onReg {r : Fld} {n : Nat} (hg : BodyOnly s (g s)) : Tame s (onReg r n g s) :=
  tame_live (.ite hg (.refl s))

theorem BodyOnly.onReg {r : Fld} {n : Nat} (hg : BodyOnly s (g s)) : BodyOnly s (onReg r n g s) := (tame_onReg hg).2

theorem BodyOnly.onOne {k n : Nat} (hg : BodyOnly s (g s)) : BodyOnly s (onOne k n g s) := (tame_onOne hg).2

theorem BodyOnly.bringUp (hg : BodyOnly s (g s)) : BodyOnly s (bringUp g s) := .ite (.refl s) hg

theorem tame_onPid {r : Fld} {pid : Nat} (hg : BodyOnly s (g s)) : Tame s (onPid r pid g s) :=
  tame_live (.ite hg (.refl s))

theorem tame_onQue {r : Fld} {pid q : Nat} (hg : BodyOnly s (g s)) : Tame s (onQue r pid q g s) :=
  tame_live (.ite (.ite hg (.refl s)) (.refl s))

end

/-! ### Operations of the security root and of the endpoint that change the body alone -/

section
variable (s : State)

theorem secRefuse_bodyOnly (signed : Bool) (req result slot pid : Nat) : BodyOnly s (secRefuse s signed req result slot pid) :=
  .ite rfl rfl

theorem vendorSend_bodyOnly (eid result : Nat) (body : List Byte) : BodyOnly s (vendorSend s eid result body) := rfl

theorem unsignedReq_bodyOnly (req eid : Nat) (b : List Byte) (f : State → Nat × List Byte) :
    BodyOnly s (unsignedReq req eid b f s) := by
  unfold unsignedReq
  exact (BodyOnly.ite (.refl s) (secRefuse_bodyOnly ..)).trans (vendorSend_bodyOnly ..)

theorem dbgSelect_bodyOnly (unit addr : Nat) : BodyOnly s (dbgSelect unit addr s) := .ite rfl (.refl s)

theorem setEid_bodyOnly (src eid : Nat) : BodyOnly s (setEid src eid s) := .ite rfl (.ite rfl rfl)

theorem getMctpVersion_bodyOnly (src ty : Nat) : BodyOnly s (getMctpVersion src ty s) := .ite rfl rfl

theorem sensorRead_bodyOnly (src id : Nat) : BodyOnly s (sensorRead src id s) := by
  unfold sensorRead
  split <;> rfl

theorem stagedWrite_tame (w : StagedWrite) : Tame s (stagedWrite w s) := by
  cases w <;> exact tame_onPid rfl

end

/-! ### Every command -/

/-- What the commands do that can change more than the body, and those whose event needs no power (R47, R435). -/
def reaching : Instr → Option (State → State)
  | .knotBoundary b => some (knotBoundary b)
  | .calendarCellLoss => some (low cellLoss)
  | .powerOn psel fresh => some (powerOn (psel % 4) fresh)
  | .resetPinAssert => some (low pinAssert)
  | .resetPinRelease => some (low pinRelease)
  | .resetPinHoldTimeout => some (low pinHold)
  | .tamperEvent kind powered => some (tamperEvent kind powered)
  | .readinessSet b => some (readinessSet b)
  | .profileWriteEnd n bytes => some (onOne 4 n (profileWriteEnd n bytes))
  | .switch n => some (onReg R.MGT_PROFILE.OP 0 (switch (n % 4)))
  | .partialChecked => some (live partialChecked)
  | .imageLoadDone => some (live imageLoadDone)
  | .registerWrite off data mask => some (live (fun s => (writeReg off { data := data, mask := mask } s).2))
  | .regWrite eid inst b => some (live (regAccess eid inst 2 b))
  | .regRead eid inst cmd b => some (live (regAccess eid inst cmd b))
  | .pldmBaseDiscovery src cmd arg => some (live (pldmBase src cmd arg))
  | .platformEventSend => some (live platformEvent)
  | .getVersion eid => some (live (getVersion eid))
  | .getCapabilities eid => some (live (getCapabilities eid))
  | .negotiateAlgorithms eid spec asym hash => some (live (negotiateAlgorithms eid spec asym hash))
  | .getDigests eid => some (live (getDigests eid))
  | .getCertificate eid slot off len => some (live (getCertificate eid slot off len))
  | .challenge eid slot meas n => some (live (challenge eid slot meas n))
  | .getMeasurements eid sig index n => some (live (getMeasurements eid sig index n))
  | .lcBurnDone => some (live lcBurnDone)
  | _ => none

theorem exec_reaching {i : Instr} {f : State → State} (h : reaching i = some f) (s : State) : exec i s = .next (f s) := by
  cases i <;> cases h <;> rfl

/-- Every other command goes through a gate, and changes the body alone. -/
theorem exec_tame {i : Instr} (h : reaching i = none) (s : State) : ∃ t, exec i s = .next t ∧ Tame s t := by
  cases i <;> cases h
  case stagedWrite => exact ⟨_, rfl, stagedWrite_tame ..⟩
  case mctpUnsupportedType => exact ⟨_, rfl, fun _ => rfl, .refl s⟩
  case chipReset internal =>
    cases internal with
    | true => exact ⟨_, rfl, tame_live (.low ..)⟩
    | false => exact ⟨_, rfl, tame_onReg (.low ..)⟩
  case getNonce | kemGet | mldsaSig => exact ⟨_, rfl, tame_live (unsignedReq_bodyOnly ..)⟩
  case spdmUnsupported | getEndpointId | getMessageTypeSupport => exact ⟨_, rfl, tame_live rfl⟩
  case setEndpointId => exact ⟨_, rfl, tame_live (setEid_bodyOnly ..)⟩
  case getMctpVersionSupport => exact ⟨_, rfl, tame_live (getMctpVersion_bodyOnly ..)⟩
  case pldmSensorRead => exact ⟨_, rfl, tame_live (sensorRead_bodyOnly ..)⟩
  case debugReadSelect => exact ⟨_, rfl, tame_onReg (dbgSelect_bodyOnly ..)⟩
  case laneDisable | linkEnable | linkDisable | retrain => exact ⟨_, rfl, tame_onLink (.onReg (.low ..))⟩
  case set | add | semValueWrite | cacheInvalidate | sampleEnable | watchpointEnable =>
    exact ⟨_, rfl, tame_onOne (.onReg (.low ..))⟩
  case halyardEnable | rebase => exact ⟨_, rfl, tame_onPid (.onOne (.low ..))⟩
  case sync | delayRequest | delayAnswer | codewordReceive | laserSpareSwap | laneSymbolLimit | lossOfLight
      | laneChgReceived | laneChangeEffect | errorWindowEnd | uncorrLimit | lightFound | equaliseDone | alignDone
      | measureDone | identifyExchange | trainTimeout | lanesTimeout | faultRecoveryTimeout | heartbeat
      | heartbeatSuspect =>
    exact ⟨_, rfl, tame_onLink (.low ..)⟩
  case photonicDieReady | portGroupReady => exact ⟨_, rfl, tame_onOne (.bringUp (.low ..))⟩
  case descriptorFetch | mergeResume | stackFail | sledFailed | profileWriteStart
      | sampleTake | sledRecover | sledSuspectTimeout | sledIdentified | rebuildStart | pcRecord =>
    exact ⟨_, rfl, tame_onOne (.low ..)⟩
  case waitLimitReached | descriptorUsable | operandBlockRead | commandRelease | commandComplete | cacheMissFill | nop
      | invalidate | decode | encode | check | loadTable | dropTable | seqOpen | seqClose | seqAdvance | gemv
      | kvAppend | attend | softmax | elemwise | rmsnorm | gather | scatterAdd | scatterWrite | rowReplace | scan
      | traverse | insert | delete | merge | fill | copy | compare | digest | reduce | seize =>
    exact ⟨_, rfl, tame_onCtx (.low ..)⟩
  case rootWrite | hotRingEnable | roll | commit | commitCancel | ringEnable => exact ⟨_, rfl, tame_onPid (.low ..)⟩
  case ringPlace | queueIndexWrite | queueEnable | queueDisable | resume => exact ⟨_, rfl, tame_onQue (.low ..)⟩
  case disciplineEnable | disciplineDisable | roleMaster | roleFollower | calTimeWrite | invalidatePage
      | invalidateRun | invalidatePartition | invalidateAll | dirLookup | acceptLine | acceptPid | forceCommit
      | forceAbort | txnLookup | flush | fail | rebuild | accept | shadowKeep | shadowCopy | shadowRecon | shadowIdle
      | hitch | modify | unhitch | grant | revokeGrant | revokeExtent | reopen | deadClient | deadHelak | admitShadow
      | releaseClient | releaseHelak | tear | mend | isolatedWrite | partialConfig | partialCancel | bootWrite
      | floorWrite | engineReset | partitionReset | powerReset | pwrExtClear | mark | obsFlush | traceEnable =>
    exact ⟨_, rfl, tame_onReg (.low ..)⟩
  all_goals exact ⟨_, rfl, tame_live (.low ..)⟩

/-! ### The obligations -/

/-- A command that acts without power, or that the table discards (R434). -/
def unpowered : Instr → Bool
  | .knotBoundary _ | .calendarCellLoss | .powerOn _ _ | .resetPinAssert | .resetPinRelease | .resetPinHoldTimeout
  | .tamperEvent _ _ => true
  | _ => false

theorem reaching_off {i : Instr} {f : State → State} {s : State} (h : reaching i = some f) (hi : unpowered i = false)
    (hoff : s.pwr.off = true) : f s = s := by
  cases i <;> cases h <;> cases hi
  case readinessSet => exact if_pos (.inl hoff)
  case profileWriteEnd => exact if_pos (.inl hoff)
  all_goals exact live_off _ hoff

/-- Settles O2: what goes through a gate does nothing, and what does not is one of the commands that need no power. -/
theorem unpoweredPackageInert : Obligations.UnpoweredPackageInert := by
  intro i s hoff hi
  cases h : reaching i with
  | none =>
    obtain ⟨t, hexec, hinert, -⟩ := exec_tame h s
    rw [hexec, hinert hoff]
  | some f =>
    cases hu : unpowered i with
    | true => cases i <;> cases hu <;> exact hi.elim
    | false => rw [exec_reaching h, reaching_off h hu hoff]

end Sys2Proof.Machine
end

section
/-!
SUPPORT. What the operations of the security root keep (R447, R455, R458, R459, R466): the fuses, the invariant of the root, and the
queue of commands.
-/

namespace Sys2Proof.Machine

/-! ### Fuses and the invariant -/

/-- A slot's fuses hold: a revoked slot stays revoked, and a programmed one keeps its digest and roles (R447). -/
def SecSlot.Holds (a b : SecSlot) : Prop :=
  (a.revoked = true → b.revoked = true) ∧ (a.valid = true → b.valid = true ∧ b.digest = a.digest ∧ b.roles = a.roles)

theorem SecSlot.Holds.refl (a : SecSlot) : a.Holds a := ⟨id, fun h => ⟨h, rfl, rfl⟩⟩

theorem SecSlot.Holds.trans {a b c : SecSlot} (h : a.Holds b) (h' : b.Holds c) : a.Holds c := by
  refine ⟨fun ha => h'.1 (h.1 ha), fun ha => ?_⟩
  obtain ⟨hv, hd, hr⟩ := h.2 ha
  obtain ⟨hv', hd', hr'⟩ := h'.2 hv
  exact ⟨hv', hd'.trans hd, hr'.trans hr⟩

/-- The fuses of every slot hold. -/
def SlotsHold (k l : List SecSlot) : Prop := l.length = k.length ∧ ∀ n, (k.getD n {}).Holds (l.getD n {})

theorem SlotsHold.refl (k : List SecSlot) : SlotsHold k k := ⟨rfl, fun _ => .refl _⟩

theorem SlotsHold.trans {k l m : List SecSlot} (h : SlotsHold k l) (h' : SlotsHold l m) : SlotsHold k m :=
  ⟨h'.1.trans h.1, fun n => (h.2 n).trans (h'.2 n)⟩

theorem slotsHold_set {k : List SecSlot} {n : Nat} {a : SecSlot} (h : (k.getD n {}).Holds a) : SlotsHold k (k.set n a) := by
  refine ⟨List.length_set, fun m => ?_⟩
  by_cases hm : n = m
  · subst hm
    by_cases hn : n < k.length
    · simpa [List.getD_eq_getElem?_getD, hn] using h
    · rw [List.set_eq_of_length_le (by omega)]
      exact .refl _
  · simp [List.getD_eq_getElem?_getD, hm, SecSlot.Holds.refl]

/-- The invariant `SecInv` says nothing but what it says of the root. -/
def SecSt.Inv (k : SecSt) : Prop :=
  k.slots.length = 8 ∧ k.lcs ∈ [0x01, 0x03, 0x07, 0x0F, 0x1F] ∧ (∀ b, k.burn = some b → b.1 ≠ 0 ∧ b.1 = lcNext k.lcs) ∧
  k.tlog.length ≤ 256 ∧ k.kem ≤ k.kemMade

theorem secInv_iff (s : State) : SecInv s ↔ s.sec.Inv := Iff.rfl

/-- What a change of the root keeps that burns no life-cycle fuse: the code, the slots' fuses, and the invariant. -/
structure SecKept (k l : SecSt) : Prop where
  lcs : l.lcs = k.lcs
  slots : SlotsHold k.slots l.slots
  inv : k.Inv → l.Inv

theorem SecKept.refl (k : SecSt) : SecKept k k := ⟨rfl, .refl _, id⟩

theorem SecKept.trans {k l m : SecSt} (h : SecKept k l) (h' : SecKept l m) : SecKept k m :=
  ⟨h'.lcs.trans h.lcs, h.slots.trans h'.slots, fun hk => h'.inv (h.inv hk)⟩

/-- A change that leaves the life cycle and its burn alone. -/
theorem SecKept.of_slots {k l : SecSt} (hlcs : l.lcs = k.lcs) (hslots : SlotsHold k.slots l.slots) (hburn : l.burn = k.burn)
    (htlog : k.tlog.length ≤ 256 → l.tlog.length ≤ 256) (hkem : k.kem ≤ k.kemMade → l.kem ≤ l.kemMade) : SecKept k l := by
  refine ⟨hlcs, hslots, fun ⟨hlen, hcode, hto, hlog, hpair⟩ => ⟨hslots.1.trans hlen, ?_, ?_, htlog hlog, hkem hpair⟩⟩
  · rwa [hlcs]
  · rwa [hburn, hlcs]

/-! ### Commands -/

/-- A command that burns no fuse keeps the queue, and what `SecKept` says of the root. -/
structure Safe (s t : State) : Prop where
  pending : t.pending = s.pending
  sec : SecKept s.sec t.sec

/-- What holds of every command: the queue is kept, the slots' fuses hold, and from a root that meets the invariant the life cycle
goes on by one transition at most, to a root that meets it again. -/
structure Forward (s t : State) : Prop where
  pending : t.pending = s.pending
  slots : SlotsHold s.sec.slots t.sec.slots
  inv : s.sec.Inv → t.sec.Inv ∧ (t.sec.lcs = s.sec.lcs ∨ t.sec.lcs = lcNext s.sec.lcs)

section
variable {s t u : State}

theorem Safe.refl (s : State) : Safe s s := ⟨rfl, .refl _⟩

theorem Safe.trans (h : Safe s t) (h' : Safe t u) : Safe s u := ⟨h'.pending.trans h.pending, h.sec.trans h'.sec⟩

theorem Safe.ite {p : Prop} [Decidable p] (ht : Safe s t) (hu : Safe s u) : Safe s (if p then t else u) := by
  split
  · exact ht
  · exact hu

theorem BodyOnly.safe (h : BodyOnly s t) : Safe s t := ⟨h.pending, by rw [h.sec]; exact .refl _⟩

theorem Safe.body (h : Safe s t) (h' : BodyOnly t u) : Safe s u := h.trans h'.safe

theorem Safe.upd (h : Safe s t) (f : Body → Body) : Safe s (t.upd f) := ⟨h.pending, h.sec⟩

theorem Safe.set (h : Safe s t) (f : Fld) (v i j : Nat) : Safe s (t.set f v i j) := h.upd _

theorem Safe.count (h : Safe s t) (f : Fld) (n i j : Nat) : Safe s (t.count f n i j) := h.upd _

/-- The root alone changes. -/
theorem Safe.setSec (h : Safe s t) {k : SecSt} (hk : SecKept t.sec k) : Safe s { t with sec := k } :=
  ⟨h.pending, h.sec.trans hk⟩

theorem Safe.foldl {α : Type} {f : State → α → State} (hf : ∀ s a, Safe s (f s a)) (l : List α) (s : State) :
    Safe s (l.foldl f s) := by
  induction l generalizing s with
  | nil => exact .refl s
  | cons a l ih => exact (hf s a).trans (ih _)

theorem Safe.forward (h : Safe s t) : Forward s t := ⟨h.pending, h.sec.slots, fun hi => ⟨h.sec.inv hi, .inl h.sec.lcs⟩⟩

theorem Forward.safe_right (h : Forward s t) (h' : Safe t u) : Forward s u := by
  refine ⟨h'.pending.trans h.pending, h.slots.trans h'.sec.slots, fun hi => ?_⟩
  obtain ⟨ht, hlcs⟩ := h.inv hi
  exact ⟨h'.sec.inv ht, by rwa [h'.sec.lcs]⟩

theorem Forward.safe_left (h : Safe s t) (h' : Forward t u) : Forward s u := by
  refine ⟨h'.pending.trans h.pending, h.sec.slots.trans h'.slots, fun hi => ?_⟩
  obtain ⟨hu, hlcs⟩ := h'.inv (h.sec.inv hi)
  exact ⟨hu, by rwa [h.sec.lcs] at hlcs⟩

end

/-! ### The tamper log and the checks of signatures (R464, R466) -/

section
variable {s t : State} (h : Safe s t)
include h

theorem Safe.tlogAdd (kind detail arg : Nat) (powered : Bool) : Safe s (tlogAdd t kind detail arg powered) :=
  ⟨h.pending, h.sec.trans (.of_slots rfl (.refl _) rfl (fun _ => List.length_take_le _ _) id)⟩

theorem Safe.sigFail (keyId : Nat) : Safe s (sigFail t keyId) :=
  .ite (((h.upd _).tlogAdd 0x15 0 (keyId % 2 ^ 32) true).setSec (.of_slots rfl (.refl _) rfl id id)) (h.upd _)

theorem Safe.judge (b : List Byte) (r : Chk Unit) : Safe s (judge t b r) := by
  unfold Machine.judge
  split
  · exact h.sigFail _
  · exact h
  · exact h.upd _

/-! ### Key pairs, nonces and key slots (R447, R449, R455, R461) -/

theorem Safe.kemNew : Safe s (kemNew t) := ⟨h.pending, h.sec.trans (.of_slots rfl (.refl _) rfl id (fun _ => Nat.le_refl _))⟩

theorem Safe.nonceNew : Safe s (nonceNew t) := ⟨h.pending, h.sec.trans (.of_slots rfl (.refl _) rfl id id)⟩

theorem Safe.setSlot {n : Nat} {a : SecSlot} (ha : (slotAt t n).Holds a) : Safe s (setSlot t n a) :=
  h.setSec (.of_slots rfl (slotsHold_set ha) rfl id id)

end

/-- OWNER_DESTROY revokes the slots above 0 and erases their records (R461). -/
def slotDestroyed (e : SecSlot × Nat) : SecSlot := if e.2 = 0 then e.1 else { e.1 with revoked := true, record := [] }

theorem slotDestroyed_holds (a : SecSlot) (n : Nat) : a.Holds (slotDestroyed (a, n)) := by
  unfold slotDestroyed
  split
  · exact .refl a
  · exact ⟨fun _ => rfl, fun h => ⟨h, rfl, rfl⟩⟩

theorem slotsHold_destroyed (k : List SecSlot) : SlotsHold k (k.zipIdx.map slotDestroyed) := by
  refine ⟨by simp, fun n => ?_⟩
  by_cases hn : n < k.length
  · simpa [List.getD_eq_getElem?_getD, hn] using slotDestroyed_holds k[n] n
  · simp [List.getD_eq_getElem?_getD, Nat.le_of_not_lt hn, SecSlot.Holds.refl]

/-- The count of the checks of a signed request's signatures (R464). -/
def signedCounted (req : Nat) (b : List Byte) (s : State) : State :=
  if signedCheck s req b = rsSIGNATURE then sigFail s (le (signerAt b 0) 0 8)
  else if signedCheck s req b = rsOK then s.count R.SEC_SIG_OK.COUNT else s

/-- The result of a signed request and its effect: those of `f` where the checks of every request hold (R449). -/
def signedDecided (req : Nat) (b : List Byte) (f : List Nat → State → Nat × State) (s : State) : Nat × State :=
  if signedCheck s req b = rsOK then f (signerSlots s b) (signedCounted req b s)
  else (signedCheck s req b, signedCounted req b s)

theorem decideSigned_eq (req eid : Nat) (b : List Byte) (pid : Nat) (f : List Nat → State → Nat × State) (s : State) :
    decideSigned req eid b pid f s =
      vendorSend (nonceNew (if (signedDecided req b f s).1 = rsOK then (signedDecided req b f s).2
        else secRefuse (signedDecided req b f s).2 true req (signedDecided req b f s).1 ((signerSlots s b).headD 0) pid))
        eid (signedDecided req b f s).1 [] := rfl

section
variable {s t : State} (h : Safe s t)
include h

theorem Safe.ownerDestroy : Safe s (ownerDestroy t) := by
  refine Safe.tlogAdd (Safe.setSec (h.upd _) ?_) 0x16 0 0 true
  exact .of_slots rfl (slotsHold_destroyed _) rfl id id

theorem Safe.secReady : Safe s (secReady t) := by
  refine Safe.body (t := Machine.kemNew (Machine.nonceNew (if t.sec.destroy ∧ t.sec.lcs = 0x0F then Machine.ownerDestroy t else t)))
    (.kemNew (.nonceNew ?_)) rfl
  exact .ite h.ownerDestroy h

theorem Safe.readinessSet (b : Nat) : Safe s (readinessSet b t) := .ite h (.ite (.ite h h.secReady) (h.upd _))

/-! ### Signed requests (R448, R449) -/

theorem Safe.secRefuse (signed : Bool) (req result slot pid : Nat) : Safe s (secRefuse t signed req result slot pid) :=
  h.trans (secRefuse_bodyOnly ..).safe

theorem Safe.vendorSend (eid result : Nat) (body : List Byte) : Safe s (vendorSend t eid result body) :=
  h.trans (vendorSend_bodyOnly ..).safe

/-- A signed request is as safe as what is decided by it. -/
theorem Safe.decideSigned (req eid : Nat) (b : List Byte) (pid : Nat) {f : List Nat → State → Nat × State}
    (hf : ∀ ss u, Safe s u → Safe s (f ss u).2) : Safe s (decideSigned req eid b pid f t) := by
  have hcounted : Safe s (signedCounted req b t) := .ite (h.sigFail _) (.ite (h.count ..) h)
  have hdecided : Safe s (signedDecided req b f t).2 := by
    unfold signedDecided
    split
    · exact hf _ _ hcounted
    · exact hcounted
  rw [decideSigned_eq]
  exact .vendorSend (.nonceNew (.ite hdecided (hdecided.secRefuse ..))) ..

end

/-- From a root that meets the invariant, a new code is the one that follows the state in effect. -/
theorem lcsNow_eq {s : State} (h : s.sec.lcs ∈ [0x01, 0x03, 0x07, 0x0F, 0x1F]) : lcsNow s = s.sec.lcs := by
  simp only [List.mem_cons, List.not_mem_nil, or_false] at h
  rcases h with h | h | h | h | h <;> simp [lcsNow, h]

/-- LC_REQUEST begins the burn of the next code alone (R459). -/
theorem secKept_burn {k : SecSt} {t : Nat} (knot : Nat) (h : k.Inv → t ≠ 0 ∧ t = lcNext k.lcs) :
    SecKept k { k with burn := some (t, knot) } := by
  refine ⟨rfl, .refl _, fun hk => ?_⟩
  obtain ⟨hlen, hcode, -, hlog, hpair⟩ := id hk
  refine ⟨hlen, hcode, ?_, hlog, hpair⟩
  rintro b ⟨⟩
  exact h hk

theorem deliver_bodyOnly (b : List Byte) (ss : List Nat) (s : State) : BodyOnly s (deliver b ss s).2 := by
  unfold deliver
  dsimp only
  repeat' split
  all_goals rfl

section
variable {s t : State} (h : Safe s t)
include h

theorem Safe.keyDeliver (eid : Nat) (b : List Byte) : Safe s (keyDeliver eid b t) :=
  (h.decideSigned 2 eid b _ (fun ss _ hu => hu.body (deliver_bodyOnly b ss _))).kemNew

theorem Safe.lcRequest (eid : Nat) (b : List Byte) : Safe s (lcRequest eid b t) := by
  refine h.decideSigned 3 eid b 0 (fun ss u hu => ?_)
  dsimp only
  split
  · exact hu
  split
  · exact hu
  next hnext =>
  split
  · exact hu
  split
  · exact hu
  split
  · exact hu
  refine .setSec ((hu.set ..).tlogAdd 0x10 _ 0 true) (secKept_burn _ fun hk => ?_)
  rw [not_or, not_not] at hnext
  exact ⟨hnext.1, hnext.2.trans (congrArg lcNext (lcsNow_eq hk.2.1))⟩

theorem Safe.debugUnlock (eid : Nat) (b : List Byte) : Safe s (debugUnlock eid b t) := by
  refine h.decideSigned 4 eid b 0 (fun ss u hu => ?_)
  dsimp only
  split
  · exact hu
  split
  · exact hu
  · exact ((hu.set ..).tlogAdd 0x11 _ 0 true).set ..

theorem Safe.keyInstall (eid : Nat) (b : List Byte) : Safe s (keyInstall eid b t) := by
  refine h.decideSigned 5 eid b 0 (fun ss u hu => ?_)
  dsimp only
  split
  · exact hu
  split
  · exact hu
  split
  · exact hu
  next hfree =>
  refine .tlogAdd (hu.setSlot ?_) 0x12 _ _ true
  exact ⟨id, fun hv => absurd hv hfree⟩

theorem Safe.keyRevoke (eid : Nat) (b : List Byte) : Safe s (keyRevoke eid b t) := by
  refine h.decideSigned 6 eid b 0 (fun ss u hu => ?_)
  dsimp only
  split
  · exact hu
  split
  · exact hu
  split
  · exact hu
  split
  · exact hu
  split
  · exact hu
  refine .tlogAdd (hu.setSlot ?_) 0x13 _ _ true
  exact ⟨fun _ => rfl, fun hv => ⟨hv, rfl, rfl⟩⟩

theorem Safe.secNow (a : Act) : Safe s (secNow t a) := by
  cases a with
  | signed req eid b =>
    exact .ite (h.keyDeliver eid b) (.ite (h.lcRequest eid b) (.ite (h.debugUnlock eid b) (.ite (h.keyInstall eid b)
      (.ite (h.keyRevoke eid b) h))))
  | _ => exact h

/-! ### Tamper events (R464, R465) -/

theorem Safe.zeroise : Safe s (zeroise t) :=
  .setSec (((h.upd _).upd _).upd _) (.of_slots rfl (.refl _) rfl id (fun _ => Nat.zero_le _))

theorem Safe.tamperEvent (kind : Nat) (powered : Bool) : Safe s (tamperEvent kind powered t) := by
  refine .ite h (.ite ?_ (h.tlogAdd ..))
  exact (((h.tlogAdd ..).zeroise.upd _).upd _).tlogAdd 0x14 0 0 true

/-! ### SPDM (R452 to R454) -/

theorem Safe.spdmSend (eid code p1 p2 : Nat) (body : List Byte) : Safe s (spdmSend t eid code p1 p2 body) := h.body rfl

theorem Safe.spdmAnswer (eid : Nat) (request : List Byte) (code p1 p2 : Nat) (body : List Byte) :
    Safe s (spdmAnswer t eid request code p1 p2 body) :=
  .setSec (h.spdmSend ..) (.of_slots rfl (.refl _) rfl id id)

theorem Safe.getVersion (eid : Nat) : Safe s (getVersion eid t) := by
  refine .spdmAnswer (h.setSec ?_) ..
  exact .of_slots rfl (.refl _) rfl id id

theorem Safe.getCapabilities (eid : Nat) : Safe s (getCapabilities eid t) := .spdmAnswer (h.upd _) ..

theorem Safe.negotiateAlgorithms (eid spec asym hash : Nat) : Safe s (negotiateAlgorithms eid spec asym hash t) :=
  h.spdmAnswer ..

theorem Safe.getDigests (eid : Nat) : Safe s (getDigests eid t) := h.spdmAnswer ..

theorem Safe.getCertificate (eid slot off len : Nat) : Safe s (getCertificate eid slot off len t) :=
  .ite (h.spdmSend ..) (h.spdmAnswer ..)

end

/-! Free values are drawn for measurements and for the nonces of responses; nothing else changes (R453, R454). -/

/-- Free values have been drawn, and nothing else has changed (log entry 4). -/
def Drew (s t : State) : Prop := t = { s with drawn := t.drawn }

section
variable {s t u : State}

theorem Drew.refl (s : State) : Drew s s := rfl

theorem Drew.free (s : State) (w : Nat) : Drew s (s.free w).2 := rfl

theorem Drew.trans (h : Drew s t) (h' : Drew t u) : Drew s u := by
  unfold Drew at h'
  rw [h', h]
  exact rfl

theorem Drew.bodyOnly (h : Drew s t) : BodyOnly s t := by
  unfold BodyOnly
  rw [h]

end

/-- Eight bytes more of a value of several words. -/
def freeAdd (a : List Byte × State) (_ : Nat) : List Byte × State := (a.1 ++ leBytes 8 (a.2.free 64).1, (a.2.free 64).2)

theorem foldl_freeAdd_drew (l : List Nat) (a : List Byte × State) : Drew a.2 (l.foldl freeAdd a).2 := by
  induction l generalizing a with
  | nil => exact .refl _
  | cons i l ih => exact (Drew.free a.2 _).trans (ih _)

theorem free48_eq (s : State) : free48 s = (List.range 6).foldl freeAdd ([], s) := rfl

theorem free48_drew (s : State) : Drew s (free48 s).2 := by
  rw [free48_eq]
  exact foldl_freeAdd_drew _ ([], s)

theorem measurement_three (s : State) (h : s.cfg.img.isSome = false) :
    measurement s 3 = ((free48 s).1, false, (free48 s).2) := by
  unfold measurement
  rw [if_neg (by decide), if_pos rfl, if_neg (by simp [h])]

/-- Every block but the third of a package without an image is read without drawing a value. -/
theorem measurement_state (s : State) (i : Nat) (h : i ≠ 3 ∨ s.cfg.img.isSome = true) : (measurement s i).2.2 = s := by
  unfold measurement
  split
  · rfl
  split
  next hi =>
    rw [if_pos (h.resolve_left (not_not.mpr hi))]
  repeat' split
  all_goals rfl

theorem measurement_drew (s : State) (i : Nat) : Drew s (measurement s i).2.2 := by
  by_cases h : i ≠ 3 ∨ s.cfg.img.isSome = true
  · rw [measurement_state s i h]
    exact .refl s
  · rw [not_or, not_not, Bool.not_eq_true] at h
    rw [h.1, measurement_three s h.2]
    exact free48_drew s

theorem measBlock_drew (s : State) (i : Nat) : Drew s (measBlock s i).2 := measurement_drew s i

/-- One block more of an answer: its bytes, their number and the state after it. -/
def blockAdd (a : List Byte × Nat × State) (i : Nat) : List Byte × Nat × State :=
  (a.1 ++ (measBlock a.2.2 i).1, a.2.1 + 1, (measBlock a.2.2 i).2)

/-- The blocks that an index of GET_MEASUREMENTS names (R453). -/
def blocksNamed (index : Nat) : List Nat :=
  if index = 0xFF then (List.range 10).map (· + 1) else if index = 0 then [] else [index]

theorem measBlocks_eq (s : State) (index : Nat) : measBlocks s index = (blocksNamed index).foldl blockAdd ([], 0, s) := rfl

theorem foldl_blockAdd_drew (is : List Nat) (a : List Byte × Nat × State) : Drew a.2.2 (is.foldl blockAdd a).2.2 := by
  induction is generalizing a with
  | nil => exact .refl _
  | cons i is ih => exact (measBlock_drew a.2.2 i).trans (ih _)

theorem measBlocks_drew (s : State) (index : Nat) : Drew s (measBlocks s index).2.2 := by
  rw [measBlocks_eq]
  exact foldl_blockAdd_drew _ ([], 0, s)

section
variable {s t : State} (h : Safe s t)
include h

theorem Safe.spdmSign (b : List Byte) : Safe s (spdmSign t b).2 := h.setSec (.of_slots rfl (.refl _) rfl id id)

theorem Safe.challenge (eid slot meas : Nat) (n : List Byte) : Safe s (challenge eid slot meas n t) := by
  refine .ite (h.spdmSend ..) (.spdmSend (.spdmSign ?_ _) ..)
  exact h.body ((BodyOnly.upd t _).trans (measBlocks_drew _ _).bodyOnly)

theorem Safe.getMeasurements (eid : Nat) (sig : Bool) (index : Nat) (n : List Byte) :
    Safe s (getMeasurements eid sig index n t) := by
  have hread : Safe s (respNonce (measBlocks t index).2.2).2 := (h.body (measBlocks_drew t index).bodyOnly).body rfl
  exact .ite (h.spdmSend ..) (.ite (.spdmSend (hread.spdmSign _) ..) (hread.spdmAnswer ..))

/-! ### Profiles and images (R416 to R424) -/

theorem Safe.imageLoadDone : Safe s (imageLoadDone t) := by
  unfold Machine.imageLoadDone
  split
  · exact h
  · exact .ite h ((h.judge ..).upd _)

theorem Safe.profileWriteEnd (n : Nat) (b : List Byte) : Safe s (profileWriteEnd n b t) := .ite h ((h.judge ..).upd _)

theorem Safe.switch (n : Nat) : Safe s (switch n t) :=
  .ite (h.upd _) (.ite (h.upd _) (.ite (h.upd _) ((h.judge ..).upd _)))

theorem Safe.partialChecked : Safe s (partialChecked t) := by
  unfold Machine.partialChecked
  split
  · exact (h.judge ..).upd _
  · exact h

/-! ### The management window (R489 to R497) -/

theorem Safe.wrRest (w : Wr) (r : RegInfo) (n j : Nat) : Safe s (wrRest w r n j t) :=
  .ite (h.switch _) (.ite (h.body (dbgSelect_bodyOnly ..)) (h.upd _))

theorem Safe.wrReg (w : Wr) (r : RegInfo) (n j : Nat) : Safe s (wrReg w r n j t) := .wrRest (h.upd _) ..

theorem Safe.atReg (off : Nat) (w : Wr) {f : RegInfo → Nat → Nat → State → State} (hf : ∀ r n j u, Safe s u → Safe s (f r n j u)) :
    Safe s (atReg off w f t).2 := by
  unfold Machine.atReg
  split
  · exact h
  split
  · exact h
  split
  · exact h
  · exact .ite h (hf _ _ _ _ h)

theorem Safe.writeReg (off : Nat) (w : Wr) : Safe s (writeReg off w t).2 := h.atReg off w fun r n j _ hu => hu.wrReg w r n j

theorem Safe.regWritesFrom (off : Nat) (b : List Byte) (is : List Nat) : Safe s (regWritesFrom off b is t).2 := by
  induction is generalizing t with
  | nil => exact h
  | cons i is ih => exact ih (h.atReg _ _ fun r n j _ hu => .ite (hu.wrRest ..) (hu.wrReg ..))

theorem Safe.regWrites (off : Nat) (b : List Byte) (is : List Nat) : Safe s (regWrites off b is t).2 := by
  refine .regWritesFrom (h.trans (.foldl (fun u i => ?_) is t)) off b is
  exact (Safe.refl u).atReg _ _ fun r n j _ hu => .ite (hu.upd _) hu

theorem Safe.winNotes (cmd eid off : Nat) (ns : List Bool) : Safe s (winNotes t cmd eid off ns) := by
  unfold Machine.winNotes
  split
  · exact h.body rfl
  · exact h

theorem Safe.mgmtSend (eid proto cc : Nat) (data : List Byte) : Safe s (mgmtSend t eid proto cc data) := h.body rfl

theorem Safe.regRead (eid : Nat) (b : List Byte) : Safe s (regRead eid b t) := .mgmtSend (Safe.winNotes (h.upd _) ..) ..

theorem Safe.setMgt (m : MgtSt) : Safe s { t with mgt := m } := ⟨h.pending, h.sec⟩

theorem Safe.regWrite (eid inst : Nat) (b : List Byte) : Safe s (regWrite eid inst b t) := by
  unfold Machine.regWrite
  dsimp only
  split
  · exact h.mgmtSend ..
  · exact .mgmtSend (.setMgt (.winNotes (.regWrites (h.upd _) ..) ..) _) ..

theorem Safe.regAccess (eid inst cmd : Nat) (b : List Byte) : Safe s (regAccess eid inst cmd b t) :=
  .ite (h.body rfl) (.ite (h.regRead ..) (h.regWrite ..))

theorem Safe.pldmBase (src cmd arg : Nat) : Safe s (pldmBase src cmd arg t) :=
  .ite ((h.setMgt _).mgmtSend ..) (.ite (h.mgmtSend ..) (.ite (.mgmtSend (h.upd _) ..) (.ite (h.mgmtSend ..)
    (.ite (.ite (h.mgmtSend ..) (.ite (h.mgmtSend ..) (.mgmtSend (h.upd _) ..))) (h.mgmtSend ..)))))

theorem Safe.platformEvent : Safe s (platformEvent t) := .ite (.mgmtSend (h.setMgt _) ..) h

theorem Safe.alertBoundary : Safe s (alertBoundary t) := .ite h (h.setMgt _)

theorem Safe.chipReset (cause : Nat) : Safe s (chipReset t cause) :=
  ⟨h.pending, h.sec.trans (.of_slots rfl (.refl _) rfl id (fun _ => Nat.zero_le _))⟩

theorem Safe.signedNow (as : List Act) : Safe s (signedNow as t) :=
  .ite h (h.trans (.foldl (fun u a => (Safe.refl u).secNow a) as t))

end

theorem dbgReadNow_bodyOnly (s : State) : BodyOnly s (dbgReadNow s) := by
  unfold dbgReadNow
  split
  · exact .refl s
  dsimp only
  split <;> rfl

theorem foldl_pcRecord_bodyOnly (cs : List Nat) (s : State) : BodyOnly s (cs.foldl (fun s c => pcRecord c s) s) := by
  induction cs generalizing s with
  | nil => exact .refl s
  | cons c cs ih => exact (BodyOnly.upd s _).trans (ih _)

theorem knotRecords_bodyOnly (s : State) : BodyOnly s (knotRecords s) := (BodyOnly.upd s _).trans (foldl_pcRecord_bodyOnly _ _)

/-! ### Life-cycle fuses (R459 to R461) -/

/-- The code that follows one of the life cycle is of the life cycle (R459). -/
theorem lcNext_mem {l : Nat} (h : lcNext l ≠ 0) : lcNext l ∈ [0x01, 0x03, 0x07, 0x0F, 0x1F] := by
  unfold lcNext at h ⊢
  split_ifs at h ⊢ <;> simp_all

/-- A burn that ends, or that a loss of power cuts short, puts its code into effect or does not (R460). -/
theorem forward_burn {s t : State} {code : Nat} (hpend : t.pending = s.pending) (hslots : t.sec.slots = s.sec.slots)
    (hlcs : t.sec.lcs = s.sec.lcs ∨ t.sec.lcs = code ∧ ∃ k, s.sec.burn = some (code, k)) (hburn : t.sec.burn = none)
    (htlog : t.sec.tlog = s.sec.tlog) (hkem : t.sec.kem ≤ s.sec.kem) (hmade : t.sec.kemMade = s.sec.kemMade) : Forward s t := by
  refine ⟨hpend, hslots ▸ .refl _, fun ⟨hlen, hcode, hto, hlog, hpair⟩ => ?_⟩
  have hnext : t.sec.lcs = s.sec.lcs ∨ t.sec.lcs ≠ 0 ∧ t.sec.lcs = lcNext s.sec.lcs :=
    hlcs.imp_right fun ⟨ht, k, hk⟩ => ht ▸ hto _ hk
  refine ⟨⟨hslots ▸ hlen, ?_, by simp [hburn], htlog ▸ hlog, by omega⟩, hnext.imp_right And.right⟩
  rcases hnext with h | ⟨hne, h⟩
  · rwa [h]
  · rw [h] at hne ⊢
    exact lcNext_mem hne

/-- LC_BURN_DONE puts the code in burn into effect (R460); the rest burns no fuse. -/
theorem lcBurnDone_forward (s : State) : Forward s (lcBurnDone s) := by
  unfold lcBurnDone
  split
  · exact (Safe.refl s).forward
  next code k hburn =>
    have hnow : Forward s { s with sec := { s.sec with lcs := code, burn := none } } :=
      forward_burn rfl rfl (.inr ⟨rfl, k, hburn⟩) rfl rfl (Nat.le_refl _) rfl
    exact hnow.safe_right (.upd (.ite (Safe.refl _).ownerDestroy (.refl _)) _)

/-- A loss of power during a burn leaves the old code or the new one (R460). -/
theorem burnCut_lcs (s : State) :
    (burnCut s).sec.lcs = s.sec.lcs ∨ ∃ b, s.sec.burn = some b ∧ (burnCut s).sec.lcs = b.1 := by
  unfold burnCut
  split
  · exact .inl rfl
  next code k hburn =>
    dsimp only
    split
    · exact .inr ⟨_, hburn, rfl⟩
    · exact .inl rfl

/-- Beside the life cycle and its hold, a loss of power leaves the root alone. -/
theorem burnCut_kept (s : State) : (burnCut s).sec.slots = s.sec.slots ∧ (burnCut s).sec.tlog = s.sec.tlog ∧
    (burnCut s).sec.kemMade = s.sec.kemMade ∧ (burnCut s).pending = s.pending := by
  unfold burnCut
  split
  · exact ⟨rfl, rfl, rfl, rfl⟩
  dsimp only
  split <;> exact ⟨rfl, rfl, rfl, rfl⟩

theorem powerReset_forward (s : State) (cause : Nat) : Forward s (powerReset s cause) := by
  obtain ⟨hslots, htlog, hmade, hpend⟩ := burnCut_kept (s.upd (fun s => rstRecord s 4 cause))
  rcases burnCut_lcs (s.upd (fun s => rstRecord s 4 cause)) with hlcs | ⟨b, hburn, hlcs⟩
  · exact forward_burn (code := 0) hpend hslots (.inl hlcs) rfl htlog (Nat.zero_le _) hmade
  · exact forward_burn hpend hslots (.inr ⟨hlcs, b.2, hburn⟩) rfl htlog (Nat.zero_le _) hmade

/-! ### The boundary, and power-on -/

theorem resetsNow_forward (s : State) (rs : List (Nat × Nat)) : Forward s (resetsNow s rs) := by
  unfold resetsNow
  split
  · exact powerReset_forward ..
  · exact ((Safe.refl s).chipReset _).forward
  · exact ((Safe.refl s).upd _).forward

theorem knotActs_forward (s : State) : Forward s (knotActs s) :=
  .safe_left (.upd (.ite (dbgReadNow_bodyOnly s).safe (.refl s)) _) (resetsNow_forward ..)

theorem knotRest_safe (n0 : Nat) (as : List Act) (s : State) : Safe s (knotRest n0 as s) :=
  .alertBoundary (.body (.upd (.signedNow ((Safe.refl s).upd _) as) _) (knotRecords_bodyOnly _))

theorem knotBoundary_forward (b : BoundaryIn) (s : State) : Forward s (knotBoundary b s) := by
  by_cases hoff : s.pwr.off = true
  · rw [knotBoundary_off hoff]
    exact (Safe.ite (.refl s) ((Safe.refl s).upd _)).forward
  · rw [knotBoundary_on (Bool.not_eq_true _ ▸ hoff) rfl]
    have hacts : Forward s (knotActs (s.upd (fun s => knotCommit b (knotClose b s)))) :=
      .safe_left ((Safe.refl s).upd _) (knotActs_forward _)
    exact hacts.safe_right (.ite (.refl _) (knotRest_safe ..))

/-- POWER_ON from a package that has no input is a POWER reset first (R438); the bring-up burns no fuse. -/
theorem powerOn_forward (psel : Nat) (fresh : Bool) (s : State) : Forward s (powerOn psel fresh s) := by
  have hreset : Forward s (if fresh then powerReset s 1 else s) := by
    split
    · exact powerReset_forward s 1
    · exact (Safe.refl s).forward
  have hlost : ∀ u : State, Safe u { u with sec := { u.sec with tlog := [], tseq := 0 } } :=
    fun u => (Safe.refl u).setSec (.of_slots rfl (.refl _) rfl (fun _ => Nat.zero_le _) id)
  refine hreset.safe_right (.ite (.refl _) (.upd (.ite ?_ ((Safe.refl _).upd _)) _))
  exact .tlogAdd ((((Safe.refl _).upd _).trans (hlost _)).upd _) ..

/-! ### Every command, and every step -/

/-- A command that reaches beyond the body goes forward. -/
theorem reaching_forward {i : Instr} {f : State → State} (h : reaching i = some f) (s : State) : Forward s (f s) := by
  cases i <;> cases h
  case knotBoundary => exact knotBoundary_forward ..
  case powerOn => exact powerOn_forward ..
  case lcBurnDone =>
    unfold live
    split
    · exact (Safe.refl s).forward
    · exact lcBurnDone_forward s
  all_goals apply Safe.forward
  case calendarCellLoss | resetPinAssert | resetPinRelease | resetPinHoldTimeout => exact (Safe.refl s).upd _
  case tamperEvent => exact (Safe.refl s).tamperEvent ..
  case readinessSet => exact (Safe.refl s).readinessSet ..
  case profileWriteEnd => exact .ite (.refl s) ((Safe.refl s).profileWriteEnd ..)
  case switch => exact .ite (.refl s) (.ite ((Safe.refl s).switch _) (.refl s))
  case partialChecked => exact .ite (.refl s) (Safe.refl s).partialChecked
  case imageLoadDone => exact .ite (.refl s) (Safe.refl s).imageLoadDone
  case registerWrite => exact .ite (.refl s) ((Safe.refl s).writeReg ..)
  case regWrite | regRead => exact .ite (.refl s) ((Safe.refl s).regAccess ..)
  case pldmBaseDiscovery => exact .ite (.refl s) ((Safe.refl s).pldmBase ..)
  case platformEventSend => exact .ite (.refl s) (Safe.refl s).platformEvent
  case getVersion => exact .ite (.refl s) ((Safe.refl s).getVersion _)
  case getCapabilities => exact .ite (.refl s) ((Safe.refl s).getCapabilities _)
  case negotiateAlgorithms => exact .ite (.refl s) ((Safe.refl s).negotiateAlgorithms ..)
  case getDigests => exact .ite (.refl s) ((Safe.refl s).getDigests _)
  case getCertificate => exact .ite (.refl s) ((Safe.refl s).getCertificate ..)
  case challenge => exact .ite (.refl s) ((Safe.refl s).challenge ..)
  case getMeasurements => exact .ite (.refl s) ((Safe.refl s).getMeasurements ..)

theorem Tame.safe {s t : State} (h : Tame s t) : Safe s t := h.2.safe

/-- Every command answers a next state, and goes forward. -/
theorem exec_forward (i : Instr) (s : State) : ∃ t, exec i s = .next t ∧ Forward s t := by
  cases h : reaching i with
  | none =>
    obtain ⟨t, hexec, htame⟩ := exec_tame h s
    exact ⟨t, hexec, htame.safe.forward⟩
  | some f => exact ⟨_, exec_reaching h s, reaching_forward h s⟩

/-- A step goes forward: it runs a command, or idles. -/
theorem step_forward {s t : State} (h : step s = .next t) :
    SlotsHold s.sec.slots t.sec.slots ∧ (s.sec.Inv → t.sec.Inv ∧ (t.sec.lcs = s.sec.lcs ∨ t.sec.lcs = lcNext s.sec.lcs)) := by
  unfold step at h
  split at h
  · cases h
    exact ⟨.refl _, fun hi => ⟨hi, .inl rfl⟩⟩
  next c rest _ =>
    obtain ⟨u, hexec, hu⟩ := exec_forward c { s with pending := rest }
    cases hexec.symm.trans h
    exact ⟨hu.slots, hu.inv⟩

/-- The life cycle only goes forward (R458). -/
theorem lcRank_le_lcNext {l : Nat} (h : l ∈ [0x01, 0x03, 0x07, 0x0F, 0x1F]) : lcRank l ≤ lcRank (lcNext l) := by
  simp only [List.mem_cons, List.not_mem_nil, or_false] at h
  rcases h with h | h | h | h | h <;> subst h <;> decide

/-! ### The endpoint leaves the root alone -/

theorem sec_ite {p : Prop} [Decidable p] {t u : State} {k : SecSt} (ht : t.sec = k) (hu : u.sec = k) :
    (if p then t else u).sec = k := by
  split
  · exact ht
  · exact hu

theorem pldmBase_sec (src cmd arg : Nat) (s : State) : (pldmBase src cmd arg s).sec = s.sec :=
  sec_ite rfl (sec_ite rfl (sec_ite rfl (sec_ite rfl (sec_ite (sec_ite rfl (sec_ite rfl rfl)) rfl))))

theorem platformEvent_sec (s : State) : (platformEvent s).sec = s.sec := sec_ite rfl rfl

/-! ### The obligations -/

/-- Settles O1: the step is defined so, and every command answers a next state on the same queue. -/
theorem stepRunsFrontCommand : Obligations.StepRunsFrontCommand := by
  refine ⟨fun _ _ _ => rfl, fun s h => ?_, fun i s => ?_⟩
  · unfold step
    rw [h]
  · obtain ⟨t, hexec, ht⟩ := exec_forward i s
    exact ⟨t, hexec, ht.pending⟩

/-- Settles O4. -/
theorem resetMeetsSecurityInvariant : Obligations.ResetMeetsSecurityInvariant := by
  refine (secInv_iff _).mpr ⟨rfl, by decide, ?_, by decide, by decide⟩
  rintro b ⟨⟩

/-- Settles O5: every step goes forward. -/
theorem stepKeepsSecurityInvariant : Obligations.StepKeepsSecurityInvariant :=
  fun s t hs h => (secInv_iff t).mpr ((step_forward h).2 ((secInv_iff s).mp hs)).1

/-- Settles O6: every step goes forward. -/
theorem stepNeverTakesFusesBack : Obligations.StepNeverTakesFusesBack := by
  intro s t hs h
  obtain ⟨hslots, hinv⟩ := step_forward h
  have hlcs := (hinv ((secInv_iff s).mp hs)).2
  refine ⟨hlcs, ?_, hslots.2⟩
  rcases hlcs with h | h
  · rw [h]
  · rw [h]
    exact lcRank_le_lcNext hs.2.1

/-- Settles O7: every other command changes the body or the endpoint alone. -/
theorem securityRootOnlyByItsCommands : Obligations.SecurityRootOnlyByItsCommands := by
  intro i s t h hi
  cases hr : reaching i with
  | none =>
    obtain ⟨u, hexec, -, hu⟩ := exec_tame hr s
    cases hexec.symm.trans h
    exact hu.sec
  | some f =>
    cases (exec_reaching hr s).symm.trans h
    cases i with
    | calendarCellLoss | resetPinAssert | resetPinRelease | resetPinHoldTimeout =>
      cases hr
      rfl
    | pldmBaseDiscovery src cmd arg =>
      cases hr
      exact sec_ite rfl (pldmBase_sec ..)
    | platformEventSend =>
      cases hr
      exact sec_ite rfl (platformEvent_sec s)
    | _ =>
      cases hr
      all_goals exact hi.elim

/-- The registers after reset hold RST_CAUSE alone (R501). -/
theorem reset_get {f : Fld} {i j : Nat}
    (h : f.key i j ∉ [R.RST_CAUSE.KIND.key 0 0, R.RST_CAUSE.CAUSE.key 0 0, R.RST_CAUSE.COUNT.key 0 0]) :
    State.reset.get f i j = f.reset := by
  simp only [List.mem_cons, List.not_mem_nil, or_false, not_or] at h
  obtain ⟨hkind, hcause, hcount⟩ := h
  have hregs : State.reset.regs =
    [(R.RST_CAUSE.COUNT.key 0 0, 1), (R.RST_CAUSE.CAUSE.key 0 0, 1), (R.RST_CAUSE.KIND.key 0 0, 4)] := by decide
  simp [Body.get, hregs, AMap.get, Ne.symm hkind, Ne.symm hcause, Ne.symm hcount]

/-- Only slot 0 is shipped programmed (R447). -/
theorem reset_slotAt {n : Nat} (h : n ≠ 0) : slotAt State.reset n = {} := by
  obtain ⟨m, rfl⟩ := Nat.exists_eq_succ_of_ne_zero h
  calc slotAt State.reset (m + 1) = (List.replicate 7 ({} : SecSlot))[m]?.getD {} := rfl
    _ = {} := by
      rw [List.getElem?_replicate]
      split <;> rfl

/-- Settles O3. -/
theorem resetState : Obligations.ResetState := by
  refine ⟨by decide, by decide, by decide, fun f i j => reset_get, rfl, rfl, rfl, rfl, rfl, rfl, rfl, fun n hn => ?_, rfl, rfl,
    rfl, rfl⟩
  rw [reset_slotAt hn]

end Sys2Proof.Machine
end

section
/-!
SUPPORT. Answers of the attestation protocols (R450, R452 to R454): what is sent, what changes beside it, and what joins the
transcript.
-/

namespace Sys2Proof.Machine

/-- Nothing has been sent, and nothing of the body has changed but registers and the free values drawn. -/
def Unsent (s t : State) : Prop := t = { s with regs := t.regs, drawn := t.drawn, sec := t.sec }

section
variable {s t u : State}

theorem Unsent.refl (s : State) : Unsent s s := rfl

theorem Unsent.trans (h : Unsent s t) (h' : Unsent t u) : Unsent s u := by
  unfold Unsent at h'
  rw [h', h]
  exact rfl

theorem Drew.unsent (h : Drew s t) : Unsent s t := by
  unfold Unsent
  rw [h]

theorem Unsent.set (h : Unsent s t) (f : Fld) (v i j : Nat) : Unsent s (t.set f v i j) := h.trans rfl

theorem State.count_regs (s : State) (f : Fld) (n i j : Nat) : s.count f n i j = { s with regs := (s.count f n i j).regs } :=
  congrArg (fun b : Body => { s with toBody := b }) (Body.count_regs s.toBody f n i j)

theorem Unsent.count (h : Unsent s t) (f : Fld) (n i j : Nat) : Unsent s (t.count f n i j) := by
  rw [State.count_regs]
  exact h.trans rfl

theorem Unsent.ite {p : Prop} [Decidable p] (ht : Unsent s t) (hu : Unsent s u) : Unsent s (if p then t else u) := by
  split
  · exact ht
  · exact hu

theorem Unsent.setSec (h : Unsent s t) (k : SecSt) : Unsent s { t with sec := k } := h.trans rfl

/-- What is then sent is the one answer. -/
theorem Unsent.send (h : Unsent s t) (o : Out) : Answered s (t.send o) o := by
  unfold Answered
  rw [h]
  exact ⟨rfl, rfl⟩

theorem Answered.setSec {o : Out} (h : Answered s t o) (k : SecSt) : Answered s { t with sec := k } o := by
  obtain ⟨hout, heq⟩ := h
  refine ⟨hout, ?_⟩
  rw [heq]

end

/-! ### SPDM (R452 to R454) -/

/-- The bytes of an SPDM message (R452). -/
def spdmBytes (code p1 p2 : Nat) (body : List Byte) : List Byte :=
  leBytes 1 0x13 ++ leBytes 1 code ++ leBytes 1 p1 ++ leBytes 1 p2 ++ body

section
variable {s t : State} (h : Unsent s t) (eid : Nat)
include h

theorem Unsent.spdmSend (code p1 p2 : Nat) (body : List Byte) :
    Answered s (spdmSend t eid code p1 p2 body) (.mgmt eid 5 code (spdmBytes code p1 p2 body)) :=
  (h.count ..).send _

theorem Unsent.spdmAnswer (request : List Byte) (code p1 p2 : Nat) (body : List Byte) :
    Answered s (spdmAnswer t eid request code p1 p2 body) (.mgmt eid 5 code (spdmBytes code p1 p2 body)) :=
  (h.spdmSend eid code p1 p2 body).setSec _

end

/-- An unsigned answer joins the transcript. -/
theorem Drew.spdmAnswer {s t : State} (h : Drew s t) (eid : Nat) (request : List Byte) (code p1 p2 : Nat) (body : List Byte) :
    Answered s (spdmAnswer t eid request code p1 p2 body) (.mgmt eid 5 code (spdmBytes code p1 p2 body)) ∧
      s.sec.transcript <+: (Machine.spdmAnswer t eid request code p1 p2 body).sec.transcript := by
  refine ⟨h.unsent.spdmAnswer .., ?_⟩
  rw [← h.bodyOnly.sec]
  exact List.prefix_append ..

/-- A signed answer ends with its signature, and closes the transcript. -/
theorem spdmSigned_answered {s t : State} (h : Unsent s t) (eid code p1 p2 : Nat) (b body : List Byte) :
    ∃ a g, Answered s (spdmSend (spdmSign t b).2 eid code p1 p2 (body ++ (spdmSign t b).1))
        (.mgmt eid 5 code (a ++ Config.ecdsaSign g)) ∧
      (spdmSend (spdmSign t b).2 eid code p1 p2 (body ++ (spdmSign t b).1)).sec.signedHash = some g ∧
      (spdmSend (spdmSign t b).2 eid code p1 p2 (body ++ (spdmSign t b).1)).sec.transcript = [] := by
  refine ⟨spdmBytes code p1 p2 body, sha384 (t.sec.transcript ++ b), ?_, rfl, rfl⟩
  have hsent := (h.setSec (spdmSign t b).2.sec).spdmSend eid code p1 p2 (body ++ (spdmSign t b).1)
  rwa [spdmBytes, ← List.append_assoc] at hsent

/-- What comes before the bytes of a certificate chain: how many follow, and how many are left. -/
def certHeader (off len : Nat) : List Byte :=
  leBytes 2 ((Config.certChain.drop off).take len).length ++
    leBytes 2 (Config.certChain.length - off - ((Config.certChain.drop off).take len).length)

theorem respNonce_drew (s : State) : Drew s (respNonce s).2 := rfl

section
variable (s : State) (eid : Nat)

theorem challenge_refused {slot : Nat} (meas : Nat) {n : List Byte} (h : slot ≠ 0 ∨ n.length ≠ 32) :
    challenge eid slot meas n s = spdmError s eid 1 0 := if_pos h

theorem challenge_signed (meas : Nat) {n : List Byte} (h : n.length = 32) :
    ∃ t b body, Unsent s t ∧ challenge eid 0 meas n s = spdmSend (spdmSign t b).2 eid 0x03 0 1 (body ++ (spdmSign t b).1) :=
  ⟨_, _, _, ((respNonce_drew s).trans (measBlocks_drew _ _)).unsent, if_neg (by simp [h])⟩

theorem getMeasurements_refused {sig : Bool} {index : Nat} {n : List Byte}
    (h : (10 < index ∧ index ≠ 0xFF) ∨ (sig = true ∧ n.length ≠ 32)) : getMeasurements eid sig index n s = spdmError s eid 1 0 :=
  if_pos h

theorem getMeasurements_unsigned {index : Nat} (n : List Byte) (h : index ≤ 10 ∨ index = 0xFF) :
    ∃ t request p1 body, Drew s t ∧ getMeasurements eid false index n s = spdmAnswer t eid request 0x60 p1 0 body :=
  ⟨_, _, _, _, (measBlocks_drew s index).trans (respNonce_drew _), if_neg (by simp; omega)⟩

theorem getMeasurements_signed {index : Nat} {n : List Byte} (h : index ≤ 10 ∨ index = 0xFF) (hn : n.length = 32) :
    ∃ t b p1 body, Unsent s t ∧
      getMeasurements eid true index n s = spdmSend (spdmSign t b).2 eid 0x60 p1 0 (body ++ (spdmSign t b).1) :=
  ⟨_, _, _, _, ((measBlocks_drew s index).trans (respNonce_drew _)).unsent, if_neg (by simp [hn]; omega)⟩

end

/-! ### Unsigned vendor requests (R450) -/

/-- The result of an unsigned request, and what follows it. -/
def unsignedResult (req : Nat) (b : List Byte) (f : State → Nat × List Byte) (s : State) : Nat × List Byte :=
  if !reqShape req false b then (rsFORMAT, []) else if le b 4 8 ≠ s.sec.serial then (rsSERIAL, []) else f s

theorem secRefuse_unsent (s : State) (signed : Bool) (req result slot pid : Nat) :
    Unsent s (secRefuse s signed req result slot pid) := by
  unfold secRefuse
  dsimp only
  split <;> rfl

theorem vendorSend_answered {s t : State} (h : Unsent s t) (eid result : Nat) (body : List Byte) :
    Answered s (vendorSend t eid result body) (vendorOut eid result body) := (h.count ..).send _

section
variable {s : State} {eid req : Nat} {b : List Byte} {f : State → Nat × List Byte}

theorem unsignedReq_answered :
    Answered s (unsignedReq req eid b f s) (vendorOut eid (unsignedResult req b f s).1 (unsignedResult req b f s).2) :=
  vendorSend_answered (.ite (.refl s) (secRefuse_unsent ..)) ..

theorem unsignedResult_format (h : reqShape req false b = false) : unsignedResult req b f s = (rsFORMAT, []) := by
  simp [unsignedResult, h]

theorem unsignedResult_serial (h : reqShape req false b = true) (hs : le b 4 8 ≠ s.sec.serial) :
    unsignedResult req b f s = (rsSERIAL, []) := by
  simp [unsignedResult, h, hs]

theorem unsignedResult_done (h : reqShape req false b = true) (hs : le b 4 8 = s.sec.serial) : unsignedResult req b f s = f s := by
  simp [unsignedResult, h, hs]

/-- An unsigned request on a powered package sends its result, and leaves the root alone. -/
theorem unsignedReq_answers {r : Nat} {body : List Byte} (hon : s.pwr.off = false) (h : unsignedResult req b f s = (r, body)) :
    ∃ t, Host.Outcome.next (φ := Fault) (ρ := Refusal) (live (unsignedReq req eid b f) s) = .next t ∧
      Answered s t (vendorOut eid r body) ∧ t.sec = s.sec := by
  refine ⟨_, congrArg _ (live_on _ hon), ?_, (unsignedReq_bodyOnly ..).sec⟩
  have hsent := unsignedReq_answered (s := s) (eid := eid) (req := req) (b := b) (f := f)
  rwa [h] at hsent

end

/-! ### The obligation -/

/-- Settles O56. -/
theorem attestationAnswers : Obligations.AttestationAnswers := by
  intro s eid hon
  have run {f : State → State} : Host.Outcome.next (φ := Fault) (ρ := Refusal) (live f s) = .next (f s) :=
    congrArg _ (live_on f hon)
  refine ⟨?version, ?capabilities, ?algorithms, ?digests, ?certificate, ?challenge, ?measurements, ?unsupported, ?vendor⟩
  case version =>
    exact ⟨_, _, run, ((Unsent.refl s).setSec _).spdmAnswer .., rfl, rfl⟩
  case capabilities =>
    exact ⟨_, _, run, (Drew.free s 8).spdmAnswer ..⟩
  case algorithms =>
    exact fun spec asym hash => ⟨_, _, run, (Drew.refl s).spdmAnswer ..⟩
  case digests =>
    exact ⟨_, _, run, (Drew.refl s).spdmAnswer ..⟩
  case certificate =>
    refine fun slot off len => ⟨fun h => ⟨_, run, ?_⟩, fun hslot hoff => ⟨_, spdmBytes 0x02 0 0 (certHeader off len), run, ?_⟩⟩
    · rw [getCertificate, if_pos h]
      exact ⟨(Unsent.refl s).spdmSend .., rfl⟩
    · rw [getCertificate, if_neg (by omega)]
      have hsent := (Drew.refl s).spdmAnswer eid (leBytes 1 0x82 ++ leBytes 1 slot ++ leBytes 2 off ++ leBytes 2 len) 0x02 0 0
        (certHeader off len ++ (Config.certChain.drop off).take len)
      rwa [spdmBytes, ← List.append_assoc] at hsent
  case challenge =>
    refine fun slot m n => ⟨fun h => ⟨_, run, ?_⟩, fun hslot hn => ?_⟩
    · rw [challenge_refused s eid m h]
      exact ⟨(Unsent.refl s).spdmSend .., rfl⟩
    · obtain ⟨t, b, body, ht, heq⟩ := challenge_signed s eid m hn
      obtain ⟨a, g, hsigned⟩ := spdmSigned_answered ht eid 0x03 0 1 b body
      subst hslot
      exact ⟨_, a, g, run, heq ▸ hsigned⟩
  case measurements =>
    refine fun sig index n => ⟨fun h => ⟨_, run, ?_⟩, fun hi hsig => ?_, fun hi hsig hn => ?_⟩
    · rw [getMeasurements_refused s eid h]
      exact ⟨(Unsent.refl s).spdmSend .., rfl⟩
    · obtain ⟨t, request, p1, body, ht, heq⟩ := getMeasurements_unsigned s eid n hi
      subst hsig
      exact ⟨_, _, run, heq ▸ ht.spdmAnswer ..⟩
    · obtain ⟨t, b, p1, body, ht, heq⟩ := getMeasurements_signed s eid hi hn
      obtain ⟨a, g, hsigned⟩ := spdmSigned_answered ht eid 0x60 p1 0 b body
      subst hsig
      exact ⟨_, a, g, run, heq ▸ hsigned⟩
  case unsupported =>
    exact fun code => ⟨_, run, (Unsent.refl s).spdmSend .., rfl⟩
  case vendor =>
    intro b
    refine ⟨fun h => unsignedReq_answers hon (unsignedResult_format h),
      fun h hs => unsignedReq_answers hon (unsignedResult_serial h hs),
      fun h hs => unsignedReq_answers hon (unsignedResult_done h hs),
      fun h => unsignedReq_answers hon (unsignedResult_format h), fun h hs => ⟨fun hk => ?_, fun hk => ?_⟩,
      fun h => unsignedReq_answers hon (unsignedResult_format h), fun h hs => ⟨fun hn => ?_, fun g hg => ?_⟩⟩
    · exact unsignedReq_answers hon ((unsignedResult_done h hs).trans (if_pos hk))
    · exact unsignedReq_answers hon ((unsignedResult_done h hs).trans (if_neg hk))
    · exact unsignedReq_answers hon ((unsignedResult_done h hs).trans (by rw [hn]))
    · exact unsignedReq_answers hon ((unsignedResult_done h hs).trans (by rw [hg]))

end Sys2Proof.Machine
end

section
/-!
SUPPORT. Session keys and halyards (R374, R382): what ROLL, the rollover, the end of the previous key and the start of a halyard do.
-/

namespace Sys2Proof.Machine

section
variable (s : Body) (pid : Nat) (p : PartSt)

@[simp] theorem part_setPart_self : (s.setPart pid p).part pid = p := AMap.get_put_self ..

theorem part_setPart_ne {q : Nat} (h : q ≠ pid) : (s.setPart pid p).part q = s.part q := AMap.get_put_ne _ _ _ _ (Ne.symm h)

end

/-! ### ROLL -/

section
variable {s : Body} {pid : Nat}

theorem roll_late (h : s.get R.PRT_KEY_T.R 0 pid < s.now + 2) : roll pid s = prtErr s 6 := if_pos h

theorem roll_unstaged (h : s.now + 2 ≤ s.get R.PRT_KEY_T.R 0 pid) (hk : (s.part pid).keys.staged = none) :
    roll pid s = prtErr s 3 := by
  unfold roll
  rw [if_neg (Nat.not_lt.mpr h), if_pos (by rw [hk]; rfl)]

theorem roll_named (h : s.now + 2 ≤ s.get R.PRT_KEY_T.R 0 pid) (hk : (s.part pid).keys.staged.isSome = true) :
    roll pid s = s.setPart pid { s.part pid with keys :=
      { (s.part pid).keys with roll := some (s.get R.PRT_KEY_T.R 0 pid) } } := by
  unfold roll
  rw [if_neg (Nat.not_lt.mpr h), if_neg (by simpa [Option.isSome_iff_ne_none] using hk)]

/-! ### The rollover, and the end of the previous key -/

/-- The keys after a rollover at `r`. -/
def keysRolled (k : PartKeys) (r : Nat) : PartKeys :=
  { k with prev := k.sess, sess := k.staged, staged := none, roll := none, rolled := some r, gen := (k.gen + 1) % 65536 }

theorem keyRollover_at {r : Nat} (hk : (s.part pid).keys.roll = some r) (hr : r ≤ s.now) (hhome : s.get R.MGT_READY.HOME = 1) :
    keyRollover pid s =
      (s.setPart pid { s.part pid with keys := keysRolled (s.part pid).keys r }).set R.PRT_KEY_KNOT.KNOT r 0 pid := by
  simp only [keyRollover, hk]
  exact if_neg (by simp [Body.on, hhome]; omega)

theorem previousKeyDestroy_at {r : Nat} (hk : (s.part pid).keys.rolled = some r) (hr : r + 256 ≤ s.now)
    (hhome : s.get R.MGT_READY.HOME = 1) :
    previousKeyDestroy pid s =
      s.setPart pid { s.part pid with keys := { (s.part pid).keys with prev := none, rolled := none } } := by
  simp only [previousKeyDestroy, hk]
  exact if_neg (by simp [Body.on, hhome]; omega)

theorem previousKeyDestroy_early {r : Nat} (hk : (s.part pid).keys.rolled = some r) (hr : s.now < r + 256) :
    previousKeyDestroy pid s = s := by
  simp only [previousKeyDestroy, hk]
  exact if_pos (.inl hr)

/-! ### Halyards -/

/-- HALYARD_ENABLE writes the halyard's fields, with CUR at 0, and EN where its list is not empty (R382). -/
theorem halyardEnable_fields (hal lead len : Nat) :
    (halyardEnable pid hal lead len s).get R.PRT_HAL_CTRL.EN 0 (pid * 4 + hal) = b2n (len != 0) ∧
    (halyardEnable pid hal lead len s).get R.PRT_HAL_CUR.CUR 0 (pid * 4 + hal) = 0 ∧
    (halyardEnable pid hal lead len s).get R.PRT_HAL_CTRL.LEN 0 (pid * 4 + hal) = len % 2 ^ R.PRT_HAL_CTRL.LEN.w ∧
    (halyardEnable pid hal lead len s).get R.PRT_HAL_CTRL.LEAD 0 (pid * 4 + hal) = lead % 2 ^ R.PRT_HAL_CTRL.LEAD.w := by
  have hlo : ∀ {f g : Fld}, f.lo < 64 → g.lo < 64 → f.lo ≠ g.lo → f.key 0 (pid * 4 + hal) ≠ g.key 0 (pid * 4 + hal) :=
    Fld.key_ne_lo
  have hcur : R.PRT_HAL_CUR.CUR.key 0 (pid * 4 + hal) ≠ R.PRT_HAL_CTRL.LEN.key 0 (pid * 4 + hal) :=
    Fld.key_ne_off (by decide) (by decide) (by simp [R.PRT_HAL_CUR.CUR, R.PRT_HAL_CTRL.LEN])
  unfold halyardEnable
  refine ⟨?en, ?cur, ?len, ?lead⟩
  case en =>
    rw [Body.get_set_self]
    cases len != 0 <;> rfl
  case cur =>
    rw [Body.get_set_ne _ _ (hlo (by decide) (by decide) (by decide)), Body.get_set_self, Nat.zero_mod]
  case len =>
    rw [Body.get_set_ne _ _ (hlo (by decide) (by decide) (by decide)), Body.get_set_ne _ _ hcur, Body.get_set_self]
  case lead =>
    rw [Body.get_set_ne _ _ (hlo (by decide) (by decide) (by decide)), Body.get_set_ne _ _ (hlo (by decide) (by decide) (by decide)),
      Body.get_set_ne _ _ (hlo (by decide) (by decide) (by decide)), Body.get_set_self]

end

/-! ### The obligation -/

/-- Settles O50. -/
theorem keysAndHalyards : Obligations.KeysAndHalyards := by
  intro s pid hon
  have run (f : Body → Body) : Host.Outcome.next (φ := Fault) (ρ := Refusal) (live (low f) s) = .next (s.upd f) :=
    congrArg _ (live_on _ hon)
  refine ⟨fun hp ho => ?roll, fun r hk hr hhome => ?rollover, fun r hk hhome => ?previous, fun hal lead len hhal hp ho => ?halyard⟩
  case roll =>
    have rolled {t : Body} (h : roll pid s.toBody = t) : exec (.roll pid) s = .next (s.upd fun _ => t) :=
      congrArg Host.Outcome.next ((onPid_on _ hon ho hp).trans (low_congr h))
    exact ⟨fun h => rolled (roll_late h), fun h hk => rolled (roll_unstaged h hk), fun h hk => rolled (roll_named h hk)⟩
  case rollover =>
    have heq := keyRollover_at hk hr hhome
    have hpart : (keyRollover pid s.toBody).part pid = { s.part pid with keys := keysRolled (s.part pid).keys r } := by
      rw [heq]
      exact part_setPart_self ..
    have hknot : (keyRollover pid s.toBody).get R.PRT_KEY_KNOT.KNOT 0 pid = r % 2 ^ R.PRT_KEY_KNOT.KNOT.w := by
      rw [heq, Body.get_set_self]
    have hothers : ∀ q, q ≠ pid → (keyRollover pid s.toBody).part q = s.part q := fun q hq => by
      rw [heq]
      exact part_setPart_ne _ _ _ hq
    refine ⟨_, run _, ?_⟩
    have hkeys := congrArg PartSt.keys hpart
    exact ⟨congrArg PartKeys.sess hkeys, congrArg PartKeys.prev hkeys, congrArg PartKeys.staged hkeys, congrArg PartKeys.gen hkeys,
      congrArg PartKeys.rolled hkeys, hknot, hothers, by simp only [State.upd, heq]; rfl⟩
  case previous =>
    refine ⟨fun h => (run _).trans ?_, fun h => (run _).trans ?_⟩
    · exact congrArg _ (upd_congr (previousKeyDestroy_at hk h hhome))
    · exact congrArg _ (upd_unchanged (previousKeyDestroy_early hk h))
  case halyard =>
    have hexec : exec (.halyardEnable pid hal lead len) s = .next (s.upd (halyardEnable pid hal lead len)) :=
      congrArg Host.Outcome.next ((onPid_on _ hon ho hp).trans (onOne_on _ hon hhal))
    obtain ⟨hen, hcur, hlen, hlead⟩ := halyardEnable_fields (s := s.toBody) (pid := pid) hal lead len
    exact ⟨_, hexec, hen, hcur, hlen, hlead, rfl⟩

end Sys2Proof.Machine
end

section
/-!
SUPPORT. Signed requests (R447 to R450, R455 to R463): how a request is decided, what each of them asks for beside the common
checks, and what it then does.
-/

namespace Sys2Proof.Machine

/-! ### Registers of other offsets are left alone -/

section
variable {f g : Fld}

theorem Body.get_set_off (s : Body) (v : Nat) (hf : f.lo < 64) (hg : g.lo < 64) (h : f.off ≠ g.off) :
    (s.set f v).get g = s.get g := by
  have hoff : f.off + f.stride * 0 + windowSize * 0 ≠ g.off + g.stride * 0 + windowSize * 0 := by simpa using h
  exact Body.get_set_ne s v (Fld.key_ne_off hf hg hoff)

variable (s : State)

theorem State.get_set_off (v : Nat) (hf : f.lo < 64) (hg : g.lo < 64) (h : f.off ≠ g.off) : (s.set f v).get g = s.get g :=
  Body.get_set_off s.toBody v hf hg h

theorem State.get_count_off (n : Nat) (hf : f.lo < 64) (hg : g.lo < 64) (h : f.off ≠ g.off) : (s.count f n).get g = s.get g :=
  Body.get_count_off s.toBody n hf hg h

end

/-! ### The tamper log -/

section
variable (s : State) (kind detail arg : Nat) (powered : Bool)

/-- An entry of the tamper log draws free values for its timestamp, and joins the log (R466). -/
theorem tlogAdd_unsent : Unsent s (tlogAdd s kind detail arg powered) := by
  cases powered with
  | false => rfl
  | true =>
    unfold Unsent tlogAdd
    simp only [if_true]
    rw [stampBlk_drawn]

theorem tlogAdd_regs : (tlogAdd s kind detail arg powered).regs = s.regs := by
  cases powered with
  | false => rfl
  | true => exact stampBlk_regs ..

@[simp] theorem tlogAdd_get (g : Fld) (i j : Nat) : (tlogAdd s kind detail arg powered).get g i j = s.get g i j :=
  Body.get_congr (tlogAdd_regs ..)

theorem tlogAdd_length : (tlogAdd s kind detail arg powered).sec.tlog.length = min 256 (s.sec.tlog.length + 1) :=
  List.length_take

end

/-! ### What a request's decision comes to -/

/-- A failed signature counts (R464). -/
def sigCounted (s : State) : State := s.upd fun b => (b.count R.SEC_SIG_FAIL.COUNT).set R.SEC_EVENT.SIG_FAIL 1

section
variable (s : State) (req : Nat) (b : List Byte)

theorem sigCounted_unsent : Unsent s (sigCounted s) := ((Unsent.refl s).count R.SEC_SIG_FAIL.COUNT 1 0 0).set R.SEC_EVENT.SIG_FAIL 1 0 0

theorem sigFail_unsent (keyId : Nat) : Unsent s (sigFail s keyId) :=
  .ite (((sigCounted_unsent s).trans (tlogAdd_unsent ..)).setSec _) (sigCounted_unsent s)

theorem sigFail_cases (keyId : Nat) : sigFail s keyId = sigCounted s ∨
    ∃ at_, sigFail s keyId = { tlogAdd (sigCounted s) 0x15 0 (keyId % 2 ^ 32) with
      sec := { (tlogAdd (sigCounted s) 0x15 0 (keyId % 2 ^ 32)).sec with sigFailAt := at_ } } :=
  (ite_eq_or_eq _ _ _).symm.imp_right fun h => ⟨_, h⟩

/-- The rest of the root is left alone (R464). -/
theorem sigFail_sec (keyId : Nat) : (sigFail s keyId).sec.slots = s.sec.slots ∧ (sigFail s keyId).sec.lcs = s.sec.lcs ∧
    (sigFail s keyId).sec.burn = s.sec.burn ∧ (sigFail s keyId).sec.kemMade = s.sec.kemMade := by
  rcases sigFail_cases s keyId with h | ⟨at_, h⟩ <;> rw [h] <;> exact ⟨rfl, rfl, rfl, rfl⟩

theorem sigFail_get {g : Fld} (hlo : g.lo < 64) (hcount : R.SEC_SIG_FAIL.COUNT.off ≠ g.off)
    (hevent : R.SEC_EVENT.SIG_FAIL.off ≠ g.off) (keyId : Nat) : (sigFail s keyId).get g = s.get g := by
  have hset : (sigCounted s).get g = s.get g :=
    (Body.get_set_off _ 1 (by decide) hlo hevent).trans (Body.get_count_off _ 1 (by decide) hlo hcount)
  rcases sigFail_cases s keyId with h | ⟨at_, h⟩ <;> rw [h]
  · exact hset
  · exact (tlogAdd_get _ 0x15 0 (keyId % 2 ^ 32) true g 0 0).trans hset

theorem signedCounted_unsent : Unsent s (signedCounted req b s) :=
  .ite (sigFail_unsent ..) (.ite ((Unsent.refl s).count ..) (.refl s))

theorem signedCounted_sec : (signedCounted req b s).sec.slots = s.sec.slots ∧ (signedCounted req b s).sec.lcs = s.sec.lcs ∧
    (signedCounted req b s).sec.burn = s.sec.burn ∧ (signedCounted req b s).sec.kemMade = s.sec.kemMade := by
  unfold signedCounted
  split
  · exact sigFail_sec ..
  split <;> exact ⟨rfl, rfl, rfl, rfl⟩

theorem signedCounted_get {g : Fld} (hlo : g.lo < 64) (hok : R.SEC_SIG_OK.COUNT.off ≠ g.off)
    (hcount : R.SEC_SIG_FAIL.COUNT.off ≠ g.off) (hevent : R.SEC_EVENT.SIG_FAIL.off ≠ g.off) :
    (signedCounted req b s).get g = s.get g := by
  unfold signedCounted
  split
  · exact sigFail_get s hlo hcount hevent _
  split
  · exact State.get_count_off s 1 (by decide) hlo hok
  · rfl

end

/-- The state in which the checks of a signed request have held: its signatures count as verified. -/
def signatureVerified (s : State) : State := s.count R.SEC_SIG_OK.COUNT

theorem signedCounted_ok {s : State} {req : Nat} {b : List Byte} (h : signedCheck s req b = rsOK) :
    signedCounted req b s = signatureVerified s := by
  simp [signedCounted, signatureVerified, h, rsOK, rsSIGNATURE]

/-- A decided request has its answer, and the nonce is another one (R449). -/
def replied (w : State) (eid r : Nat) : State := vendorSend (nonceNew w) eid r []

/-- The result of a decision: OK with the effect `w` where `ok` holds, and a refusal that changes nothing otherwise. -/
def Decides (v : State) (ok : Prop) (w : State) (x : Nat × State) : Prop :=
  (ok ∧ x = (rsOK, w)) ∨ (¬ok ∧ ∃ r, r ≠ rsOK ∧ r < 256 ∧ x = (r, v))

section
variable {v w : State} {ok p : Prop} {x : Nat × State} {r : Nat}

theorem Decides.done : Decides v True w (rsOK, w) := .inl ⟨trivial, rfl⟩

theorem Decides.refused (hr : r ≠ rsOK ∧ r < 256) : Decides v False w (r, v) := .inr ⟨id, r, hr.1, hr.2, rfl⟩

theorem Decides.ite [Decidable p] {ok' : Prop} {y : Nat × State} (hx : p → Decides v ok w x) (hy : ¬p → Decides v ok' w y) :
    Decides v ((p → ok) ∧ (¬p → ok')) w (if p then x else y) := by
  by_cases hp : p
  · rw [if_pos hp]
    exact (hx hp).imp (And.imp_left fun h => ⟨fun _ => h, fun hn => absurd hp hn⟩) (And.imp_left fun h h' => h (h'.1 hp))
  · rw [if_neg hp]
    exact (hy hp).imp (And.imp_left fun h => ⟨fun h' => absurd h' hp, fun _ => h⟩) (And.imp_left fun h h' => h (h'.2 hp))

/-- A condition that has to fail for the request to go on. -/
theorem Decides.unless [Decidable p] (h : Decides v ok w x) (hr : r ≠ rsOK ∧ r < 256) :
    Decides v (¬p ∧ ok) w (if p then (r, v) else x) := by
  by_cases hp : p
  · rw [if_pos hp]
    exact .inr ⟨fun h => h.1 hp, r, hr.1, hr.2, rfl⟩
  · rw [if_neg hp]
    exact h.imp (And.imp_left fun hok => ⟨hp, hok⟩) (And.imp_left fun hok h => hok h.2)

theorem Decides.congr {ok' : Prop} (h : Decides v ok w x) (hok : ok ↔ ok') : Decides v ok' w x := by
  unfold Decides at h ⊢
  rwa [← hok]

end

/-- A signed request has come to the result `r` and the state `t`: OK exactly where its checks and `ok` hold, with the effect `w`. -/
structure Decided (req eid : Nat) (b : List Byte) (s t : State) (ok : Prop) (w : State) (r : Nat) : Prop where
  check : signedCheck s req b ≠ rsOK → r = signedCheck s req b
  ok_iff : r = rsOK ↔ signedCheck s req b = rsOK ∧ ok
  done : r = rsOK → t = replied w eid rsOK
  refused : r ≠ rsOK → ∃ slot pid, t = replied (secRefuse (signedCounted req b s) true req r slot pid) eid r
  small : r < 256

theorem signedCheck_small (s : State) (req : Nat) (b : List Byte) : signedCheck s req b < 256 := by
  unfold signedCheck
  repeat' split
  all_goals decide

/-- The checks of every request come first, then its own conditions (R449). -/
theorem decideSigned_decided {req eid : Nat} {b : List Byte} {pid : Nat} {f : List Nat → State → Nat × State} {s w : State} {ok : Prop}
    (hf : Decides (signatureVerified s) ok w (f (signerSlots s b) (signatureVerified s))) :
    ∃ r, Decided req eid b s (decideSigned req eid b pid f s) ok w r := by
  rw [decideSigned_eq]
  by_cases hcheck : signedCheck s req b = rsOK
  · have hdecided : signedDecided req b f s = f (signerSlots s b) (signatureVerified s) := by
      rw [signedDecided, if_pos hcheck, signedCounted_ok hcheck]
    rw [hdecided]
    rcases hf with ⟨hok, hx⟩ | ⟨hok, r, hr, hsmall, hx⟩
    · rw [hx]
      exact ⟨rsOK, fun h => absurd hcheck h, by simp [hcheck, hok], fun _ => rfl, fun h => absurd rfl h, by decide⟩
    · rw [hx, if_neg hr, ← signedCounted_ok hcheck]
      exact ⟨r, fun h => absurd hcheck h, by simp [hr, hok], fun h => absurd h hr, fun _ => ⟨_, _, rfl⟩, hsmall⟩
  · have hdecided : signedDecided req b f s = (signedCheck s req b, signedCounted req b s) := if_neg hcheck
    rw [hdecided, if_neg hcheck]
    exact ⟨_, fun _ => rfl, by simp [hcheck], fun h => absurd h hcheck, fun _ => ⟨_, _, rfl⟩, signedCheck_small ..⟩

/-! ### What the answer leaves -/

section
variable (w : State) (eid r : Nat)

theorem replied_answered : Answered w (replied w eid r) (vendorOut eid r []) :=
  vendorSend_answered (t := nonceNew w) rfl ..

theorem replied_sec : (replied w eid r).sec = { w.sec with nonce := (replied w eid r).sec.nonce } := rfl

theorem free32_length (s : Body) : (free32 s).1.length = 32 := by
  simp [free32]

theorem replied_nonce : (replied w eid r).sec.nonce.length = 32 := free32_length w.toBody

theorem replied_get {g : Fld} (hlo : g.lo < 64) (hoff : R.SEC_SPDM_REQ.COUNT.off ≠ g.off) : (replied w eid r).get g = w.get g :=
  State.get_count_off (nonceNew w) 1 (by decide) hlo hoff

end

section
variable (s : State) (signed : Bool) (req r slot pid : Nat)

theorem secRefuse_sec : (secRefuse s signed req r slot pid).sec = s.sec := (secRefuse_bodyOnly ..).sec

/-- A refusal is logged (R450). -/
theorem secRefuse_log (hreq : req < 256) (hr : r < 256) :
    (secRefuse s true req r slot pid).get R.SEC_ERR_LOG.REQ = req ∧
    (secRefuse s true req r slot pid).get R.SEC_ERR_LOG.RESULT = r ∧
    (secRefuse s true req r slot pid).get R.SEC_EVENT.REFUSED = 1 := by
  refine ⟨?_, ?_, Body.get_set_self ..⟩
  · calc (secRefuse s true req r slot pid).get R.SEC_ERR_LOG.REQ = (s.set R.SEC_ERR_LOG.REQ req).get R.SEC_ERR_LOG.REQ := by
          rw [secRefuse, if_pos rfl, State.set, State.upd, Body.get_set_ne _ _ (by decide), State.set, State.upd,
            Body.get_set_ne _ _ (by decide), State.set, State.upd, Body.get_set_ne _ _ (by decide), State.set, State.upd,
            Body.get_set_ne _ _ (by decide), State.set, State.upd, Body.get_set_ne _ _ (by decide)]
      _ = req := (Body.get_set_self ..).trans (Nat.mod_eq_of_lt hreq)
  · calc (secRefuse s true req r slot pid).get R.SEC_ERR_LOG.RESULT =
          ((s.set R.SEC_ERR_LOG.REQ req).set R.SEC_ERR_LOG.RESULT r).get R.SEC_ERR_LOG.RESULT := by
          rw [secRefuse, if_pos rfl, State.set, State.upd, Body.get_set_ne _ _ (by decide), State.set, State.upd,
            Body.get_set_ne _ _ (by decide), State.set, State.upd, Body.get_set_ne _ _ (by decide), State.set, State.upd,
            Body.get_set_ne _ _ (by decide)]
      _ = r := (Body.get_set_self ..).trans (Nat.mod_eq_of_lt hr)

theorem secRefuse_get {g : Fld} (hlo : g.lo < 64) (hlog : R.SEC_ERR_LOG.REQ.off ≠ g.off) (hknot : R.SEC_ERR_KNOT.KNOT.off ≠ g.off)
    (hevent : R.SEC_EVENT.REFUSED.off ≠ g.off) : (secRefuse s true req r slot pid).get g = s.get g := by
  rw [secRefuse, if_pos rfl, State.get_set_off _ _ (by decide) hlo hevent, State.get_set_off _ _ (by decide) hlo hknot,
    State.get_set_off (f := R.SEC_ERR_LOG.PID) _ _ (by decide) hlo hlog,
    State.get_set_off (f := R.SEC_ERR_LOG.SLOT) _ _ (by decide) hlo hlog,
    State.get_set_off (f := R.SEC_ERR_LOG.RESULT) _ _ (by decide) hlo hlog,
    State.get_set_off (f := R.SEC_ERR_LOG.REQ) _ _ (by decide) hlo hlog]

end

/-! ### What every signed request's answer keeps -/

/-- One answer, another nonce and the store as it was; a refusal is logged, and changes no slot, key, fuse or capability. -/
def AnswersSigned (req eid : Nat) (b : List Byte) (s t : State) (r : Nat) : Prop :=
  t.out = vendorOut eid r [] :: s.out ∧ t.sec.nonce.length = 32 ∧ t.near = s.near ∧ t.far = s.far ∧
    (signedCheck s req b ≠ rsOK → r = signedCheck s req b) ∧
    (r ≠ rsOK → t.sec.slots = s.sec.slots ∧ t.sec.lcs = s.sec.lcs ∧ t.sec.burn = s.sec.burn ∧ t.parts = s.parts ∧
      t.get R.SEC_STATUS.DEBUG_OPEN = s.get R.SEC_STATUS.DEBUG_OPEN ∧ t.get R.SEC_ERR_LOG.REQ = req ∧
      t.get R.SEC_ERR_LOG.RESULT = r ∧ t.get R.SEC_EVENT.REFUSED = 1)

/-- The messages and the store are those of the state before. -/
def Silent (s w : State) : Prop := w.out = s.out ∧ w.near = s.near ∧ w.far = s.far

theorem Unsent.silent {s t : State} (h : Unsent s t) : Silent s t := by
  rw [h]
  exact ⟨rfl, rfl, rfl⟩

theorem Unsent.parts {s t : State} (h : Unsent s t) : t.parts = s.parts := by
  rw [h]

section
variable {req eid r : Nat} {b : List Byte} {s t w : State}

theorem replied_silent (h : Silent s w) : (replied w eid r).out = vendorOut eid r [] :: s.out ∧
    (replied w eid r).near = s.near ∧ (replied w eid r).far = s.far := by
  obtain ⟨hout, hnear, hfar⟩ := h
  obtain ⟨hsent, heq⟩ := replied_answered w eid r
  refine ⟨by rw [hsent, hout], ?_, ?_⟩
  · rw [heq, ← hnear]
  · rw [heq, ← hfar]

theorem replied_parts : (replied w eid r).parts = w.parts := by
  rw [(replied_answered w eid r).2]

theorem Decided.answers {ok : Prop} (h : Decided req eid b s t ok w r) (hreq : req < 256) (hw : Silent s w) :
    AnswersSigned req eid b s t r := by
  by_cases hr : r = rsOK
  · obtain ⟨hout, hnear, hfar⟩ := replied_silent (eid := eid) (r := rsOK) hw
    rw [h.done hr]
    subst hr
    exact ⟨hout, replied_nonce .., hnear, hfar, h.check, fun hne => absurd rfl hne⟩
  · obtain ⟨slot, pid, ht⟩ := h.refused hr
    have hu : Unsent s (secRefuse (signedCounted req b s) true req r slot pid) :=
      (signedCounted_unsent ..).trans (secRefuse_unsent ..)
    obtain ⟨hout, hnear, hfar⟩ := replied_silent (eid := eid) (r := r) hu.silent
    obtain ⟨hslots, hlcs, hburn, -⟩ := signedCounted_sec s req b
    obtain ⟨hlreq, hlres, hrefused⟩ := secRefuse_log (signedCounted req b s) req r slot pid hreq h.small
    rw [ht]
    refine ⟨hout, replied_nonce .., hnear, hfar, h.check, fun _ => ⟨?_, ?_, ?_, replied_parts.trans hu.parts, ?_, ?_, ?_, ?_⟩⟩
    · rw [replied_sec, secRefuse_sec, hslots]
    · rw [replied_sec, secRefuse_sec, hlcs]
    · rw [replied_sec, secRefuse_sec, hburn]
    · rw [replied_get _ _ _ (by decide) (by decide), secRefuse_get _ _ _ _ _ (by decide) (by decide) (by decide) (by decide),
        signedCounted_get _ _ _ (by decide) (by decide) (by decide) (by decide)]
    · rw [replied_get _ _ _ (by decide) (by decide), hlreq]
    · rw [replied_get _ _ _ (by decide) (by decide), hlres]
    · rw [replied_get _ _ _ (by decide) (by decide), hrefused]

/-- A fresh key pair shows in its own count alone (R455). -/
theorem kemNew_get {g : Fld} (h : R.SEC_STATUS.KEM_GEN.key 0 0 ≠ g.key 0 0) : (kemNew t).get g = t.get g :=
  Body.get_set_ne _ _ h

theorem AnswersSigned.kemNew (h : AnswersSigned req eid b s t r) : AnswersSigned req eid b s (kemNew t) r := by
  obtain ⟨hout, hnonce, hnear, hfar, hcheck, hrefused⟩ := h
  refine ⟨hout, hnonce, hnear, hfar, hcheck, fun hr => ?_⟩
  obtain ⟨hslots, hlcs, hburn, hparts, hopen, hreq, hres, hev⟩ := hrefused hr
  exact ⟨hslots, hlcs, hburn, hparts, (kemNew_get (by decide)).trans hopen, (kemNew_get (by decide)).trans hreq,
    (kemNew_get (by decide)).trans hres, (kemNew_get (by decide)).trans hev⟩

end

/-! ### Key slots (R450) -/

section
variable (s : State) (n m : Nat)

@[simp] theorem slotAt_verified : slotAt (signatureVerified s) n = slotAt s n := rfl

@[simp] theorem hasRole_verified : hasRole (signatureVerified s) n m = hasRole s n m := rfl

@[simp] theorem lcsNow_verified : lcsNow (signatureVerified s) = lcsNow s := rfl

end

section
variable {s : State} {n : Nat} {k : SecSlot}

theorem slotAt_setSlot_self (h : n < s.sec.slots.length) : slotAt (setSlot s n k) n = k := by
  simp [slotAt, setSlot, List.getD_eq_getElem?_getD, h]

theorem slotAt_setSlot_ne {m : Nat} (h : m ≠ n) : slotAt (setSlot s n k) m = slotAt s m := by
  simp [slotAt, setSlot, List.getD_eq_getElem?_getD, h.symm]

/-- A slot with a key is one of the root's. -/
theorem slot_of_valid (h : (slotAt s n).valid = true) : n < s.sec.slots.length := by
  by_contra hn
  simp [slotAt, List.getD_eq_getElem?_getD, Nat.le_of_not_lt hn] at h

end

/-- What KEY_REVOKE asks for (R450). -/
def RevokeOk (b : List Byte) (s : State) : Prop :=
  let n := le (reqBody b) 0 1
  reqBlen b = 1 ∧ n ≠ 0 ∧ n < 8 ∧ (∃ m ∈ signerSlots s b, m ≠ n ∧ hasRole s m 4 = true) ∧
    (slotAt s n).valid = true ∧ (slotAt s n).revoked = false ∧
    (hasRole s n 0 = true → ∃ m, m < 8 ∧ m ≠ 0 ∧ m ≠ n ∧ (slotAt s m).valid = true ∧ (slotAt s m).revoked = false ∧
      hasRole s m 0 = true)

theorem keyRevoke_decided (eid : Nat) (b : List Byte) (s : State) :
    let n := le (reqBody b) 0 1
    ∃ r, Decided 6 eid b s (keyRevoke eid b s) (RevokeOk b s)
      (tlogAdd (setSlot (signatureVerified s) n { slotAt s n with revoked := true }) 0x13 n (le (slotAt s n).digest 0 4)) r := by
  refine decideSigned_decided ((((((Decides.done.unless (by decide)).unless (by decide)).unless (by decide)).unless
    (by decide)).unless (by decide)).congr ?_)
  simp [RevokeOk]
  tauto

/-- What KEY_INSTALL asks for (R450). -/
def InstallOk (b : List Byte) (s : State) : Prop :=
  let n := le (reqBody b) 0 1
  reqBlen b = 2690 ∧ n ≠ 0 ∧ n < 8 ∧ le (reqBody b) 1 1 < 32 ∧
    (∃ m ∈ signerSlots s b, hasRole s m 4 = true ∨ (m = 0 ∧ n = 1 ∧ lcsNow s = 3)) ∧ (slotAt s n).valid = false

/-- The slot as KEY_INSTALL programs it. -/
def installed (b : List Byte) (k : SecSlot) : SecSlot :=
  { valid := true, revoked := k.revoked, roles := le (reqBody b) 1 1, digest := sha384 ((reqBody b).drop 2), record := (reqBody b).drop 2 }

theorem keyInstall_decided (eid : Nat) (b : List Byte) (s : State) :
    let n := le (reqBody b) 0 1
    ∃ r, Decided 5 eid b s (keyInstall eid b s) (InstallOk b s)
      (tlogAdd (setSlot (signatureVerified s) n (installed b (slotAt s n))) 0x12 n (le (sha384 ((reqBody b).drop 2)) 0 4)) r := by
  refine decideSigned_decided ((((Decides.done.unless (by decide)).unless (by decide)).unless (by decide)).congr ?_)
  simp [InstallOk, or_iff_not_imp_left, and_assoc]

/-! ### Debug access (R462, R463) -/

/-- The capabilities that the signers of a request may unlock together. -/
def unlockableBy (s : State) (ss : List Nat) : Nat :=
  ss.foldl (fun a n => a ||| (if hasRole s n 3 then unlockable (lcsNow s) n else 0)) 0

theorem bitAt_foldl_or (f : Nat → Nat) (ss : List Nat) (a k : Nat) :
    bitAt (ss.foldl (fun a n => a ||| f n) a) k = true ↔ bitAt a k = true ∨ ∃ n ∈ ss, bitAt (f n) k = true := by
  induction ss generalizing a with
  | nil => simp
  | cons n ss ih =>
    rw [List.foldl_cons, ih, bitAt_eq_testBit, Nat.testBit_or]
    simp [bitAt_eq_testBit, or_assoc]

theorem and_eq_self_iff_bits (m v : Nat) : m &&& v = m ↔ ∀ k, bitAt m k = true → bitAt v k = true := by
  constructor
  · intro h k hk
    rw [bitAt_eq_testBit] at hk ⊢
    rw [← h, Nat.testBit_and, Bool.and_eq_true] at hk
    exact hk.2
  · intro h
    refine Nat.eq_of_testBit_eq fun k => ?_
    have hk := h k
    rw [bitAt_eq_testBit, bitAt_eq_testBit] at hk
    cases hm : m.testBit k <;> simp_all

/-- What DEBUG_UNLOCK asks for: every capability that it names is one that a signer with the role may unlock. -/
def UnlockOk (b : List Byte) (s : State) : Prop :=
  reqBlen b = 1 ∧ (∃ n ∈ signerSlots s b, hasRole s n 3 = true) ∧
    ∀ k, bitAt (le (reqBody b) 0 1) k = true →
      ∃ n ∈ signerSlots s b, hasRole s n 3 = true ∧ bitAt (unlockable (lcsNow s) n) k = true

theorem bitAt_unlockableBy (s : State) (ss : List Nat) (k : Nat) : bitAt (unlockableBy s ss) k = true ↔
    ∃ n ∈ ss, hasRole s n 3 = true ∧ bitAt (unlockable (lcsNow s) n) k = true := by
  have hone : ∀ n, bitAt (if hasRole s n 3 then unlockable (lcsNow s) n else 0) k = true ↔
      hasRole s n 3 = true ∧ bitAt (unlockable (lcsNow s) n) k = true := by
    intro n
    cases hasRole s n 3 <;> simp [bitAt_eq_testBit]
  have hzero : bitAt 0 k = false := by simp [bitAt_eq_testBit]
  rw [unlockableBy, bitAt_foldl_or]
  simp only [hone, hzero, Bool.false_eq_true, false_or]

theorem debugUnlock_decided (eid : Nat) (b : List Byte) (s : State) :
    let v := signatureVerified s
    ∃ r, Decided 4 eid b s (debugUnlock eid b s) (UnlockOk b s)
      ((tlogAdd (v.set R.SEC_STATUS.DEBUG_OPEN (v.get R.SEC_STATUS.DEBUG_OPEN ||| le (reqBody b) 0 1)) 0x11
        (le (reqBody b) 0 1) 0).set R.SEC_EVENT.DEBUG_UNLOCK 1) r := by
  refine decideSigned_decided (((Decides.done.unless (by decide)).unless (by decide)).congr ?_)
  change _ ∧ ¬(_ ∨ le (reqBody b) 0 1 &&& unlockableBy s (signerSlots s b) ≠ le (reqBody b) 0 1) ∧ _ ↔ _
  simp only [not_or, ne_eq, not_not, and_eq_self_iff_bits, bitAt_unlockableBy]
  simp [UnlockOk]

/-! ### Life cycle (R459) -/

/-- What LC_REQUEST asks for (R459, R460). -/
def LcOk (b : List Byte) (s : State) : Prop :=
  let l := le (reqBody b) 0 1
  reqBlen b = 1 ∧ l ≠ 0 ∧ l = lcNext (lcsNow s) ∧ s.get R.CFG_STATUS.STATE ≠ 3 ∧ s.sec.burn = none ∧
    lcSigners s l (signerSlots s b) = true ∧ lcPrecond s l = true

theorem lcPrecond_verified (s : State) (l : Nat) : lcPrecond (signatureVerified s) l = lcPrecond s l := by
  rw [signatureVerified, State.count_regs]
  rfl

theorem lcRequest_decided (eid : Nat) (b : List Byte) (s : State) :
    let l := le (reqBody b) 0 1
    let u := tlogAdd ((signatureVerified s).set R.LCS_STATE.PENDING 1) 0x10 l 0
    ∃ r, Decided 3 eid b s (lcRequest eid b s) (LcOk b s) { u with sec := { u.sec with burn := some (l, u.now) } } r := by
  refine decideSigned_decided ((((((Decides.done.unless (by decide)).unless (by decide)).unless (by decide)).unless
    (by decide)).unless (by decide)).congr ?_)
  have hstate : (signatureVerified s).get R.CFG_STATUS.STATE = s.get R.CFG_STATUS.STATE :=
    State.get_count_off s 1 (by decide) (by decide) (by decide)
  have hburn : (signatureVerified s).sec.burn = s.sec.burn := rfl
  have hsigners : ∀ l ss, lcSigners (signatureVerified s) l ss = lcSigners s l ss := fun _ _ => rfl
  simp [LcOk, hstate, hburn, hsigners, lcPrecond_verified]
  tauto

/-! ### Partition keys (R455, R456) -/

/-- What KEY_DELIVER asks for (R456). -/
def DeliverOk (b : List Byte) (s : State) : Prop :=
  let body := reqBody b
  let kind := le body 2 1
  let pid := le body 0 2
  let keys := (s.part pid).keys
  (∃ n ∈ signerSlots s b, hasRole s n 1 = true) ∧ (kind = 1 ∨ kind = 2) ∧ le body 3 1 = 0 ∧
    body.length = 1572 + (if kind = 1 then 64 else 32) + 16 ∧ pid < 1024 ∧ (partDef s.toBody pid).isSome = true ∧
    s.sec.kem ≠ 0 ∧ (unwrapped s b).isSome = true ∧ (kind = 1 → keys.rest = none) ∧
    (kind = 2 → keys.sess = none ∨ keys.roll = none)

/-- The keys of a partition after an accepted KEY_DELIVER (R456). -/
def delivered (kind : Nat) (k : Option (List Byte)) (keys : PartKeys) : PartKeys :=
  if kind = 1 then { keys with rest := k }
  else if keys.sess = none then { keys with sess := k } else { keys with staged := k }

/-- The state after an accepted KEY_DELIVER. -/
def deliveredState (b : List Byte) (v : State) : State :=
  let pid := le (reqBody b) 0 2
  let keys := delivered (le (reqBody b) 2 1) (unwrapped v b) (v.part pid).keys
  v.upd fun u => (u.setPart pid { v.part pid with keys := keys }).count R.SEC_KEY_DELIVER.COUNT

theorem deliver_decides (b : List Byte) (s : State) :
    Decides (signatureVerified s) (DeliverOk b s) (deliveredState b (signatureVerified s))
      (deliver b (signerSlots s b) (signatureVerified s)) := by
  have hpart : ∀ pid, (signatureVerified s).part pid = s.part pid := fun pid => by
    rw [signatureVerified, State.count_regs]
    rfl
  have hdef : ∀ pid, partDef (signatureVerified s).toBody pid = partDef s.toBody pid := fun pid => by
    rw [signatureVerified, State.count_regs]
    rfl
  have hkem : (signatureVerified s).sec.kem = s.sec.kem := rfl
  have hkey : unwrapped (signatureVerified s) b = unwrapped s b := rfl
  cases hk : unwrapped s b with
  | none =>
    simp only [deliver, hkey, hk]
    refine ((((Decides.refused (by decide)).unless (by decide)).unless (by decide)).unless (by decide)).unless (by decide)
      |>.congr ?_
    simp [DeliverOk, hk]
  | some k =>
    have hdone : ∀ keys, delivered (le (reqBody b) 2 1) (some k) ((signatureVerified s).part (le (reqBody b) 0 2)).keys = keys →
      Decides (signatureVerified s) True (deliveredState b (signatureVerified s))
        (rsOK, (signatureVerified s).upd fun u => (u.setPart (le (reqBody b) 0 2)
          { (signatureVerified s).part (le (reqBody b) 0 2) with keys := keys }).count R.SEC_KEY_DELIVER.COUNT) := by
      rintro _ rfl
      simp only [deliveredState, hkey, hk]
      exact .done
    simp only [deliver, hkey, hk]
    refine ((((Decides.ite (fun h1 => Decides.unless (hdone _ (if_pos h1)) (by decide)) (fun h1 =>
      Decides.ite (fun hsess => hdone _ ?_) (fun hsess => Decides.unless (hdone _ ?_) (by decide)))).unless
      (by decide)).unless (by decide)).unless (by decide)).unless (by decide) |>.congr ?_
    · rw [delivered, if_neg h1, if_pos (by simpa using hsess)]
    · rw [delivered, if_neg h1, if_neg (by simpa using hsess)]
    · simp only [hpart, hdef, hkem]
      by_cases h1 : le (reqBody b) 2 1 = 1 <;> simp [DeliverOk, hk, h1, Option.isSome_iff_ne_none, or_iff_not_imp_left] <;> tauto

theorem keyDeliver_decided (eid : Nat) (b : List Byte) (s : State) :
    ∃ t r, keyDeliver eid b s = kemNew t ∧
      Decided 2 eid b s t (DeliverOk b s) (deliveredState b (signatureVerified s)) r := by
  obtain ⟨r, hr⟩ := decideSigned_decided (req := 2) (eid := eid) (pid := le (reqBody b) 0 2 % 1024) (deliver_decides b s)
  exact ⟨_, r, rfl, hr⟩

/-- KEY_DELIVER sends nothing, stores nothing, and changes the keys of its partition alone. -/
theorem deliveredState_silent (b : List Byte) (v : State) : Silent v (deliveredState b v) := by
  unfold Silent deliveredState State.upd
  simp only
  rw [Body.count_regs]
  exact ⟨rfl, rfl, rfl⟩

theorem deliveredState_parts (b : List Byte) (v : State) : (deliveredState b v).parts =
    (v.setPart (le (reqBody b) 0 2) { v.part (le (reqBody b) 0 2) with
      keys := delivered (le (reqBody b) 2 1) (unwrapped v b) (v.part (le (reqBody b) 0 2)).keys }).parts := by
  unfold deliveredState State.upd
  simp only
  rw [Body.count_regs]

end Sys2Proof.Machine
end

section
/-!
SUPPORT. The end of a burn, OWNER_DESTROY and tamper events (R460, R461, R464, R465): what they do to the keys of the partitions
and to the root.
-/

namespace Sys2Proof.Machine

/-! ### The keys of every partition -/

/-- The keys of the partitions in `l` become what `g` makes of them. -/
def keysMapped (g : PartKeys → PartKeys) (l : AMap PartSt) (s : Body) : Body :=
  l.foldl (fun s e => s.setPart e.1 { s.part e.1 with keys := g (s.part e.1).keys }) s

section
variable {g : PartKeys → PartKeys}

theorem keysMapped_parts (l : AMap PartSt) (s : Body) : keysMapped g l s = { s with parts := (keysMapped g l s).parts } := by
  induction l generalizing s with
  | nil => rfl
  | cons e l ih =>
    unfold keysMapped at ih ⊢
    rw [List.foldl_cons, ih]
    rfl

theorem keys_setPart (s : Body) (pid q : Nat) (p : PartSt) :
    ((s.setPart pid p).part q).keys = if q = pid then p.keys else (s.part q).keys := by
  split
  next h => rw [h, part_setPart_self]
  next h => rw [part_setPart_ne _ _ _ h]

theorem keysMapped_keys (hg : ∀ k, g (g k) = g k) (l : AMap PartSt) (s : Body) (p : Nat) :
    ((keysMapped g l s).part p).keys = if p ∈ l.map Prod.fst then g (s.part p).keys else (s.part p).keys := by
  induction l generalizing s with
  | nil => rfl
  | cons e l ih =>
    have hstep : keysMapped g (e :: l) s =
      keysMapped g l (s.setPart e.1 { s.part e.1 with keys := g (s.part e.1).keys }) := rfl
    rw [hstep, ih, keys_setPart]
    by_cases hp : p = e.1
    · subst hp
      simp [hg]
    · simp only [List.map_cons, List.mem_cons, hp, false_or, if_false]

theorem AMap.get_unlisted {α : Type} (d : α) (m : AMap α) {x : Nat} (h : x ∉ m.map Prod.fst) : AMap.get d m x = d := by
  induction m with
  | nil => rfl
  | cons e m ih =>
    simp only [List.map_cons, List.mem_cons, not_or] at h
    rw [AMap.get, if_neg (Ne.symm h.1), ih h.2]

/-- Over the partitions of the state itself, every partition's keys change. -/
theorem keysMapped_all (hg : ∀ k, g (g k) = g k) (hnone : g {} = {}) (s : Body) (p : Nat) :
    ((keysMapped g s.parts s).part p).keys = g (s.part p).keys := by
  rw [keysMapped_keys hg]
  split
  · rfl
  next h => rw [Body.part, AMap.get_unlisted _ _ h, hnone]

end

/-! ### OWNER_DESTROY, and the end of a burn (R460, R461) -/

/-- The body after OWNER_DESTROY. -/
def ownerErased (s : Body) : Body :=
  { keysMapped (fun _ => {}) s.parts s with cfg := { (keysMapped (fun _ => {}) s.parts s).cfg with profiles := [], floor := 0 } }

/-- OWNER_DESTROY erases the body's part, and revokes the slots above 0. -/
def ownerDestroyed (s : State) : State :=
  { s with toBody := ownerErased s.toBody, sec := { s.sec with destroy := false, slots := s.sec.slots.zipIdx.map slotDestroyed } }

theorem ownerDestroy_eq (s : State) : ownerDestroy s = tlogAdd (ownerDestroyed s) 0x16 0 0 := rfl

theorem ownerDestroy_unsent (s : State) : Unsent { s with toBody := ownerErased s.toBody } (ownerDestroy s) := by
  have herased : Unsent { s with toBody := ownerErased s.toBody } (ownerDestroyed s) := rfl
  rw [ownerDestroy_eq]
  exact herased.trans (tlogAdd_unsent ..)

theorem ownerErased_keys (s : Body) (p : Nat) : ((ownerErased s).part p).keys = {} :=
  keysMapped_all (g := fun _ => {}) (fun _ => rfl) rfl s p

theorem ownerErased_kept (s : Body) : (ownerErased s).near = s.near ∧ (ownerErased s).far = s.far ∧ (ownerErased s).acts = s.acts := by
  unfold ownerErased
  rw [keysMapped_parts]
  exact ⟨rfl, rfl, rfl⟩

theorem ownerDestroy_slot (s : State) {n : Nat} (hn : n ≠ 0) (hlen : n < s.sec.slots.length) :
    (slotAt (ownerDestroy s) n).revoked = true ∧ (slotAt (ownerDestroy s) n).record = [] := by
  have hslot : slotAt (ownerDestroy s) n = slotDestroyed (s.sec.slots[n], n) := by
    have hslots : (ownerDestroy s).sec.slots = s.sec.slots.zipIdx.map slotDestroyed := rfl
    simp [slotAt, hslots, List.getD_eq_getElem?_getD, hlen]
  rw [hslot, slotDestroyed, if_neg hn]
  exact ⟨rfl, rfl⟩

/-- The fuses read the code of the burn (R460). -/
def burned (s : State) (l : Nat) : State := { s with sec := { s.sec with lcs := l, burn := none } }

theorem lcBurnDone_none {s : State} (h : s.sec.burn = none) : lcBurnDone s = s := by
  simp only [lcBurnDone, h]

theorem lcBurnDone_return {s : State} {k : Nat} (h : s.sec.burn = some (0x0F, k)) :
    lcBurnDone s = (ownerDestroy (burned s 0x0F)).arm (.reset 4 5) := by
  simp only [lcBurnDone, h]
  rfl

theorem lcBurnDone_other {s : State} {l k : Nat} (h : s.sec.burn = some (l, k)) (hl : l ≠ 0x0F) :
    lcBurnDone s = (burned s l).arm (.reset 4 5) := by
  simp only [lcBurnDone, h, if_neg hl]
  rfl

/-! ### Tamper events (R464, R465) -/

/-- The body after ZEROISE: the key stores alone are gone. -/
def zeroised (s : Body) : Body := keysMapped (fun k => { gen := k.gen }) s.parts s

theorem zeroise_unsent (s : State) : Unsent { s with toBody := zeroised s.toBody } (zeroise s) := rfl

theorem zeroised_keys (s : Body) (p : Nat) : ((zeroised s).part p).keys = { gen := (s.part p).keys.gen } :=
  keysMapped_all (g := fun k => { gen := k.gen }) (fun _ => rfl) rfl s p

theorem zeroised_kept (s : Body) : (zeroised s).near = s.near ∧ (zeroised s).far = s.far := by
  unfold zeroised
  rw [keysMapped_parts]
  exact ⟨rfl, rfl⟩

section
variable {s : State} {kind : Nat}

theorem tamperEvent_unknown (powered : Bool) (h : kind = 0 ∨ 4 < kind) : tamperEvent kind powered s = s :=
  if_pos (by omega)

theorem tamperEvent_unpowered (h : 1 ≤ kind ∧ kind ≤ 3) : tamperEvent kind false s = tlogAdd s kind 0 0 false :=
  if_neg (by simp; omega)

theorem tamperEvent_temperature : tamperEvent 4 false s = s := if_pos (by simp)

/-- The events of a powered package are logged, the keys are erased, and that is logged too (R464, R465). -/
def tampered (s : State) (kind : Nat) : State :=
  ((zeroise (tlogAdd s kind 0 0)).set R.SEC_EVENT.TAMPER 1).set R.SEC_EVENT.ZEROISE 1

theorem tamperEvent_powered (h : 1 ≤ kind ∧ kind ≤ 4) : tamperEvent kind true s = tlogAdd (tampered s kind) 0x14 0 0 :=
  if_neg (by simp; omega)

end

section
variable (s : State) (kind : Nat)

/-- Beside registers, free values and the root, the keys alone differ from the state in which the event has been logged. -/
theorem tampered_unsent : Unsent { tlogAdd s kind 0 0 with toBody := zeroised (tlogAdd s kind 0 0).toBody }
    (tlogAdd (tampered s kind) 0x14 0 0) :=
  ((zeroise_unsent _).trans (((Unsent.refl _).set ..).set ..)).trans (tlogAdd_unsent ..)

theorem tampered_keys (p : Nat) :
    ((tlogAdd (tampered s kind) 0x14 0 0).part p).keys = { gen := (s.part p).keys.gen } := by
  have hparts := (tampered_unsent s kind).parts
  have hlogged := (tlogAdd_unsent s kind 0 0 true).parts
  calc ((tlogAdd (tampered s kind) 0x14 0 0).part p).keys = ((zeroised (tlogAdd s kind 0 0).toBody).part p).keys := by
        rw [Body.part, hparts, Body.part]
    _ = { gen := ((tlogAdd s kind 0 0).part p).keys.gen } := zeroised_keys ..
    _ = { gen := (s.part p).keys.gen } := by rw [Body.part, hlogged, Body.part]

theorem tampered_store : (tlogAdd (tampered s kind) 0x14 0 0).near = s.near ∧ (tlogAdd (tampered s kind) 0x14 0 0).far = s.far := by
  obtain ⟨-, hnear, hfar⟩ := (tampered_unsent s kind).silent
  obtain ⟨hnear', hfar'⟩ := zeroised_kept (tlogAdd s kind 0 0).toBody
  obtain ⟨-, hnear'', hfar''⟩ := (tlogAdd_unsent s kind 0 0 true).silent
  exact ⟨hnear.trans (hnear'.trans hnear''), hfar.trans (hfar'.trans hfar'')⟩

/-- ZEROISED is shown, no capability is left unlocked, and both events are. -/
theorem tampered_shows : (tampered s kind).get R.SEC_STATUS.ZEROISED = 1 ∧ (tampered s kind).get R.SEC_STATUS.DEBUG_OPEN = 0 ∧
    (tampered s kind).get R.SEC_EVENT.TAMPER = 1 ∧ (tampered s kind).get R.SEC_EVENT.ZEROISE = 1 := by
  have hother {g : Fld} (hlo : g.lo < 64) (hoff : R.SEC_EVENT.TAMPER.off ≠ g.off) :
      (tampered s kind).get g = (zeroise (tlogAdd s kind 0 0)).get g := by
    rw [tampered, State.get_set_off (f := R.SEC_EVENT.ZEROISE) _ _ (by decide) hlo hoff,
      State.get_set_off (f := R.SEC_EVENT.TAMPER) _ _ (by decide) hlo hoff]
  refine ⟨(hother (by decide) (by decide)).trans (Body.get_set_self ..), (hother (by decide) (by decide)).trans ?_, ?_,
    Body.get_set_self ..⟩
  · exact (Body.get_set_ne _ _ (by decide)).trans (Body.get_set_self ..)
  · exact (Body.get_set_ne _ _ (by decide)).trans (Body.get_set_self ..)

theorem tampered_log : (tlogAdd (tampered s kind) 0x14 0 0).sec.tlog.length = min 256 (s.sec.tlog.length + 2) := by
  have hlog : (tampered s kind).sec.tlog = (tlogAdd s kind 0 0).sec.tlog := rfl
  rw [tlogAdd_length, hlog, tlogAdd_length]
  omega

end

/-! ### The obligation -/

section
variable (s : State) (eid : Nat) (b : List Byte)

theorem secNow_deliver : secNow s (.signed 2 eid b) = keyDeliver eid b s := rfl

/-- Every signed request's row arms it, and its decision at the boundary answers it (R449). -/
theorem signedRow_arms {i : Instr} {req : Nat} (h : signedRow i = some (req, eid, b)) (hon : s.pwr.off = false) :
    exec i s = .next (s.arm (.signed req eid b)) := by
  cases i <;> cases h <;> exact congrArg Host.Outcome.next (live_on _ hon)

theorem signedRow_answers {i : Instr} {req : Nat} (h : signedRow i = some (req, eid, b)) :
    ∃ r, AnswersSigned req eid b s (secNow s (.signed req eid b)) r := by
  have hverified : Unsent s (signatureVerified s) := (Unsent.refl s).count ..
  cases i <;> cases h
  case keyDeliver =>
    obtain ⟨t, r, heq, hr⟩ := keyDeliver_decided eid b s
    have hsilent : Silent s (deliveredState b (signatureVerified s)) := by
      obtain ⟨hout, hnear, hfar⟩ := deliveredState_silent b (signatureVerified s)
      obtain ⟨hout', hnear', hfar'⟩ := hverified.silent
      exact ⟨hout.trans hout', hnear.trans hnear', hfar.trans hfar'⟩
    have hans := (hr.answers (by decide) hsilent).kemNew
    refine ⟨r, ?_⟩
    rwa [secNow_deliver, heq]
  case lcRequest =>
    obtain ⟨r, hr⟩ := lcRequest_decided eid b s
    exact ⟨r, hr.answers (by decide) (((hverified.set ..).trans (tlogAdd_unsent ..)).setSec _).silent⟩
  case debugUnlock =>
    obtain ⟨r, hr⟩ := debugUnlock_decided eid b s
    exact ⟨r, hr.answers (by decide) (((hverified.set ..).trans (tlogAdd_unsent ..)).set ..).silent⟩
  case keyInstall =>
    obtain ⟨r, hr⟩ := keyInstall_decided eid b s
    exact ⟨r, hr.answers (by decide) ((hverified.setSec _).trans (tlogAdd_unsent ..)).silent⟩
  case keyRevoke =>
    obtain ⟨r, hr⟩ := keyRevoke_decided eid b s
    exact ⟨r, hr.answers (by decide) ((hverified.setSec _).trans (tlogAdd_unsent ..)).silent⟩

end

/-- LC_BURN_DONE (R460, R461). -/
theorem lcBurnDone_done {s : State} {l k : Nat} (h : s.sec.burn = some (l, k)) :
    (lcBurnDone s).sec.lcs = l ∧ (lcBurnDone s).sec.burn = none ∧ (lcBurnDone s).acts = s.acts ++ [.reset 4 5] ∧
      (lcBurnDone s).near = s.near ∧ (lcBurnDone s).far = s.far := by
  by_cases hl : l = 0x0F
  · subst hl
    rw [lcBurnDone_return h]
    have hdestroyed := ownerDestroy_unsent (burned s 0x0F)
    obtain ⟨-, hnear, hfar⟩ := hdestroyed.silent
    obtain ⟨hnear', hfar', hacts'⟩ := ownerErased_kept (burned s 0x0F).toBody
    have hacts : (ownerDestroy (burned s 0x0F)).acts = s.acts := by
      rw [hdestroyed]
      exact hacts'
    exact ⟨rfl, rfl, congrArg (· ++ [Act.reset 4 5]) hacts, hnear.trans hnear', hfar.trans hfar'⟩
  · rw [lcBurnDone_other h hl]
    exact ⟨rfl, rfl, rfl, rfl, rfl⟩

/-- For RETURN what the owner holds is erased, and the slots above 0 are revoked (R461). -/
theorem lcBurnDone_erases {s : State} {k : Nat} (h : s.sec.burn = some (0x0F, k)) :
    (lcBurnDone s).cfg.profiles = [] ∧ (lcBurnDone s).cfg.floor = 0 ∧ (∀ p, ((lcBurnDone s).part p).keys = {}) ∧
      ∀ n, n ≠ 0 → n < s.sec.slots.length → (slotAt (lcBurnDone s) n).revoked = true ∧ (slotAt (lcBurnDone s) n).record = [] := by
  rw [lcBurnDone_return h]
  have hdestroyed := ownerDestroy_unsent (burned s 0x0F)
  have hcfg : (ownerDestroy (burned s 0x0F)).cfg = (ownerErased (burned s 0x0F).toBody).cfg := by rw [hdestroyed]
  refine ⟨congrArg CfgSt.profiles hcfg, congrArg CfgSt.floor hcfg, fun p => ?_, fun n hn hlen => ?_⟩
  · have hpart : (ownerDestroy (burned s 0x0F)).part p = (ownerErased (burned s 0x0F).toBody).part p := by
      rw [Body.part, hdestroyed.parts, Body.part]
    exact (congrArg PartSt.keys hpart).trans (ownerErased_keys ..)
  · exact ownerDestroy_slot (burned s 0x0F) hn hlen

section
variable {req eid r : Nat} {b : List Byte} {s t w : State} {ok : Prop}

/-- The answer of a decided request, accepted or refused. -/
theorem Decided.out (h : Decided req eid b s t ok w r) (hw : w.out = s.out) : t.out = vendorOut eid r [] :: s.out := by
  by_cases hr : r = rsOK
  · rw [h.done hr, hr, (replied_answered ..).1, hw]
  · obtain ⟨slot, pid, ht⟩ := h.refused hr
    have hu : Unsent s (secRefuse (signedCounted req b s) true req r slot pid) :=
      (signedCounted_unsent ..).trans (secRefuse_unsent ..)
    rw [ht, (replied_answered ..).1, hu.silent.1]

end

section
variable {req eid r : Nat} {b : List Byte} {s t w : State} {ok : Prop}

/-- Deciding a request makes no key pair. -/
theorem Decided.kemMade (h : Decided req eid b s t ok w r) (hw : w.sec.kemMade = s.sec.kemMade) :
    t.sec.kemMade = s.sec.kemMade := by
  by_cases hr : r = rsOK
  · rw [h.done hr, replied_sec, hw]
  · obtain ⟨slot, pid, ht⟩ := h.refused hr
    obtain ⟨-, -, -, hmade⟩ := signedCounted_sec s req b
    rw [ht, replied_sec, secRefuse_sec, hmade]

end

section
variable (s : State) (eid : Nat) (b : List Byte)

theorem verified_unsent : Unsent s (signatureVerified s) := (Unsent.refl s).count ..

theorem keyRevoke_answers :
    let n := le (reqBody b) 0 1
    ∃ t r, secNow s (.signed 6 eid b) = t ∧ t.out = vendorOut eid r [] :: s.out ∧
      (r = rsOK ↔ signedCheck s 6 b = rsOK ∧ RevokeOk b s) ∧
      (r = rsOK → slotAt t n = { slotAt s n with revoked := true } ∧ ∀ m, m ≠ n → slotAt t m = slotAt s m) := by
  obtain ⟨r, hr⟩ := keyRevoke_decided eid b s
  refine ⟨_, r, rfl, hr.out (((verified_unsent s).setSec _).trans (tlogAdd_unsent ..)).silent.1, hr.ok_iff, fun hok => ?_⟩
  obtain ⟨-, -, -, -, -, hvalid, -⟩ := hr.ok_iff.mp hok
  have hdone := hr.done hok
  have hslot : ∀ m, slotAt (keyRevoke eid b s) m = slotAt (setSlot (signatureVerified s) (le (reqBody b) 0 1)
      { slotAt s (le (reqBody b) 0 1) with revoked := true }) m := fun m => by
    rw [hdone]
    rfl
  exact ⟨(hslot _).trans (slotAt_setSlot_self (slot_of_valid hvalid)), fun m hm => (hslot m).trans (slotAt_setSlot_ne hm)⟩

theorem keyInstall_answers :
    let n := le (reqBody b) 0 1
    ∃ t r, secNow s (.signed 5 eid b) = t ∧ t.out = vendorOut eid r [] :: s.out ∧
      (r = rsOK ↔ signedCheck s 5 b = rsOK ∧ InstallOk b s) ∧
      (r = rsOK → s.sec.slots.length = 8 → (∀ m, m ≠ n → slotAt t m = slotAt s m) ∧ slotAt t n = installed b (slotAt s n)) := by
  obtain ⟨r, hr⟩ := keyInstall_decided eid b s
  refine ⟨_, r, rfl, hr.out (((verified_unsent s).setSec _).trans (tlogAdd_unsent ..)).silent.1, hr.ok_iff, fun hok hlen => ?_⟩
  obtain ⟨-, -, -, hn, -⟩ := hr.ok_iff.mp hok
  have hdone := hr.done hok
  have hslot : ∀ m, slotAt (keyInstall eid b s) m = slotAt (setSlot (signatureVerified s) (le (reqBody b) 0 1)
      (installed b (slotAt s (le (reqBody b) 0 1)))) m := fun m => by
    rw [hdone]
    rfl
  exact ⟨fun m hm => (hslot m).trans (slotAt_setSlot_ne hm), (hslot _).trans (slotAt_setSlot_self (hlen.symm ▸ hn))⟩

theorem debugUnlock_answers :
    ∃ t r, secNow s (.signed 4 eid b) = t ∧ t.out = vendorOut eid r [] :: s.out ∧
      (r = rsOK ↔ signedCheck s 4 b = rsOK ∧ UnlockOk b s) ∧
      (r = rsOK → t.get R.SEC_STATUS.DEBUG_OPEN = (s.get R.SEC_STATUS.DEBUG_OPEN ||| le (reqBody b) 0 1) % 2 ^ R.SEC_STATUS.DEBUG_OPEN.w ∧
        t.get R.SEC_EVENT.DEBUG_UNLOCK = 1) := by
  obtain ⟨r, hr⟩ := debugUnlock_decided eid b s
  refine ⟨_, r, rfl, hr.out ((((verified_unsent s).set ..).trans (tlogAdd_unsent ..)).set ..).silent.1, hr.ok_iff, fun hok => ?_⟩
  have hopen : (signatureVerified s).get R.SEC_STATUS.DEBUG_OPEN = s.get R.SEC_STATUS.DEBUG_OPEN :=
    State.get_count_off s 1 (by decide) (by decide) (by decide)
  have hdone : debugUnlock eid b s = _ := hr.done hok
  rw [hopen] at hdone
  refine ⟨?_, ?_⟩
  · refine (congrArg (fun t : State => t.get R.SEC_STATUS.DEBUG_OPEN) hdone).trans ?_
    rw [replied_get _ _ _ (by decide) (by decide), State.get_set_off _ _ (by decide) (by decide) (by decide), tlogAdd_get]
    exact Body.get_set_self ..
  · refine (congrArg (fun t : State => t.get R.SEC_EVENT.DEBUG_UNLOCK) hdone).trans ?_
    rw [replied_get _ _ _ (by decide) (by decide)]
    exact Body.get_set_self ..

theorem lcRequest_answers :
    let l := le (reqBody b) 0 1
    ∃ t r, secNow s (.signed 3 eid b) = t ∧ t.out = vendorOut eid r [] :: s.out ∧ t.sec.lcs = s.sec.lcs ∧
      (r = rsOK ↔ signedCheck s 3 b = rsOK ∧ LcOk b s) ∧
      (r = rsOK → t.sec.burn = some (l, s.now) ∧ t.get R.LCS_STATE.PENDING = 1) := by
  obtain ⟨r, hr⟩ := lcRequest_decided eid b s
  have hsafe : Safe s (lcRequest eid b s) := (Safe.refl s).lcRequest eid b
  refine ⟨_, r, rfl, hr.out ((((verified_unsent s).set ..).trans (tlogAdd_unsent ..)).setSec _).silent.1, hsafe.sec.lcs, hr.ok_iff,
    fun hok => ?_⟩
  have hdone : lcRequest eid b s = _ := hr.done hok
  have hnow : (tlogAdd ((signatureVerified s).set R.LCS_STATE.PENDING 1) 0x10 (le (reqBody b) 0 1) 0).now = s.now := by
    rw [Body.now, tlogAdd_get, State.get_set_off _ _ (by decide) (by decide) (by decide), signatureVerified,
      State.get_count_off _ _ (by decide) (by decide) (by decide), Body.now]
  rw [hnow] at hdone
  refine ⟨congrArg (fun t : State => t.sec.burn) hdone, ?_⟩
  refine (congrArg (fun t : State => t.get R.LCS_STATE.PENDING) hdone).trans ?_
  rw [replied_get _ _ _ (by decide) (by decide)]
  exact (tlogAdd_get ((signatureVerified s).set R.LCS_STATE.PENDING 1) 0x10 (le (reqBody b) 0 1) 0 true ..).trans
    (Body.get_set_self ..)

theorem keyDeliver_answers :
    let pid := le (reqBody b) 0 2
    ∃ t r, secNow s (.signed 2 eid b) = t ∧ t.out = vendorOut eid r [] :: s.out ∧ t.sec.kem = s.sec.kemMade + 1 ∧
      t.sec.kemMade = s.sec.kemMade + 1 ∧
      (r = rsOK ↔ signedCheck s 2 b = rsOK ∧ DeliverOk b s) ∧
      (r = rsOK → (∀ p, p ≠ pid → t.part p = s.part p) ∧
        t.part pid = { s.part pid with keys := delivered (le (reqBody b) 2 1) (unwrapped s b) (s.part pid).keys }) := by
  obtain ⟨u, r, heq, hr⟩ := keyDeliver_decided eid b s
  have hmade : u.sec.kemMade = s.sec.kemMade := hr.kemMade rfl
  have hout : u.out = vendorOut eid r [] :: s.out :=
    hr.out ((deliveredState_silent b _).1.trans (verified_unsent s).silent.1)
  refine ⟨kemNew u, r, (secNow_deliver ..).trans heq, hout, congrArg (· + 1) hmade, congrArg (· + 1) hmade, hr.ok_iff, fun hok => ?_⟩
  have hpart : ∀ p, (signatureVerified s).part p = s.part p := fun p => by
    rw [Body.part, (verified_unsent s).parts, Body.part]
  have hparts : u.parts = (deliveredState b (signatureVerified s)).parts := by
    rw [hr.done hok, replied_parts]
  have hdone : ∀ p, (kemNew u).part p = ((signatureVerified s).setPart (le (reqBody b) 0 2)
      { s.part (le (reqBody b) 0 2) with
        keys := delivered (le (reqBody b) 2 1) (unwrapped s b) (s.part (le (reqBody b) 0 2)).keys }).part p := fun p => by
    have hkem : (kemNew u).part p = u.part p := rfl
    rw [hkem, Body.part, hparts, deliveredState_parts, hpart]
    rfl
  exact ⟨fun p hp => ((hdone p).trans (part_setPart_ne _ _ _ hp)).trans (hpart p), (hdone _).trans (part_setPart_self ..)⟩

end

/-- Settles O57. -/
theorem signedRequests : Obligations.SignedRequests := by
  refine ⟨fun i req eid b s hrow hon => ⟨signedRow_arms s eid b hrow hon, ?_⟩, fun s eid b hon => ?_, fun s hon => ?_, fun s kind => ?_⟩
  · obtain ⟨r, hr⟩ := signedRow_answers s eid b hrow
    exact ⟨_, r, rfl, hr⟩
  · exact ⟨keyRevoke_answers s eid b, keyInstall_answers s eid b, debugUnlock_answers s eid b, lcRequest_answers s eid b,
      keyDeliver_answers s eid b⟩
  · have run : exec .lcBurnDone s = .next (lcBurnDone s) := congrArg _ (live_on _ hon)
    refine ⟨fun h => run.trans (congrArg _ (lcBurnDone_none h)), fun l k h => ?_⟩
    obtain ⟨hlcs, hburn, hacts, hnear, hfar⟩ := lcBurnDone_done h
    refine ⟨_, run, hlcs, hburn, hacts, hnear, hfar, fun hl => lcBurnDone_erases (hl ▸ h), fun hl => ?_⟩
    rw [lcBurnDone_other h hl]
    exact ⟨rfl, rfl, rfl⟩
  · have run (p : Bool) : exec (.tamperEvent kind p) s = .next (tamperEvent kind p s) := rfl
    refine ⟨fun h p => (run p).trans (congrArg _ (tamperEvent_unknown p h)), fun h1 h4 => ?_, fun h1 h3 => ?_,
      congrArg Host.Outcome.next tamperEvent_temperature⟩
    · obtain ⟨hzero, hopen, htamper, hzeroise⟩ := tampered_shows s kind
      obtain ⟨hnear, hfar⟩ := tampered_store s kind
      refine ⟨_, (run true).trans (congrArg _ (tamperEvent_powered ⟨h1, h4⟩)), rfl, ?_, ?_, ?_, ?_, tampered_log s kind,
        tampered_keys s kind, hnear, hfar, rfl⟩
      · rw [tlogAdd_get, hzero]
      · rw [tlogAdd_get, hopen]
      · rw [tlogAdd_get, htamper]
      · rw [tlogAdd_get, hzeroise]
    · exact ⟨_, (run false).trans (congrArg _ (tamperEvent_unpowered ⟨h1, h3⟩)), rfl, rfl, rfl, tlogAdd_length ..⟩

end Sys2Proof.Machine
end

section
/-!
SUPPORT. Verdicts and teardown (R397 to R402, R404): what answering, voting and refusing leave of the fences, and what the orders on a
client and on a partition do.
-/

namespace Sys2Proof.Machine

/-! ### What leaves the fences alone -/

section
variable (s : Body)

theorem refuse_fences (r : Req) (status sub : Nat) : (refuse s r status sub).fences = s.fences := by
  obtain ⟨o, m, -, _, _, _, hframe⟩ := refuse_answers s r status sub
  rw [hframe]

theorem foldl_fences {α : Type} {f : Body → α → Body} (hf : ∀ s a, (f s a).fences = s.fences) (l : List α) :
    (l.foldl f s).fences = s.fences :=
  List.foldlRecOn (motive := fun t : Body => t.fences = s.fences) l _ (b := s) rfl fun t ht a _ => (hf t a).trans ht

theorem refuseWaiting_fences (ok : Req → Bool) (status : Nat) : (refuseWaiting s ok status).fences = s.fences := by
  refine foldl_fences s (fun t r => ?_) _
  split
  · exact refuse_fences ..
  · rfl

theorem peerSend_fences (hid op addr arg pid : Nat) (payload : List Byte) (purpose : PeerFor) (want : Nat) :
    (peerSend s hid op addr arg pid payload purpose want).fences = s.fences := by
  unfold peerSend
  rw [peerLaunch_only]

theorem txnVoteIn_fences (ocid sid index st sub : Nat) : (txnVoteIn s ocid sid index st sub).fences = s.fences := by
  unfold txnVoteIn
  split
  · rfl
  split
  · rfl
  split <;> rfl

theorem txnVote_fences (ocid sid pid index : Nat) (parts : List Nat) (st sub : Nat) :
    (txnVote s ocid sid pid index parts st sub).fences = s.fences := by
  unfold txnVote
  split
  · exact txnVoteIn_fences ..
  · exact peerSend_fences ..

theorem txnReply_fences (r : Option ReplyTo) (st sub : Nat) (pay : List Byte) : (txnReply s r st sub pay).fences = s.fences := by
  unfold txnReply
  split
  · rfl
  · obtain ⟨_, _, _, hframe⟩ := answer_answers s _ _ _ _ st sub (if pay.isEmpty then 0 else 1) 0 pay
    rw [hframe]

theorem txnAnswerPrepare_fences (t : Seizing) (st sub : Nat) : (txnAnswerPrepare s t st sub).fences = s.fences := by
  unfold txnAnswerPrepare
  dsimp only
  split
  · exact txnReply_fences ..
  · exact txnReply_fences ..

theorem count_fences (f : Fld) (n i j : Nat) : (s.count f n i j).fences = s.fences := by
  rw [Body.count_regs]

theorem txnLog_fences (t : Seizing) (st sub : Nat) : (txnLog s t st sub).fences = s.fences := by
  unfold txnLog
  dsimp only
  split
  · simp [count_fences]
  split <;> simp [count_fences]

theorem txnFail_fences (t : Seizing) (st sub : Nat) : (txnFail s t st sub).fences = s.fences := by
  unfold txnFail
  dsimp only
  split
  · exact (txnVote_fences ..).trans (txnAnswerPrepare_fences s t st sub)
  · exact ((txnLog_fences ..).trans (txnVote_fences ..)).trans (txnAnswerPrepare_fences s t st sub)

end

/-! ### Verdicts on clients (R397, R398, R404) -/

section
variable {b : Body} {c : Nat}

theorem cidFenced_congr {s t : Body} (h : t.fences = s.fences) (c : Nat) : cidFenced t c = cidFenced s c := by
  rw [cidFenced, h, cidFenced]

/-- The prepares that a verdict answers (R398). -/
def prepareFenced (c : Nat) (s : Body) (t : Seizing) : Body :=
  if t.ocid = c ∧ t.preparing ∧ !t.writing ∧ t.outcome.isNone then txnFail s t stFENCED 0 else s

theorem prepareFenced_fences (c : Nat) (s : Body) (t : Seizing) : (prepareFenced c s t).fences = s.fences := by
  unfold prepareFenced
  split
  · exact txnFail_fences ..
  · rfl

/-- The body once the waiting requests and prepares of a fenced CID have been answered (R398). -/
def clientAnswered (s : Body) (c : Nat) : Body :=
  let s := { s with fences := s.fences ++ [{ isHid := false, id := c, knot := s.now }] }
  let s := refuseWaiting s (fun r => r.m.cid == c) stFENCED
  snoopDead (s.txn.recs.foldl (prepareFenced c) s) c

theorem fenceCid_eq (s : Body) (c : Nat) : fenceCid s c =
    sweepStart { clientAnswered s c with
      prt := { (clientAnswered s c).prt with
        hitches := (clientAnswered s c).prt.hitches.filter (fun h => h.cid != c)
        grants := (clientAnswered s c).prt.grants.filter (fun g => g.cid != c) }
      dir := { (clientAnswered s c).dir with nextCids := (clientAnswered s c).dir.nextCids ++ [c] } } := rfl

theorem clientAnswered_fences (s : Body) (c : Nat) :
    (clientAnswered s c).fences = s.fences ++ [{ isHid := false, id := c, knot := s.now }] :=
  (foldl_fences _ (prepareFenced_fences c) _).trans (refuseWaiting_fences ..)

theorem fenceCid_fenced (s : Body) (c : Nat) : cidFenced (fenceCid s c) c = true := by
  rw [fenceCid_eq, cidFenced_congr (s := clientAnswered s c) (by rw [sweepStart_frame]), cidFenced, clientAnswered_fences]
  simp

theorem find?_filter_ne {α : Type} {l : List α} {p q : α → Bool} (h : ∀ a, p a = true → q a = false) : (l.filter q).find? p = none := by
  refine List.find?_eq_none.mpr fun a ha hp => ?_
  have hq := List.of_mem_filter ha
  simp [h a hp] at hq

theorem fenceCid_hitchOf (s : Body) (c p : Nat) : hitchOf (fenceCid s c) c p = none := by
  rw [fenceCid_eq, sweepStart_frame, hitchOf]
  exact find?_filter_ne fun h hh => by simp_all

theorem fenceCid_grantOf (s : Body) (c p x : Nat) : grantOf (fenceCid s c) c p x = none := by
  rw [fenceCid_eq, sweepStart_frame, grantOf]
  exact find?_filter_ne fun g hg => by simp_all

theorem deadClient_fences (h : cidFenced b c = false) : deadClient b c = fltOk (fenceCid (b.count R.FLT_VERDICTS.COUNT) c) :=
  if_neg (by simp [h])

theorem deadClient_already (h : cidFenced b c = true) : deadClient b c = fltErr b 5 := if_pos h

theorem releaseClient_unfenced (h : cidFenced b c = false) : releaseClient b c = fltErr b 3 := if_pos (by simp [h])

theorem releaseClient_swept {f : Fence} (h : b.fences = [f]) (hid : f.isHid = false) (hc : f.id = c) (hs : f.swept = true) :
    (releaseClient b c).fences = [] := by
  simp [releaseClient, cidFenced, h, hid, hc, hs, fltOk]

theorem releaseClient_unswept {f : Fence} (h : b.fences = [f]) (hid : f.isHid = false) (hc : f.id = c) (hs : f.swept = false) :
    releaseClient b c = fltErr b 4 := by
  simp [releaseClient, cidFenced, h, hid, hc, hs]

end

/-! ### The teardown of a partition (R401, R402) -/

section
variable {s : Body} {pid : Nat}

theorem tearDrainEnd_drained (hphase : (s.part pid).tearPhase = 1) (hdir : s.get R.MGT_READY.DIR = 1)
    (h : stillServed s (s.part pid).fltKnot (fun r => r.m.pid == pid) = false) :
    tearDrainEnd pid s = { s.setPart pid { s.part pid with tearPhase := 2 } with
      dir := { s.dir with tearSweeps := AMap.put 0 s.dir.tearSweeps pid 1 } } :=
  if_neg (by simp [hphase, Body.on, hdir, h])

theorem tearDrainEnd_waits (h : stillServed s (s.part pid).fltKnot (fun r => r.m.pid == pid) = true) : tearDrainEnd pid s = s :=
  if_pos (.inr (.inr h))

theorem tearSweepEnd_early (h : AMap.get 0 s.dir.tearSweeps pid ≤ 2 ^ 22) : tearSweepEnd pid s = s := if_pos (.inr h)

/-- The lines that a teardown's sweep has yet to take (R401). -/
def tearLeft (s : Body) (pid : Nat) : List (Nat × Option DirEntry) :=
  s.dir.entries.filter (fun e => match e.2 with | some d => d.pid == pid && d.st != .l | none => false)

theorem tearLeft_nil (h : ∀ e ∈ s.dir.entries, ∀ d, e.2 = some d → d.pid ≠ pid ∨ d.st = .l) : tearLeft s pid = [] := by
  refine List.filter_eq_nil_iff.mpr fun e he => ?_
  cases hd : e.2 with
  | none => simp
  | some d =>
    rcases h e he d hd with h | h <;> simp [h]

theorem tearSweepEnd_torn (hflt : (s.part pid).flt = 1) (hn : 2 ^ 22 < AMap.get 0 s.dir.tearSweeps pid)
    (hleft : ∀ e ∈ s.dir.entries, ∀ d, e.2 = some d → d.pid ≠ pid ∨ d.st = .l) :
    tearSweepEnd pid s = (({ s with dir := { s.dir with tearSweeps := AMap.put 0 s.dir.tearSweeps pid 0 } } : Body).setPart pid
      { s.part pid with flt := 2, tearPhase := 0 }).set R.FLT_EVENT.TORN 1 := by
  have hnone : ¬(!((tearLeft s pid).map (·.1)).isEmpty) = true := by simp [tearLeft_nil hleft]
  exact (if_neg (by simp [hflt]; omega)).trans (if_neg hnone)

theorem mend_torn (hdef : (partDef s pid).isSome = true) (hflt : (s.part pid).flt = 2) (hpart : partialTouches s pid = false)
    (hlost : (s.part pid).cur.exts.any (fun e => s.sto.lost.contains e.region) = false) :
    mend s pid = fltOk (s.setPart pid { s.part pid with flt := 0 }) := by
  unfold mend
  rw [if_neg (by simpa [Option.isSome_iff_ne_none] using hdef), if_neg (by simp [hflt]), if_neg (by simp [hflt]),
    if_neg (by simp [hpart]), if_neg (by simpa using hlost)]

end

/-! ### The obligation -/

/-- Settles O53. -/
theorem verdictsAndTeardown : Obligations.VerdictsAndTeardown := by
  refine ⟨fun b c hc => ⟨fun h => ?fences, deadClient_already, releaseClient_unfenced, fun f hf hid hid' => ?release⟩,
    fun s pid hon => ⟨fun ho v => ?isolated, fun hphase hdir => ?drain, fun hflt => ?sweep, fun hdef hflt hpart hlost => ?mend⟩⟩
  case fences =>
    change cidFenced (deadClient b c) c = true ∧ (∀ p, hitchOf (deadClient b c) c p = none) ∧
      ∀ p x, grantOf (deadClient b c) c p x = none
    rw [deadClient_fences h]
    exact ⟨fenceCid_fenced .., fenceCid_hitchOf _ c, fenceCid_grantOf _ c⟩
  case release =>
    exact ⟨releaseClient_swept hf hid hid', releaseClient_unswept hf hid hid'⟩
  case isolated =>
    exact congrArg Host.Outcome.next (onReg_on _ hon ho)
  case drain =>
    have run : exec (.tearDrainEnd pid) s = .next (s.upd (tearDrainEnd pid)) := congrArg _ (live_on _ hon)
    refine ⟨fun h => ?_, fun h => run.trans (congrArg _ (upd_unchanged (tearDrainEnd_waits h)))⟩
    refine ⟨_, run.trans (congrArg _ (upd_congr (g := fun _ => _) (tearDrainEnd_drained hphase hdir h))), ?_⟩
    have hpart := part_setPart_self s.toBody pid { s.part pid with tearPhase := 2 }
    exact ⟨congrArg PartSt.tearPhase hpart, AMap.get_put_self 0 1 pid s.dir.tearSweeps, (congrArg PartSt.flt hpart).trans rfl, rfl⟩
  case sweep =>
    have run : exec (.tearSweepEnd pid) s = .next (s.upd (tearSweepEnd pid)) := congrArg _ (live_on _ hon)
    refine ⟨fun h => run.trans (congrArg _ (upd_unchanged (tearSweepEnd_early h))), fun h hleft => ?_⟩
    refine ⟨_, run.trans (congrArg _ (upd_congr (g := fun _ => _) (tearSweepEnd_torn hflt h hleft))), ?_⟩
    have hpart := part_setPart_self s.toBody pid { s.part pid with flt := 2, tearPhase := 0 }
    exact ⟨congrArg PartSt.flt hpart, congrArg PartSt.tearPhase hpart, Body.get_set_self ..,
      fun q hq => part_setPart_ne s.toBody _ _ hq, rfl, rfl⟩
  case mend =>
    change ((mend s.toBody pid).part pid).flt = 0
    rw [mend_torn hdef hflt hpart hlost]
    exact congrArg PartSt.flt (part_setPart_self s.toBody pid { s.part pid with flt := 0 })

end Sys2Proof.Machine
end

section
/-!
SUPPORT. What recording leaves alone (R470 to R472, R487): observation's own registers and staging, the gaps that are told, and
free values are all that a record touches.
-/

namespace Sys2Proof.Machine

/-- Observation alone differs: its registers, its staging, the gaps still to be told, and the free values drawn. -/
def Traced (s t : Body) : Prop :=
  t = { s with regs := t.regs, obs := t.obs, knot := t.knot, drawn := t.drawn } ∧
    ∀ (g : Fld) (i : Nat), g.lo < 64 → g.off + g.stride * i < 0x1E0000 → t.get g i = s.get g i

section
variable {s t u : Body}

theorem Traced.refl (s : Body) : Traced s s := ⟨rfl, fun _ _ _ _ => rfl⟩

theorem Traced.trans (h : Traced s t) (h' : Traced t u) : Traced s u := by
  obtain ⟨heq, hget⟩ := h
  obtain ⟨heq', hget'⟩ := h'
  refine ⟨?_, fun g i hlo hoff => (hget' g i hlo hoff).trans (hget g i hlo hoff)⟩
  rw [heq', heq]

theorem Traced.ite {p : Prop} [Decidable p] (ht : Traced s t) (hu : Traced s u) : Traced s (if p then t else u) := by
  split
  · exact ht
  · exact hu

theorem Traced.obs (h : Traced s t) (o : ObsSt) : Traced s { t with obs := o } := h.trans ⟨rfl, fun _ _ _ _ => rfl⟩

/-- A register of observation's own block is none of the others. -/
theorem obs_key_ne {f g : Fld} {i : Nat} (hf : f.lo < 64) (hg : g.lo < 64) (hobs : 0x1E0000 ≤ f.off)
    (hoff : g.off + g.stride * i < 0x1E0000) :
    f.key 0 0 ≠ g.key i 0 :=
  Fld.key_ne_off hf hg (by simp; omega)

theorem Traced.set (h : Traced s t) {f : Fld} (v : Nat) (hf : f.lo < 64) (hobs : 0x1E0000 ≤ f.off) : Traced s (t.set f v) :=
  h.trans ⟨rfl, fun _ _ hg hoff => Body.get_set_ne _ _ (obs_key_ne hf hg hobs hoff)⟩

theorem Traced.count (h : Traced s t) {f : Fld} (n : Nat) (hf : f.lo < 64) (hobs : 0x1E0000 ≤ f.off) : Traced s (t.count f n) := by
  refine h.trans ⟨?_, fun _ _ hg hoff => Body.get_count_ne _ _ (obs_key_ne hf hg hobs hoff)
    (obs_key_ne (show 63 < 64 by decide) hg hobs hoff)⟩
  rw [Body.count_regs]

end

/-- Making a timestamp draws free values alone, and one for a boundary's record draws none (R43). -/
theorem stamp_drawn (s : Body) (region : Nat) : (stamp s region).2 = { s with drawn := (stamp s region).2.drawn } := by
  unfold stamp
  dsimp only
  split <;> exact stampBlk_drawn ..

theorem timeOf_boundary (s : Body) (region : Nat) : (timeOf s region true).2 = s := by
  have h : (timeOf s region true).2 = { (stamp s region).2 with drawn := s.drawn } := rfl
  rw [h, stamp_drawn]

section
variable {s t : Body} (h : Traced s t)
include h

theorem Traced.gapWritten (time : List Byte) : Traced s (gapWritten t time) :=
  .ite (h.trans ⟨rfl, fun _ _ _ _ => rfl⟩) h

theorem Traced.obsDrop (r : ObsRec) : Traced s (obsDrop t r) := by
  unfold Machine.obsDrop
  dsimp only
  exact .ite (.set (.count (.obs h _) 1 (by decide) (by decide)) 1 (by decide) (by decide))
    (.set (.count (.obs h _) 1 (by decide) (by decide)) 1 (by decide) (by decide))

theorem Traced.obsPut (dest ty rflags : Nat) (time body : List Byte) : Traced s (obsPut t dest ty rflags time body) := by
  unfold Machine.obsPut
  refine .ite h (.ite (h.obsDrop _) ?_)
  dsimp only
  split
  · exact .gapWritten (.obs h _) time
  · rw [timeOf_boundary]
    exact .gapWritten (.gapWritten (.obs h _) _) _

theorem Traced.tracePut (ty : Nat) (time body : List Byte) : Traced s (tracePut t ty time body) := .ite h (h.obsPut ..)

theorem Traced.regionRec (region state cycles : Nat) : Traced s (regionRec t region state cycles) := by
  unfold Machine.regionRec
  refine .ite ?_ h
  dsimp only
  rw [timeOf_boundary]
  exact h.tracePut ..

end

end Sys2Proof.Machine
end

section
/-!
SUPPORT. Power (R429 to R433, R45): the steps of throttle, and quiesce from its entry to its end.
-/

namespace Sys2Proof.Machine

/-! ### Throttle (R431, R432) -/

section
variable {s : Body}

theorem mayStep_iff (k : Nat) : mayStep s k = true ↔
    throttleHolds s = true ∧ s.get R.PWR_STATUS.STATE = 1 ∧ s.get R.PWR_STATUS.LEVEL < 5 ∧ 16 ≤ s.pwr.levelFor + k := by
  simp [mayStep, and_assoc]

theorem mayRelax_iff (k : Nat) : mayRelax s k = true ↔ throttleHolds s = false ∧ s.get R.PWR_STATUS.STATE = 1 ∧
    (s.get R.PWR_STATUS.LEVEL = 0 ∨ 4000 ≤ s.pwr.levelFor + k) := by
  simp [mayRelax, and_assoc]

/-- The fields of the clock regions are those of no other register. -/
theorem region_key_ne {g : Fld} {r : Nat} (hg : g.lo < 64) (hoff : g.off < 0x30100) : R.KNT_RGN.STATE.key r 0 ≠ g.key 0 0 :=
  Fld.key_ne_off (by decide) hg (by simp [R.KNT_RGN.STATE]; omega)

theorem region_key_ne_region {r q : Nat} (h : r ≠ q) : R.KNT_RGN.STATE.key r 0 ≠ R.KNT_RGN.STATE.key q 0 :=
  Fld.key_ne_off (by decide) (by decide) (by simp [R.KNT_RGN.STATE]; omega)

/-- A region takes its state, and writes its record (R44, R471). -/
def regionSet (s : Body) (r state cycles : Nat) : Body := regionRec (s.set R.KNT_RGN.STATE state r) r state cycles

/-- What `regionSet` leaves: the state of every other region, and every register below the clock regions. -/
theorem regionSet_traced (s : Body) (r state cycles : Nat) :
    Traced (s.set R.KNT_RGN.STATE state r) (regionSet s r state cycles) := (Traced.refl _).regionRec ..

theorem regionSet_pwr (s : Body) (r state cycles : Nat) : (regionSet s r state cycles).pwr = s.pwr := by
  rw [(regionSet_traced s r state cycles).1]
  rfl

theorem regionSet_near (s : Body) (r state cycles : Nat) : (regionSet s r state cycles).near = s.near := by
  rw [(regionSet_traced s r state cycles).1]
  rfl

theorem region_off {r : Nat} (hr : r < 16) : R.KNT_RGN.STATE.off + R.KNT_RGN.STATE.stride * r < 0x1E0000 := by
  simp [R.KNT_RGN.STATE]
  omega

theorem regionSet_self {r state : Nat} (hr : r < 16) (hst : state < 4) (cycles : Nat) :
    (regionSet s r state cycles).get R.KNT_RGN.STATE r = state := by
  rw [(regionSet_traced s r state cycles).2 _ _ (by decide) (region_off hr), Body.get_set_self]
  exact Nat.mod_eq_of_lt hst

theorem regionSet_other {r q : Nat} (hq : q < 16) (h : q ≠ r) (state cycles : Nat) :
    (regionSet s r state cycles).get R.KNT_RGN.STATE q = s.get R.KNT_RGN.STATE q := by
  rw [(regionSet_traced s r state cycles).2 _ _ (by decide) (region_off hq),
    Body.get_set_ne _ _ (region_key_ne_region (Ne.symm h))]

theorem regionSet_get {g : Fld} (hg : g.lo < 64) (hoff : g.off < 0x30100) (r state cycles : Nat) :
    (regionSet s r state cycles).get g = s.get g := by
  rw [(regionSet_traced s r state cycles).2 g 0 hg (by simp; omega), Body.get_set_ne _ _ (region_key_ne hg hoff)]

end

/-- The body with a new stretch level, before its regions take it (R432). -/
def levelSet (s : Body) (level : Nat) : Body :=
  { s.set R.PWR_STATUS.LEVEL level with pwr := { s.pwr with levelFor := 0 } }

theorem setLevel_eq (s : Body) (level : Nat) : setLevel s level =
    regionSet (regionSet (levelSet s level) 1 (b2n (level != 0)) (levelCycles level)) 2 (b2n (level != 0)) (levelCycles level) := rfl

theorem b2n_lt (v : Bool) : b2n v < 4 := by
  cases v <;> decide

section
variable (s : Body) {level : Nat}

theorem levelSet_level (h : level < 8) : (levelSet s level).get R.PWR_STATUS.LEVEL = level :=
  (Body.get_set_self ..).trans (Nat.mod_eq_of_lt h)

/-- Regions 1 and 2 take the level; the state stays (R432). -/
theorem setLevel_shows (h : level < 8) : (setLevel s level).get R.PWR_STATUS.LEVEL = level ∧
    (setLevel s level).get R.KNT_RGN.STATE 1 = b2n (level != 0) ∧ (setLevel s level).get R.KNT_RGN.STATE 2 = b2n (level != 0) ∧
    (setLevel s level).get R.PWR_STATUS.STATE = s.get R.PWR_STATUS.STATE := by
  rw [setLevel_eq]
  refine ⟨?_, ?_, regionSet_self (by decide) (b2n_lt _) _, ?_⟩
  · rw [regionSet_get (by decide) (by decide), regionSet_get (by decide) (by decide), levelSet_level s h]
  · rw [regionSet_other (by decide) (by decide), regionSet_self (by decide) (b2n_lt _)]
  · rw [regionSet_get (by decide) (by decide), regionSet_get (by decide) (by decide)]
    exact Body.get_set_ne _ _ (by decide)

theorem setLevel_frame (level : Nat) : (setLevel s level).pwr.levelFor = 0 ∧ (setLevel s level).near = s.near := by
  rw [setLevel_eq, regionSet_pwr, regionSet_pwr, regionSet_near, regionSet_near]
  exact ⟨rfl, rfl⟩

end

section
variable {b : Body}

theorem levelNow_up (h : mayStep b 0 = true) : levelNow b true = setLevel b (b.get R.PWR_STATUS.LEVEL + 1) := if_pos h

theorem levelNow_up_not (h : throttleHolds b = false) : levelNow b true = b := if_neg (by simp [mayStep, h])

theorem levelNow_down_not (h : throttleHolds b = true) : levelNow b false = b := if_pos (by simp [mayRelax, h])

theorem levelNow_end (h : mayRelax b 0 = true) (hl : b.get R.PWR_STATUS.LEVEL = 0) : levelNow b false = b.set R.PWR_STATUS.STATE 0 :=
  (if_neg (by simp [h])).trans (if_pos hl)

theorem levelNow_down (h : mayRelax b 0 = true) (hl : b.get R.PWR_STATUS.LEVEL ≠ 0) : levelNow b false =
    if b.get R.PWR_STATUS.LEVEL = 1 then (setLevel b (b.get R.PWR_STATUS.LEVEL - 1)).set R.PWR_STATUS.STATE 0
    else setLevel b (b.get R.PWR_STATUS.LEVEL - 1) :=
  (if_neg (by simp [h])).trans (if_neg hl)

/-- The level rises by one, under a condition that has held for 16 knots (R432). -/
theorem levelNow_rises (hst : b.get R.PWR_STATUS.STATE = 1) (hholds : throttleHolds b = true) (hn : b.get R.PWR_STATUS.LEVEL < 5)
    (hfor : 16 ≤ b.pwr.levelFor) :
    (levelNow b true).get R.PWR_STATUS.LEVEL = b.get R.PWR_STATUS.LEVEL + 1 ∧ (levelNow b true).get R.KNT_RGN.STATE 1 = 1 ∧
      (levelNow b true).get R.KNT_RGN.STATE 2 = 1 ∧ (levelNow b true).get R.PWR_STATUS.STATE = 1 ∧
      (levelNow b true).pwr.levelFor = 0 ∧ (levelNow b true).near = b.near := by
  rw [levelNow_up ((mayStep_iff 0).mpr ⟨hholds, hst, hn, hfor⟩)]
  obtain ⟨hlevel, hone, htwo, hstate⟩ := setLevel_shows b (level := b.get R.PWR_STATUS.LEVEL + 1) (by omega)
  obtain ⟨hsince, hnear⟩ := setLevel_frame b (b.get R.PWR_STATUS.LEVEL + 1)
  have hon : b2n (b.get R.PWR_STATUS.LEVEL + 1 != 0) = 1 := by simp [b2n]
  exact ⟨hlevel, hone.trans hon, htwo.trans hon, hstate.trans hst, hsince, hnear⟩

/-- The level falls by one, without a condition for 4,000 knots; the last one ends the state (R432). -/
theorem levelNow_falls (hst : b.get R.PWR_STATUS.STATE = 1) (hholds : throttleHolds b = false) (hpos : 0 < b.get R.PWR_STATUS.LEVEL)
    (hn : b.get R.PWR_STATUS.LEVEL ≤ 5) (hfor : 4000 ≤ b.pwr.levelFor) :
    (levelNow b false).get R.PWR_STATUS.LEVEL = b.get R.PWR_STATUS.LEVEL - 1 ∧
      (levelNow b false).get R.KNT_RGN.STATE 1 = (if b.get R.PWR_STATUS.LEVEL = 1 then 0 else 1) ∧
      (levelNow b false).get R.PWR_STATUS.STATE = (if b.get R.PWR_STATUS.LEVEL = 1 then 0 else 1) ∧
      (levelNow b false).pwr.levelFor = 0 ∧ (levelNow b false).near = b.near := by
  rw [levelNow_down ((mayRelax_iff 0).mpr ⟨hholds, hst, .inr hfor⟩) (by omega)]
  obtain ⟨hlevel, hone, -, hstate⟩ := setLevel_shows b (level := b.get R.PWR_STATUS.LEVEL - 1) (by omega)
  obtain ⟨hsince, hnear⟩ := setLevel_frame b (b.get R.PWR_STATUS.LEVEL - 1)
  by_cases h1 : b.get R.PWR_STATUS.LEVEL = 1
  · rw [if_pos h1, if_pos h1]
    have hoff : b2n (b.get R.PWR_STATUS.LEVEL - 1 != 0) = 0 := by simp [h1, b2n]
    exact ⟨(Body.get_set_ne _ _ (by decide)).trans hlevel, ((Body.get_set_ne _ _ (by decide)).trans hone).trans hoff,
      Body.get_set_self .., hsince, hnear⟩
  · rw [if_neg h1, if_neg h1]
    have hon : b2n (b.get R.PWR_STATUS.LEVEL - 1 != 0) = 1 := by
      have hne : b.get R.PWR_STATUS.LEVEL - 1 ≠ 0 := by omega
      simp [hne, b2n]
    exact ⟨hlevel, hone.trans hon, hstate.trans hst, hsince, hnear⟩

end

/-! ### Quiesce (R433) -/

section
variable {b : Body}

theorem quiesceNow_begins (h : quiet b = false) : quiet (quiesceNow b) = true ∧ (quiesceNow b).get R.PWR_EVENT.QUIESCE_EV = 1 ∧
    quiesceNow b = { b with regs := (quiesceNow b).regs, pwr := (quiesceNow b).pwr } := by
  have heq : quiesceNow b = { (b.set R.PWR_STATUS.STATE 2).set R.PWR_EVENT.QUIESCE_EV 1 with
      pwr := { b.pwr with okQuiesce := 0, stopped := none, ended := none } } := if_neg (by simp [h])
  have hregs : (quiesceNow b).regs = ((b.set R.PWR_STATUS.STATE 2).set R.PWR_EVENT.QUIESCE_EV 1).regs := by rw [heq]
  have hstate : (quiesceNow b).get R.PWR_STATUS.STATE = 2 := by
    rw [Body.get_congr hregs, Body.get_set_ne _ _ (by decide)]
    exact Body.get_set_self ..
  refine ⟨by simp [quiet, hstate], ?_, ?_⟩
  · rw [Body.get_congr hregs]
    exact Body.get_set_self ..
  · rw [heq]
    rfl

/-- A region that runs stops at once (R433). -/
def stopOne (s : Body) (r : Nat) : Body := if s.get R.KNT_RGN.STATE r = 2 then s else regionStop s r s.now

/-- What stopping keeps: everything but registers and gaps, and of the registers all but the regions' own. -/
def RegionsOnly (s t : Body) : Prop :=
  t = { s with regs := t.regs, knot := t.knot } ∧ t.now = s.now ∧ ∀ q, s.get R.KNT_RGN.STATE q = 2 → t.get R.KNT_RGN.STATE q = 2

theorem stopOne_only (s : Body) (r : Nat) : RegionsOnly s (stopOne s r) := by
  unfold stopOne
  split
  · exact ⟨rfl, rfl, fun _ h => h⟩
  next hrun =>
    refine ⟨rfl, ?_, fun q hq => ?_⟩
    · exact (Body.get_set_ne _ _ (Fld.key_ne_off (by decide) (by decide) (by simp [R.KNT_RGN.LAST_STOP, R.KNT_COUNT.COUNT]; omega))).trans
        (Body.get_set_ne _ _ (region_key_ne (by decide) (by decide)))
    · have hne : r ≠ q := fun h => hrun (h ▸ hq)
      exact ((Body.get_set_ne _ _ (Fld.key_ne_lo (by decide) (by decide) (by decide))).trans
        (Body.get_set_ne _ _ (region_key_ne_region hne))).trans hq

theorem stopOne_stops (s : Body) (r : Nat) : (stopOne s r).get R.KNT_RGN.STATE r = 2 := by
  unfold stopOne
  split
  next h => exact h
  · exact (Body.get_set_ne _ _ (Fld.key_ne_lo (by decide) (by decide) (by decide))).trans (Body.get_set_self ..)

theorem RegionsOnly.trans {s t u : Body} (h : RegionsOnly s t) (h' : RegionsOnly t u) : RegionsOnly s u := by
  obtain ⟨heq, hnow, hstop⟩ := h
  obtain ⟨heq', hnow', hstop'⟩ := h'
  refine ⟨?_, hnow'.trans hnow, fun q hq => hstop' q (hstop q hq)⟩
  rw [heq', heq]

theorem foldl_stopOne (l : List Nat) (s : Body) :
    RegionsOnly s (l.foldl stopOne s) ∧ ∀ r ∈ l, (l.foldl stopOne s).get R.KNT_RGN.STATE r = 2 := by
  induction l generalizing s with
  | nil => exact ⟨⟨rfl, rfl, fun _ h => h⟩, by simp⟩
  | cons r l ih =>
    obtain ⟨honly, hall⟩ := ih (stopOne s r)
    refine ⟨(stopOne_only s r).trans honly, ?_⟩
    simp only [List.mem_cons, forall_eq_or_imp]
    exact ⟨honly.2.2 r (stopOne_stops s r), hall⟩

/-- The regions in `rs` stop, and the knot of the stop is noted (R433). -/
def stopAll (rs : List Nat) (b : Body) : Body :=
  { rs.foldl stopOne b with pwr := { (rs.foldl stopOne b).pwr with stopped := some (rs.foldl stopOne b).now } }

theorem stopAll_stops (rs : List Nat) (b : Body) : (stopAll rs b).pwr.stopped = some b.now ∧
    (∀ r ∈ rs, (stopAll rs b).get R.KNT_RGN.STATE r = 2) ∧ (stopAll rs b).near = b.near ∧ (stopAll rs b).far = b.far ∧
    (stopAll rs b).olp = b.olp := by
  obtain ⟨⟨heq, hnow, -⟩, hall⟩ := foldl_stopOne rs b
  refine ⟨congrArg some hnow, hall, ?_, ?_, ?_⟩ <;> rw [stopAll, heq]

theorem stopNow_drained (hq : quiet b = true) (hs : b.pwr.stopped = none) (he : b.pwr.ended = none) (hd : drained b = true) :
    stopNow b = stopAll powerRegions b := by
  unfold stopNow
  rw [if_pos ⟨hq, hs, he, hd⟩]
  generalize powerRegions = rs
  rfl

theorem stopNow_serving (hd : drained b = false) : stopNow b = b := if_neg (by simp [hd])

theorem endNow_ends (hq : quiet b = true) (he : b.pwr.ended = none) (h : 4000 ≤ b.pwr.okQuiesce) :
    endNow b = { b with pwr := { b.pwr with ended := some b.now } } := if_pos ⟨hq, he, h⟩

theorem endNow_early (h : b.pwr.okQuiesce < 4000) : endNow b = b := if_neg (by omega)

/-! The restart (R433). -/

/-- The regions that run again: those that were stopped, but for a stack that failed. -/
def restarting (b : Body) : List Nat :=
  powerRegions.filter (fun r => b.get R.KNT_RGN.STATE r == 2 && (decide (r < 8) || bitAt (b.get R.STO_NEAR.STACK_UP) (r - 8)))

/-- The state in which a region runs again at stretch level `l`. -/
def runState (l r : Nat) : Nat := b2n (r < 8 && l != 0)

def restartOne (l : Nat) (s : Body) (r : Nat) : Body := regionSet s r (runState l r) (if r < 8 then levelCycles l else 400)

/-- The body once its regions run again. -/
def restarted (b : Body) : Body :=
  (restarting b).foldl (restartOne (b.get R.PWR_STATUS.LEVEL)) (gapsRestart b (fun r => (restarting b).contains r))

theorem restartNow_eq (hq : quiet b = true) (he : b.pwr.ended.isSome = true) : restartNow b =
    { (restarted b).set R.PWR_STATUS.STATE (b2n (b.get R.PWR_STATUS.LEVEL != 0 || throttleHolds (restarted b))) with
      pwr := { (restarted b).pwr with stopped := none } } :=
  if_neg (by simpa [hq, Option.isSome_iff_ne_none] using he)

theorem foldl_restartOne (l : Nat) {rs : List Nat} (hrs : ∀ r ∈ rs, r < 16) (s : Body) :
    (∀ q, q < 16 → (rs.foldl (restartOne l) s).get R.KNT_RGN.STATE q = if q ∈ rs then runState l q else s.get R.KNT_RGN.STATE q) ∧
      (∀ g : Fld, g.lo < 64 → g.off < 0x30100 → (rs.foldl (restartOne l) s).get g = s.get g) ∧
      (rs.foldl (restartOne l) s).near = s.near := by
  induction rs generalizing s with
  | nil => exact ⟨fun _ _ => rfl, fun _ _ _ => rfl, rfl⟩
  | cons r rs ih =>
    obtain ⟨hstate, hget, hnear⟩ := ih (fun q hq => hrs q (.tail _ hq)) (restartOne l s r)
    have hr := hrs r (.head _)
    refine ⟨fun q hq => ?_, fun g hlo hoff => (hget g hlo hoff).trans (regionSet_get hlo hoff ..), ?_⟩
    · rw [List.foldl_cons, hstate q hq]
      by_cases hmem : q ∈ rs
      · simp [hmem]
      · rw [if_neg hmem]
        by_cases hqr : q = r
        · subst hqr
          simp only [List.mem_cons, true_or, if_true]
          exact regionSet_self hq (b2n_lt _) _
        · simp only [List.mem_cons, hqr, hmem, or_self, if_false]
          exact regionSet_other hq hqr ..
    · rw [List.foldl_cons, hnear, restartOne, regionSet_near]

theorem restarting_lt {r : Nat} (h : r ∈ powerRegions) : r < 16 := by
  revert r
  decide

theorem restarted_spec (b : Body) :
    (∀ q, q < 16 → (restarted b).get R.KNT_RGN.STATE q =
      if q ∈ restarting b then runState (b.get R.PWR_STATUS.LEVEL) q else b.get R.KNT_RGN.STATE q) ∧
      (∀ g : Fld, g.lo < 64 → g.off < 0x30100 → (restarted b).get g = b.get g) ∧ (restarted b).near = b.near :=
  foldl_restartOne _ (fun _ hr => restarting_lt (List.mem_of_mem_filter hr)) _

theorem throttleHolds_congr {s t : Body} (hv : t.get R.PWR_STATUS.BY_VOLT = s.get R.PWR_STATUS.BY_VOLT)
    (hp : t.get R.PWR_STATUS.BY_POWER = s.get R.PWR_STATUS.BY_POWER) : throttleHolds t = throttleHolds s := by
  rw [throttleHolds, throttleHolds, Body.on, Body.on, Body.on, Body.on, hv, hp]

theorem restartNow_region (hq : quiet b = true) (he : b.pwr.ended.isSome = true) {r : Nat} :
    (restartNow b).get R.KNT_RGN.STATE r = (restarted b).get R.KNT_RGN.STATE r := by
  rw [restartNow_eq hq he]
  exact Body.get_set_ne _ _ (region_key_ne (by decide) (by decide)).symm

theorem restartNow_restarts (hq : quiet b = true) (he : b.pwr.ended.isSome = true) :
    (restartNow b).get R.PWR_STATUS.STATE = (if b.get R.PWR_STATUS.LEVEL ≠ 0 ∨ throttleHolds b = true then 1 else 0) ∧
      (restartNow b).pwr.stopped = none ∧
      (∀ r ∈ powerRegions, b.get R.KNT_RGN.STATE r = 2 → (8 ≤ r → bitAt (b.get R.STO_NEAR.STACK_UP) (r - 8) = true) →
        (restartNow b).get R.KNT_RGN.STATE r = (if r < 8 ∧ b.get R.PWR_STATUS.LEVEL ≠ 0 then 1 else 0)) ∧
      (∀ r ∈ powerRegions, 8 ≤ r → bitAt (b.get R.STO_NEAR.STACK_UP) (r - 8) = false →
        (restartNow b).get R.KNT_RGN.STATE r = b.get R.KNT_RGN.STATE r) ∧ (restartNow b).near = b.near := by
  obtain ⟨hstate, hget, hnear⟩ := restarted_spec b
  have hholds := throttleHolds_congr (hget R.PWR_STATUS.BY_VOLT (by decide) (by decide))
    (hget R.PWR_STATUS.BY_POWER (by decide) (by decide))
  refine ⟨?_, ?_, fun r hr h2 hup => ?_, fun r hr h8 hup => ?_, ?_⟩
  · rw [restartNow_eq hq he, hholds]
    refine (Body.get_set_self ..).trans ?_
    cases throttleHolds b <;> by_cases h0 : b.get R.PWR_STATUS.LEVEL = 0 <;> simp [h0, b2n, R.PWR_STATUS.STATE]
  · rw [restartNow_eq hq he]
  · have hmem : r ∈ restarting b := by
      refine List.mem_filter.mpr ⟨hr, ?_⟩
      by_cases h8 : r < 8
      · simp [h2, h8]
      · simp [h2, hup (by omega)]
    rw [restartNow_region hq he, hstate r (restarting_lt hr), if_pos hmem, runState]
    by_cases h8 : r < 8 <;> by_cases h0 : b.get R.PWR_STATUS.LEVEL = 0 <;> simp [h8, h0, b2n]
  · have hmem : r ∉ restarting b := by
      refine fun h => ?_
      have hcond := List.of_mem_filter h
      simp [hup, Nat.not_lt.mpr h8] at hcond
    rw [restartNow_region hq he, hstate r (restarting_lt hr), if_neg hmem]
  · rw [restartNow_eq hq he]
    exact hnear

end

end Sys2Proof.Machine
end

section
/-!
SUPPORT. The reset input, power-on and readiness (R434 to R436, R438, R441, R442).
-/

namespace Sys2Proof.Machine

/-! ### The reset input (R435) -/

/-- The input is held. -/
def pinHeld (b : Body) : Body := { b with pwr := { b.pwr with pin := some 0 } }

section
variable {b : Body}

theorem pinAssert_again (h : b.pwr.pin.isSome = true) : pinAssert b = b := if_pos h

theorem pinAssert_home (h : b.pwr.pin = none) (hh : b.pwr.homeSeen = true) : pinAssert b = (pinHeld b).arm (.reset 3 4) :=
  (if_neg (by simp [h])).trans (if_pos hh)

theorem pinAssert_on (h : b.pwr.pin = none) (hh : b.pwr.homeSeen = false) (hoff : b.pwr.off = false) :
    pinAssert b = (pinHeld b).arm (.reset 4 4) :=
  (if_neg (by simp [h])).trans ((if_neg (by simp [hh])).trans (if_neg (by simp [hoff])))

theorem pinAssert_off (h : b.pwr.pin = none) (hh : b.pwr.homeSeen = false) (hoff : b.pwr.off = true) : pinAssert b = pinHeld b :=
  (if_neg (by simp [h])).trans ((if_neg (by simp [hh])).trans (if_pos hoff))

theorem pinHold_long {n : Nat} (h : b.pwr.pin = some n) (hoff : b.pwr.off = false) (hn : 4000000 ≤ n) :
    pinHold b = b.arm (.reset 4 4) := by
  simp only [pinHold, h]
  exact if_pos ⟨hn, by simp [hoff]⟩

theorem pinHold_short {n : Nat} (h : b.pwr.pin = some n) (hn : n < 4000000) : pinHold b = b := by
  simp only [pinHold, h]
  exact if_neg (by omega)

end

/-! ### Power-on (R434, R436) -/

/-- The power is there: the calendar's cell is charged, and every region has been stopped (R434, R473). -/
def inputOn (b : Body) : Body :=
  { b with pwr := { b.pwr with off := false, cellLost := false }, knot := { gaps := resetGaps (b.get R.RST_KNOT.KNOT + 1) } }

/-- The calendar and the tamper log are shown as lost. -/
def lossShown (b : Body) : Body := ((b.set R.CAL_STATUS.VALID 0).set R.CAL_STATUS.CELL_FAIL 1).set R.SEC_EVENT.LOG_LOST 1

/-- A lost tamper log begins anew (R467). -/
def tlogEmptied (s : State) : State := { s with sec := { s.sec with tlog := [], tseq := 0 } }.upd lossShown

/-- The straps are read, and the boot profile is to be loaded (R436). -/
def strapped (psel : Nat) (b : Body) : Body := provisional ((b.set R.CFG_STATUS.PSEL psel).set R.CFG_STATUS.BOOT psel)

def calReady (b : Body) : Body := if b.on R.CAL_STATUS.VALID then b.set R.MGT_READY.CAL 1 else b

/-- Bring-up from B0. -/
def broughtUp (psel : Nat) (s : State) : State := s.upd fun b => (calReady (strapped psel b)).arm (.load (psel % 4) false)

section
variable {s : State} {psel : Nat}

theorem powerOn_idle (h : s.pwr.off = false ∨ s.pwr.pin.isSome = true) : powerOn psel false s = s := if_pos (by simpa using h)

theorem powerOn_fresh : powerOn psel true s = powerOn psel false (powerReset s 1) := rfl

theorem powerOn_kept (hoff : s.pwr.off = true) (hpin : s.pwr.pin = none) (hcell : s.pwr.cellLost = false) :
    powerOn psel false s = broughtUp psel (s.upd inputOn) := by
  have hup : ¬((!s.pwr.off) = true ∨ s.pwr.pin.isSome = true) := by simp [hoff, hpin]
  simp only [powerOn, Bool.false_eq_true, if_false, if_neg hup, hcell]
  rfl

theorem powerOn_lost (hoff : s.pwr.off = true) (hpin : s.pwr.pin = none) (hcell : s.pwr.cellLost = true) :
    powerOn psel false s = broughtUp psel (tlogAdd (tlogEmptied (s.upd inputOn)) 0x05 0 0) := by
  have hup : ¬((!s.pwr.off) = true ∨ s.pwr.pin.isSome = true) := by simp [hoff, hpin]
  simp only [powerOn, Bool.false_eq_true, if_false, if_neg hup, hcell, if_true]
  rfl

end

section
variable (b : Body) (s : State)

theorem calReady_only : calReady b = { b with regs := (calReady b).regs } := by
  unfold calReady
  split <;> rfl

theorem calReady_get {g : Fld} (h : R.MGT_READY.CAL.key 0 0 ≠ g.key 0 0) : (calReady b).get g = b.get g := by
  unfold calReady
  split
  · exact Body.get_set_ne _ _ h
  · rfl

theorem strapped_get (psel : Nat) {g : Fld} (hlo : g.lo < 64) (hcfg : R.CFG_STATUS.PSEL.off ≠ g.off)
    (hline : R.KNT_COUNT.COUNT.off ≠ g.off) (hprov : R.KNT_STATUS.PROV.off ≠ g.off) : (strapped psel b).get g = b.get g := by
  unfold strapped provisional
  dsimp only
  rw [Body.get_set_off (f := R.KNT_STATUS.PROV) _ _ (by decide) hlo hprov,
    Body.get_set_off (f := R.KNT_COUNT.COUNT) _ _ (by decide) hlo hline,
    Body.get_set_off (f := R.CFG_STATUS.BOOT) _ _ (by decide) hlo hcfg,
    Body.get_set_off (f := R.CFG_STATUS.PSEL) _ _ (by decide) hlo hcfg]

theorem strapped_straps {psel : Nat} (h : psel < 4) :
    (strapped psel b).get R.CFG_STATUS.PSEL = psel ∧ (strapped psel b).get R.CFG_STATUS.BOOT = psel := by
  have hline {g : Fld} (hlo : g.lo < 64) (hoff : R.KNT_COUNT.COUNT.off ≠ g.off) (hprov : R.KNT_STATUS.PROV.off ≠ g.off) :
      (strapped psel b).get g = ((b.set R.CFG_STATUS.PSEL psel).set R.CFG_STATUS.BOOT psel).get g :=
    (Body.get_set_off (f := R.KNT_STATUS.PROV) _ _ (by decide) hlo hprov).trans
      (Body.get_set_off (f := R.KNT_COUNT.COUNT) _ _ (by decide) hlo hoff)
  rw [hline (by decide) (by decide) (by decide), hline (by decide) (by decide) (by decide), Body.get_set_ne _ _ (by decide),
    Body.get_set_self, Body.get_set_self]
  exact ⟨Nat.mod_eq_of_lt h, Nat.mod_eq_of_lt h⟩

theorem calReady_strapped_arm (psel : Nat) (a : Act) : (calReady (strapped psel b)).arm a =
    { b with regs := (calReady (strapped psel b)).regs, acts := b.acts ++ [a] } := by
  rw [calReady_only]
  rfl

/-- Bring-up reads the straps, and arms the load of the boot profile; beside registers nothing else changes. -/
theorem broughtUp_only {psel : Nat} (h : psel < 4) : broughtUp psel s =
    { s with regs := (broughtUp psel s).regs, acts := s.acts ++ [.load psel false] } := by
  have hmod : psel % 4 = psel := Nat.mod_eq_of_lt h
  refine (congrArg (fun b : Body => { s with toBody := b }) (calReady_strapped_arm s.toBody psel (.load (psel % 4) false))).trans ?_
  rw [hmod]
  rfl

theorem broughtUp_straps {psel : Nat} (h : psel < 4) :
    (broughtUp psel s).get R.CFG_STATUS.PSEL = psel ∧ (broughtUp psel s).get R.CFG_STATUS.BOOT = psel := by
  change (calReady (strapped psel s.toBody)).get R.CFG_STATUS.PSEL = psel ∧
    (calReady (strapped psel s.toBody)).get R.CFG_STATUS.BOOT = psel
  rw [calReady_get _ (by decide), calReady_get _ (by decide)]
  exact strapped_straps s.toBody h

theorem broughtUp_get (psel : Nat) {g : Fld} (hlo : g.lo < 64) (hcal : R.MGT_READY.CAL.key 0 0 ≠ g.key 0 0)
    (hcfg : R.CFG_STATUS.PSEL.off ≠ g.off) (hline : R.KNT_COUNT.COUNT.off ≠ g.off) (hprov : R.KNT_STATUS.PROV.off ≠ g.off) :
    (broughtUp psel s).get g = s.get g := by
  change (calReady (strapped psel s.toBody)).get g = s.get g
  rw [calReady_get _ hcal, strapped_get _ _ hlo hcfg hline hprov]

end

/-- What POWER_ON leaves of a package whose reset input is released: the straps, the armed load, the store and the slots, and the
cause of the last reset. -/
theorem powerOn_brings {s : State} {psel : Nat} (hoff : s.pwr.off = true) (hpin : s.pwr.pin = none) :
    ∃ u : State, powerOn psel false s = broughtUp psel u ∧ u.pwr.off = false ∧ u.acts = s.acts ∧ u.near = s.near ∧ u.far = s.far ∧
      u.sec.slots = s.sec.slots ∧ u.cfg = s.cfg ∧
      (∀ g : Fld, g.lo < 64 → R.CAL_STATUS.VALID.off ≠ g.off → R.SEC_EVENT.LOG_LOST.off ≠ g.off → u.get g = s.get g) ∧
      (s.pwr.cellLost = false → u = s.upd inputOn) ∧
      (s.pwr.cellLost = true → u = tlogAdd (tlogEmptied (s.upd inputOn)) 0x05 0 0) := by
  cases hcell : s.pwr.cellLost with
  | false =>
    exact ⟨_, powerOn_kept hoff hpin hcell, rfl, rfl, rfl, rfl, rfl, rfl, fun _ _ _ _ => rfl, fun _ => rfl, fun h => by simp at h⟩
  | true =>
    have hlog := tlogAdd_unsent (tlogEmptied (s.upd inputOn)) 0x05 0 0 true
    refine ⟨_, powerOn_lost hoff hpin hcell, ?_, ?_, ?_, ?_, rfl, ?_, fun g hlo hcal hlost => ?_, fun h => by simp at h, fun _ => rfl⟩
    · rw [hlog]
      rfl
    · rw [hlog]
      rfl
    · rw [hlog]
      rfl
    · rw [hlog]
      rfl
    · rw [hlog]
      rfl
    · rw [tlogAdd_get]
      exact ((Body.get_set_off (f := R.SEC_EVENT.LOG_LOST) _ _ (by decide) hlo hlost).trans
        (Body.get_set_off (f := R.CAL_STATUS.CELL_FAIL) _ _ (by decide) hlo hcal)).trans
          (Body.get_set_off (f := R.CAL_STATUS.VALID) _ _ (by decide) hlo hcal)

/-! The POWER reset that comes first where the package comes from no input (R438). -/

theorem burnCut_body (s : State) : (burnCut s).toBody = { s.toBody with drawn := (burnCut s).drawn } := by
  unfold burnCut
  split
  · rfl
  dsimp only
  split <;> rfl

theorem powerReset_kept (s : State) (cause : Nat) {g : Fld} {i j : Nat} (h : keptByPower (g.key i j) = true) :
    (powerReset s cause).get g i j = (rstRecord s.toBody 4 cause).get g i j := by
  have hregs : (burnCut (s.upd (fun s => rstRecord s 4 cause))).regs = (rstRecord s.toBody 4 cause).regs := by
    rw [burnCut_body]
    rfl
  have hfilter : (powerReset s cause).regs = (rstRecord s.toBody 4 cause).regs.filter (fun e => keptByPower e.1) := by
    rw [← hregs]
    rfl
  rw [Body.get, hfilter, AMap.get_filter, if_pos h, Body.get]

theorem rstRecord_cause (b : Body) {kind cause : Nat} (hk : kind < 16) (hc : cause < 16) :
    (rstRecord b kind cause).get R.RST_CAUSE.KIND = kind ∧ (rstRecord b kind cause).get R.RST_CAUSE.CAUSE = cause := by
  unfold rstRecord Body.sat
  dsimp only
  rw [Body.get_set_ne _ _ (by decide), Body.get_set_ne _ _ (by decide), Body.get_set_ne _ _ (by decide), Body.get_set_self,
    Body.get_set_ne _ _ (by decide), Body.get_set_ne _ _ (by decide), Body.get_set_self]
  exact ⟨Nat.mod_eq_of_lt hk, Nat.mod_eq_of_lt hc⟩

theorem powerReset_leaves (s : State) (cause : Nat) : (powerReset s cause).pwr.off = true ∧ (powerReset s cause).pwr.pin = s.pwr.pin ∧
    (powerReset s cause).near = [] ∧ (powerReset s cause).far = s.far ∧ (powerReset s cause).acts = [] ∧
    (powerReset s cause).sec.slots = s.sec.slots ∧ (powerReset s cause).cfg.img = none := by
  have hpwr : (burnCut (s.upd (fun s => rstRecord s 4 cause))).pwr = s.pwr := by
    rw [burnCut_body]
    rfl
  have hfar : (burnCut (s.upd (fun s => rstRecord s 4 cause))).far = s.far := by
    rw [burnCut_body]
    rfl
  obtain ⟨hslots, -⟩ := burnCut_kept (s.upd (fun s => rstRecord s 4 cause))
  have hpin := congrArg PwrSt.pin hpwr
  exact ⟨rfl, hpin, rfl, hfar, rfl, hslots, rfl⟩

/-! ### Readiness (R441, R442) -/

/-- SEC is set with a fresh nonce and a fresh key pair, where the owner's hold has not to go first. -/
theorem secReady_held {s : State} (h : s.sec.destroy = false ∨ s.sec.lcs ≠ 0x0F) :
    secReady s = (kemNew (nonceNew s)).set R.MGT_READY.SEC 1 := by
  have hkept : ¬(s.sec.destroy = true ∧ s.sec.lcs = 0x0F) := by
    rcases h with h | h <;> simp [h]
  unfold secReady
  rw [if_neg hkept]
  rfl

/-- The roles of the ports, by the image (R62). -/
def rolesSet (ns : List Nat) (b : Body) : Body := ns.foldl (fun s n => s.set R.LNK_STATUS.ROLE (s.img.links.getD n 0) n) b

theorem role_key_ne {n m : Nat} (h : n ≠ m) : R.LNK_STATUS.ROLE.key n 0 ≠ R.LNK_STATUS.ROLE.key m 0 :=
  Fld.key_ne_off (by decide) (by decide) (by simp [R.LNK_STATUS.ROLE]; omega)

theorem rolesSet_spec (ns : List Nat) (b : Body) : rolesSet ns b = { b with regs := (rolesSet ns b).regs } ∧
    (∀ n ∈ ns, (rolesSet ns b).get R.LNK_STATUS.ROLE n = b.img.links.getD n 0 % 2 ^ R.LNK_STATUS.ROLE.w) ∧
    (∀ n, n ∉ ns → (rolesSet ns b).get R.LNK_STATUS.ROLE n = b.get R.LNK_STATUS.ROLE n) := by
  induction ns generalizing b with
  | nil => exact ⟨rfl, by simp, fun _ _ => rfl⟩
  | cons m ns ih =>
    obtain ⟨heq, hin, hout⟩ := ih (b.set R.LNK_STATUS.ROLE (b.img.links.getD m 0) m)
    refine ⟨heq, fun n hn => ?_, fun n hn => ?_⟩
    · by_cases hmem : n ∈ ns
      · exact hin n hmem
      · obtain rfl : n = m := by simpa [hmem] using hn
        exact (hout n hmem).trans (Body.get_set_self ..)
    · rw [List.mem_cons, not_or] at hn
      exact (hout n hn.2).trans (Body.get_set_ne _ _ (role_key_ne (Ne.symm hn.1)))

theorem homeReady_eq (b : Body) : homeReady b =
    { (rolesSet (List.range 48) b).set R.MGT_READY.HOME 1 with pwr := { (rolesSet (List.range 48) b).pwr with homeSeen := true } } := rfl

theorem homeReady_ready (b : Body) : (homeReady b).get R.MGT_READY.HOME = 1 ∧ (homeReady b).pwr.homeSeen = true ∧
    (∀ n, n < 48 → (homeReady b).get R.LNK_STATUS.ROLE n = b.img.links.getD n 0 % 2 ^ R.LNK_STATUS.ROLE.w) ∧
    homeReady b = { b with regs := (homeReady b).regs, pwr := (homeReady b).pwr } := by
  obtain ⟨heq, hin, -⟩ := rolesSet_spec (List.range 48) b
  have hregs : (homeReady b).regs = ((rolesSet (List.range 48) b).set R.MGT_READY.HOME 1).regs := by rw [homeReady_eq]
  refine ⟨?_, by rw [homeReady_eq], fun n hn => ?_, ?_⟩
  · rw [Body.get_congr hregs]
    exact Body.get_set_self ..
  · rw [Body.get_congr hregs, Body.get_set_ne _ _ (Fld.key_ne_lo (by decide) (by decide) (by decide))]
    exact hin n (List.mem_range.mpr hn)
  · rw [homeReady_eq, heq]
    rfl

section
variable {b : Body}

theorem readyKnot_ready (h : discGood b = true) (hk : b.get R.MGT_READY.KNOT = 0) :
    (readyKnot b).get R.MGT_READY.KNOT = 1 ∧ (readyKnot b).near = b.near := by
  have heq : readyKnot b = gapsRestart (b.set R.MGT_READY.KNOT 1) (fun r => b.get R.KNT_RGN.STATE r != 2) :=
    if_pos (by simp [h, Body.on, hk])
  rw [heq]
  exact ⟨(Body.get_congr (s := b.set R.MGT_READY.KNOT 1) rfl).trans (Body.get_set_self ..), rfl⟩

theorem readyBit_stack {n : Nat} (hn : 24 ≤ n) (hn' : n < 32) : readyBit n b =
    if quiet b ∨ b.get R.KNT_RGN.STATE (8 + (n - 24)) = 2 then b
    else (b.setB R.MGT_READY.STK (n - 24)).setB R.STO_NEAR.STACK_UP (n - 24) := by
  unfold readyBit
  dsimp only
  iterate 15 rw [if_neg (by omega)]
  rw [if_pos hn']

theorem readyBit_core {n : Nat} (hn : 48 ≤ n) (hn' : n < 64) : readyBit n b =
    if b.on R.MGT_READY.HOME then
      (b.setB R.MGT_READY.CORE (n - 48)).set R.RST_STATUS.CORE_RST (clrBit (b.get R.RST_STATUS.CORE_RST) (n - 48))
    else b := by
  unfold readyBit
  dsimp only
  iterate 17 rw [if_neg (by omega)]
  simp only [hn', true_and]

/-- Without HOME, no bit of a block or of a core is set. -/
theorem readyBit_homeless (h : b.get R.MGT_READY.HOME = 0) {n : Nat} (hn : (4 ≤ n ∧ n < 12) ∨ (48 ≤ n ∧ n < 64)) :
    readyBit n b = b := by
  have hhome : b.on R.MGT_READY.HOME = false := by simp [Body.on, h]
  rcases hn with ⟨hlo, hhi⟩ | ⟨hlo, hhi⟩
  · unfold readyBit
    dsimp only
    interval_cases n <;> simp [hhome]
  · rw [readyBit_core hlo hhi, if_neg (by simp [hhome])]

theorem readyBit_calendar (h : b.get R.CAL_STATUS.VALID = 1) : readyBit 1 b = b.set R.MGT_READY.CAL 1 :=
  if_pos (by simp [Body.on, h])

theorem readyBit_stores (h : b.get R.MGT_READY.HOME = 1) (hs : b.get R.MGT_READY.STK = 255) :
    readyBit 4 b = b.set R.MGT_READY.XLT 1 ∧ readyBit 5 b = b.set R.MGT_READY.DIR 1 := by
  have hcond : (b.on R.MGT_READY.HOME && b.get R.MGT_READY.STK == 255) = true := by simp [Body.on, h, hs]
  exact ⟨if_pos hcond, if_pos hcond⟩

theorem readyBit_engines (h : b.get R.MGT_READY.HOME = 1) (hq : quiet b = false) :
    readyBit 6 b = b.set R.MGT_READY.CDC 1 ∧ readyBit 10 b = b.set R.MGT_READY.POOL 1 := by
  have hcond : (b.on R.MGT_READY.HOME && !quiet b) = true := by simp [Body.on, h, hq]
  exact ⟨if_pos hcond, if_pos hcond⟩

theorem readyBit_home (h : b.get R.MGT_READY.HOME = 0) (hs : b.get R.MGT_READY.SEC = 1) (hi : b.cfg.img.isSome = true) :
    readyBit 3 b = homeReady b :=
  if_neg (by simpa [Body.on, h, hs, Option.isSome_iff_ne_none] using hi)

end

section
variable {s : State}

theorem readinessSet_held (hpin : s.pwr.pin.isSome = true) (n : Nat) : readinessSet n s = s := if_pos (.inr hpin)

theorem readinessSet_bit (hon : s.pwr.off = false) (hpin : s.pwr.pin = none) {n : Nat} (hn : n ≠ 2) :
    readinessSet n s = s.upd (readyBit n) :=
  (if_neg (by simp [hon, hpin])).trans (if_neg hn)

theorem readinessSet_security (hon : s.pwr.off = false) (hpin : s.pwr.pin = none) (hsec : s.get R.MGT_READY.SEC = 0) :
    readinessSet 2 s = secReady s :=
  (if_neg (by simp [hon, hpin])).trans ((if_pos rfl).trans (if_neg (by simp [Body.on, hsec])))

end

/-! ### The obligation -/

section
variable {b : Body}

theorem pgoodLost_quiesces (hpg : b.get R.PWR_STATUS.PG = 1) (hq : quiet b = false) :
    pgoodLost b = ((b.set R.PWR_EVENT.PG_LOSS 1).set R.PWR_STATUS.PG 0).arm (.pwr .quiesce) := by
  have hon : b.on R.PWR_STATUS.PG = true := by simp [Body.on, hpg]
  have hstate : quiet ((b.set R.PWR_EVENT.PG_LOSS 1).set R.PWR_STATUS.PG 0) = quiet b := by
    rw [quiet, Body.get_set_ne _ _ (by decide), Body.get_set_ne _ _ (by decide), quiet]
  unfold pgoodLost
  dsimp only
  rw [if_pos hon, if_neg (by simp [hstate, hq])]

end

section
variable {s : State}

/-- SEC, set: a fresh nonce and a fresh key pair, and no slot and no fuse touched (R441, R449). -/
theorem secReady_readies (h : s.sec.destroy = false ∨ s.sec.lcs ≠ 0x0F) :
    (secReady s).get R.MGT_READY.SEC = 1 ∧ (secReady s).sec.kem = s.sec.kemMade + 1 ∧
      (secReady s).sec.kemMade = s.sec.kemMade + 1 ∧ (secReady s).sec.nonce.length = 32 ∧
      (secReady s).sec.slots = s.sec.slots ∧ (secReady s).sec.lcs = s.sec.lcs ∧
      secReady s = { s with regs := (secReady s).regs, drawn := (secReady s).drawn, sec := (secReady s).sec } := by
  rw [secReady_held h]
  exact ⟨Body.get_set_self .., rfl, rfl, free32_length s.toBody, rfl, rfl, rfl⟩

/-- POWER_ON of a package that kept its calendar: the straps are read, and the boot profile's load armed. -/
theorem powerOn_kept_boots {psel : Nat} (hp : psel < 4) (hoff : s.pwr.off = true) (hpin : s.pwr.pin = none)
    (hcell : s.pwr.cellLost = false) : let t := powerOn psel false s
    t.pwr.off = false ∧ t.get R.CFG_STATUS.PSEL = psel ∧ t.get R.CFG_STATUS.BOOT = psel ∧
      t.acts = s.acts ++ [.load psel false] ∧ t.sec = s.sec ∧ t.near = s.near ∧ t.far = s.far := by
  obtain ⟨hpsel, hboot⟩ := broughtUp_straps (s.upd inputOn) hp
  dsimp only
  rw [powerOn_kept hoff hpin hcell]
  refine ⟨?_, hpsel, hboot, ?_⟩
  · rw [broughtUp_only _ hp]
    rfl
  · rw [broughtUp_only _ hp]
    exact ⟨rfl, rfl, rfl, rfl⟩

theorem lossShown_shows (b : Body) : (lossShown b).get R.CAL_STATUS.VALID = 0 ∧ (lossShown b).get R.CAL_STATUS.CELL_FAIL = 1 ∧
    (lossShown b).get R.SEC_EVENT.LOG_LOST = 1 := by
  unfold lossShown
  rw [Body.get_set_self, Body.get_set_ne _ _ (by decide), Body.get_set_ne _ _ (by decide), Body.get_set_self,
    Body.get_set_ne _ _ (by decide), Body.get_set_self]
  exact ⟨rfl, rfl, rfl⟩

/-- POWER_ON of a package that lost its cell: the loss is shown, and the tamper log has the one entry that says it (R434, R467). -/
theorem powerOn_lost_boots {psel : Nat} (hp : psel < 4) (hoff : s.pwr.off = true) (hpin : s.pwr.pin = none)
    (hcell : s.pwr.cellLost = true) : let t := powerOn psel false s
    t.pwr.off = false ∧ t.sec.tlog.length = 1 ∧ t.get R.CAL_STATUS.VALID = 0 ∧ t.get R.CAL_STATUS.CELL_FAIL = 1 ∧
      t.get R.SEC_EVENT.LOG_LOST = 1 ∧ t.acts = s.acts ++ [.load psel false] ∧ t.near = s.near ∧ t.far = s.far := by
  have hlog := tlogAdd_unsent (tlogEmptied (s.upd inputOn)) 0x05 0 0 true
  have hlen := tlogAdd_length (tlogEmptied (s.upd inputOn)) 0x05 0 0 true
  obtain ⟨hvalid, hfail, hlost⟩ := lossShown_shows (inputOn s.toBody)
  dsimp only
  rw [powerOn_lost hoff hpin hcell, broughtUp_get _ _ (by decide) (by decide) (by decide) (by decide) (by decide),
    broughtUp_get _ _ (by decide) (by decide) (by decide) (by decide) (by decide),
    broughtUp_get _ _ (by decide) (by decide) (by decide) (by decide) (by decide), tlogAdd_get, tlogAdd_get, tlogAdd_get,
    broughtUp_only _ hp]
  refine ⟨?_, hlen, hvalid, hfail, hlost, ?_, ?_, ?_⟩ <;> rw [hlog] <;> rfl

/-- A fresh POWER_ON comes from a POWER reset, whose cause it leaves (R436, R438). -/
theorem powerOn_fresh_boots {psel : Nat} (hp : psel < 4) (hpin : s.pwr.pin = none) : let t := powerOn psel true s
    t.pwr.off = false ∧ t.get R.RST_CAUSE.KIND = 4 ∧ t.get R.RST_CAUSE.CAUSE = 1 ∧ t.near = [] ∧ t.far = s.far ∧
      t.acts = [.load psel false] ∧ t.sec.slots = s.sec.slots ∧ t.cfg.img = none := by
  obtain ⟨hoff, hpinned, hnear, hfar, hacts, hslots, himg⟩ := powerReset_leaves s 1
  obtain ⟨hkind, hcause⟩ := rstRecord_cause s.toBody (kind := 4) (cause := 1) (by decide) (by decide)
  obtain ⟨u, heq, hup, huacts, hunear, hufar, huslots, hucfg, huget, -, -⟩ :=
    powerOn_brings (psel := psel) hoff (hpinned.trans hpin)
  dsimp only
  rw [powerOn_fresh, heq, broughtUp_get _ _ (by decide) (by decide) (by decide) (by decide) (by decide),
    broughtUp_get _ _ (by decide) (by decide) (by decide) (by decide) (by decide), huget _ (by decide) (by decide) (by decide),
    huget _ (by decide) (by decide) (by decide), powerReset_kept _ _ (by decide), powerReset_kept _ _ (by decide),
    broughtUp_only _ hp]
  exact ⟨hup, hkind, hcause, hunear.trans hnear, hufar.trans hfar, congrArg (· ++ [Act.load psel false]) (huacts.trans hacts),
    huslots.trans hslots, (congrArg CfgSt.img hucfg).trans himg⟩

end

/-- Settles O55. -/
theorem powerAndBringUp : Obligations.PowerAndBringUp := by
  refine ⟨fun s hon => ?powered, fun s => ?pin, fun s psel hp => ?on, fun s hon => ?ready⟩
  case powered =>
    have run (f : Body → Body) : Host.Outcome.next (φ := Fault) (ρ := Refusal) (live (low f) s) = .next (s.upd f) :=
      congrArg _ (live_on _ hon)
    have acts {f : Body → Body} {a : Act} (h : f s.toBody = s.toBody.arm a) :
        Host.Outcome.next (φ := Fault) (ρ := Refusal) (live (low f) s) = .next (s.arm a) :=
      (run f).trans (congrArg _ (upd_congr h))
    have idles {f : Body → Body} (h : f s.toBody = s.toBody) :
        Host.Outcome.next (φ := Fault) (ρ := Refusal) (live (low f) s) = .next s :=
      (run f).trans (congrArg _ (upd_unchanged h))
    refine ⟨fun h hs => acts (if_pos ⟨h, hs⟩), fun h => idles (if_neg ?_),
      fun h hs hl hf => acts (if_pos ((mayStep_iff 1).mpr ⟨h, hs, hl, by omega⟩)), fun h => idles (if_neg ?_),
      fun h hs hl => acts (if_pos ((mayRelax_iff 1).mpr ⟨h, hs, by omega⟩)), fun h => idles (if_neg ?_),
      fun b h hs => if_pos ⟨h, hs⟩, fun b hs => ⟨fun h => ⟨levelNow_down_not h, fun hn hf => levelNow_rises hs h hn hf⟩,
        fun h => ⟨levelNow_up_not h, fun hn => levelNow_end ((mayRelax_iff 0).mpr ⟨h, hs, .inl hn⟩) hn,
          fun h0 h5 hf => levelNow_falls hs h h0 h5 hf⟩⟩,
      fun h hq => acts (if_pos ⟨by simp [hq], ?enters⟩), fun h => idles (if_neg ?_), fun hpg hq => ?_,
      fun b hq => quiesceNow_begins hq, fun hq hs he => acts (if_pos ⟨hq, hs, he⟩),
      fun b hq hs he => ⟨fun hd => ?_, fun hd => stopNow_serving hd⟩,
      fun hq he => ⟨fun h => acts (if_pos ⟨hq, he, h⟩), fun h => idles (if_neg (by omega))⟩,
      fun b hq he => ⟨endNow_ends hq he, endNow_early⟩, fun hq he => acts (if_pos ⟨hq, he⟩), 
      fun he => idles (if_neg (by simp [he])),
      fun b hq he => restartNow_restarts hq he, run _, fun ho => congrArg Host.Outcome.next (onReg_on _ hon ho)⟩
    · rintro ⟨hholds, hzero⟩
      rcases h with h | h
      · simp [hholds] at h
      · exact h hzero
    · rw [mayStep_iff]
      rintro ⟨hholds, hone, hlevel, hfor⟩
      rcases h with h | h | h | h
      · simp [hholds] at h
      · exact h hone
      · exact absurd hlevel (by omega)
      · omega
    · rw [mayRelax_iff]
      rintro ⟨hholds, hone, hlevel⟩
      rcases h with h | h | ⟨hl, hfor⟩
      · simp [hholds] at h
      · exact h hone
      · exact hlevel.elim hl (by omega)
    · rintro ⟨hq, hlow⟩
      rcases h with h | ⟨hv, hpg⟩
      · simp [h] at hq
      · exact hlow.elim (by omega) fun hoff => hpg (by simpa [Body.on] using hoff)
    · exact (run pgoodLost).trans (congrArg (fun b : Body => Host.Outcome.next { s with toBody := b }) (pgoodLost_quiesces hpg hq))
    · refine (congrArg (fun t : Body => t.pwr.stopped = some b.now ∧ (∀ r ∈ powerRegions, t.get R.KNT_RGN.STATE r = 2) ∧
        t.near = b.near ∧ t.far = b.far ∧ t.olp = b.olp) (stopNow_drained hq hs he hd)).mpr (stopAll_stops powerRegions b)
    case enters => exact h.imp_right fun hpg => by simp [Body.on, hpg]
  case pin =>
    have acts {f g : Body → Body} (h : f s.toBody = g s.toBody) :
        Host.Outcome.next (φ := Fault) (ρ := Refusal) (low f s) = .next (s.upd g) := congrArg Host.Outcome.next (upd_congr h)
    have idles {f : Body → Body} (h : f s.toBody = s.toBody) :
        Host.Outcome.next (φ := Fault) (ρ := Refusal) (low f s) = .next s := congrArg Host.Outcome.next (upd_unchanged h)
    exact ⟨fun h => idles (pinAssert_again h), fun h => ⟨
      fun hh => acts (g := fun b => (pinHeld b).arm (.reset 3 4)) (pinAssert_home h hh),
      fun hh hon => acts (g := fun b => (pinHeld b).arm (.reset 4 4)) (pinAssert_on h hh hon),
      fun hh hoff => acts (pinAssert_off h hh hoff)⟩, rfl, fun n h hon => ⟨
        fun hn => acts (g := fun b => b.arm (.reset 4 4)) (pinHold_long h hon hn),
        fun hn => idles (pinHold_short h hn)⟩⟩
  case on =>
    have hexec (fresh : Bool) : exec (.powerOn psel fresh) s = .next (powerOn psel fresh s) :=
      congrArg (fun n => Host.Outcome.next (powerOn n fresh s)) (Nat.mod_eq_of_lt hp)
    exact ⟨fun h => (hexec false).trans (congrArg _ (powerOn_idle h)), fun hpin =>
      ⟨fun hoff hcell => ⟨_, hexec false, powerOn_kept_boots hp hoff hpin hcell⟩,
        fun hoff hcell => ⟨_, hexec false, powerOn_lost_boots hp hoff hpin hcell⟩, _, hexec true, powerOn_fresh_boots hp hpin⟩⟩
  case ready =>
    refine ⟨fun h n => congrArg Host.Outcome.next (readinessSet_held h n), fun hpin => ?_⟩
    have bit {n : Nat} (hn : n ≠ 2) : exec (.readinessSet n) s = .next (s.upd (readyBit n)) :=
      congrArg Host.Outcome.next (readinessSet_bit hon hpin hn)
    have sets {n : Nat} {f : Body → Body} (hn : n ≠ 2) (h : readyBit n s.toBody = f s.toBody) :
        exec (.readinessSet n) s = .next (s.upd f) := (bit hn).trans (congrArg _ (upd_congr h))
    refine ⟨fun hz hkept => ⟨_, congrArg Host.Outcome.next (readinessSet_security hon hpin hz), secReady_readies hkept⟩,
      fun hz hsec himg => ?_, fun hg hz => ⟨_, bit (by decide), readyKnot_ready hg hz⟩,
      fun h => sets (by decide) (readyBit_calendar h),
      fun hh hs => ⟨sets (by decide) (readyBit_stores hh hs).1, sets (by decide) (readyBit_stores hh hs).2⟩,
      fun hh hq => ⟨sets (by decide) (readyBit_engines hh hq).1, sets (by decide) (readyBit_engines hh hq).2⟩,
      fun hz n hn => (bit (by omega)).trans (congrArg _ (upd_unchanged (readyBit_homeless hz hn))),
      fun k hk hq hst => (bit (by omega)).trans ?_, fun c hc hh => (bit (by omega)).trans ?_⟩
    · obtain ⟨hhome, hseen, hroles, honly⟩ := homeReady_ready s.toBody
      exact ⟨_, sets (by decide) (readyBit_home hz hsec himg), hhome, hseen, hroles, upd_congr honly⟩
    · have hset := (readyBit_stack (b := s.toBody) (n := 24 + k) (by omega) (by omega)).trans (if_neg (by simp [hq, hst]))
      rw [Nat.add_sub_cancel_left] at hset
      exact congrArg (fun b : Body => Host.Outcome.next { s with toBody := b }) hset
    · have hset := (readyBit_core (b := s.toBody) (n := 48 + c) (by omega) (by omega)).trans (if_pos (by simp [Body.on, hh]))
      rw [Nat.add_sub_cancel_left] at hset
      exact congrArg (fun b : Body => Host.Outcome.next { s with toBody := b }) hset

end Sys2Proof.Machine
end

section
/-!
SUPPORT. What says which image is in effect (R416, R420), and that removing partitions, hitching, and the work of links, sleds and
contexts that comes with it leave it as it is.
-/

namespace Sys2Proof.Machine

/-! ### The image in effect -/

/-- The registers that show which image is in effect (R416). -/
def imageShown : List Fld := [R.CFG_STATUS.STATE, R.CFG_STATUS.ACTIVE, R.CFG_STATUS.BOOT, R.CFG_EVENT.APPLIED]

/-- The profiles, the image and the registers that show it are the same. -/
def ImageKept (s t : Body) : Prop := t.cfg = s.cfg ∧ ∀ g ∈ imageShown, t.get g = s.get g

/-- No register that shows the image has this bit for its lowest. -/
abbrev lowElsewhere (f : Fld) : Prop := f.lo < 64 ∧ ∀ g ∈ imageShown, f.lo ≠ g.lo

section
variable {s t u : Body}

theorem ImageKept.refl (s : Body) : ImageKept s s := ⟨rfl, fun _ _ => rfl⟩

theorem ImageKept.trans (h : ImageKept s t) (h' : ImageKept t u) : ImageKept s u := by
  obtain ⟨hcfg, hget⟩ := h
  obtain ⟨hcfg', hget'⟩ := h'
  exact ⟨hcfg'.trans hcfg, fun g hg => (hget' g hg).trans (hget g hg)⟩

theorem ImageKept.of_eq (hcfg : t.cfg = s.cfg) (hregs : t.regs = s.regs) : ImageKept s t := ⟨hcfg, fun _ _ => Body.get_congr hregs⟩

theorem ImageKept.ite {p : Prop} [Decidable p] (ht : ImageKept s t) (hu : ImageKept s u) : ImageKept s (if p then t else u) := by
  split
  · exact ht
  · exact hu

theorem ImageKept.setCtx (h : ImageKept s t) (c x : Nat) (v : Ctx) : ImageKept s (t.setCtx c x v) := h.trans (.of_eq rfl rfl)

theorem imageShown_lo {g : Fld} (hg : g ∈ imageShown) : g.lo < 64 := by
  have hall : ∀ g ∈ imageShown, g.lo < 64 := by decide
  exact hall g hg

theorem ImageKept.set (h : ImageKept s t) {f : Fld} (v i j : Nat) (hf : lowElsewhere f) : ImageKept s (t.set f v i j) :=
  h.trans ⟨rfl, fun g hg => Body.get_set_ne _ _ (Fld.key_ne_lo hf.1 (imageShown_lo hg) (hf.2 g hg))⟩

/-- A write through a window, of another register. -/
theorem ImageKept.setView (h : ImageKept s t) {f : Fld} (v j : Nat) (hlo : f.lo < 64)
    (hf : ∀ g ∈ imageShown, f.off ≠ g.off ∧ f.off < windowSize ∧ g.off < windowSize) : ImageKept s (t.set f v 0 j) :=
  h.trans ⟨rfl, fun g hg => Body.get_set_ne _ _ (Fld.key_ne_view j hlo (imageShown_lo hg) (hf g hg))⟩

theorem ImageKept.count (h : ImageKept s t) {f : Fld} (n i j : Nat) (hf : f.lo = 0) : ImageKept s (t.count f n i j) := by
  have hne : ∀ g ∈ imageShown, 0 ≠ g.lo ∧ 63 ≠ g.lo := by decide
  refine h.trans ⟨by rw [Body.count_regs], fun g hg => ?_⟩
  obtain ⟨hlo, hovf⟩ := hne g hg
  exact Body.get_count_ne _ _ (Fld.key_ne_lo (by omega) (imageShown_lo hg) (by omega))
    (Fld.key_ne_lo (show 63 < 64 by decide) (imageShown_lo hg) hovf)

/-- A fold whose steps keep the image keeps it; `body` picks the state out of what the fold carries. -/
theorem ImageKept.foldl_of {α β : Type} {f : β → α → β} (body : β → Body) (hf : ∀ b a, ImageKept (body b) (body (f b a)))
    (l : List α) (b : β) : ImageKept (body b) (body (l.foldl f b)) := by
  induction l generalizing b with
  | nil => exact .refl _
  | cons a l ih => exact (hf b a).trans (ih _)

theorem ImageKept.foldl {α : Type} {f : Body → α → Body} {l : List α} (h : ImageKept s t) (hf : ∀ b a, ImageKept b (f b a)) :
    ImageKept s (l.foldl f t) := h.trans (.foldl_of (fun b => b) hf l t)

end

theorem lowElsewhere_of_zero {f : Fld} (h : f.lo = 0) : lowElsewhere f := by
  have hall : ∀ g ∈ imageShown, 0 ≠ g.lo := by decide
  exact ⟨by omega, fun g hg => by rw [h]; exact hall g hg⟩

section
variable (s : Body)

/-! ### Messages, the store and the directory -/

theorem peerSend_imageKept (hid op addr arg pid : Nat) (pay : List Byte) (p : PeerFor) (want : Nat) :
    ImageKept s (peerSend s hid op addr arg pid pay p want) := by
  have h := peerLaunch_only s {
    link := match peerOf s hid with | some p => p.link | none => 48, tag := 0, hid := hid, op := op, addr := addr, arg := arg,
    pid := pid, payload := pay, want := want, knot := s.now, purpose := p }
  refine .of_eq ?_ ?_
  · exact (congrArg Body.cfg h :)
  · exact (congrArg Body.regs h :)

theorem SledMsgsOnly.imageKept {s t : Body} (h : SledMsgsOnly s t) : ImageKept s t := .of_eq (by rw [h]) (by rw [h])

theorem snoopSend_imageKept (r : Round) (e : DirEntry) (cid link : Nat) (resend : Bool) :
    ImageKept s (snoopSend s r e cid link resend).2 := by
  unfold snoopSend
  dsimp only
  split
  · exact .refl s
  · exact .count (.of_eq rfl rfl) 1 0 0 rfl

theorem snoopAll_imageKept (r : Round) (e : DirEntry) (resend : Bool) (l : List (Nat × Nat)) :
    ImageKept s (snoopAll s r e resend l).2 := by
  induction l generalizing s with
  | nil => exact .refl s
  | cons a l ih => exact (snoopSend_imageKept s r e a.1 a.2 resend).trans (ih _)

theorem roundLaunched_imageKept (e : DirEntry) (r : Round) (resend : Bool) (l : List (Nat × Nat)) :
    ImageKept s (roundLaunched s e r resend l) := by
  have hsent := snoopAll_imageKept s r e resend l
  exact hsent.trans (.ite (.count (.count (.of_eq rfl rfl) 1 0 0 rfl) 1 0 0 rfl) (.count (.of_eq rfl rfl) 1 0 0 rfl))

theorem startRound_imageKept (e : DirEntry) (purpose : RoundFor) (without : Option Nat) (cls resend : Bool) :
    ImageKept s (startRound s e purpose without cls resend).2 := by
  cases hmark : e.reissue with
  | none =>
    rw [startRound_unmarked s purpose without cls resend hmark]
    exact roundLaunched_imageKept ..
  | some d =>
    obtain ⟨targets, hrun⟩ := startRound_marked s purpose without cls resend hmark
    rw [hrun]
    exact ImageKept.trans (t := setEntry s e.line (some { e with reissue := none })) (.of_eq rfl rfl) (roundLaunched_imageKept ..)

theorem loseLine_imageKept (e : DirEntry) (cid knot cause : Nat) : ImageKept s (loseLine s e cid knot cause) :=
  have hmarked : ImageKept s (setEntry s e.line
      (some { e with st := .l, ptrs := [], lcid := cid, lknot := knot, reissue := none, ports := [] })) :=
    .of_eq rfl rfl
  .count (.setView (.setView (.setView (.setView (.setView hmarked _ 0 (by decide) (by decide)) _ 0 (by decide) (by decide))
    _ 0 (by decide) (by decide)) _ 0 (by decide) (by decide)) _ 0 (by decide) (by decide)) 1 0 0 rfl

theorem reclaim_imageKept (line : Nat) : ImageKept s (reclaim s line) := by
  unfold reclaim
  split
  · exact .refl s
  · split
    · split
      · exact .ite (loseLine_imageKept ..) (.refl s)
      · exact .refl s
    · exact .ite (.refl s) (.of_eq rfl rfl)
    · exact .refl s

theorem clearForWrite_imageKept (l : List Nat) : ImageKept s (clearForWrite s l).2 := by
  induction l generalizing s with
  | nil => exact .refl s
  | cons a l ih =>
    refine (reclaim_imageKept s a).trans (ImageKept.trans ?_ (ih _))
    split
    · exact .refl _
    · split
      · exact .refl _
      · split
        · exact .refl _
        · split
          · exact .of_eq rfl rfl
          · exact startRound_imageKept ..

theorem dirtyUnit_imageKept (loc : Nat) : ImageKept s (dirtyUnit s loc) := by
  unfold dirtyUnit
  dsimp only
  split
  · split
    next demote done _ _ =>
      have hback : ImageKept s (backSome (unitMarked s (unitOf loc)) (unitOf loc) done).2 := .of_eq rfl rfl
      split
      · exact .trans (hback.count (f := R.STO_DEMOTE_CANCEL.COUNT) 1 0 0 rfl) (.of_eq rfl rfl)
      · exact .of_eq rfl rfl
    next => exact .of_eq rfl rfl
  · exact .refl s

theorem wr_imageKept (loc : Nat) (b : List Byte) : ImageKept s (s.wr loc b) := by
  rw [wr_stages, linesGood_eq, farPut_eq, nearPut_eq]
  exact (dirtyUnit_imageKept s loc).trans (.of_eq rfl rfl)

theorem farReads_imageKept (cls : Bool) (l : List (Nat × Nat × Nat)) : ImageKept s (farReads s cls l).2.2 :=
  .foldl_of (fun a : List (Nat × Nat × Bool) × Nat × Body => a.2.2)
    (fun _ _ => ((sledSend_only ..).imageKept).count _ 0 0 rfl) l ([], 0, s)

theorem farWrites_imageKept (o : FarOp) (l : List (Nat × Nat × Nat)) : ImageKept s (farWrites s o l).2.2 := by
  refine .foldl_of (fun a : List (Nat × Nat × Bool) × Nat × Body => a.2.2) (fun a p => ?_) l ([], 0, s)
  dsimp only
  split
  · exact ((sledSend_only ..).imageKept).count _ 0 0 rfl
  · exact .refl _

theorem farOpen_imageKept (o : FarOp) (reads writes : List (Nat × Nat × Nat)) : ImageKept s (farOpen s o reads writes).s :=
  ((farReads_imageKept s o.cls reads).trans (farWrites_imageKept _ o writes)).trans (.of_eq rfl rfl)

theorem farWrite_imageKept (w : FarFor) (new : List (Nat × List Byte)) (p : Nat × Nat × Nat) : ImageKept s (farWrite s w new p).s := by
  unfold farWrite
  dsimp only
  split
  · exact .refl s
  · split
    · exact .refl s
    · split
      · split
        · exact (farReads_imageKept ..).trans (.of_eq rfl rfl)
        · exact (farOpen_imageKept ..).count 1 0 0 rfl
      · exact farOpen_imageKept ..

theorem ecDeltas_imageKept (w : FarFor) (lines : List (Nat × Nat × List Byte × List Byte)) : ImageKept s (ecDeltas s w lines).2 := by
  unfold ecDeltas
  dsimp only
  split
  · exact .refl s
  · split
    · exact .refl s
    · split
      · exact .refl s
      · dsimp only
        refine .foldl (.count (.of_eq rfl rfl) _ 0 0 rfl) fun t d => ?_
        split
        · exact .trans (.count (.refl t) 1 0 0 rfl) (.of_eq rfl rfl)
        · exact peerSend_imageKept ..

theorem cacheWrite_imageKept (c sga : Nat) (b : List Byte) : ImageKept s (cacheWrite s c sga b) := .ite (.refl s) (.of_eq rfl rfl)

end

section
variable (s : Body)

/-! ### Contexts that end (R179, R198) -/

theorem engPut_imageKept (c sga loc : Nat) (b : List Byte) (who : Option (Nat × Nat)) : ImageKept s (engPut s c sga loc b who) := by
  unfold engPut
  extract_lets lines t after w new old
  have hlines : ImageKept s t := .foldl (.refl s) fun u l => .ite (.count (.of_eq rfl rfl) 1 0 0 rfl) (.refl u)
  clear_value t
  split
  next ids u hfar =>
    extract_lets v
    have hwritten : ImageKept s v := by
      have hfold := ImageKept.foldl_of (fun a : List Nat × Body => a.2)
        (f := fun a p => (a.1 ++ (farWrite a.2 w new p).id.toList, (farWrite a.2 w new p).s))
        (fun _ _ => farWrite_imageKept ..) (farPieces [(loc, sga, b.length)]) ([], t)
      rw [hfar] at hfold
      exact (hlines.trans hfold).trans (wr_imageKept ..)
    clear_value v
    split
    next i x hdelta =>
      extract_lets y
      have hdeltas : ImageKept v x := by
        split at hdelta
        · split at hdelta
          · exact (congrArg (ImageKept v) (congrArg Prod.snd hdelta)).mp (ecDeltas_imageKept ..)
          · cases hdelta
            exact .refl v
        · cases hdelta
          exact .refl v
      have hctx : ImageKept x y := by
        unfold y
        split
        · exact .of_eq rfl rfl
        · exact .refl x
      exact ((hwritten.trans hdeltas).trans hctx).trans (cacheWrite_imageKept ..)

theorem localWrite_imageKept {t : Body} (h : ImageKept s t) (ls : List Nat) (c sga loc : Nat) (b : List Byte) :
    ImageKept s ((engPut (clearForWrite t ls).2 c sga loc b).count R.TXN_LOCAL.COUNT) :=
  .count (h.trans ((clearForWrite_imageKept ..).trans (engPut_imageKept ..))) 1 0 0 rfl

theorem mergeAbandon_imageKept (m : MergeRec) : ImageKept s (mergeAbandon s m) := by
  unfold mergeAbandon
  extract_lets t u
  have hlost : ImageKept s u := .set (.of_eq rfl rfl) 1 0 0 (by decide)
  clear_value u
  split
  split
  · split
    · exact localWrite_imageKept s hlost ..
    · exact hlost
  · exact hlost

theorem mergeEnd_imageKept (c x : Nat) : ImageKept s (mergeEnd s c x) := by
  unfold mergeEnd
  split
  · exact .refl s
  · exact .ite (.set (.of_eq rfl rfl) 1 0 0 (lowElsewhere_of_zero rfl)) (.of_eq rfl rfl)

theorem syncRec_imageKept (ty core ctx queue op pid sem seq operand value : Nat) (ext : List Byte) :
    ImageKept s (syncRec s ty core ctx queue op pid sem seq operand value ext) := .ite (.of_eq rfl rfl) (.refl s)

theorem waitEnd_imageKept (c x i : Nat) (y : SyncW) (aborted : Bool) : ImageKept s (waitEnd s c x i y aborted) := by
  unfold waitEnd
  split
  · exact .refl s
  · exact ImageKept.trans (.of_eq rfl rfl) (syncRec_imageKept ..)

theorem slotAbort_imageKept (c x : Nat) : ImageKept s (slotAbort s c x) := by
  refine .foldl (.refl s) fun t n => ?_
  dsimp only
  split
  · exact .ite (.ite (.of_eq rfl rfl) (.of_eq rfl rfl)) (.refl t)
  · exact .refl t

theorem seizeFinish_imageKept (o : Origin) : ImageKept s (seizeFinish s o) := by
  unfold seizeFinish
  refine .ite (.refl s) ?_
  dsimp only
  refine .ite (ImageKept.trans (.of_eq rfl rfl) (peerSend_imageKept ..)) ?_
  split
  · exact .of_eq rfl rfl
  · exact .ite (.of_eq rfl rfl) (.of_eq rfl rfl)
  · exact .of_eq rfl rfl
  · exact .of_eq rfl rfl

theorem ctxForget_imageKept (c x : Nat) : ImageKept s (ctxForget s c x) := by
  refine ImageKept.trans (.foldl (.refl s) fun t o => ?_) (.of_eq rfl rfl)
  refine .ite ?_ (.refl t)
  dsimp only
  exact (ImageKept.ite (.refl t) (seizeFinish_imageKept ..)).trans (.of_eq rfl rfl)

theorem plansDrop_imageKept (c x : Nat) (ps : List (List Nat)) : ImageKept s (plansDrop s c x ps) :=
  .foldl (.refl s) fun _ _ => .of_eq rfl rfl

theorem slotsDrop_imageKept (c x : Nat) : ImageKept s (slotsDrop s c x) := (plansDrop_imageKept ..).trans (.of_eq rfl rfl)

theorem seqTryFree_imageKept (n : Nat) : ImageKept s (seqTryFree s n) := by
  unfold seqTryFree
  refine .ite (.refl s) ?_
  dsimp only
  split
  · exact .ite (.of_eq rfl rfl) (.of_eq rfl rfl)
  · exact .of_eq rfl rfl

theorem mtxDrop_imageKept (c x : Nat) : ImageKept s (mtxDrop s c x) :=
  .foldl (.of_eq rfl rfl) fun _ _ => ImageKept.trans (.of_eq rfl rfl) (seqTryFree_imageKept ..)

/-- A context that ends without a record leaves the image alone. -/
theorem abortCtx_imageKept (c x status : Nat) : ImageKept s (abortCtx s c x status false) := by
  unfold abortCtx
  extract_lets v t u u₁ u₂ u₃ w u₄
  have hwaits : ImageKept s u := .foldl (.foldl (.refl s) fun _ _ => waitEnd_imageKept ..) fun _ _ => waitEnd_imageKept ..
  have hslot : ImageKept u u₁ := slotAbort_imageKept ..
  have hmerge : ImageKept u₁ u₂ := by
    unfold u₂
    split
    · exact .ite (mergeEnd_imageKept ..) (mergeAbandon_imageKept ..)
    · exact .refl u₁
  have hforgets : ImageKept u₂ u₃ := ctxForget_imageKept ..
  clear_value u₃ u₂ u₁ u
  have hends : ImageKept u₃ u₄ := .setCtx (.refl u₃) ..
  clear_value u₄
  have hall := (((hwaits.trans hslot).trans hmerge).trans hforgets).trans hends
  refine .ite (.refl s) (.ite (hwaits.setCtx ..) ?_)
  rw [if_neg (by simp)]
  exact ((hall.trans (mtxDrop_imageKept ..)).trans (slotsDrop_imageKept ..)).setCtx ..

end

end Sys2Proof.Machine
end

section
/-!
SUPPORT. An image takes effect (R375, R419, R420, R424): at the end of a load, and at the knot of a PARTIAL.
-/

namespace Sys2Proof.Machine

section
variable (s : Body)

/-! ### Partitions, hitches, links and regions -/

theorem setSem_imageKept (c n v : Nat) : ImageKept s (setSem s c n v) := .set (.refl s) _ _ 0 (lowElsewhere_of_zero rfl)

theorem abortCtxs_imageKept (core pid : Option Nat) (status : Nat) : ImageKept s (abortCtxs s core pid status false) :=
  .foldl (.refl s) fun t _ => .ite (.refl t) (.foldl (.refl t) fun u _ => .ite (.refl u) (abortCtx_imageKept ..))

theorem partitionClear_imageKept (pid status : Nat) : ImageKept s (partitionClear s pid status false) := by
  have hset {t : Body} (c n : Nat) (ns : List Nat) : ImageKept t (ns.foldl (fun s i => setSem s c (n + i) 0) t) :=
    .foldl (.refl t) fun _ _ => setSem_imageKept ..
  unfold partitionClear
  extract_lets u₁ u₂ u₃ u₄ nq u₅ u₆ slots
  have h₁ : ImageKept s u₁ := abortCtxs_imageKept ..
  have h₂ : ImageKept u₁ u₂ := .foldl (.refl u₁) fun _ _ => mergeAbandon_imageKept ..
  have h₃ : ImageKept u₂ u₃ := .foldl (.refl u₂) fun t d => .ite (.refl t) (hset ..)
  have h₄ : ImageKept u₃ u₄ := .foldl (.refl u₃) fun t c => .count (.of_eq rfl rfl) 1 c 0 rfl
  have h₅ : ImageKept u₄ u₅ := .foldl (.refl u₄) fun t q =>
    .set (.set (.refl t) _ _ _ (lowElsewhere_of_zero rfl)) _ _ _ (by decide)
  have h₆ : ImageKept u₅ u₆ := .foldl (.refl u₅) fun t k => .of_eq rfl rfl
  exact .foldl (((((h₁.trans h₂).trans h₃).trans h₄).trans h₅).trans h₆) fun t k => .ite (.of_eq rfl rfl) (.refl t)

theorem partitionRemove_imageKept (pid : Nat) : ImageKept s (partitionRemove s pid) := by
  unfold partitionRemove
  extract_lets t prt dir xlt u
  have hclear : ImageKept s t := partitionClear_imageKept ..
  clear_value t
  have hgone : ImageKept s u := hclear.trans (.of_eq rfl rfl)
  exact .setView (.setView (.setView hgone 0 pid (by decide) (by decide)) 0 pid (by decide) (by decide)) 0 pid (by decide) (by decide)

theorem hitchesTake_imageKept (ok : Nat → Bool) : ImageKept s (hitchesTake s ok) :=
  .foldl (.refl s) fun t _ => .ite (.of_eq rfl rfl) (.refl t)

theorem stoErr_imageKept (status cause pos region row addr : Nat) : ImageKept s (stoErr s status cause pos region row addr) :=
  .setView (.setView (.setView (.setView (.setView (.setView (.setView (.refl s) _ 0 (by decide) (by decide)) _ 0 (by decide)
    (by decide)) _ 0 (by decide) (by decide)) _ 0 (by decide) (by decide)) _ 0 (by decide) (by decide)) _ 0 (by decide)
    (by decide)) _ 0 (by decide) (by decide)

theorem regionLost_imageKept (rid : Nat) : ImageKept s (regionLost s rid) := by
  unfold regionLost
  extract_lets base t u
  have herr : ImageKept s t := stoErr_imageKept ..
  have hlost : ImageKept s u := .setView (.setView herr 1 rid (by decide) (by decide)) 1 0 (by decide) (by decide)
  exact .ite (.refl s) (hlost.trans (.of_eq rfl rfl))

theorem schedTake_imageKept : ImageKept s (schedTake s) := by
  unfold schedTake
  dsimp only
  exact .set (.set (.set (.set (.refl s) _ 0 0 (by decide)) _ 0 0 (by decide)) _ 0 0 (by decide)) _ 0 0 (by decide)

theorem relabel_imageKept : ImageKept s (relabel s) := by
  refine .foldl (.refl s) fun t q => ?_
  dsimp only
  split
  · exact (metaPut_only ..).imageKept
  · exact .refl t

theorem sledSuspect_imageKept (n : Nat) : ImageKept s (sledSuspect s n) := by
  unfold sledSuspect
  split
  · exact .refl s
  · split
    next q _ =>
      have hsuspect : ImageKept s ((s.set R.STO_SLED.STATE 2 q).set R.STO_EVENT.SLED_SUSPECT 1) :=
        .set (.set (.refl s) 2 q 0 (by decide)) 1 0 0 (by decide)
      exact .ite (hsuspect.trans (.of_eq rfl rfl)) (.refl s)
    next => exact .refl s

theorem enterRetrain_imageKept (n : Nat) : ImageKept s (enterRetrain s n) := by
  have hstate : ImageKept s ((s.set R.LNK_STATUS.STATE lsRETRAIN n).set R.LNK_EVENT.RETRAIN_EV 1 n) :=
    .set (.set (.refl s) _ n 0 (by decide)) 1 n 0 (by decide)
  exact (hstate.trans (.of_eq rfl rfl)).trans (sledSuspect_imageKept ..)

theorem enterDark_imageKept (n : Nat) : ImageKept s (enterDark s n) := by
  have hstate : ImageKept s (s.set R.LNK_STATUS.STATE lsDARK n) := .set (.refl s) _ n 0 (by decide)
  exact hstate.trans (.of_eq rfl rfl)

theorem roleChange_imageKept (n role : Nat) : ImageKept s (roleChange s n role) := by
  unfold roleChange
  extract_lets t u
  have hrole : ImageKept s t := .set (.refl s) _ _ 0 (by decide)
  have hretrain : ImageKept t u := enterRetrain_imageKept ..
  clear_value u
  exact .ite hrole (.ite ((hrole.trans hretrain).trans (.of_eq rfl rfl)) (.ite (hrole.trans (.of_eq rfl rfl))
    (.ite (hrole.trans (enterDark_imageKept ..)) hrole)))

theorem partCounters_imageKept (pid : Nat) : ImageKept s (partCounters s pid) := by
  unfold partCounters
  extract_lets t
  have hzero : ImageKept s t := .foldl (.refl s) fun u k => .set (.set (.refl u) 0 k pid (by decide)) 0 k pid (by decide)
  exact .foldl hzero fun u n => .ite (.of_eq rfl rfl) (.refl u)

end

/-! ### An image is in effect -/

/-- The registers name profile `n` as the one in effect. -/
def Shows (b : Body) (n : Nat) : Prop := b.get R.CFG_STATUS.STATE = 2 ∧ b.get R.CFG_STATUS.ACTIVE = n ∧
  b.get R.CFG_STATUS.BOOT = n ∧ b.get R.CFG_EVENT.APPLIED = 1

theorem ImageKept.shows {s t : Body} {n : Nat} (h : ImageKept s t) (hs : Shows s n) : Shows t n := by
  obtain ⟨hstate, hactive, hboot, happlied⟩ := hs
  obtain ⟨-, hget⟩ := h
  exact ⟨(hget _ (by decide)).trans hstate, (hget _ (by decide)).trans hactive, (hget _ (by decide)).trans hboot,
    (hget _ (by decide)).trans happlied⟩

section
variable (s : Body) {n : Nat}

theorem imageRegs_shows (hn : n < 4) : Shows (imageRegs s n) n ∧ (imageRegs s n).cfg = s.cfg := by
  have hmod : n % 2 ^ 2 = n := Nat.mod_eq_of_lt hn
  unfold imageRegs
  extract_lets u₁ u₂ u₃ u₄
  have hcfg : u₃.cfg = s.cfg := rfl
  have hstate : u₃.get R.CFG_STATUS.STATE = 2 := by
    iterate 5 rw [Body.get_set_ne _ _ (by decide)]
    exact Body.get_set_self ..
  have hactive : u₃.get R.CFG_STATUS.ACTIVE = n := by
    iterate 4 rw [Body.get_set_ne _ _ (by decide)]
    exact (Body.get_set_self ..).trans hmod
  have hboot : u₃.get R.CFG_STATUS.BOOT = n := by
    iterate 3 rw [Body.get_set_ne _ _ (by decide)]
    exact (Body.get_set_self ..).trans hmod
  have hparts : ImageKept u₃ u₄ := .foldl (.refl u₃) fun t p => .setView (.refl t) _ p.pid (by decide) (by decide)
  clear_value u₃ u₄
  obtain ⟨hkept, hget⟩ := hparts
  refine ⟨⟨?_, ?_, ?_, Body.get_set_self ..⟩, hkept.trans hcfg⟩
  · rw [Body.get_set_ne _ _ (by decide), hget _ (by decide), hstate]
  · rw [Body.get_set_ne _ _ (by decide), hget _ (by decide), hactive]
  · rw [Body.get_set_ne _ _ (by decide), hget _ (by decide), hboot]

/-- At the end of its load an image takes effect (R419, R420). -/
theorem imageTake_shows (hn : n < 4) (i : Image) : let t := imageTake s n i
    t.cfg.img = some i ∧ t.cfg.loading = none ∧ Shows t n := by
  unfold imageTake
  extract_lets power u cfg v w sto x y pids gone p q
  have hcfg : v.cfg.img = some i ∧ v.cfg.loading = none := ⟨rfl, rfl⟩
  clear_value v
  obtain ⟨hshows, hkept⟩ := imageRegs_shows v hn
  obtain ⟨hsched, hget⟩ := schedTake_imageKept (imageRegs v n)
  have hw : w.cfg = v.cfg ∧ Shows w n := ⟨hsched.trans hkept, ImageKept.shows ⟨hsched, hget⟩ hshows⟩
  clear_value w
  have hdone {t : Body} (h : ImageKept w t) : t.cfg.img = some i ∧ t.cfg.loading = none ∧ Shows t n := by
    rw [h.1, hw.1]
    exact ⟨hcfg.1, hcfg.2, h.shows hw.2⟩
  have hx : ImageKept w x := .of_eq rfl rfl
  have hp : ImageKept w p := .foldl (.refl w) fun t d => partitionRemove_imageKept ..
  clear_value p x
  have hq : ImageKept p q := .foldl (.refl p) fun t r => .setView (.refl t) 1 r (by decide) (by decide)
  clear_value q
  exact hdone (.ite (.foldl (hx.trans (hitchesTake_imageKept ..)) fun t p => .ite (regionLost_imageKept ..) (.refl t))
    ((hp.trans hq).trans (hitchesTake_imageKept ..)))

theorem hitchesTake_hitches (ok : Nat → Bool) : ∀ g ∈ (hitchesTake s ok).prt.hitches,
    g ∈ s.prt.hitches ∨ ∃ h ∈ s.img.hitches, g.cid = h.cid ∧ g.pid = h.pid ∧ g.state = 1 := by
  unfold hitchesTake
  generalize s.img.hitches = l
  induction l generalizing s with
  | nil => exact fun g hg => .inl hg
  | cons a l ih =>
    intro g hg
    rw [List.foldl_cons] at hg
    rcases ih _ g hg with hg | ⟨h, hh, heq⟩
    · split at hg
      · rcases List.mem_append.mp hg with hg | hg
        · exact .inl hg
        · obtain rfl := List.mem_singleton.mp hg
          exact .inr ⟨a, List.mem_cons_self, rfl, rfl, rfl⟩
      · exact .inl hg
    · exact .inr ⟨h, List.mem_cons_of_mem _ hh, heq⟩

/-- After a POWER reset, the image's hitches alone are there, and ACTIVE (R420). -/
theorem imageTake_hitches (hn : n < 4) (hp : s.cfg.afterPower = true) (i : Image) : ∀ g ∈ (imageTake s n i).prt.hitches,
    ∃ h ∈ i.hitches, g.cid = h.cid ∧ g.pid = h.pid ∧ g.state = 1 := by
  unfold imageTake
  extract_lets power u cfg v w sto x y pids gone p q
  rw [if_pos hp]
  have himg : x.img = i := by
    have hcfg : w.cfg = v.cfg := (schedTake_imageKept _).1.trans (imageRegs_shows v hn).2
    have htaken : v.cfg.img = some i := rfl
    change w.cfg.img.getD emptyImage = i
    rw [hcfg, htaken]
    rfl
  have hnone : x.prt.hitches = [] := rfl
  clear_value x
  have hlost : StoOnly y (i.prots.foldl (fun s p => if 2 ≤ p.tier then regionLost s p.region else s) y) := by
    refine List.foldlRecOn _ _ (motive := StoOnly y) (.refl y) fun t ht p _ => ?_
    split
    · exact ht.trans (regionLost_only ..)
    · exact ht
  rw [hlost]
  intro g hg
  rcases hitchesTake_hitches x (fun _ => true) g hg with hg | ⟨h, hh, heq⟩
  · rw [hnone] at hg
    simp at hg
  · exact ⟨h, himg ▸ hh, heq⟩

end

/-- The semaphores that `l` declares for a partition read as zero. -/
theorem semsZero_imageKept {t : Body} (l : List SemDef) (p : Nat) :
    ImageKept t (l.foldl (fun s d =>
      if d.pid = p then (List.range (semSpan d)).foldl (fun s k => setSem s d.core (d.sem + k) 0) s else s) t) :=
  .foldl (.refl t) fun u _ => .ite (.foldl (.refl u) fun _ _ => setSem_imageKept ..) (.refl u)

/-- At the knot of a PARTIAL its image takes effect (R424). -/
theorem partialApply_shows (s : Body) {n : Nat} (hn : n < 4) (i : Image) : let t := partialApply s n i
    t.cfg.img = some i ∧ t.cfg.partialRec = none ∧ Shows t n := by
  unfold partialApply
  extract_lets o removed added changed differs fresh s₁ s₂ s₃ sched s₄ cfg s₅ zero cfg' s₆ s₇ s₈ s₉ sto s₁₀ s₁₁ s₁₂ t
  clear_value s₄
  have hcfg : s₆.cfg.img = some i ∧ s₆.cfg.partialRec = none := ⟨rfl, rfl⟩
  clear_value s₆
  have hsems : ImageKept s₆ s₇ := .foldl (.refl s₆) fun t p => semsZero_imageKept ..
  clear_value s₇
  have hfresh (t : Body) (p : Nat) : ImageKept t (t.setPart p {}) := .of_eq rfl rfl
  have hadded : ImageKept s₇ s₈ := .foldl (.refl s₇) fun t p => (hfresh t p).trans (partCounters_imageKept ..)
  clear_value s₈
  have hhitched : ImageKept s₈ s₉ := hitchesTake_imageKept ..
  clear_value s₉
  have hsleds (k : StoSt) : ImageKept s₉ { s₉ with sto := k } := .of_eq rfl rfl
  have hlabels : ImageKept s₉ s₁₀ := .ite (.refl s₉) ((hsleds _).trans (relabel_imageKept ..))
  clear_value s₁₀
  have hsched : ImageKept s₁₀ s₁₁ := .ite (schedTake_imageKept ..) (.refl s₁₀)
  clear_value s₁₁
  have hroles : ImageKept s₁₁ s₁₂ := .foldl (.refl s₁₁) fun t k => .ite (.refl t) (roleChange_imageKept ..)
  clear_value s₁₂
  obtain ⟨hkept, -⟩ := ((((hsems.trans hadded).trans hhitched).trans hlabels).trans hsched).trans hroles
  obtain ⟨hshows, himg⟩ := imageRegs_shows s₁₂ hn
  rw [himg.trans hkept]
  exact ⟨hcfg.1, hcfg.2, hshows⟩

end Sys2Proof.Machine
end

section
/-!
SUPPORT. Profiles and loads (R416, R418 to R424): refusals, profile writes, SWITCH, PARTIAL, and the end of a load.
-/

namespace Sys2Proof.Machine

/-! ### Refusals (R416) -/

section
variable (b : Body) (op n : Nat) (c : Nat × Nat × Nat)

/-- A refusal leaves the image in effect. -/
theorem cfgRefuse_imageKept : ImageKept b (cfgRefuse b op n c) :=
  .set (.setView (.setView (.setView (.setView (.setView (.setView (.set (.refl b) _ 0 0 (by decide)) _ 0 (by decide) (by decide)) _ 0
    (by decide) (by decide)) _ 0 (by decide) (by decide)) _ 0 (by decide) (by decide)) _ 0 (by decide) (by decide)) _ 0 (by decide)
    (by decide)) 1 0 0 (by decide)

/-- It notes its cause and what was asked for (R416). -/
theorem cfgRefuse_notes : (cfgRefuse b op n c).get R.CFG_STATUS.CAUSE = c.1 % 2 ^ R.CFG_STATUS.CAUSE.w ∧
    (cfgRefuse b op n c).get R.CFG_ERR_LOG.CAUSE = c.1 % 2 ^ R.CFG_ERR_LOG.CAUSE.w ∧
    (cfgRefuse b op n c).get R.CFG_ERR_LOG.OP = op % 4 ∧ (cfgRefuse b op n c).get R.CFG_EVENT.REFUSED = 1 := by
  unfold cfgRefuse
  dsimp only
  refine ⟨?_, ?_, ?_, Body.get_set_self ..⟩
  · iterate 7 rw [Body.get_set_ne _ _ (by decide)]
    exact Body.get_set_self ..
  · iterate 6 rw [Body.get_set_ne _ _ (by decide)]
    exact Body.get_set_self ..
  · iterate 5 rw [Body.get_set_ne _ _ (by decide)]
    exact Body.get_set_self ..

/-- STATE after a PARTIAL that does not go on, and the cause that it leaves. -/
theorem partialDrop_drops : (partialDrop b).cfg = { b.cfg with partialRec := none } ∧
    (partialDrop b).get R.CFG_STATUS.STATE = (if b.cfg.img.isSome then 2 else 0) ∧
    (partialDrop b).get R.CFG_STATUS.CAUSE = b.get R.CFG_STATUS.CAUSE := by
  refine ⟨rfl, (Body.get_set_self ..).trans ?_, Body.get_set_ne _ _ (by decide)⟩
  split <;> rfl

theorem partialDrop_refused (t : Body) : let u := partialDrop (cfgRefuse t 2 n c)
    u.cfg = { t.cfg with partialRec := none } ∧ u.get R.CFG_STATUS.STATE = (if t.cfg.img.isSome then 2 else 0) ∧
      u.get R.CFG_STATUS.CAUSE = c.1 % 2 ^ R.CFG_STATUS.CAUSE.w ∧ u.near = t.near ∧ u.far = t.far := by
  obtain ⟨hcfg, hstate, hcause⟩ := partialDrop_drops (cfgRefuse t 2 n c)
  obtain ⟨hnote, -⟩ := cfgRefuse_notes t 2 n c
  exact ⟨hcfg, hstate, hcause.trans hnote, rfl, rfl⟩

end

/-! ### The end of a check (R464) -/

section
variable (s : State) (b : List Byte) (r : Chk Unit)

/-- A check counts, and may log, and changes nothing else. -/
theorem judge_unsent : Unsent s (judge s b r) := by
  unfold judge
  split
  · exact sigFail_unsent ..
  · exact .refl s
  · exact .count (.refl s) ..

theorem judge_get {g : Fld} (hlo : g.lo < 64) (hfail : R.SEC_SIG_FAIL.COUNT.off ≠ g.off) (hevent : R.SEC_EVENT.SIG_FAIL.off ≠ g.off)
    (hok : R.SEC_SIG_OK.COUNT.off ≠ g.off) : (judge s b r).get g = s.get g := by
  unfold judge
  split
  · exact sigFail_get s hlo hfail hevent _
  · rfl
  · exact State.get_count_off (f := R.SEC_SIG_OK.COUNT) s 1 (by decide) hlo hok

/-- A check leaves the configuration, both stores and what is armed. -/
theorem judge_kept : (judge s b r).cfg = s.cfg ∧ (judge s b r).near = s.near ∧ (judge s b r).far = s.far ∧
    (judge s b r).acts = s.acts ∧ (judge s b r).pwr = s.pwr := by
  rw [judge_unsent s b r]
  exact ⟨rfl, rfl, rfl, rfl, rfl⟩

end

end Sys2Proof.Machine
end

section
/-!
SUPPORT. Profiles and loads, command by command (R418 to R424).
-/

namespace Sys2Proof.Machine

/-! ### Profile writes (R418) -/

/-- A slot takes its new profile. -/
def profileTaken (n : Nat) (p : Profile) (b : Body) : Body := { b with cfg := { b.cfg with profiles := AMap.put {} b.cfg.profiles n p } }

section
variable {s : State} {n : Nat} {bytes : List Byte} {c : Nat × Nat × Nat}

theorem profileWriteEnd_passed (hw : (AMap.get {} s.cfg.profiles n).writing = true) (h : checkWritten s bytes = .ok ()) :
    profileWriteEnd n bytes s = (judge s bytes (.ok ())).upd (profileTaken n { valid := true, bytes := bytes }) := by
  unfold profileWriteEnd
  rw [if_neg (by simp [hw]), h]
  rfl

theorem profileWriteEnd_failed (hw : (AMap.get {} s.cfg.profiles n).writing = true) (h : checkWritten s bytes = .error c) :
    profileWriteEnd n bytes s = (judge s bytes (.error c)).upd
      (fun b => cfgRefuse (profileTaken n { valid := false, bytes := bytes } b) 3 n c) := by
  unfold profileWriteEnd
  rw [if_neg (by simp [hw]), h]
  rfl

/-- The end of a write puts its bytes into the slot, and no other; VALID says whether they passed. -/
theorem profileWriteEnd_ends (hw : (AMap.get {} s.cfg.profiles n).writing = true) : let t := profileWriteEnd n bytes s
    (AMap.get {} t.cfg.profiles n).bytes = bytes ∧ (AMap.get {} t.cfg.profiles n).writing = false ∧
      (∀ m, m ≠ n → AMap.get {} t.cfg.profiles m = AMap.get {} s.cfg.profiles m) ∧
      (checkWritten s bytes = .ok () → (AMap.get {} t.cfg.profiles n).valid = true) ∧
      (∀ c, checkWritten s bytes = .error c → (AMap.get {} t.cfg.profiles n).valid = false ∧
        t.get R.CFG_ERR_LOG.CAUSE = c.1 % 2 ^ R.CFG_ERR_LOG.CAUSE.w ∧ t.get R.CFG_ERR_LOG.OP = 3 ∧
        t.get R.CFG_EVENT.REFUSED = 1) ∧ t.near = s.near ∧ t.far = s.far := by
  dsimp only
  cases h : checkWritten s bytes with
  | ok u =>
    obtain ⟨hcfg, hnear, hfar, -⟩ := judge_kept s bytes (.ok ())
    have hprof : (profileWriteEnd n bytes s).cfg.profiles = AMap.put {} s.cfg.profiles n { valid := true, bytes := bytes } := by
      rw [profileWriteEnd_passed hw h, ← hcfg]
      rfl
    rw [hprof, AMap.get_put_self]
    refine ⟨rfl, rfl, fun m hm => AMap.get_put_ne _ _ _ _ (Ne.symm hm), fun _ => rfl, (fun c hc => by cases hc), ?_⟩
    rw [profileWriteEnd_passed hw h]
    exact ⟨hnear, hfar⟩
  | error c =>
    obtain ⟨hcfg, hnear, hfar, -⟩ := judge_kept s bytes (.error c)
    have hprof : (profileWriteEnd n bytes s).cfg.profiles = AMap.put {} s.cfg.profiles n { valid := false, bytes := bytes } := by
      rw [profileWriteEnd_failed hw h, ← hcfg]
      rfl
    obtain ⟨-, hcause, hop, hrefused⟩ :=
      cfgRefuse_notes (profileTaken n { valid := false, bytes := bytes } (judge s bytes (.error c)).toBody) 3 n c
    rw [hprof, AMap.get_put_self]
    refine ⟨rfl, rfl, fun m hm => AMap.get_put_ne _ _ _ _ (Ne.symm hm), (fun hok => by cases hok), fun c' hc => ?_, ?_⟩
    · cases hc
      rw [profileWriteEnd_failed hw h]
      exact ⟨rfl, hcause, hop, hrefused⟩
    · rw [profileWriteEnd_failed hw h]
      exact ⟨hnear, hfar⟩

end

/-! ### SWITCH (R419, R421) -/

section
variable {s : State} {n : Nat} {c : Nat × Nat × Nat}

theorem switch_busy (h : s.get R.CFG_STATUS.STATE = 1 ∨ s.get R.CFG_STATUS.STATE = 3) :
    switch n s = s.upd (fun b => cfgRefuse b 1 n (0xE, 0, 0)) := if_pos h

theorem switch_none (h : s.get R.CFG_STATUS.STATE = 0) : switch n s = s.arm (.load n true) :=
  (if_neg (by omega)).trans (if_pos h)

theorem switch_invalid (h : s.get R.CFG_STATUS.STATE = 2) (hv : profValid s.toBody n = false) :
    switch n s = s.upd (fun b => cfgRefuse b 1 n (0xD, 0, 0)) :=
  (if_neg (by omega)).trans ((if_neg (by omega)).trans (if_pos (by simp [hv])))

/-- The image of the slot keeps the protection, the port map and the plan of the one in effect (R421). -/
def switchKeeps (s : State) (n : Nat) : Prop :=
  let i := parseImage (profBytes s.toBody n)
  i.prots = s.img.prots ∧ i.portmap = s.img.portmap ∧ i.plan = s.img.plan

theorem switch_failed (h : s.get R.CFG_STATUS.STATE = 2) (hv : profValid s.toBody n = true)
    (hc : checkImage s (profBytes s.toBody n) = .error c) :
    switch n s = (judge s (profBytes s.toBody n) (.error c)).upd (fun b => cfgRefuse b 1 n c) := by
  unfold switch
  dsimp only
  rw [if_neg (by omega), if_neg (by omega), if_neg (by simp [hv]), hc]

theorem switch_passed (h : s.get R.CFG_STATUS.STATE = 2) (hv : profValid s.toBody n = true)
    (hc : checkImage s (profBytes s.toBody n) = .ok ()) :
    (switchKeeps s n → switch n s =
      (judge s (profBytes s.toBody n) (.ok ())).upd (fun b => (b.set R.CFG_STATUS.BOOT n).arm (.reset 3 6))) ∧
    (¬switchKeeps s n → switch n s = (judge s (profBytes s.toBody n) (.ok ())).upd (fun b => cfgRefuse b 1 n (9, 8, 0))) := by
  obtain ⟨hcfg, -⟩ := judge_kept s (profBytes s.toBody n) (.ok ())
  have himg : (judge s (profBytes s.toBody n) (.ok ())).img = s.img := by rw [Body.img, hcfg, Body.img]
  unfold switch
  dsimp only
  rw [if_neg (by omega), if_neg (by omega), if_neg (by simp [hv]), hc]
  refine ⟨fun hk => upd_congr (if_neg ?_), fun hk => upd_congr (if_pos ?_)⟩
  · obtain ⟨hprots, hmap, hplan⟩ := hk
    simp [himg, hprots, hmap, hplan]
  · rw [himg]
    by_contra hnone
    simp only [not_or, not_not] at hnone
    exact hk hnone

/-- SWITCH on an image in effect checks the slot, and orders the reset or refuses (R421). -/
theorem switch_decides (h : s.get R.CFG_STATUS.STATE = 2) (hv : profValid s.toBody n = true) (hn : n < 4) : let t := switch n s
    t.near = s.near ∧ t.far = s.far ∧ t.cfg = s.cfg ∧
      (checkImage s (profBytes s.toBody n) = .ok () → switchKeeps s n →
        t.get R.CFG_STATUS.BOOT = n ∧ t.acts = s.acts ++ [.reset 3 6]) ∧
      (checkImage s (profBytes s.toBody n) = .ok () → ¬switchKeeps s n → t.acts = s.acts ∧ t.get R.CFG_STATUS.CAUSE = 9) ∧
      (∀ c, checkImage s (profBytes s.toBody n) = .error c →
        t.acts = s.acts ∧ t.get R.CFG_STATUS.CAUSE = c.1 % 2 ^ R.CFG_STATUS.CAUSE.w) := by
  dsimp only
  obtain ⟨hcfg, hnear, hfar, hacts, -⟩ := judge_kept s (profBytes s.toBody n) (checkImage s (profBytes s.toBody n))
  cases hc : checkImage s (profBytes s.toBody n) with
  | error c =>
    rw [hc] at hcfg hnear hfar hacts
    obtain ⟨hcause, -⟩ := cfgRefuse_notes (judge s (profBytes s.toBody n) (.error c)).toBody 1 n c
    rw [switch_failed h hv hc]
    refine ⟨hnear, hfar, hcfg, (fun hok => by cases hok), (fun hok => by cases hok), fun c' hc' => ?_⟩
    cases hc'
    exact ⟨hacts, hcause⟩
  | ok u =>
    rw [hc] at hcfg hnear hfar hacts
    obtain ⟨hkeeps, hdiffers⟩ := switch_passed h hv hc
    by_cases hk : switchKeeps s n
    · rw [hkeeps hk]
      exact ⟨hnear, hfar, hcfg, 
        fun _ _ => ⟨(Body.get_set_self ..).trans (Nat.mod_eq_of_lt hn), congrArg (· ++ [Act.reset 3 6]) hacts⟩,
        fun _ hnot => absurd hk hnot, (fun c' hc' => by cases hc')⟩
    · rw [hdiffers hk]
      obtain ⟨hcause, -⟩ := cfgRefuse_notes (judge s (profBytes s.toBody n) (.ok ())).toBody 1 n (9, 8, 0)
      exact ⟨hnear, hfar, hcfg, fun _ hyes => absurd hyes hk, fun _ _ => ⟨hacts, hcause⟩, (fun c' hc' => by cases hc')⟩

end

/-! ### PARTIAL (R422 to R424) -/

section
variable {b : Body} {n : Nat}

theorem partialStart_slot (h : (b.cfg.img.isSome = true ∧ n = b.get R.CFG_STATUS.ACTIVE) ∨ profValid b n = false) :
    partialStart n b = cfgRefuse b 2 n (0xD, 0, 0) := if_pos (by simpa using h)

section
variable (ha : ¬(b.cfg.img.isSome = true ∧ n = b.get R.CFG_STATUS.ACTIVE)) (hv : profValid b n = true)
include ha hv

theorem partialStart_knot (h : b.get R.CFG_PARTIAL_T.T < b.now + 2000000 ∨ b.now + 2 ^ 24 < b.get R.CFG_PARTIAL_T.T) :
    partialStart n b = cfgRefuse b 2 n (0xC, 0, 0) := (if_neg (by simpa [hv] using ha)).trans (if_pos h)

variable (hlo : b.now + 2000000 ≤ b.get R.CFG_PARTIAL_T.T) (hhi : b.get R.CFG_PARTIAL_T.T ≤ b.now + 2 ^ 24)
include hlo hhi

/-- PARTIAL waits for its knot, unless a load, a SWITCH or a commit of a partition that it touches is under way. -/
theorem partialStart_asks :
    let busy : Prop := b.get R.CFG_STATUS.STATE = 1 ∨ b.get R.CFG_STATUS.STATE = 3 ∨ switchPending b = true ∨
      ((b.img.parts ++ (parseImage (profBytes b n)).parts).any
        (fun p => imageTouches b (parseImage (profBytes b n)) p.pid && (b.part p.pid).commit.isSome)) = true
    (busy → partialStart n b = cfgRefuse b 2 n (0xE, 0, 0)) ∧
      (¬busy → partialStart n b =
        { b.set R.CFG_STATUS.STATE 3 with cfg := { b.cfg with partialRec := some (n, b.get R.CFG_PARTIAL_T.T, none) } }) := by
  unfold partialStart
  dsimp only
  rw [if_neg (by simpa [hv] using ha), if_neg (by omega), List.any_map]
  simp only [Function.comp_def]
  refine ⟨fun h => ?_, fun h => ?_⟩
  · rw [if_pos h]
  · rw [if_neg h]

end

theorem partialCancel_pending (h : b.get R.CFG_STATUS.STATE = 3) : partialCancel b = partialDrop b := if_pos h

theorem partialCancel_other (h : b.get R.CFG_STATUS.STATE ≠ 3) : partialCancel b = b := if_neg h

end

section
variable {s : State} {n t : Nat} {i : Image} {c : Nat × Nat × Nat}

theorem partialChecked_passed (h : s.cfg.partialRec = some (n, t, none)) (hc : checkImage s (profBytes s.toBody n) = .ok ())
    (hp : partialRules s.toBody (parseImage (profBytes s.toBody n)) = .ok ()) :
    partialChecked s = (judge s (profBytes s.toBody n) (.ok ())).upd (fun b => { b with
      cfg := { b.cfg with partialRec := some (n, t, some (parseImage (profBytes s.toBody n))) } }) := by
  unfold partialChecked
  rw [h]
  dsimp only
  rw [hc]
  dsimp only [bind, Except.bind]
  rw [hp]

theorem partialChecked_failed (h : s.cfg.partialRec = some (n, t, none)) (hc : checkImage s (profBytes s.toBody n) = .error c ∨
      (checkImage s (profBytes s.toBody n) = .ok () ∧ partialRules s.toBody (parseImage (profBytes s.toBody n)) = .error c)) :
    partialChecked s = (judge s (profBytes s.toBody n) (checkImage s (profBytes s.toBody n))).upd
      (fun b => partialDrop (cfgRefuse b 2 n c)) := by
  unfold partialChecked
  rw [h]
  dsimp only
  rcases hc with hc | ⟨hc, hp⟩
  · rw [hc]
    rfl
  · rw [hc]
    dsimp only [bind, Except.bind]
    rw [hp]

theorem partialChecked_stores (s : State) : (partialChecked s).near = s.near ∧ (partialChecked s).far = s.far := by
  unfold partialChecked
  split
  next n t _ =>
    obtain ⟨-, hnear, hfar, -⟩ := judge_kept s (profBytes s.toBody n) (checkImage s (profBytes s.toBody n))
    dsimp only [State.upd]
    split <;> exact ⟨hnear, hfar⟩
  next => exact ⟨rfl, rfl⟩

/-- The checks of a PARTIAL end: it waits for its knot with its image, or is dropped (R422, R423). -/
theorem partialChecked_ends (h : s.cfg.partialRec = some (n, t, none)) : let u := partialChecked s
    let i := parseImage (profBytes s.toBody n)
    u.near = s.near ∧ u.far = s.far ∧
      (checkImage s (profBytes s.toBody n) = .ok () → partialRules s.toBody i = .ok () → u.cfg.partialRec = some (n, t, some i)) ∧
      (∀ c, checkImage s (profBytes s.toBody n) = .error c ∨
          (checkImage s (profBytes s.toBody n) = .ok () ∧ partialRules s.toBody i = .error c) →
        u.cfg.partialRec = none ∧ u.get R.CFG_STATUS.STATE = (if s.cfg.img.isSome then 2 else 0) ∧
        u.get R.CFG_STATUS.CAUSE = c.1 % 2 ^ R.CFG_STATUS.CAUSE.w ∧ u.cfg.img = s.cfg.img) := by
  dsimp only
  obtain ⟨hnear, hfar⟩ := partialChecked_stores s
  refine ⟨hnear, hfar, fun hc hp => ?_, fun c hc => ?_⟩
  · rw [partialChecked_passed h hc hp]
    rfl
  · obtain ⟨hcfg, -⟩ := judge_kept s (profBytes s.toBody n) (checkImage s (profBytes s.toBody n))
    have himg := congrArg CfgSt.img hcfg
    obtain ⟨hdrop, hstate, hcause, -⟩ :=
      partialDrop_refused n c (judge s (profBytes s.toBody n) (checkImage s (profBytes s.toBody n))).toBody
    rw [partialChecked_failed h hc]
    rw [hcfg] at hstate
    exact ⟨congrArg CfgSt.partialRec hdrop, hstate, hcause, (congrArg CfgSt.img hdrop).trans himg⟩

theorem partialEffect_early {b : Body} (h : b.cfg.partialRec = some (n, t, some i)) (ht : b.now < t) : partialEffect b = b := by
  unfold partialEffect
  rw [h]
  exact if_pos ht

theorem partialEffect_due {b : Body} (h : b.cfg.partialRec = some (n, t, some i)) (ht : t ≤ b.now) :
    (partialRules b i = .ok () → partialEffect b = partialApply b n i) ∧
      (∀ c, partialRules b i = .error c → partialEffect b = partialDrop (cfgRefuse b 2 n c)) := by
  unfold partialEffect
  rw [h]
  dsimp only
  rw [if_neg (by omega)]
  refine ⟨fun hok => ?_, fun c hc => ?_⟩
  · rw [hok]
  · rw [hc]

/-- At its knot, a PARTIAL takes effect, or is refused (R423, R424). -/
theorem partialEffect_ends (hn : n < 4) {b : Body} (h : b.cfg.partialRec = some (n, t, some i)) (ht : t ≤ b.now) :
    let u := partialEffect b
    u.cfg.partialRec = none ∧
      (partialRules b i = .ok () → u.cfg.img = some i ∧ u.get R.CFG_STATUS.STATE = 2 ∧ u.get R.CFG_STATUS.ACTIVE = n ∧
        u.get R.CFG_STATUS.BOOT = n ∧ u.get R.CFG_EVENT.APPLIED = 1) ∧
      (∀ c, partialRules b i = .error c → u.cfg.img = b.cfg.img ∧ u.near = b.near ∧
        u.get R.CFG_STATUS.CAUSE = c.1 % 2 ^ R.CFG_STATUS.CAUSE.w) := by
  dsimp only
  obtain ⟨hpasses, hfails⟩ := partialEffect_due h ht
  cases hr : partialRules b i with
  | ok u =>
    obtain ⟨himg, hrec, hshows⟩ := partialApply_shows b hn i
    rw [hpasses hr]
    exact ⟨hrec, fun _ => ⟨himg, hshows⟩, fun c hc => nomatch hc⟩
  | error c =>
    obtain ⟨hcfg, -, hcause, hnear, -⟩ := partialDrop_refused n c b
    rw [hfails c hr]
    refine ⟨congrArg CfgSt.partialRec hcfg, (fun hok => nomatch hok), fun c' hc => ?_⟩
    cases hc
    have himg := congrArg CfgSt.img hcfg
    exact ⟨himg, hnear, hcause⟩

/-! ### Loads (R419) -/

theorem imageLoadDone_idle (h : s.cfg.loading = none) : imageLoadDone s = s := by
  unfold imageLoadDone
  rw [h]

/-- The end of a load checks the slot: its image is armed for the next boundary, or the load fails. -/
theorem imageLoadDone_checks {sw : Bool} (h : s.cfg.loading = some (n, sw)) (hst : s.get R.CFG_STATUS.STATE = 1)
    (hsec : s.get R.MGT_READY.SEC = 1) (hno : ∀ p i, Act.image p i ∉ s.acts) :
    (∀ c, checkImage s (profBytes s.toBody n) = .error c →
      imageLoadDone s = (judge s (profBytes s.toBody n) (.error c)).upd (fun b => loadFail b n sw c)) ∧
    (checkImage s (profBytes s.toBody n) = .ok () → imageLoadDone s = (judge s (profBytes s.toBody n) (.ok ())).upd
      (fun b => b.arm (.image n (parseImage (profBytes s.toBody n))))) := by
  unfold imageLoadDone
  rw [h]
  dsimp only
  rw [if_neg]
  · refine ⟨fun c hc => ?_, fun hc => ?_⟩ <;> rw [hc]
  · rintro (hne | hoff | himg)
    · exact hne hst
    · simp [Body.on, hsec] at hoff
    · obtain ⟨a, ha, himg⟩ := List.any_eq_true.mp himg
      split at himg
      · exact hno _ _ ha
      · exact Bool.false_ne_true himg

theorem loadFail_eq (b : Body) (sw : Bool) (c : Nat × Nat × Nat) : loadFail b n sw c =
    { (cfgRefuse b (b2n sw) n c).set R.CFG_STATUS.STATE 0 with cfg := { b.cfg with loading := none } } := rfl

theorem loadFail_fails (b : Body) (sw : Bool) (c : Nat × Nat × Nat) : let t := loadFail b n sw c
    t.get R.CFG_STATUS.STATE = 0 ∧ t.cfg = { b.cfg with loading := none } ∧
      t.get R.CFG_ERR_LOG.CAUSE = c.1 % 2 ^ R.CFG_ERR_LOG.CAUSE.w ∧ t.get R.CFG_ERR_LOG.OP = b2n sw ∧
      t.get R.CFG_STATUS.BOOT = b.get R.CFG_STATUS.BOOT ∧ t.get R.CFG_EVENT.REFUSED = 1 := by
  obtain ⟨-, hcause, hop, hrefused⟩ := cfgRefuse_notes b (b2n sw) n c
  obtain ⟨-, hkept⟩ := cfgRefuse_imageKept b (b2n sw) n c
  have hop : (cfgRefuse b (b2n sw) n c).get R.CFG_ERR_LOG.OP = b2n sw := hop.trans (by cases sw <;> rfl)
  have hboot := hkept R.CFG_STATUS.BOOT (by decide)
  rw [loadFail_eq]
  generalize cfgRefuse b (b2n sw) n c = u at *
  have hget {g : Fld} (hne : R.CFG_STATUS.STATE.key 0 0 ≠ g.key 0 0) :
      { u.set R.CFG_STATUS.STATE 0 with cfg := { b.cfg with loading := none } }.get g = u.get g := Body.get_set_ne u 0 hne
  exact ⟨Body.get_set_self u R.CFG_STATUS.STATE 0 0 0, rfl, (hget (by decide)).trans hcause, (hget (by decide)).trans hop,
    (hget (by decide)).trans hboot, (hget (by decide)).trans hrefused⟩

/-- The end of a load, as it shows (R419). -/
theorem imageLoadDone_ends {sw : Bool} (h : s.cfg.loading = some (n, sw)) (hst : s.get R.CFG_STATUS.STATE = 1)
    (hsec : s.get R.MGT_READY.SEC = 1) (hno : ∀ p i, Act.image p i ∉ s.acts) : let t := imageLoadDone s
    (∀ c, checkImage s (profBytes s.toBody n) = .error c → t.get R.CFG_STATUS.STATE = 0 ∧ t.cfg.img = s.cfg.img ∧
      t.cfg.loading = none ∧ t.acts = s.acts ∧
      t.get R.CFG_ERR_LOG.CAUSE = c.1 % 2 ^ R.CFG_ERR_LOG.CAUSE.w ∧ t.get R.CFG_ERR_LOG.OP = b2n sw ∧
      t.get R.CFG_STATUS.BOOT = s.get R.CFG_STATUS.BOOT ∧ t.get R.CFG_EVENT.REFUSED = 1 ∧ t.near = s.near ∧ t.far = s.far) ∧
    (checkImage s (profBytes s.toBody n) = .ok () → t.acts = s.acts ++ [.image n (parseImage (profBytes s.toBody n))] ∧
      t.cfg = s.cfg ∧ t.near = s.near ∧ t.far = s.far) := by
  dsimp only
  obtain ⟨hfails, hpasses⟩ := imageLoadDone_checks h hst hsec hno
  refine ⟨fun c hc => ?_, fun hc => ?_⟩
  · obtain ⟨hcfg, hnear, hfar, hacts, -⟩ := judge_kept s (profBytes s.toBody n) (.error c)
    obtain ⟨hstate, hdone, hcause, hop, hboot, hrefused⟩ :=
      loadFail_fails (n := n) (judge s (profBytes s.toBody n) (.error c)).toBody sw c
    have himg := congrArg CfgSt.img hcfg
    rw [hfails c hc]
    exact ⟨hstate, (congrArg CfgSt.img hdone).trans himg, congrArg CfgSt.loading hdone, hacts, hcause, hop,
      hboot.trans (judge_get s _ _ (by decide) (by decide) (by decide) (by decide)), hrefused, hnear, hfar⟩
  · obtain ⟨hcfg, hnear, hfar, hacts, -⟩ := judge_kept s (profBytes s.toBody n) (.ok ())
    rw [hpasses hc]
    exact ⟨congrArg (· ++ [_]) hacts, hcfg, hnear, hfar⟩

/-- The image that passed takes effect at the boundary, while its load is in progress. -/
theorem imageNow_loading {b : Body} {sw : Bool} (h : b.cfg.loading = some (n, sw)) :
    (b.get R.CFG_STATUS.STATE ≠ 1 → imageNow b n i = b) ∧ (b.get R.CFG_STATUS.STATE = 1 → imageNow b n i = imageTake b n i) :=
  ⟨fun hst => if_neg fun hboth => hst hboth.2, fun hst => if_pos ⟨by simp [h], hst⟩⟩

end

/-- Settles O54. -/
theorem profilesAndLoads : Obligations.ProfilesAndLoads := by
  intro s n hon hn
  have hmod : n % 4 = n := Nat.mod_eq_of_lt hn
  dsimp only
  refine ⟨fun h => congrArg Host.Outcome.next ?_, fun h => congrArg Host.Outcome.next ?_, fun bytes hw => ?_, fun ho => ?profile,
    fun t h => ⟨_, congrArg Host.Outcome.next (live_on _ hon), partialChecked_ends h⟩, fun t i h => ?effect,
    fun h => congrArg Host.Outcome.next ((live_on _ hon).trans (imageLoadDone_idle h)),
    fun sw h hst hsec hno => ⟨_, congrArg Host.Outcome.next (live_on _ hon), imageLoadDone_ends h hst hsec hno⟩,
    fun b sw i h => ?image, fun ho => ?boot, fun ho v hv => ?floor⟩
  · exact (onOne_on _ hon hn).trans (upd_congr (if_neg (by simp [h])))
  · exact (onOne_on _ hon hn).trans (upd_congr (if_pos h))
  · exact ⟨_, congrArg Host.Outcome.next (onOne_on _ hon hn), profileWriteEnd_ends hw⟩
  case profile =>
    have hswitch : exec (.switch n) s = .next (switch n s) := by
      rw [← congrArg (fun m => switch m s) hmod]
      exact congrArg Host.Outcome.next (onReg_on _ hon ho)
    have hpartial {f : Body → Body} (h : partialStart n s.toBody = f s.toBody) : exec (.partialConfig n) s = .next (s.upd f) := by
      rw [← hmod] at h
      exact congrArg Host.Outcome.next ((onReg_on _ hon ho).trans (upd_congr h))
    have hcancel {f : Body → Body} (h : partialCancel s.toBody = f s.toBody) : exec .partialCancel s = .next (s.upd f) :=
      congrArg Host.Outcome.next ((onReg_on _ hon ho).trans (upd_congr h))
    refine ⟨fun h => hswitch.trans (congrArg _ (switch_busy h)), fun h => hswitch.trans (congrArg _ (switch_none h)),
      fun h hv => hswitch.trans (congrArg _ (switch_invalid h hv)), fun h hv => ⟨_, hswitch, switch_decides h hv hn⟩,
      ⟨fun h => hpartial (partialStart_slot h), fun ha hv => ⟨fun h => hpartial (partialStart_knot ha hv h), fun hlo hhi => ?_⟩⟩,
      fun h => hcancel (partialCancel_pending h), fun h => (hcancel (f := fun b => b) (partialCancel_other h)).trans rfl⟩
    obtain ⟨hbusy, hwaits⟩ := partialStart_asks ha hv hlo hhi
    exact ⟨fun h => hpartial (hbusy h), fun h => hpartial (hwaits h)⟩
  case effect =>
    have hexec : exec .partialEffect s = .next (s.upd (fun b => settle (partialEffect b))) :=
      congrArg Host.Outcome.next (live_on _ hon)
    refine ⟨fun ht => hexec.trans (congrArg _ (upd_congr (congrArg settle (partialEffect_early h ht)))),
      fun ht => ⟨partialEffect s.toBody, hexec.trans (congrArg _ (upd_congr rfl)), partialEffect_ends hn h ht⟩⟩
  case image =>
    obtain ⟨hother, htakes⟩ := imageNow_loading (i := i) h
    refine ⟨hother, fun hst => ?_⟩
    obtain ⟨himg, hload, hstate, hactive, hboot, happlied⟩ := imageTake_shows b hn i
    have heq : actNow b (.image n i) = imageTake b n i := htakes hst
    rw [heq]
    exact ⟨himg, hload, hstate, hactive, hboot, happlied, fun hp => imageTake_hitches b hn hp i⟩
  case boot =>
    have hboot {f : Body → Body} (h : bootWrite n s.toBody = f s.toBody) : exec (.bootWrite n) s = .next (s.upd f) := by
      rw [← hmod] at h
      exact congrArg Host.Outcome.next ((onReg_on _ hon ho).trans (upd_congr h))
    exact ⟨fun h => (hboot (f := fun b => b) (if_pos h)).trans rfl,
      fun h1 h3 => hboot (f := fun b => b.set R.CFG_STATUS.BOOT n) (if_neg (not_or.mpr ⟨h1, h3⟩))⟩
  case floor =>
    have hfloor {f : Body → Body} (h : floorWrite v s.toBody = f s.toBody) : exec (.floorWrite v) s = .next (s.upd f) :=
      congrArg Host.Outcome.next ((onReg_on _ hon ho).trans (upd_congr h))
    have hv' : v % 2 ^ 64 = v := Nat.mod_eq_of_lt hv
    refine ⟨fun h => (hfloor (f := fun b => b) (if_pos (by rwa [hv']))).trans rfl,
      fun h => hfloor (f := fun b => { b with cfg := { b.cfg with floor := v } }) ?_⟩
    unfold floorWrite
    rw [hv', if_neg (by omega)]

end Sys2Proof.Machine
end

section
/-!
SUPPORT. Records on their way to a buffer (R471, R474, R480, R483, R484, R486, R487).
-/

namespace Sys2Proof.Machine

/-! ### Into staging (R471, R487) -/

/-- A record joins the staged ones. -/
def staged (b : Body) (r : ObsRec) : Body := { b with obs := { b.obs with staged := b.obs.staged ++ [r] } }

/-- The record of an event that is recorded now. -/
def recordNow (b : Body) (dest ty rflags : Nat) (time body : List Byte) : ObsRec :=
  { dest := dest, knot := b.now, ty := ty, bytes := obsBytes ty rflags time body }

section
variable {b : Body} {dest ty rflags : Nat} {time body : List Byte}

theorem obsPut_staged (hk : b.get R.MGT_READY.KNOT = 1) (hroom : obsStagedBytes b + (obsBytes ty rflags time body).length ≤ 262144)
    (hlost : b.obs.lost.find? (fun e => e.1 == dest) = none) :
    obsPut b dest ty rflags time body = gapWritten (staged b (recordNow b dest ty rflags time body)) time := by
  unfold obsPut
  rw [if_neg (by simp [Body.on, hk])]
  dsimp only
  rw [if_neg (by omega), hlost]
  rfl

theorem obsPut_dropped (hk : b.get R.MGT_READY.KNOT = 1) (hroom : 262144 < obsStagedBytes b + (obsBytes ty rflags time body).length) :
    obsPut b dest ty rflags time body = obsDrop b (recordNow b dest ty rflags time body) := by
  unfold obsPut
  rw [if_neg (by simp [Body.on, hk])]
  exact if_pos hroom

theorem tracePut_running (h : b.get R.OBS_TRACE_CTL.FROZEN = 0) : tracePut b ty time body = obsPut b 0 ty 0 time body :=
  if_neg (by simp [Body.on, h])

theorem gapWritten_told (h : hasGap time = false) : gapWritten b time = b := if_neg (by rw [hasGap] at h; simp [h])

theorem gapWritten_gaps (h : hasGap time = true) : ∀ g ∈ (gapWritten b time).knot.gaps, g.1 ≠ le time 10 1 := by
  intro g hg
  have hw : gapWritten b time = { b with knot := { b.knot with gaps := b.knot.gaps.filter (fun g => g.1 != le time 10 1) } } := if_pos h
  rw [hw] at hg
  simpa using (List.mem_filter.mp hg).2

/-- Telling a gap changes nothing but the gaps that are still to be told. -/
theorem gapWritten_only (b : Body) (time : List Byte) : gapWritten b time = { b with knot := (gapWritten b time).knot } := by
  unfold gapWritten
  split <;> rfl

theorem obsBytes_length : (obsBytes ty rflags time body).length = 4 + time.length + body.length := by
  simp [obsBytes]
  omega

/-- A record's body stands after its header and its timestamp (R470). -/
theorem obsBytes_body : (obsBytes ty rflags time body).drop (4 + time.length) = body := by
  have hlen : (leBytes 2 (4 + time.length + body.length) ++ leBytes 1 ty ++ leBytes 1 rflags ++ time).length = 4 + time.length := by
    simp
    omega
  exact List.drop_left' hlen

/-- A record that finds no room is counted, and shown (R487). -/
theorem obsDrop_drops (b : Body) (r : ObsRec) : let t := obsDrop b r
    t.obs.staged = b.obs.staged ∧ t.obs.latched = b.obs.latched ∧
      t.get (if 2 ≤ r.dest then R.OBS_EVENT.RING_DROP else R.OBS_EVENT.LOST) = 1 ∧
      (∃ e ∈ t.obs.lost, e.1 = r.dest) ∧ t.near = b.near := by
  unfold obsDrop
  extract_lets old e lost u v t
  have hv : v = { u with regs := v.regs } := Body.count_regs ..
  have hdest : e.1 = r.dest := by
    unfold e old
    split
    next d c n k hold => simpa using (List.find?_some hold)
    next => rfl
  have hmem : e ∈ u.obs.lost := List.mem_append_right _ (List.mem_singleton.mpr rfl)
  have hu : u.obs.staged = b.obs.staged ∧ u.obs.latched = b.obs.latched ∧ u.near = b.near := ⟨rfl, rfl, rfl⟩
  obtain ⟨hst, hla, hne⟩ := hu
  clear_value u
  clear_value v
  by_cases h : 2 ≤ r.dest
  · have ht : t = v.set R.OBS_EVENT.RING_DROP 1 := if_pos h
    rw [ht, if_pos h, hv]
    exact ⟨hst, hla, Body.get_set_self .., ⟨e, hmem, hdest⟩, hne⟩
  · have ht : t = v.set R.OBS_EVENT.LOST 1 := if_neg h
    rw [ht, if_neg h, hv]
    exact ⟨hst, hla, Body.get_set_self .., ⟨e, hmem, hdest⟩, hne⟩

/-- The timestamp of an event at a boundary has twelve bytes where no gap is to be told (R43, R46). -/
theorem timeOf_length {region : Nat} (h : b.knot.gaps = []) : (timeOf b region true).1.length = 12 := by
  have hst : (stamp b region).1 = (stampBlk b region false).1 := by
    unfold stamp
    rw [h]
    simp
  have hlen := stampBlk_length b region false
  have ht : (timeOf b region true).1 = (stamp b region).1.take 8 ++ [0] ++ (stamp b region).1.drop 9 := rfl
  rw [ht, hst]
  simp [hlen]

end

end Sys2Proof.Machine
end

section
/-!
SUPPORT. Observation, command by command (R471, R474, R480, R481, R483, R484, R486).
-/

namespace Sys2Proof.Machine

/-! ### Samples (R474) -/

/-- The timestamp of a latched sample, without a gap that another record has told meanwhile (R46). -/
def sampleStamp (b : Body) (time : List Byte) : List Byte :=
  if hasGap time && b.knot.gaps.all (fun g => g.1 != 0) then ungap time else time

/-- No sample is latched any more. -/
def unlatched (b : Body) : Body := { b with obs := { b.obs with latched := [] } }

section
variable {b : Body} {n d fl : Nat} {time body : List Byte}

theorem sampleTake_none (h : ∀ e ∈ b.obs.latched, e.1 ≠ n) : sampleTake n b = b := by
  have hmine : b.obs.latched.filter (fun e => e.1 == n) = [] := by simpa using h
  have hrest : b.obs.latched.filter (fun e => e.1 != n) = b.obs.latched := by simpa using h
  unfold sampleTake
  dsimp only
  rw [hmine, hrest]
  rfl

theorem sampleTake_one (h : b.obs.latched = [(n, d, fl, time, body)]) :
    sampleTake n b = obsPut (unlatched b) d 0x40 fl (sampleStamp b time) body := by
  have hmine : b.obs.latched.filter (fun e => e.1 == n) = [(n, d, fl, time, body)] := by simp [h]
  have hrest : b.obs.latched.filter (fun e => e.1 != n) = [] := by simp [h]
  have hall : b.knot.gaps.all (fun g => g.1 != 0) = !b.knot.gaps.any (fun g => g.1 == 0) := by
    rw [List.not_any_eq_all_not]
    rfl
  unfold sampleTake sampleStamp
  dsimp only
  rw [hmine, hrest, hall, Bool.and_comm]
  rfl

section
variable (h : b.obs.latched = [(n, d, fl, time, body)]) (hk : b.get R.MGT_READY.KNOT = 1)
include h hk

/-- A sample that finds room joins the staged records of its destination. -/
theorem sampleTake_joins (hroom : obsStagedBytes b + (obsBytes 0x40 fl (sampleStamp b time) body).length ≤ 262144)
    (hlost : b.obs.lost.find? (fun e => e.1 == d) = none) : let t := sampleTake n b
    t.obs = { b.obs with
      latched := [], staged := b.obs.staged ++ [recordNow b d 0x40 fl (sampleStamp b time) body] } ∧
      (hasGap time = false → t = { b with obs := t.obs }) ∧
      (hasGap (sampleStamp b time) = true → ∀ g ∈ t.knot.gaps, g.1 ≠ le (sampleStamp b time) 10 1) ∧
      t.regs = b.regs ∧ t.near = b.near ∧ t.far = b.far := by
  dsimp only
  rw [sampleTake_one h, obsPut_staged (b := unlatched b) hk hroom hlost]
  refine ⟨?_, fun hgap => ?_, gapWritten_gaps, ?_, ?_, ?_⟩
  · rw [gapWritten_only]
    rfl
  · have hstamp : sampleStamp b time = time := if_neg (by simp [hgap])
    have hnone : hasGap (sampleStamp b time) = false := by rw [hstamp, hgap]
    rw [gapWritten_told hnone]
    rfl
  · rw [gapWritten_only]
    rfl
  · rw [gapWritten_only]
    rfl
  · rw [gapWritten_only]
    rfl

/-- A sample that finds none is dropped. -/
theorem sampleTake_drops (hroom : ¬obsStagedBytes b + (obsBytes 0x40 fl (sampleStamp b time) body).length ≤ 262144) :
    let t := sampleTake n b
    t.obs.latched = [] ∧ t.obs.staged = b.obs.staged ∧ t.get (if 2 ≤ d then R.OBS_EVENT.RING_DROP else R.OBS_EVENT.LOST) = 1 ∧
      (∃ e ∈ t.obs.lost, e.1 = d) ∧ t.near = b.near := by
  dsimp only
  rw [sampleTake_one h, obsPut_dropped (b := unlatched b) hk (Nat.not_le.mp hroom)]
  obtain ⟨hstaged, hlatched, hshown, hlost, hnear⟩ :=
    obsDrop_drops (unlatched b) (recordNow (unlatched b) d 0x40 fl (sampleStamp b time) body)
  exact ⟨hlatched, hstaged, hshown, hlost, hnear⟩

end

/-! ### MARK (R471) and PC records (R480) -/

theorem markRec_on {v : Nat} (h : traceOn b 4 = true) (hf : b.get R.OBS_TRACE_CTL.FROZEN = 0) :
    markRec b v = obsPut b 0 2 0 (timeOf b 0 true).1 (leBytes 8 v) := by
  unfold markRec
  rw [if_pos h]
  exact (congrArg (fun t => tracePut t 2 (timeOf b 0 true).1 (leBytes 8 v)) (timeOf_boundary b 0)).trans (tracePut_running hf)

/-- A mark with its value joins the staged records. -/
theorem markRec_joins {v : Nat} (h : traceOn b 4 = true) (hf : b.get R.OBS_TRACE_CTL.FROZEN = 0) (hk : b.get R.MGT_READY.KNOT = 1)
    (hlost : b.obs.lost = []) (hroom : obsStagedBytes b + 40 ≤ 262144) (hgaps : b.knot.gaps = []) :
    ∃ r, (markRec b v).obs.staged = b.obs.staged ++ [r] ∧ r.dest = 0 ∧ r.ty = 2 ∧ r.knot = b.now ∧
      r.bytes.length = 24 ∧ r.bytes.drop 16 = leBytes 8 v := by
  have htime := timeOf_length (region := 0) hgaps
  have hlen : (obsBytes 2 0 (timeOf b 0 true).1 (leBytes 8 v)).length = 24 := by rw [obsBytes_length, htime, leBytes_length]
  have hbody : (obsBytes 2 0 (timeOf b 0 true).1 (leBytes 8 v)).drop 16 = leBytes 8 v := by
    have hdrop := obsBytes_body (ty := 2) (rflags := 0) (time := (timeOf b 0 true).1) (body := leBytes 8 v)
    rwa [htime] at hdrop
  rw [markRec_on h hf, obsPut_staged hk (by omega) (by rw [hlost]; rfl), gapWritten_only]
  exact ⟨_, rfl, rfl, rfl, rfl, hlen, hbody⟩

theorem flatMap_length {α β : Type} {f : α → List β} {k : Nat} (l : List α) (h : ∀ a, (f a).length = k) :
    (l.flatMap f).length = l.length * k := by
  rw [List.length_flatMap, List.map_congr_left (fun a _ => h a)]
  simp

theorem pcBody_length (b : Body) (core : Nat) (word : Nat → Nat × Nat) (only : Option Nat) : (pcBody b core word only).length = 136 := by
  unfold pcBody
  rw [List.length_append, List.length_append, leBytes_length, leBytes_length, flatMap_length (k := 8) _ fun x => ?_]
  · rfl
  · split
    split <;> simp

theorem pcOne_again {word : Nat → Nat × Nat} (h : AMap.get 0 b.obs.pcAt n = b.now + 1) : pcOne b n word = b :=
  if_neg (by simp [h])

/-- The record of a core is formed where its interval has come, with no partition's ring to write beside. -/
theorem pcOne_joins {word : Nat → Nat × Nat} (hn : n < 16) (hat : AMap.get 0 b.obs.pcAt n ≠ b.now + 1) (h : traceOn b 2 = true)
    (hk : b.get R.MGT_READY.KNOT = 1) (hdue : b.now % 2 ^ min 20 (b.get R.OBS_TRACE_CTL.PC_LOG) = 0)
    (hcore : bitAt (b.get R.OBS_TRACE_CTL.CORES) n = true) (hf : b.get R.OBS_TRACE_CTL.FROZEN = 0) (hparts : b.img.parts = [])
    (hlost : b.obs.lost = []) (hgaps : b.knot.gaps = []) (hroom : obsStagedBytes b + 152 ≤ 262144) :
    let t := pcOne b n word
    ∃ r, t.obs.staged = b.obs.staged ++ [r] ∧ r.dest = 0 ∧ r.ty = 0x20 ∧ r.bytes.length = 152 ∧
      AMap.get 0 t.obs.pcAt n = b.now + 1 ∧ t.near = b.near := by
  have htime := timeOf_length (region := 0) hgaps
  have hlen : (obsBytes 0x20 0 (timeOf b 0 true).1 (pcBody b n word none)).length = 152 := by
    rw [obsBytes_length, htime, pcBody_length]
  have hput : tracePut (timeOf b 0 true).2 0x20 (timeOf b 0 true).1 (pcBody (timeOf b 0 true).2 n word none) =
      gapWritten (staged b (recordNow b 0 0x20 0 (timeOf b 0 true).1 (pcBody b n word none))) (timeOf b 0 true).1 := by
    rw [timeOf_boundary, tracePut_running hf, obsPut_staged hk (by omega) (by rw [hlost]; rfl)]
  dsimp only
  unfold pcOne
  rw [if_pos (by simp [Body.on, hk, h, hdue, hn, hcore, hat])]
  dsimp only
  rw [hput]
  have honly := gapWritten_only (staged b (recordNow b 0 0x20 0 (timeOf b 0 true).1 (pcBody b n word none))) (timeOf b 0 true).1
  generalize gapWritten (staged b (recordNow b 0 0x20 0 (timeOf b 0 true).1 (pcBody b n word none))) (timeOf b 0 true).1 = u at *
  have hnone : u.img.parts = [] := by
    rw [honly]
    exact hparts
  rw [hnone, honly]
  exact ⟨_, rfl, rfl, rfl, hlen, AMap.get_put_self .., rfl⟩

end

end Sys2Proof.Machine
end

section
/-!
SUPPORT. The lines of records (R483, R486), and the enables of tracing, watchpoints and rings (R481, R483, R484).
-/

namespace Sys2Proof.Machine

/-! ### A partial line (R486) -/

section
variable {b : Body} {d : Nat} {r : ObsRec}

theorem partialFlush_young (h : ∀ r ∈ b.obs.staged, r.dest = d → b.now < r.knot + 64) : partialFlush d b = b := by
  refine if_neg ?_
  rw [Bool.not_eq_true, List.any_eq_false]
  intro r hr
  obtain ⟨hmem, hdest⟩ := List.mem_filter.mp hr
  have hyoung := h r hmem (by simpa using hdest)
  simpa using hyoung

theorem padFor_fits {size p n : Nat} (h : p % size + n ≤ size) : padFor size p n = [] := if_neg (by omega)

/-- A record goes to the trace buffer after its padding: its bytes, the producer pointer, and the lines. -/
def traceWritten (b : Body) (pad : List Byte) (lines : Nat) (r : ObsRec) : Body :=
  (bufAdvance (bufWrite (bufWrite b 0 (bufProd b 0) pad) 0 (bufProd b 0 + pad.length) r.bytes) 0
    (bufProd b 0 + pad.length + r.bytes.length)).count R.OBS_WR_LINES.COUNT lines

/-- A record has left staging. -/
def unstaged (b : Body) (r : ObsRec) : Body := { b with obs := { b.obs with staged := b.obs.staged.erase r } }

/-- The lines that a record at the producer pointer of the trace buffer needs. -/
def traceLines (b : Body) (pad : List Byte) (r : ObsRec) : Nat :=
  spanLines (bufProd b 0) (bufProd b 0 + pad.length + r.bytes.length)

theorem obsWriteOne_padded {l : Nat} {bytes : List Byte} {k t : Nat} (hr : r = { dest := 0, knot := k, ty := t, bytes := bytes })
    (hstop : b.get R.OBS_TRACE_CTL.STOP_FULL = 0) (hsize : ¬bufSize b 0 < bytes.length)
    (hlines : ¬l < traceLines b (padFor (bufSize b 0) (bufProd b 0) bytes.length) r) :
    ∃ q, obsWriteOne true (b, { left := l }) r =
      (unstaged (traceWritten b (padFor (bufSize b 0) (bufProd b 0) bytes.length)
        (traceLines b (padFor (bufSize b 0) (bufProd b 0) bytes.length) r) r) r, q) := by
  subst hr
  have hon : ¬(0 = 0 ∧ b.on R.OBS_TRACE_CTL.STOP_FULL = true ∧ bufSize b 0 ≤ bufProd b 0) := by simp [Body.on, hstop]
  have hstuck : ¬(({ left := l } : ObsPass).stuck.contains 0 = true) := by simp
  have hholds : ¬(obsHolds b true { dest := 0, knot := k, ty := t, bytes := bytes } = true) := by simp [obsHolds]
  unfold obsWriteOne
  refine ⟨_, (if_neg hstuck).trans ((if_neg hsize).trans ((if_neg hon).trans
    ((if_neg hholds).trans ((if_neg hlines).trans (if_pos Nat.zero_lt_two)))))⟩

/-- The record's bytes are in the trace buffer. -/
def traceBytes (b : Body) (r : ObsRec) : Body :=
  { b with obs := { b.obs with trace := putBytes b.obs.trace (bufProd b 0 % bufSize b 0) r.bytes } }

/-- Without padding the record's bytes alone go to the trace buffer. -/
theorem traceWritten_only (lines : Nat) : RegsOnly (traceBytes b r) (traceWritten b [] lines r) :=
  (((RegsOnly.refl (traceBytes b r)).set R.OBS_TRACE_PTR.PROD (bufProd b 0 + 0 + r.bytes.length) 0 0).count
    R.OBS_TRACE_REC.COUNT 1 0 0).count R.OBS_WR_LINES.COUNT lines 0 0

theorem traceWritten_prod (lines : Nat) : (traceWritten b [] lines r).get R.OBS_TRACE_PTR.PROD =
    (bufProd b 0 + r.bytes.length) % 2 ^ 48 := by
  unfold traceWritten
  rw [Body.get_count_off (f := R.OBS_WR_LINES.COUNT) _ _ (by decide) (by decide) (by decide)]
  refine (Body.get_count_off (f := R.OBS_TRACE_REC.COUNT) _ _ (by decide) (by decide) (by decide)).trans ?_
  exact Body.get_set_self ..

/-- The one record of the trace buffer that has waited long enough is written (R486). -/
theorem partialFlush_writes (hstaged : b.obs.staged = [r]) (hdest : r.dest = 0) (hold : r.knot + 64 ≤ b.now)
    (hstop : b.get R.OBS_TRACE_CTL.STOP_FULL = 0) :
    let p := b.get R.OBS_TRACE_PTR.PROD
    let size := b.img.traceFrames * 65536
    0 < r.bytes.length → p % size + r.bytes.length ≤ size → p + r.bytes.length < 2 ^ 48 →
    spanLines p (p + r.bytes.length) ≤ b.obs.left →
    let t := partialFlush 0 b
    t.obs.staged = [] ∧ t.get R.OBS_TRACE_PTR.PROD = p + r.bytes.length ∧
      (∀ i, (h : i < r.bytes.length) → AMap.get 0 t.obs.trace (p % size + i) = r.bytes[i]) ∧
      (∀ a, a < p % size ∨ p % size + r.bytes.length ≤ a → AMap.get 0 t.obs.trace a = AMap.get 0 b.obs.trace a) ∧
      t.near = b.near ∧ t.far = b.far := by
  intro p size hpos hfit hwidth hlines
  dsimp only
  have hpad : padFor (bufSize b 0) (bufProd b 0) r.bytes.length = [] := padFor_fits hfit
  have hsize : ¬bufSize b 0 < r.bytes.length := Nat.not_lt.mpr ((Nat.le_add_left ..).trans hfit)
  have hneed : ¬b.obs.left < traceLines b [] r := Nat.not_lt.mpr hlines
  have hprod := traceWritten_prod (b := b) (r := r) (traceLines b [] r)
  have honly := traceWritten_only (b := b) (r := r) (traceLines b [] r)
  obtain ⟨q, hone⟩ := obsWriteOne_padded (b := b) (r := r) (l := b.obs.left) (k := r.knot) (t := r.ty) (bytes := r.bytes)
    (by obtain ⟨⟩ := r; cases hdest; rfl) hstop hsize (by rwa [hpad])
  rw [hpad] at hone
  have hflush : partialFlush 0 b = { unstaged (traceWritten b [] (traceLines b [] r) r) r with
      obs := { (unstaged (traceWritten b [] (traceLines b [] r) r) r).obs with left := q.left } } := by
    have hmine : b.obs.staged.filter (fun r => r.dest == 0) = [r] := by simp [hstaged, hdest]
    unfold partialFlush
    dsimp only
    rw [hmine, if_pos (by simpa using hold)]
    unfold obsWriteAll
    rw [hmine, List.foldl_cons, List.foldl_nil, hone]
  rw [hflush]
  generalize traceWritten b [] (traceLines b [] r) r = u at honly hprod
  have htrace : u.obs.trace = putBytes b.obs.trace (p % size) r.bytes := by rw [honly]; rfl
  have hleft : u.obs.staged = [r] := by rw [honly]; exact hstaged
  have hstores : u.near = b.near ∧ u.far = b.far := by rw [honly]; exact ⟨rfl, rfl⟩
  have hgone : u.obs.staged.erase r = [] := by rw [hleft]; simp
  obtain ⟨hnear, hfar⟩ := hstores
  refine ⟨hgone, hprod.trans (Nat.mod_eq_of_lt hwidth), fun i h => ?_, fun a ha => ?_, hnear, hfar⟩
  · exact (congrArg (fun m => AMap.get 0 m (p % size + i)) htrace).trans (putBytes_get_in h)
  · exact (congrArg (fun m => AMap.get 0 m a) htrace).trans (putBytes_get_out _ ha)

end

/-! ### Enables (R481, R483, R484) -/

section
variable {b : Body}

theorem traceEnNow_again (h : b.obs.tracing = true) : traceEnNow b 1 = b := by
  have hsame : { b with obs := { b.obs with tracing := true } } = b := by rw [← h]
  unfold traceEnNow
  rw [if_neg (by simp [h])]
  exact hsame

/-- Tracing starts from an empty buffer. -/
theorem traceEnNow_starts (h : b.obs.tracing = false) : let t := traceEnNow b 1
    t.obs.tracing = true ∧ t.get R.OBS_TRACE_PTR.PROD = 0 ∧ t.obs.trace = [] ∧
      t.obs.staged = b.obs.staged.filter (fun r => r.dest != 0) ∧ t.near = b.near := by
  unfold traceEnNow
  rw [if_pos (by simp [h])]
  exact ⟨rfl, Body.get_set_self (f := R.OBS_TRACE_PTR.PROD) _ 0 0 0, rfl, rfl, rfl⟩

theorem traceEnNow_stops : traceEnNow b 0 = { b with obs := { b.obs with tracing := false } } := by
  unfold traceEnNow
  rw [if_neg (by simp)]
  rfl

variable {w : Nat}

/-- A watchpoint on every partition needs the space of the addresses of the store (R481). -/
theorem watchEnable_wide (ha : b.get R.OBS_WP_CTL.ALLPID w ≠ 0) (hs : b.get R.OBS_WP_CTL.SPACE w = 0) :
    watchEnable b w true = b.set R.OBS_WP_CTL.EN 0 w := by
  unfold watchEnable
  simp [Body.on, ha, hs, b2n]

/-- A watchpoint that starts matches from the boundary after the next one (R482). -/
def watchArmed (w : Nat) (b : Body) : Body :=
  { b with obs := { b.obs with armed := AMap.put (0, 0) b.obs.armed w (b.now + 2, 0) } }.set R.OBS_WP_CTL.EN 1 w

section
variable (h : b.get R.OBS_WP_CTL.ALLPID w = 0 ∨ b.get R.OBS_WP_CTL.SPACE w ≠ 0)
include h

theorem watchEnable_again (he : b.get R.OBS_WP_CTL.EN w ≠ 0) : watchEnable b w true = b.set R.OBS_WP_CTL.EN 1 w := by
  unfold watchEnable
  rcases h with h | h <;> simp [Body.on, h, he, b2n]

theorem watchEnable_arms (he : b.get R.OBS_WP_CTL.EN w = 0) : watchEnable b w true = watchArmed w b := by
  unfold watchEnable watchArmed
  rcases h with h | h <;> simp [Body.on, h, he, b2n]

end

variable {pid ring sizeLog : Nat} {sync pc : Bool}

/-- What a ring needs to be enabled (R484). -/
def ringMay (b : Body) (pid ring sizeLog : Nat) : Bool :=
  decide (12 ≤ sizeLog) &&
  decide (2 ^ sizeLog ≤ (match b.img.rings.find? (fun r => r.1 == pid) with | some (_, f) => f | none => 0) * 65536) &&
  (match sgaLoc b (ring * 4096) with | some (r, _) => regionPinned b r | none => false) &&
  ringPlaced b pid (ring * 4096) (2 ^ sizeLog)

theorem ringMay_iff : ringMay b pid ring sizeLog = true ↔
    12 ≤ sizeLog ∧ ringPlaced b pid (ring * 4096) (2 ^ sizeLog) = true ∧
      (∃ f, b.img.rings.find? (fun r => r.1 == pid) = some (pid, f) ∧ 2 ^ sizeLog ≤ f * 65536) ∧
      ∃ r l, sgaLoc b (ring * 4096) = some (r, l) ∧ regionPinned b r = true := by
  have hframes : 2 ^ sizeLog ≤ (match b.img.rings.find? (fun r => r.1 == pid) with | some (_, f) => f | none => 0) * 65536 ↔
      ∃ f, b.img.rings.find? (fun r => r.1 == pid) = some (pid, f) ∧ 2 ^ sizeLog ≤ f * 65536 := by
    cases hf : b.img.rings.find? (fun r => r.1 == pid) with
    | none => simp
    | some e =>
      obtain ⟨p, f⟩ := e
      obtain rfl : p = pid := by simpa using List.find?_some hf
      simp
  have hpinned : (match sgaLoc b (ring * 4096) with | some (r, _) => regionPinned b r | none => false) = true ↔
      ∃ r l, sgaLoc b (ring * 4096) = some (r, l) ∧ regionPinned b r = true := by
    cases sgaLoc b (ring * 4096) with
    | none => simp
    | some e =>
      obtain ⟨r, l⟩ := e
      simp
  unfold ringMay
  rw [Bool.and_eq_true, Bool.and_eq_true, Bool.and_eq_true, decide_eq_true_eq, decide_eq_true_eq, hframes, hpinned]
  exact ⟨fun ⟨⟨⟨hlog, hf⟩, hp⟩, hplace⟩ => ⟨hlog, hplace, hf, hp⟩, fun ⟨hlog, hplace, hf, hp⟩ => ⟨⟨⟨hlog, hf⟩, hp⟩, hplace⟩⟩

theorem ringWrite_en : (ringWrite b pid true sync pc ring sizeLog).get R.OBS_RING.EN 0 pid = b2n (ringMay b pid ring sizeLog) := by
  have hbit (v : Bool) : b2n (true && v) % 2 ^ R.OBS_RING.EN.w = b2n v := by cases v <;> rfl
  exact (Body.get_set_self ..).trans (hbit (ringMay b pid ring sizeLog))

/-- The fields of a ring's register, but for its enable, before the ring's producer is noted. -/
def ringFields (b : Body) (pid : Nat) (sync pc : Bool) (ring sizeLog : Nat) : Body :=
  (((b.set R.OBS_RING.SYNC (b2n sync) 0 pid).set R.OBS_RING.PC (b2n pc) 0 pid).set R.OBS_RING.RING ring 0 pid).set
    R.OBS_RING.SIZE_LOG sizeLog 0 pid

theorem ringWrite_field {g : Fld} (h : R.OBS_RING.EN.key 0 pid ≠ g.key 0 pid) :
    (ringWrite b pid true sync pc ring sizeLog).get g 0 pid = (ringFields b pid sync pc ring sizeLog).get g 0 pid :=
  (Body.get_set_ne _ _ h).trans (Body.get_congr rfl)

/-- A ring takes the fields that are written to it (R484). -/
theorem ringWrite_writes (hring : ring < 2 ^ R.OBS_RING.RING.w) (hlog : sizeLog < 2 ^ R.OBS_RING.SIZE_LOG.w) :
    let t := ringWrite b pid true sync pc ring sizeLog
    t.get R.OBS_RING.RING 0 pid = ring ∧ t.get R.OBS_RING.SIZE_LOG 0 pid = sizeLog ∧ t.get R.OBS_RING.SYNC 0 pid = b2n sync ∧
      t.get R.OBS_RING.PC 0 pid = b2n pc := by
  have hne {f g : Fld} (hf : f.lo < 64) (hg : g.lo < 64) (h : f.lo ≠ g.lo) : f.key 0 pid ≠ g.key 0 pid := Fld.key_ne_lo hf hg h
  have hbit (v : Bool) : b2n v % 2 ^ 1 = b2n v := by cases v <;> rfl
  dsimp only
  rw [ringWrite_field (hne (by decide) (by decide) (by decide)), ringWrite_field (hne (by decide) (by decide) (by decide)),
    ringWrite_field (hne (by decide) (by decide) (by decide)), ringWrite_field (hne (by decide) (by decide) (by decide))]
  unfold ringFields
  refine ⟨?_, (Body.get_set_self ..).trans (Nat.mod_eq_of_lt hlog), ?_, ?_⟩
  · rw [Body.get_set_ne _ _ (hne (by decide) (by decide) (by decide))]
    exact (Body.get_set_self ..).trans (Nat.mod_eq_of_lt hring)
  · iterate 3 rw [Body.get_set_ne _ _ (hne (by decide) (by decide) (by decide))]
    exact (Body.get_set_self ..).trans (hbit sync)
  · iterate 2 rw [Body.get_set_ne _ _ (hne (by decide) (by decide) (by decide))]
    exact (Body.get_set_self ..).trans (hbit pc)

end

/-! ### The obligation -/

/-- Settles O58. -/
theorem observation : Obligations.Observation := by
  intro s hon
  dsimp only
  refine ⟨fun n d fl time body hn h hk => ?sample, fun n h => ?idle, fun v => markRec_joins, fun c hc => ?pc,
    fun d h => congrArg Host.Outcome.next ((live_on _ hon).trans (upd_unchanged (partialFlush_young h))),
    fun r hs hd hold hstop hpos hfit hwidth hlines => ⟨_, congrArg Host.Outcome.next (live_on _ hon),
      partialFlush_writes hs hd hold hstop hpos hfit hwidth hlines⟩,
    fun ho => congrArg Host.Outcome.next (onReg_on _ hon ho),
    fun b => ⟨traceEnNow_again, traceEnNow_starts, traceEnNow_stops⟩, fun w hw ho => ?watch,
    fun pid sync pc ring sizeLog ho hp hring hlog => ?ring⟩
  case sample =>
    have hexec : exec (.sampleTake n) s = .next (s.upd (sampleTake n)) := congrArg Host.Outcome.next (onOne_on _ hon hn)
    refine ⟨fun hroom hlost => ⟨_, hexec, ?_⟩, fun hroom => ⟨_, hexec, sampleTake_drops h hk hroom⟩⟩
    obtain ⟨hobs, honly, hgaps, hregs, hnear, hfar⟩ := sampleTake_joins h hk hroom hlost
    exact ⟨hobs, fun hgap => upd_congr (honly hgap), hgaps, hregs, hnear, hfar⟩
  case idle =>
    have hsame : s.upd (sampleTake n) = s := upd_unchanged (sampleTake_none h)
    have hone : onOne 16 n (low (sampleTake n)) s = s := by
      unfold onOne
      split
      · rfl
      · exact hsame
    exact congrArg Host.Outcome.next hone
  case pc =>
    have hexec : exec (.pcRecord c) s = .next (s.upd (fun b => pcOne b c (pcWord s c))) :=
      congrArg Host.Outcome.next (onOne_on _ hon hc)
    refine ⟨fun h => hexec.trans (congrArg _ (upd_unchanged (pcOne_again h))),
      fun hat h hk hdue hcore hf hparts hlost hgaps hroom => ?_⟩
    obtain ⟨r, hr⟩ := pcOne_joins (word := pcWord s c) hc hat h hk hdue hcore hf hparts hlost hgaps hroom
    exact ⟨_, r, hexec, hr⟩
  case watch =>
    have hexec {f : Body → Body} (h : watchEnable s.toBody w true = f s.toBody) : exec (.watchpointEnable w) s = .next (s.upd f) :=
      congrArg Host.Outcome.next ((onOne_on _ hon hw).trans ((onReg_on _ hon ho).trans (upd_congr h)))
    exact ⟨fun ha hs => hexec (watchEnable_wide ha hs),
      fun h => ⟨fun he => hexec (watchEnable_again h he), fun he => hexec (f := watchArmed w) (watchEnable_arms h he)⟩⟩
  case ring =>
    have hexec : exec (.ringEnable pid sync pc ring sizeLog) s = .next (s.upd (fun b => ringWrite b pid true sync pc ring sizeLog)) :=
      congrArg Host.Outcome.next (onPid_on _ hon ho hp)
    obtain ⟨hr, hl, hs, hc⟩ := ringWrite_writes (b := s.toBody) (pid := pid) (sync := sync) (pc := pc) hring hlog
    have hen := ringWrite_en (b := s.toBody) (pid := pid) (sync := sync) (pc := pc) (ring := ring) (sizeLog := sizeLog)
    refine ⟨_, hexec, hr, hl, hs, hc, fun h => ?_, fun f r h12 hplace hf hsize hloc hpin => ?_, rfl, rfl⟩
    · cases hmay : ringMay s.toBody pid ring sizeLog with
      | false => exact absurd (h.symm.trans (hen.trans (congrArg b2n hmay))) (by decide)
      | true => exact ringMay_iff.mp hmay
    · obtain ⟨e, he, rfl⟩ := Option.map_eq_some_iff.mp hloc
      have hmay := ringMay_iff.mpr ⟨h12, hplace, ⟨f, hf, hsize⟩, e.1, e.2, he, hpin⟩
      exact hen.trans (congrArg b2n hmay)

end Sys2Proof.Machine
end
